-- ==== Sys2Proof/Word.lean ====
section
/-!
DEFINITION. The word types of the model: bytes, 32-bit registers, 64-bit values and lane masks (R3, R9).
-/

namespace Sys2Proof

/-- A byte of memory. -/
abbrev Byte := BitVec 8
/-- The content of a 32-bit register. -/
abbrev Word := BitVec 32
/-- A 64-bit value: an instruction word, a pair of registers, an address before it is checked. -/
abbrev DWord := BitVec 64
/-- One bit for each of the 64 lanes of a wave: bit L stands for lane L (R9). -/
abbrev Lanes := BitVec 64

end Sys2Proof
end

