-- ==== Sys2Proof/Machine/Store.lean ====
section
/-!
DEFINITION. Plain-data tables: lists of (key, value) pairs with keys strictly rising. `AMap` holds only what is
present; `SMap` is a bit-vector table whose unlisted keys read as 0 and which lists no 0, so equal tables are equal
lists. `Memory` is an `SMap` of bytes (log entry 1).
-/

namespace Sys2Proof.Machine

/-- A table of the entries present, keys strictly rising. -/
abbrev AMap (α : Type) := List (Nat × α)

/-- The entry of a key. -/
def AMap.find {α : Type} : AMap α → Nat → Option α
  | [], _ => none
  | (k, v) :: t, n => if n = k then some v else AMap.find t n

/-- Writes the entry of a key, keeping the order. -/
def AMap.put {α : Type} : AMap α → Nat → α → AMap α
  | [], n, v => [(n, v)]
  | (k, u) :: t, n, v =>
    if n < k then (n, v) :: (k, u) :: t
    else if n = k then (n, v) :: t
    else (k, u) :: AMap.put t n v

/-- Removes the entry of a key. -/
def AMap.del {α : Type} : AMap α → Nat → AMap α
  | [], _ => []
  | (k, u) :: t, n => if n = k then AMap.del t n else (k, u) :: AMap.del t n

/-- The entry of a key, or a default where none is present. -/
def AMap.getD {α : Type} (m : AMap α) (n : Nat) (d : α) : α := (AMap.find m n).getD d

/-- Applies a function to an entry that is present. -/
def AMap.adjust {α : Type} (m : AMap α) (n : Nat) (f : α → α) : AMap α :=
  match AMap.find m n with
  | some v => AMap.put m n (f v)
  | none => m

/-- Keys strictly rising, all above a bound. -/
def AMap.sortedFrom {α : Type} : Nat → AMap α → Bool
  | _, [] => true
  | b, (k, _) :: t => decide (b ≤ k) && AMap.sortedFrom (k + 1) t

/-- Keys strictly rising. -/
def AMap.sorted {α : Type} (m : AMap α) : Bool := AMap.sortedFrom 0 m

/-- A table of `w`-bit values, unlisted keys reading 0. -/
abbrev SMap (w : Nat) := List (Nat × BitVec w)

/-- The value of a key. -/
def SMap.get {w : Nat} (m : SMap w) (n : Nat) : BitVec w := AMap.getD m n 0

/-- Writes the value of a key; writing 0 removes the entry. -/
def SMap.set {w : Nat} (m : SMap w) (n : Nat) (v : BitVec w) : SMap w :=
  if v = 0 then AMap.del m n else AMap.put m n v

/-- The canonical form: keys strictly rising, no entry 0. -/
def SMap.wf {w : Nat} (m : SMap w) : Bool :=
  AMap.sorted m && m.all (fun e => e.2 != 0)

/-- Memory: bytes by physical address; an unlisted byte reads 0 (log entry 1). -/
abbrev Memory := List Host.Cell

/-- The byte at an address. -/
def Memory.read (m : Memory) (a : Nat) : Byte := SMap.get m a

/-- Writes the byte at an address. -/
def Memory.write (m : Memory) (a : Nat) (v : Byte) : Memory := SMap.set m a v

/-- The canonical form of a memory. -/
def Memory.wf (m : Memory) : Bool := SMap.wf m

/-- The little-endian value of `n` bytes (R73), read by a byte reader from an address. -/
def leValue (rd : Nat → Byte) (a : Nat) : Nat → Nat
  | 0 => 0
  | n + 1 => (rd a).toNat + 256 * leValue rd (a + 1) n

/-- The `n` bytes of a value, least significant first (R73). -/
def leBytes (v : Nat) : Nat → List Byte
  | 0 => []
  | n + 1 => BitVec.ofNat 8 v :: leBytes (v / 256) n

/-- The value of a list of bytes, least significant first. -/
def bytesValue : List Byte → Nat
  | [] => 0
  | b :: t => b.toNat + 256 * bytesValue t

/-- The values below a bound, by structural recursion, ascending. -/
def upTo : Nat → List Nat
  | 0 => []
  | n + 1 => upTo n ++ [n]

/-- The 64 lanes, ascending. -/
def laneList : List Nat :=
  [0, 1, 2, 3, 4, 5, 6, 7, 8, 9, 10, 11, 12, 13, 14, 15, 16, 17, 18, 19, 20, 21, 22, 23, 24, 25, 26, 27, 28, 29, 30,
   31, 32, 33, 34, 35, 36, 37, 38, 39, 40, 41, 42, 43, 44, 45, 46, 47, 48, 49, 50, 51, 52, 53, 54, 55, 56, 57, 58, 59,
   60, 61, 62, 63]

/-- The lanes set in a mask, ascending. -/
def lanesOf (m : Lanes) : List Nat := laneList.filter (fun l => m.getLsbD l)

/-- The mask of one lane. -/
def laneBit (l : Nat) : Lanes := BitVec.ofNat 64 (2 ^ l)

/-- The mask of the lanes that a test holds of. -/
def maskOf (p : Nat → Bool) : Lanes := laneList.foldl (fun m l => if p l then m ||| laneBit l else m) 0

/-- Bits [hi:lo] of a number. -/
def natBits (v hi lo : Nat) : Nat := (v / 2 ^ lo) % 2 ^ (hi + 1 - lo)

end Sys2Proof.Machine
end

