-- ==== Sys2Proof/Syntax.lean ====
section
/-!
DEFINITION. The operations of the VL-24: one constructor of `Instr` for every row of the spec's table of operations
and events, with the operand types of the formats (R42 to R58, R298). Meaning is in Machine/ alone.
-/

namespace Sys2Proof

/-- A vector register v0-v1023. -/
abbrev VReg := BitVec 10
/-- A scalar register s0-s255. -/
abbrev SReg := BitVec 8
/-- A mask register m0-m15. -/
abbrev MReg := BitVec 4
/-- A message port n0-n7. -/
abbrev Port := BitVec 3

/-- A scalar operand that may name a message port (R45, R98). -/
inductive SOp where
  | s (r : SReg)
  | n (p : Port)
deriving DecidableEq, Repr

/-- The control header of a word (R36): STALL, WAIT and SETF. -/
structure Hdr where
  stall : BitVec 3
  wait : BitVec 12
  setf : BitVec 4
deriving DecidableEq, Repr

/-- The header and predicate of a full word (R42): NEG and PM. -/
structure Ctl where
  h : Hdr
  neg : Bool
  pm : BitVec 3
deriving DecidableEq, Repr

/-- Rounding modes of the prefix RND field (R56). -/
inductive Rnd where
  | rne | rtz | rdn | rup | rna | sto | dyn
deriving DecidableEq, Repr

/-- The fields of a prefix word (R56). -/
structure Pfx where
  mask : MReg
  neg : Bool
  zero : Bool
  rnd : Rnd
  ftz : Bool
  sat : Bool
  c : VReg
deriving DecidableEq, Repr

/-- Integer compares (R47). -/
inductive IntCC where
  | eq | ne | lt | le | gt | ge | ltu | leu | gtu | geu
deriving DecidableEq, Repr

/-- Float compares (R47). -/
inductive FloatCC where
  | oeq | une | olt | ole | ogt | oge | ord | uno
deriving DecidableEq, Repr

/-- Scopes of an ordering operation (R49, R329). -/
inductive Scope where
  | wave | group | cohort | die | device | system
deriving DecidableEq, Repr

/-- ORD of a load (R49). -/
inductive LdOrd where
  | plain | acquire | relaxed
deriving DecidableEq, Repr

/-- ORD of a store (R49). -/
inductive StOrd where
  | plain | release | relaxed
deriving DecidableEq, Repr

/-- ORD of a read-modify-write (R49). -/
inductive RmwOrd where
  | relaxed | acquire | release | acqRel
deriving DecidableEq, Repr

/-- CH of a memory word (R49, R148). -/
inductive Chan where
  | dflt | stream | roPath | l2Direct
deriving DecidableEq, Repr

/-- FKIND of a fence (R50). -/
inductive FenceKind where
  | acquire | release | acqRel
deriving DecidableEq, Repr

/-- OPC of `qop` (R48). -/
inductive QOpc where
  | and | or | xor | andn
deriving DecidableEq, Repr

/-- The operations of `vred` and `vscan` (R140). -/
inductive RedOp where
  | add | min | max | minu | maxu | and | or | xor | fadd | fmin | fmax
deriving DecidableEq, Repr

/-- Formats with a cvt code (R71). -/
inductive Fmt where
  | i8 | i16 | i32 | n8 | n16 | n32 | f32 | bf16 | f16 | e4m3 | e5m2 | blk4 | blk8
deriving DecidableEq, Repr

/-- The target of `baton.pass` (R213). -/
inductive PassTarget where
  | free
  | wave (w : BitVec 4)
deriving DecidableEq, Repr

/-- The plain reads of `mquery`, SUB 0 to 3 (R225). -/
inductive MQuery where
  | baton | outstanding | queued | flags
deriving DecidableEq, Repr

/-- A timeline selector (R272). -/
inductive Timeline where
  | copy | trav
  | nmv (stack : BitVec 5)
deriving DecidableEq, Repr

/-- The values `rquery` reads (R312). -/
inductive RQuery where
  | inflight | outstanding | bound
deriving DecidableEq, Repr

/-- The slot operations of a dual word (R53). -/
inductive Slot where
  | vmov | vadd | vsub | vand | vor | vxor | vmin | vmax | vminu | vmaxu | vmul | vshl | vshr | vsra
  | fadd | fsub | fmul | fmin | fmax | hadd | hmul | badd | bmul | fabs | fneg | vnot | cvtF32I32 | cvtI32F32
deriving DecidableEq, Repr

/-- The conditions of a walk `brc` (R299). -/
inductive WalkCond where
  | al | z | h | m | l
deriving DecidableEq, Repr

/-- SEL of a walk `sett` (R299). -/
inductive SetSel where
  | tmax | term
deriving DecidableEq, Repr

/-- What an access does: the page permission it needs (R189). -/
inductive Access where
  | load | store | fetch
deriving DecidableEq, Repr

/-- Read-modify-write operations of the atomics (R153) and of the agents outside the cores. -/
inductive AtomOp where
  | add | min | max | minu | maxu | and | or | xor | xchg
deriving DecidableEq, Repr

/-- One memory operation of an Efler hart, at a physical address (R339). `wide` is 8 bytes, else 4. -/
inductive EflerOp where
  | load (pa : Nat) (wide : Bool)
  | store (pa : Nat) (wide : Bool) (value : BitVec 64)
  | amo (pa : Nat) (wide : Bool) (op : AtomOp) (value : BitVec 64) (aq rl : Bool)
  | lr (pa : Nat) (wide : Bool) (aq : Bool)
  | sc (pa : Nat) (wide : Bool) (value : BitVec 64) (rl : Bool)
  | fence (pr pw sr sw : Bool)
deriving DecidableEq, Repr

/-- A PCI Express AtomicOp (R410). -/
inductive HostAtomicOp where
  | fetchAdd (v : BitVec 64)
  | swap (v : BitVec 64)
  | cas (cmp new : BitVec 64)
deriving DecidableEq, Repr

/-- What a peer package asks of this one (R412). -/
inductive ExtKind where
  | read (n : Nat)
  | write (bytes : List Byte)
  | atomic (wide : Bool) (op : AtomOp) (v : BitVec 64)
  | cas (wide : Bool) (cmp new : BitVec 64)
deriving DecidableEq, Repr

/-- A request arriving from a peer package (R412): the sender, a physical address of this package, the operation. -/
structure ExtReq where
  peer : BitVec 9
  pa : Nat
  kind : ExtKind
deriving DecidableEq, Repr

/-- The links an SPDM request may arrive by (R421). -/
inductive SpdmPath where
  | doe | mctpSmbus | mctpPcie
deriving DecidableEq, Repr

/-- A firmware image as the boot flash or the physical function offers it (R420): the bytes that the digest covers
(the image with its signature field excluded), the signature, the public key and the security version. -/
structure FwImage where
  body : List Byte
  signature : Nat
  modulus : Nat
  exponent : Nat
  version : Nat
deriving DecidableEq, Repr

/-- The fields of a context descriptor (R382). -/
structure CtxDesc where
  ctlw : BitVec 32
  pasid : BitVec 20
  image : BitVec 64
  s1root : BitVec 64
  msave : BitVec 64
  cohrec : BitVec 64
  mbox : BitVec 64
  mbhart : BitVec 4
  mbdie : BitVec 2
  part : BitVec 8
deriving DecidableEq, Repr

/-- What a partition is created with (R389): its clusters (12·die + cluster), its stage-2 root, its memory range, the
display heads (8·die + head), and a bank-mode word when the creator gives one. -/
structure PartSpec where
  clusters : List Nat
  s2root : BitVec 64
  memBase : Nat
  memLen : Nat
  heads : List Nat
  bankWord : Option (BitVec 32)
deriving DecidableEq, Repr


/-- Every row of the table of operations and events: instruction words (with their control header `c`),
the dual word, the prefixed pair, the walk micro-operations, and the machine's events. -/
inductive Instr where
  /-- WNOP (R299). Walk micro-operation that does nothing. -/
  | wnop
  /-- LDN (R299). Clears transient state and fetches the node at NODE. -/
  | ldn
  /-- TBOX (R301). Tests the ray against the node's child boxes into the child list. -/
  | tbox
  /-- SORT (R299). Sorts the child list by entry distance. -/
  | wSort
  /-- PUSHC (R299). Pushes the child list onto the ray stack. -/
  | pushc
  /-- NEXT (R299). Moves to the first child and pushes the rest. -/
  | wNext
  /-- TTRI (R302). Tests the leaf's triangles into a candidate hit. -/
  | ttri
  /-- HIT (R299). Commits the candidate hit and ends the walk under TERM. -/
  | wHit
  /-- POP (R299). Pops a node entry or reports an empty stack or a marker. -/
  | wPop
  /-- BRC (R299). Branches in the walk program on a condition. -/
  | brc (cond : WalkCond) (neg : Bool) (target : BitVec 6)
  /-- CALLOUT (R299). Suspends the ray for software with a callout code. -/
  | callout (code : BitVec 8)
  /-- DONE (R299). Suspends the ray as done. -/
  | wDone
  /-- XFORM (R303). Enters an instance, saving the ray and transforming it to object space. -/
  | xform (mat : BitVec 9) (ident : BitVec 9) (child : BitVec 9)
  /-- IPOP (R303). Leaves an instance, restoring the ray from the stack. -/
  | ipop
  /-- CULL (R299). Removes children whose entry distance exceeds the limit. -/
  | cull
  /-- SETT (R299). Sets TMAX to the limit or sets TERM. -/
  | sett (sel : SetSel) (value : Bool)
  /-- DUAL_WORD (R52). Issues two vector slot operations on v0-v255 under one header, reading all operands before either writes. -/
  | dualWord (h : Hdr) (opH : Slot) (dH aH : BitVec 8) (opL : Slot) (dL aL : BitVec 8) (p : Bool)
  /-- PREFIXED_PAIR (R57). Issues a prefix word and its following full word as one word with the prefix's mask, zeroing, rounding and fourth operand. -/
  | prefixedPair (x : Pfx) (i : Instr)
  /-- NOP (R97). Does nothing and completes one cycle after issue. -/
  | nop (c : Ctl)
  /-- BRA (R100). Moves the whole run to PC + OFF when the tested condition bit, inverted by QN, is 1. -/
  | bra (c : Ctl) (qc : BitVec 4) (qn : Bool) (off : BitVec 25)
  /-- CALL (R101). Writes P + 1 into the link scalar and jumps by the immediate. -/
  | call (c : Ctl) (d : SReg) (i : BitVec 20)
  /-- JR (R101). Jumps the run to the word index held in a scalar. -/
  | jr (c : Ctl) (a : SReg)
  /-- LOOP (R102). Decrements the counter scalar and branches while it is non-zero. -/
  | loop (c : Ctl) (d : SReg) (i : BitVec 20)
  /-- SPLIT (R103). Sends the enabled threads selected by a mask to the target and the rest of the run to the next word. -/
  | split (c : Ctl) (m : BitVec 4) (mn : Bool) (off : BitVec 25)
  /-- JMPV (R104). Gives each enabled thread the target PC held in its own vector register. -/
  | jmpv (c : Ctl) (a : VReg)
  /-- SYNC (R105). Makes the run's threads syncing at the word until R19 releases them. -/
  | sync (c : Ctl)
  /-- EXIT (R106). Makes every thread of the run exited, while work it issued still completes. -/
  | exit (c : Ctl)
  /-- YIELD (R107). Moves the run to the next word and keeps the wave out of the next cycle's choice if another wave is eligible. -/
  | yield (c : Ctl)
  /-- SLEEP (R108). Puts the run to sleep for a count of die cycles. -/
  | sleep (c : Ctl) (a : SReg) (i : BitVec 10)
  /-- TRAP (R109). Raises a user-handled software trap on the whole run with the given code. -/
  | trap (c : Ctl) (code : BitVec 16)
  /-- UPCALL (R110). Posts a request to the resident kernel on a channel and parks the run until the reply is written. -/
  | upcall (c : Ctl) (d : SReg) (a : SReg) (chan : BitVec 6)
  /-- ELECT (R112). Writes a one-hot mask of the lowest enabled thread. -/
  | elect (c : Ctl) (d : MReg)
  /-- SETPRIO (R113). Sets sr.prio to the immediate clamped to the queue ceiling. -/
  | setprio (c : Ctl) (i : BitVec 8)
  /-- QANY (R114). Sets a condition bit when any enabled thread's mask bit is set. -/
  | qany (c : Ctl) (qd : BitVec 4) (a : MReg)
  /-- QALL (R114). Sets a condition bit when every enabled thread's mask bit is set. -/
  | qall (c : Ctl) (qd : BitVec 4) (a : MReg)
  /-- QNONE (R114). Sets a condition bit when no enabled thread's mask bit is set. -/
  | qnone (c : Ctl) (qd : BitVec 4) (a : MReg)
  /-- QCMP (R115). Compares two scalars into a condition bit. -/
  | qcmp (c : Ctl) (qd : BitVec 4) (cc : IntCC) (a : SReg) (b : SReg)
  /-- QCMPI (R115). Compares a scalar with a sign-extended immediate into a condition bit. -/
  | qcmpi (c : Ctl) (qd : BitVec 4) (cc : IntCC) (a : SReg) (i : BitVec 10)
  /-- QOP (R116). Combines two condition bits with and, or, xor or and-not. -/
  | qop (c : Ctl) (qd : BitVec 4) (qa : BitVec 4) (qb : BitVec 4) (opc : QOpc)
  /-- SRD (R117). Reads a wave-scope special register into a scalar. -/
  | srd (c : Ctl) (d : SReg) (spec : BitVec 12)
  /-- SWR (R117). Writes a scalar to a writable special register through its write filter. -/
  | swr (c : Ctl) (a : SReg) (spec : BitVec 12)
  /-- VSRD (R117). Reads a special register into a vector register, per lane. -/
  | vsrd (c : Ctl) (d : VReg) (spec : BitVec 12)
  /-- SADD (R97). Scalar add modulo 2^32. -/
  | sadd (c : Ctl) (d : SOp) (a : SOp) (b : SOp)
  /-- SSUB (R97). Scalar subtract. -/
  | ssub (c : Ctl) (d : SOp) (a : SOp) (b : SOp)
  /-- SMUL (R97). Low 32 bits of the scalar product. -/
  | smul (c : Ctl) (d : SOp) (a : SOp) (b : SOp)
  /-- SMULH (R97). High 32 bits of the signed scalar product. -/
  | smulh (c : Ctl) (d : SOp) (a : SOp) (b : SOp)
  /-- SDIV (R119). Signed scalar quotient, never trapping. -/
  | sdiv (c : Ctl) (d : SOp) (a : SOp) (b : SOp)
  /-- SDIVU (R119). Unsigned scalar quotient, never trapping. -/
  | sdivu (c : Ctl) (d : SOp) (a : SOp) (b : SOp)
  /-- SREM (R119). Signed scalar remainder with the sign of the dividend. -/
  | srem (c : Ctl) (d : SOp) (a : SOp) (b : SOp)
  /-- SREMU (R119). Unsigned scalar remainder. -/
  | sremu (c : Ctl) (d : SOp) (a : SOp) (b : SOp)
  /-- SAND (R97). Scalar bitwise and. -/
  | sand (c : Ctl) (d : SOp) (a : SOp) (b : SOp)
  /-- SOR (R97). Scalar bitwise or. -/
  | sor (c : Ctl) (d : SOp) (a : SOp) (b : SOp)
  /-- SXOR (R97). Scalar bitwise xor. -/
  | sxor (c : Ctl) (d : SOp) (a : SOp) (b : SOp)
  /-- SSHL (R97). Scalar shift left by b[4:0]. -/
  | sshl (c : Ctl) (d : SOp) (a : SOp) (b : SOp)
  /-- SSHR (R97). Scalar logical shift right. -/
  | sshr (c : Ctl) (d : SOp) (a : SOp) (b : SOp)
  /-- SSRA (R97). Scalar arithmetic shift right. -/
  | ssra (c : Ctl) (d : SOp) (a : SOp) (b : SOp)
  /-- SMIN (R97). Signed scalar minimum. -/
  | smin (c : Ctl) (d : SOp) (a : SOp) (b : SOp)
  /-- SMAX (R97). Signed scalar maximum. -/
  | smax (c : Ctl) (d : SOp) (a : SOp) (b : SOp)
  /-- SMINU (R97). Unsigned scalar minimum. -/
  | sminu (c : Ctl) (d : SOp) (a : SOp) (b : SOp)
  /-- SMAXU (R97). Unsigned scalar maximum. -/
  | smaxu (c : Ctl) (d : SOp) (a : SOp) (b : SOp)
  /-- SADDI (R97). Scalar add of a sign-extended immediate. -/
  | saddi (c : Ctl) (d : SOp) (a : SOp) (i : BitVec 10)
  /-- SANDI (R97). Scalar and with an immediate. -/
  | sandi (c : Ctl) (d : SOp) (a : SOp) (i : BitVec 10)
  /-- SORI (R97). Scalar or with an immediate. -/
  | sori (c : Ctl) (d : SOp) (a : SOp) (i : BitVec 10)
  /-- SXORI (R97). Scalar xor with an immediate. -/
  | sxori (c : Ctl) (d : SOp) (a : SOp) (i : BitVec 10)
  /-- SSHLI (R97). Scalar shift left by an immediate. -/
  | sshli (c : Ctl) (d : SOp) (a : SOp) (i : BitVec 5)
  /-- SSHRI (R97). Scalar logical shift right by an immediate. -/
  | sshri (c : Ctl) (d : SOp) (a : SOp) (i : BitVec 5)
  /-- SSRAI (R97). Scalar arithmetic shift right by an immediate. -/
  | ssrai (c : Ctl) (d : SOp) (a : SOp) (i : BitVec 5)
  /-- SLI (R97). Loads a sign-extended 20-bit immediate into a scalar. -/
  | sli (c : Ctl) (d : SOp) (i : BitVec 20)
  /-- SLUI (R120). Replaces bits [31:12] of a scalar with the immediate and keeps bits [11:0]. -/
  | slui (c : Ctl) (d : SOp) (i : BitVec 20)
  /-- SMOV (R97). Copies a scalar. -/
  | smov (c : Ctl) (d : SOp) (a : SOp)
  /-- SADDP (R120). 64-bit add of even scalar pairs. -/
  | saddp (c : Ctl) (d : SReg) (a : SReg) (b : SReg)
  /-- SCLZ (R97). Counts leading zeros of a scalar. -/
  | sclz (c : Ctl) (d : SOp) (a : SOp)
  /-- SPOPC (R97). Counts set bits of a scalar. -/
  | spopc (c : Ctl) (d : SOp) (a : SOp)
  /-- SBFE (R120). Extracts an unsigned bit field from a scalar. -/
  | sbfe (c : Ctl) (d : SOp) (a : SOp) (len : BitVec 5) (pos : BitVec 5)
  /-- MAND (R121). Mask and. -/
  | mand (c : Ctl) (d : MReg) (a : MReg) (b : MReg)
  /-- MOR (R121). Mask or. -/
  | mor (c : Ctl) (d : MReg) (a : MReg) (b : MReg)
  /-- MXOR (R121). Mask xor. -/
  | mxor (c : Ctl) (d : MReg) (a : MReg) (b : MReg)
  /-- MANDN (R121). Mask and-not. -/
  | mandn (c : Ctl) (d : MReg) (a : MReg) (b : MReg)
  /-- MNOT (R121). Mask not. -/
  | mnot (c : Ctl) (d : MReg) (a : MReg)
  /-- MFROMS (R121). Builds a mask from an even scalar pair. -/
  | mfroms (c : Ctl) (d : MReg) (a : SReg)
  /-- MTOS (R121). Writes a mask into an even scalar pair. -/
  | mtos (c : Ctl) (d : SReg) (a : MReg)
  /-- MPOPC (R121). Counts the set bits of a mask into a scalar. -/
  | mpopc (c : Ctl) (d : SReg) (a : MReg)
  /-- MFFS (R121). Writes the index of a mask's lowest set bit, or 64. -/
  | mffs (c : Ctl) (d : SReg) (a : MReg)
  /-- VADD (R125). Per-lane integer add, saturating under SAT. -/
  | vadd (c : Ctl) (d : VReg) (a : VReg) (b : VReg)
  /-- VSUB (R125). Per-lane integer subtract. -/
  | vsub (c : Ctl) (d : VReg) (a : VReg) (b : VReg)
  /-- VMUL (R125). Per-lane low 32 bits of the product. -/
  | vmul (c : Ctl) (d : VReg) (a : VReg) (b : VReg)
  /-- VMULH (R125). Per-lane high half of the signed product. -/
  | vmulh (c : Ctl) (d : VReg) (a : VReg) (b : VReg)
  /-- VMULHU (R125). Per-lane high half of the unsigned product. -/
  | vmulhu (c : Ctl) (d : VReg) (a : VReg) (b : VReg)
  /-- VMAD (R125). Per-lane multiply-add with the addend c. -/
  | vmad (c : Ctl) (d : VReg) (a : VReg) (b : VReg)
  /-- VAND (R125). Per-lane bitwise and. -/
  | vand (c : Ctl) (d : VReg) (a : VReg) (b : VReg)
  /-- VOR (R125). Per-lane bitwise or. -/
  | vor (c : Ctl) (d : VReg) (a : VReg) (b : VReg)
  /-- VXOR (R125). Per-lane bitwise xor. -/
  | vxor (c : Ctl) (d : VReg) (a : VReg) (b : VReg)
  /-- VSHL (R125). Per-lane shift left. -/
  | vshl (c : Ctl) (d : VReg) (a : VReg) (b : VReg)
  /-- VSHR (R125). Per-lane logical shift right. -/
  | vshr (c : Ctl) (d : VReg) (a : VReg) (b : VReg)
  /-- VSRA (R125). Per-lane arithmetic shift right. -/
  | vsra (c : Ctl) (d : VReg) (a : VReg) (b : VReg)
  /-- VMIN (R125). Per-lane signed minimum. -/
  | vmin (c : Ctl) (d : VReg) (a : VReg) (b : VReg)
  /-- VMAX (R125). Per-lane signed maximum. -/
  | vmax (c : Ctl) (d : VReg) (a : VReg) (b : VReg)
  /-- VMINU (R125). Per-lane unsigned minimum. -/
  | vminu (c : Ctl) (d : VReg) (a : VReg) (b : VReg)
  /-- VMAXU (R125). Per-lane unsigned maximum. -/
  | vmaxu (c : Ctl) (d : VReg) (a : VReg) (b : VReg)
  /-- VADDI (R125). Per-lane add of an immediate. -/
  | vaddi (c : Ctl) (d : VReg) (a : VReg) (i : BitVec 10)
  /-- VANDI (R125). Per-lane and with an immediate. -/
  | vandi (c : Ctl) (d : VReg) (a : VReg) (i : BitVec 10)
  /-- VORI (R125). Per-lane or with an immediate. -/
  | vori (c : Ctl) (d : VReg) (a : VReg) (i : BitVec 10)
  /-- VXORI (R125). Per-lane xor with an immediate. -/
  | vxori (c : Ctl) (d : VReg) (a : VReg) (i : BitVec 10)
  /-- VSHLI (R125). Per-lane shift left by an immediate. -/
  | vshli (c : Ctl) (d : VReg) (a : VReg) (i : BitVec 5)
  /-- VSHRI (R125). Per-lane logical shift right by an immediate. -/
  | vshri (c : Ctl) (d : VReg) (a : VReg) (i : BitVec 5)
  /-- VSRAI (R125). Per-lane arithmetic shift right by an immediate. -/
  | vsrai (c : Ctl) (d : VReg) (a : VReg) (i : BitVec 5)
  /-- VLI (R125). Loads a sign-extended immediate into each enabled lane. -/
  | vli (c : Ctl) (d : VReg) (i : BitVec 20)
  /-- VMOV (R125). Per-lane register copy. -/
  | vmov (c : Ctl) (d : VReg) (a : VReg)
  /-- VMOVS (R126). Copies a scalar into every enabled lane. -/
  | vmovs (c : Ctl) (d : VReg) (a : SReg)
  /-- VADDP (R126). Per-lane 64-bit add of even register pairs. -/
  | vaddp (c : Ctl) (d : VReg) (a : VReg) (b : VReg)
  /-- VCLZ (R125). Per-lane count of leading zeros. -/
  | vclz (c : Ctl) (d : VReg) (a : VReg)
  /-- VPOPC (R125). Per-lane count of set bits. -/
  | vpopc (c : Ctl) (d : VReg) (a : VReg)
  /-- VBFE (R126). Per-lane unsigned bit-field extract. -/
  | vbfe (c : Ctl) (d : VReg) (a : VReg) (len : BitVec 5) (pos : BitVec 5)
  /-- VSEL (R127). Writes every run lane with a or b as the predicate mask selects. -/
  | vsel (c : Ctl) (d : VReg) (a : VReg) (b : VReg)
  /-- VCMP (R128). Per-lane integer compare of two registers into a mask. -/
  | vcmp (c : Ctl) (md : BitVec 4) (cc : IntCC) (a : VReg) (b : VReg)
  /-- VCMPI (R128). Per-lane integer compare with an immediate into a mask. -/
  | vcmpi (c : Ctl) (md : BitVec 4) (cc : IntCC) (a : VReg) (i : BitVec 10)
  /-- VDOT4 (R125). Per-lane dot product of four signed bytes plus the addend. -/
  | vdot4 (c : Ctl) (d : VReg) (a : VReg) (b : VReg)
  /-- FADD (R129). Per-lane f32 add, rounded once. -/
  | fadd (c : Ctl) (d : VReg) (a : VReg) (b : VReg)
  /-- FSUB (R129). Per-lane f32 subtract. -/
  | fsub (c : Ctl) (d : VReg) (a : VReg) (b : VReg)
  /-- FMUL (R129). Per-lane f32 multiply. -/
  | fmul (c : Ctl) (d : VReg) (a : VReg) (b : VReg)
  /-- FFMA (R129). Per-lane fused f32 multiply-add with one rounding. -/
  | ffma (c : Ctl) (d : VReg) (a : VReg) (b : VReg)
  /-- FMIN (R130). Per-lane f32 minimum with NaN and signed-zero rules. -/
  | fmin (c : Ctl) (d : VReg) (a : VReg) (b : VReg)
  /-- FMAX (R130). Per-lane f32 maximum. -/
  | fmax (c : Ctl) (d : VReg) (a : VReg) (b : VReg)
  /-- FABS (R131). Per-lane absolute value. -/
  | fabs (c : Ctl) (d : VReg) (a : VReg)
  /-- FNEG (R131). Per-lane negation. -/
  | fneg (c : Ctl) (d : VReg) (a : VReg)
  /-- FCPSGN (R131). Per-lane magnitude of a with the sign bit of b. -/
  | fcpsgn (c : Ctl) (d : VReg) (a : VReg) (b : VReg)
  /-- FRND (R131). Rounds each lane to an integral f32 in the word's mode. -/
  | frnd (c : Ctl) (d : VReg) (a : VReg)
  /-- FCMP (R132). Per-lane float compare into a mask. -/
  | fcmp (c : Ctl) (md : BitVec 4) (cc : FloatCC) (a : VReg) (b : VReg)
  /-- HADD (R133). Packed f16 add. -/
  | hadd (c : Ctl) (d : VReg) (a : VReg) (b : VReg)
  /-- HMUL (R133). Packed f16 multiply. -/
  | hmul (c : Ctl) (d : VReg) (a : VReg) (b : VReg)
  /-- HFMA (R133). Packed f16 fused multiply-add. -/
  | hfma (c : Ctl) (d : VReg) (a : VReg) (b : VReg)
  /-- BADD (R133). Packed bf16 add. -/
  | badd (c : Ctl) (d : VReg) (a : VReg) (b : VReg)
  /-- BMUL (R133). Packed bf16 multiply. -/
  | bmul (c : Ctl) (d : VReg) (a : VReg) (b : VReg)
  /-- BFMA (R133). Packed bf16 fused multiply-add. -/
  | bfma (c : Ctl) (d : VReg) (a : VReg) (b : VReg)
  /-- FDOT2H (R134). Two-element f16 dot product accumulated exactly into f32. -/
  | fdot2h (c : Ctl) (d : VReg) (a : VReg) (b : VReg)
  /-- FDOT2B (R134). Two-element bf16 dot product accumulated exactly into f32. -/
  | fdot2b (c : Ctl) (d : VReg) (a : VReg) (b : VReg)
  /-- CVT (R135). Converts each lane between the formats named by the cvt codes. -/
  | cvt (c : Ctl) (d : VReg) (a : VReg) (dst : Fmt) (src : Fmt)
  /-- PACKH (R137). Rounds two f32 values into a packed f16 pair. -/
  | packh (c : Ctl) (d : VReg) (a : VReg) (b : VReg)
  /-- PACKB (R137). Rounds two f32 values into a packed bf16 pair. -/
  | packb (c : Ctl) (d : VReg) (a : VReg) (b : VReg)
  /-- FRCP (R138). Correctly rounded reciprocal. -/
  | frcp (c : Ctl) (d : VReg) (a : VReg)
  /-- FRSQ (R138). Correctly rounded reciprocal square root. -/
  | frsq (c : Ctl) (d : VReg) (a : VReg)
  /-- FSQRT (R138). Correctly rounded square root. -/
  | fsqrt (c : Ctl) (d : VReg) (a : VReg)
  /-- FEX2 (R138). Correctly rounded 2^a. -/
  | fex2 (c : Ctl) (d : VReg) (a : VReg)
  /-- FLG2 (R138). Correctly rounded log2 a. -/
  | flg2 (c : Ctl) (d : VReg) (a : VReg)
  /-- FSINP (R138). Correctly rounded sin(pi a). -/
  | fsinp (c : Ctl) (d : VReg) (a : VReg)
  /-- FCOSP (R138). Correctly rounded cos(pi a). -/
  | fcosp (c : Ctl) (d : VReg) (a : VReg)
  /-- FTANH (R138). Correctly rounded tanh a. -/
  | ftanh (c : Ctl) (d : VReg) (a : VReg)
  /-- VPERM (R139). Each enabled lane reads the source lane named in its own register. -/
  | vperm (c : Ctl) (d : VReg) (a : VReg) (b : VReg)
  /-- VSHFL (R139). Lane shuffle by xor, up, down or rotate. -/
  | vshfl (c : Ctl) (d : VReg) (a : VReg) (mode : BitVec 2) (k : BitVec 6)
  /-- VBCAST (R139). Broadcasts one lane's value to the enabled lanes. -/
  | vbcast (c : Ctl) (d : VReg) (a : VReg) (n : BitVec 6)
  /-- VRED (R140). Reduces a register over the enabled lanes into a scalar. -/
  | vred (c : Ctl) (d : SReg) (a : VReg) (op : RedOp)
  /-- VSCAN (R141). Running inclusive or exclusive scan over the enabled lanes. -/
  | vscan (c : Ctl) (d : VReg) (a : VReg) (excl : Bool) (op : RedOp)
  /-- VHPERM (R139). Permutes values within each hand by an immediate pattern. -/
  | vhperm (c : Ctl) (d : VReg) (a : VReg) (pat : BitVec 8)
  /-- VRAND (R142). Writes one 32-bit random draw per enabled lane. -/
  | vrand (c : Ctl) (d : VReg)
  /-- VRANDF (R142). Writes a random f32 in [0,1) per enabled lane. -/
  | vrandf (c : Ctl) (d : VReg)
  /-- VRSEED (R142). Replaces the wave's seed and zeroes every draw count. -/
  | vrseed (c : Ctl) (a : SReg)
  /-- LDV_B8Z (R150). Per-lane load of a byte, zero-extended. -/
  | ldvB8z (c : Ctl) (d : VReg) (a : VReg) (col : BitVec 3) (sco : Scope) (ord : LdOrd) (ch : Chan)
  /-- LDV_B8S (R150). Per-lane load of a byte, sign-extended. -/
  | ldvB8s (c : Ctl) (d : VReg) (a : VReg) (col : BitVec 3) (sco : Scope) (ord : LdOrd) (ch : Chan)
  /-- LDV_B16Z (R150). Per-lane load of a half-word, zero-extended. -/
  | ldvB16z (c : Ctl) (d : VReg) (a : VReg) (col : BitVec 3) (sco : Scope) (ord : LdOrd) (ch : Chan)
  /-- LDV_B16S (R150). Per-lane load of a half-word, sign-extended. -/
  | ldvB16s (c : Ctl) (d : VReg) (a : VReg) (col : BitVec 3) (sco : Scope) (ord : LdOrd) (ch : Chan)
  /-- LDV_B32 (R150). Per-lane load of a word. -/
  | ldvB32 (c : Ctl) (d : VReg) (a : VReg) (col : BitVec 3) (sco : Scope) (ord : LdOrd) (ch : Chan)
  /-- LDV_B64 (R150). Per-lane load of 8 bytes into a pair. -/
  | ldvB64 (c : Ctl) (d : VReg) (a : VReg) (col : BitVec 3) (sco : Scope) (ord : LdOrd) (ch : Chan)
  /-- LDV_B128 (R150). Per-lane load of 16 bytes into a quad. -/
  | ldvB128 (c : Ctl) (d : VReg) (a : VReg) (col : BitVec 3) (sco : Scope) (ord : LdOrd) (ch : Chan)
  /-- STV_B8 (R150). Per-lane store of a byte. -/
  | stvB8 (c : Ctl) (d : VReg) (a : VReg) (col : BitVec 3) (sco : Scope) (ord : StOrd) (ch : Chan)
  /-- STV_B16 (R150). Per-lane store of a half-word. -/
  | stvB16 (c : Ctl) (d : VReg) (a : VReg) (col : BitVec 3) (sco : Scope) (ord : StOrd) (ch : Chan)
  /-- STV_B32 (R150). Per-lane store of a word. -/
  | stvB32 (c : Ctl) (d : VReg) (a : VReg) (col : BitVec 3) (sco : Scope) (ord : StOrd) (ch : Chan)
  /-- STV_B64 (R150). Per-lane store of 8 bytes. -/
  | stvB64 (c : Ctl) (d : VReg) (a : VReg) (col : BitVec 3) (sco : Scope) (ord : StOrd) (ch : Chan)
  /-- STV_B128 (R150). Per-lane store of 16 bytes. -/
  | stvB128 (c : Ctl) (d : VReg) (a : VReg) (col : BitVec 3) (sco : Scope) (ord : StOrd) (ch : Chan)
  /-- LDS_B32 (R152). Uniform load of a word into a scalar. -/
  | ldsB32 (c : Ctl) (d : SReg) (a : SReg) (col : BitVec 3) (sco : Scope) (ord : LdOrd) (ch : Chan)
  /-- LDS_B64 (R152). Uniform load of 8 bytes into a scalar pair. -/
  | ldsB64 (c : Ctl) (d : SReg) (a : SReg) (col : BitVec 3) (sco : Scope) (ord : LdOrd) (ch : Chan)
  /-- LDS_B128 (R152). Uniform load of 16 bytes into a scalar quad. -/
  | ldsB128 (c : Ctl) (d : SReg) (a : SReg) (col : BitVec 3) (sco : Scope) (ord : LdOrd) (ch : Chan)
  /-- STS_B32 (R152). Uniform store of a scalar. -/
  | stsB32 (c : Ctl) (d : SReg) (a : SReg) (col : BitVec 3) (sco : Scope) (ord : StOrd) (ch : Chan)
  /-- STS_B64 (R152). Uniform store of a scalar pair. -/
  | stsB64 (c : Ctl) (d : SReg) (a : SReg) (col : BitVec 3) (sco : Scope) (ord : StOrd) (ch : Chan)
  /-- LDL_B32 (R150). Per-lane local load of a word. -/
  | ldlB32 (c : Ctl) (d : VReg) (a : VReg) (col : BitVec 3) (sco : Scope) (ord : LdOrd) (ch : Chan)
  /-- LDL_B128 (R150). Per-lane local load of 16 bytes. -/
  | ldlB128 (c : Ctl) (d : VReg) (a : VReg) (col : BitVec 3) (sco : Scope) (ord : LdOrd) (ch : Chan)
  /-- STL_B32 (R150). Per-lane local store of a word. -/
  | stlB32 (c : Ctl) (d : VReg) (a : VReg) (col : BitVec 3) (sco : Scope) (ord : StOrd) (ch : Chan)
  /-- STL_B128 (R150). Per-lane local store of 16 bytes. -/
  | stlB128 (c : Ctl) (d : VReg) (a : VReg) (col : BitVec 3) (sco : Scope) (ord : StOrd) (ch : Chan)
  /-- ATOM_ADD_B32 (R153). Per-lane 32-bit atomic add at the home slice. -/
  | atomAddB32 (c : Ctl) (d : VReg) (a : VReg) (col : BitVec 3) (sco : Scope) (ord : RmwOrd) (ch : Chan)
  /-- ATOM_MIN_B32 (R153). Per-lane 32-bit atomic signed minimum. -/
  | atomMinB32 (c : Ctl) (d : VReg) (a : VReg) (col : BitVec 3) (sco : Scope) (ord : RmwOrd) (ch : Chan)
  /-- ATOM_MAX_B32 (R153). Per-lane 32-bit atomic signed maximum. -/
  | atomMaxB32 (c : Ctl) (d : VReg) (a : VReg) (col : BitVec 3) (sco : Scope) (ord : RmwOrd) (ch : Chan)
  /-- ATOM_MINU_B32 (R153). Per-lane 32-bit atomic unsigned minimum. -/
  | atomMinuB32 (c : Ctl) (d : VReg) (a : VReg) (col : BitVec 3) (sco : Scope) (ord : RmwOrd) (ch : Chan)
  /-- ATOM_MAXU_B32 (R153). Per-lane 32-bit atomic unsigned maximum. -/
  | atomMaxuB32 (c : Ctl) (d : VReg) (a : VReg) (col : BitVec 3) (sco : Scope) (ord : RmwOrd) (ch : Chan)
  /-- ATOM_AND_B32 (R153). Per-lane 32-bit atomic and. -/
  | atomAndB32 (c : Ctl) (d : VReg) (a : VReg) (col : BitVec 3) (sco : Scope) (ord : RmwOrd) (ch : Chan)
  /-- ATOM_OR_B32 (R153). Per-lane 32-bit atomic or. -/
  | atomOrB32 (c : Ctl) (d : VReg) (a : VReg) (col : BitVec 3) (sco : Scope) (ord : RmwOrd) (ch : Chan)
  /-- ATOM_XOR_B32 (R153). Per-lane 32-bit atomic xor. -/
  | atomXorB32 (c : Ctl) (d : VReg) (a : VReg) (col : BitVec 3) (sco : Scope) (ord : RmwOrd) (ch : Chan)
  /-- ATOM_XCHG_B32 (R153). Per-lane 32-bit atomic exchange. -/
  | atomXchgB32 (c : Ctl) (d : VReg) (a : VReg) (col : BitVec 3) (sco : Scope) (ord : RmwOrd) (ch : Chan)
  /-- CAS_B32 (R153). Per-lane 32-bit compare-and-swap. -/
  | casB32 (c : Ctl) (d : VReg) (a : VReg) (col : BitVec 3) (sco : Scope) (ord : RmwOrd) (ch : Chan)
  /-- ATOMF_ADD_F32 (R155). Per-lane atomic f32 add rounded to nearest, raising nothing. -/
  | atomfAddF32 (c : Ctl) (d : VReg) (a : VReg) (col : BitVec 3) (sco : Scope) (ord : RmwOrd) (ch : Chan)
  /-- ATOMF_ADD_BF16X2 (R155). Per-lane atomic add of two bf16 elements. -/
  | atomfAddBf16x2 (c : Ctl) (d : VReg) (a : VReg) (col : BitVec 3) (sco : Scope) (ord : RmwOrd) (ch : Chan)
  /-- ATOM_ADD_B64 (R153). Per-lane 64-bit atomic add. -/
  | atomAddB64 (c : Ctl) (d : VReg) (a : VReg) (col : BitVec 3) (sco : Scope) (ord : RmwOrd) (ch : Chan)
  /-- ATOM_MIN_B64 (R153). Per-lane 64-bit atomic signed minimum. -/
  | atomMinB64 (c : Ctl) (d : VReg) (a : VReg) (col : BitVec 3) (sco : Scope) (ord : RmwOrd) (ch : Chan)
  /-- ATOM_MAX_B64 (R153). Per-lane 64-bit atomic signed maximum. -/
  | atomMaxB64 (c : Ctl) (d : VReg) (a : VReg) (col : BitVec 3) (sco : Scope) (ord : RmwOrd) (ch : Chan)
  /-- ATOM_MINU_B64 (R153). Per-lane 64-bit atomic unsigned minimum. -/
  | atomMinuB64 (c : Ctl) (d : VReg) (a : VReg) (col : BitVec 3) (sco : Scope) (ord : RmwOrd) (ch : Chan)
  /-- ATOM_MAXU_B64 (R153). Per-lane 64-bit atomic unsigned maximum. -/
  | atomMaxuB64 (c : Ctl) (d : VReg) (a : VReg) (col : BitVec 3) (sco : Scope) (ord : RmwOrd) (ch : Chan)
  /-- ATOM_AND_B64 (R153). Per-lane 64-bit atomic and. -/
  | atomAndB64 (c : Ctl) (d : VReg) (a : VReg) (col : BitVec 3) (sco : Scope) (ord : RmwOrd) (ch : Chan)
  /-- ATOM_OR_B64 (R153). Per-lane 64-bit atomic or. -/
  | atomOrB64 (c : Ctl) (d : VReg) (a : VReg) (col : BitVec 3) (sco : Scope) (ord : RmwOrd) (ch : Chan)
  /-- ATOM_XOR_B64 (R153). Per-lane 64-bit atomic xor. -/
  | atomXorB64 (c : Ctl) (d : VReg) (a : VReg) (col : BitVec 3) (sco : Scope) (ord : RmwOrd) (ch : Chan)
  /-- ATOM_XCHG_B64 (R153). Per-lane 64-bit atomic exchange. -/
  | atomXchgB64 (c : Ctl) (d : VReg) (a : VReg) (col : BitVec 3) (sco : Scope) (ord : RmwOrd) (ch : Chan)
  /-- CAS_B64 (R153). Per-lane 64-bit compare-and-swap. -/
  | casB64 (c : Ctl) (d : VReg) (a : VReg) (col : BitVec 3) (sco : Scope) (ord : RmwOrd) (ch : Chan)
  /-- ATOMS_ADD_B32 (R154). Uniform 32-bit atomic add. -/
  | atomsAddB32 (c : Ctl) (d : SReg) (a : SReg) (col : BitVec 3) (sco : Scope) (ord : RmwOrd) (ch : Chan)
  /-- ATOMS_MIN_B32 (R154). Uniform 32-bit atomic signed minimum. -/
  | atomsMinB32 (c : Ctl) (d : SReg) (a : SReg) (col : BitVec 3) (sco : Scope) (ord : RmwOrd) (ch : Chan)
  /-- ATOMS_MAX_B32 (R154). Uniform 32-bit atomic signed maximum. -/
  | atomsMaxB32 (c : Ctl) (d : SReg) (a : SReg) (col : BitVec 3) (sco : Scope) (ord : RmwOrd) (ch : Chan)
  /-- ATOMS_MINU_B32 (R154). Uniform 32-bit atomic unsigned minimum. -/
  | atomsMinuB32 (c : Ctl) (d : SReg) (a : SReg) (col : BitVec 3) (sco : Scope) (ord : RmwOrd) (ch : Chan)
  /-- ATOMS_MAXU_B32 (R154). Uniform 32-bit atomic unsigned maximum. -/
  | atomsMaxuB32 (c : Ctl) (d : SReg) (a : SReg) (col : BitVec 3) (sco : Scope) (ord : RmwOrd) (ch : Chan)
  /-- ATOMS_AND_B32 (R154). Uniform 32-bit atomic and. -/
  | atomsAndB32 (c : Ctl) (d : SReg) (a : SReg) (col : BitVec 3) (sco : Scope) (ord : RmwOrd) (ch : Chan)
  /-- ATOMS_OR_B32 (R154). Uniform 32-bit atomic or. -/
  | atomsOrB32 (c : Ctl) (d : SReg) (a : SReg) (col : BitVec 3) (sco : Scope) (ord : RmwOrd) (ch : Chan)
  /-- ATOMS_XOR_B32 (R154). Uniform 32-bit atomic xor. -/
  | atomsXorB32 (c : Ctl) (d : SReg) (a : SReg) (col : BitVec 3) (sco : Scope) (ord : RmwOrd) (ch : Chan)
  /-- ATOMS_XCHG_B32 (R154). Uniform 32-bit atomic exchange. -/
  | atomsXchgB32 (c : Ctl) (d : SReg) (a : SReg) (col : BitVec 3) (sco : Scope) (ord : RmwOrd) (ch : Chan)
  /-- CASS_B32 (R154). Uniform 32-bit compare-and-swap. -/
  | cassB32 (c : Ctl) (d : SReg) (a : SReg) (col : BitVec 3) (sco : Scope) (ord : RmwOrd) (ch : Chan)
  /-- ATOML_ADD_B32 (R154). Per-lane local atomic add at the scratch bank. -/
  | atomlAddB32 (c : Ctl) (d : VReg) (a : VReg) (col : BitVec 3) (sco : Scope) (ord : RmwOrd) (ch : Chan)
  /-- ATOML_MIN_B32 (R154). Per-lane local atomic signed minimum. -/
  | atomlMinB32 (c : Ctl) (d : VReg) (a : VReg) (col : BitVec 3) (sco : Scope) (ord : RmwOrd) (ch : Chan)
  /-- ATOML_MAX_B32 (R154). Per-lane local atomic signed maximum. -/
  | atomlMaxB32 (c : Ctl) (d : VReg) (a : VReg) (col : BitVec 3) (sco : Scope) (ord : RmwOrd) (ch : Chan)
  /-- ATOML_MINU_B32 (R154). Per-lane local atomic unsigned minimum. -/
  | atomlMinuB32 (c : Ctl) (d : VReg) (a : VReg) (col : BitVec 3) (sco : Scope) (ord : RmwOrd) (ch : Chan)
  /-- ATOML_MAXU_B32 (R154). Per-lane local atomic unsigned maximum. -/
  | atomlMaxuB32 (c : Ctl) (d : VReg) (a : VReg) (col : BitVec 3) (sco : Scope) (ord : RmwOrd) (ch : Chan)
  /-- ATOML_AND_B32 (R154). Per-lane local atomic and. -/
  | atomlAndB32 (c : Ctl) (d : VReg) (a : VReg) (col : BitVec 3) (sco : Scope) (ord : RmwOrd) (ch : Chan)
  /-- ATOML_OR_B32 (R154). Per-lane local atomic or. -/
  | atomlOrB32 (c : Ctl) (d : VReg) (a : VReg) (col : BitVec 3) (sco : Scope) (ord : RmwOrd) (ch : Chan)
  /-- ATOML_XOR_B32 (R154). Per-lane local atomic xor. -/
  | atomlXorB32 (c : Ctl) (d : VReg) (a : VReg) (col : BitVec 3) (sco : Scope) (ord : RmwOrd) (ch : Chan)
  /-- ATOML_XCHG_B32 (R154). Per-lane local atomic exchange. -/
  | atomlXchgB32 (c : Ctl) (d : VReg) (a : VReg) (col : BitVec 3) (sco : Scope) (ord : RmwOrd) (ch : Chan)
  /-- CASL_B32 (R154). Per-lane local compare-and-swap. -/
  | caslB32 (c : Ctl) (d : VReg) (a : VReg) (col : BitVec 3) (sco : Scope) (ord : RmwOrd) (ch : Chan)
  /-- FENCE (R156). Orders the wave's earlier and later accesses at a scope, taking the acquire and release actions for its colours. -/
  | fence (c : Ctl) (colmask : BitVec 8) (fkind : FenceKind) (sco : Scope)
  /-- MONITOR (R157). Arms the wave's watch on a 64-byte sector and clears its written bit. -/
  | monitor (c : Ctl) (a : SReg) (col : BitVec 3) (sco : Scope) (ch : Chan)
  /-- MWAIT (R157). Reads a watched word and sleeps until the sector is written when it equals the expected value. -/
  | mwait (c : Ctl) (d : SReg) (a : SReg) (col : BitVec 3) (sco : Scope) (ord : LdOrd) (ch : Chan)
  /-- PF (R158). Prefetches a line into the L1, L2 or cluster cache banks. -/
  | pf (c : Ctl) (a : VReg) (col : BitVec 3) (sco : Scope) (ch : Chan)
  /-- CWB (R158). Writes a line's dirty bytes back to the L2. -/
  | cwb (c : Ctl) (a : VReg) (col : BitVec 3) (sco : Scope) (ch : Chan)
  /-- CINV (R158). Writes back and invalidates an L1 line, or invalidates it in the cluster cache banks. -/
  | cinv (c : Ctl) (a : VReg) (col : BitVec 3) (sco : Scope) (ch : Chan)
  /-- BAR_SYNC (R178). Arrives at a group barrier and sleeps until its generation completes. -/
  | barSync (c : Ctl) (count : BitVec 5) (bar : BitVec 4)
  /-- BAR_ARRIVE (R178). Arrives at a group barrier and moves on. -/
  | barArrive (c : Ctl) (count : BitVec 5) (bar : BitVec 4)
  /-- BAR_WAIT (R178). Sleeps until the generation the wave last arrived in completes. -/
  | barWait (c : Ctl) (count : BitVec 5) (bar : BitVec 4)
  /-- RTE (R184). Returns the handler's threads to their saved PCs plus the trappc adjustment. -/
  | rte (c : Ctl)
  /-- BRK (R186). Raises a breakpoint, parking for the debugger under DBG. -/
  | brk (c : Ctl) (code : BitVec 16)
  /-- MMA (R219). Queues a dense tile multiply-accumulate into an accumulator tile. -/
  | mma (c : Ctl) (d : VReg) (a : SReg) (acc : BitVec 3)
  /-- MMAS (R219). Queues a 2:4 sparse tile multiply-accumulate. -/
  | mmas (c : Ctl) (d : VReg) (a : SReg) (acc : BitVec 3)
  /-- MACZ (R220). Queues a clear of an accumulator tile. -/
  | macz (c : Ctl) (acc : BitVec 3)
  /-- MACLD (R222). Queues a load of a local array into a tile, replacing or adding. -/
  | macld (c : Ctl) (d : VReg) (a : SReg) (acc : BitVec 3)
  /-- MACST (R223). Queues a store of a tile to local memory with conversion or block encoding. -/
  | macst (c : Ctl) (d : VReg) (a : SReg) (acc : BitVec 3)
  /-- MEPI_SCALE (R224). Epilogue multiply of every tile element by a scalar. -/
  | mepiScale (c : Ctl) (d : VReg) (a : SReg) (acc : BitVec 3)
  /-- MEPI_BIAS_ROW (R224). Epilogue add of a per-column bias vector. -/
  | mepiBiasRow (c : Ctl) (d : VReg) (a : SReg) (acc : BitVec 3)
  /-- MEPI_BIAS_COL (R224). Epilogue add of a per-row bias vector. -/
  | mepiBiasCol (c : Ctl) (d : VReg) (a : SReg) (acc : BitVec 3)
  /-- MEPI_RELU (R224). Epilogue rectification of every element. -/
  | mepiRelu (c : Ctl) (d : VReg) (a : SReg) (acc : BitVec 3)
  /-- MEPI_CLAMP (R224). Epilogue clamp of every element between two values. -/
  | mepiClamp (c : Ctl) (d : VReg) (a : SReg) (acc : BitVec 3)
  /-- MEPI_ADD (R224). Epilogue elementwise add of another tile. -/
  | mepiAdd (c : Ctl) (d : VReg) (a : SReg) (acc : BitVec 3)
  /-- MEPI_DEQ (R224). Epilogue dequantisation of i32 elements to scaled f32. -/
  | mepiDeq (c : Ctl) (d : VReg) (a : SReg) (acc : BitVec 3)
  /-- BATON_TAKE (R212). Takes the group's baton if free and reports whether the wave holds it. -/
  | batonTake (c : Ctl) (d : SReg)
  /-- BATON_PASS (R213). Marks a pass of the baton pending to free or to a named wave. -/
  | batonPass (c : Ctl) (target : PassTarget)
  /-- MQUERY (R225). Reads baton, queue or sticky-flag status into a scalar. -/
  | mquery (c : Ctl) (d : SReg) (sub : MQuery)
  /-- MQUERY_FLAGSC (R225). Reads and clears the group's sticky flags in one action. -/
  | mqueryFlagsc (c : Ctl) (d : SReg)
  /-- TLD (R241). Appends a node viewing a 2-D array in memory. -/
  | tld (c : Ctl) (hd : BitVec 6) (sb : SReg)
  /-- TCONST (R240). Appends a constant tile node. -/
  | tconst (c : Ctl) (hd : BitVec 6) (sb : SReg)
  /-- TIOTA (R240). Appends an affine index tile node. -/
  | tiota (c : Ctl) (hd : BitVec 6) (sb : SReg)
  /-- TMAP_TR (R242). Appends a transpose map node. -/
  | tmapTr (c : Ctl) (hd : BitVec 6) (ha : BitVec 6)
  /-- TMAP_SLICE (R242). Appends a sub-region map node. -/
  | tmapSlice (c : Ctl) (hd : BitVec 6) (ha : BitVec 6) (sb : SReg)
  /-- TMAP_BCR (R242). Appends a row broadcast map node. -/
  | tmapBcr (c : Ctl) (hd : BitVec 6) (ha : BitVec 6) (sb : SReg)
  /-- TMAP_BCC (R242). Appends a column broadcast map node. -/
  | tmapBcc (c : Ctl) (hd : BitVec 6) (ha : BitVec 6) (sb : SReg)
  /-- TMAP_REVR (R242). Appends a row-reversal map node. -/
  | tmapRevr (c : Ctl) (hd : BitVec 6) (ha : BitVec 6)
  /-- TMAP_REVC (R242). Appends a column-reversal map node. -/
  | tmapRevc (c : Ctl) (hd : BitVec 6) (ha : BitVec 6)
  /-- TMAP_SHIFT (R242). Appends a shift-with-fill map node. -/
  | tmapShift (c : Ctl) (hd : BitVec 6) (ha : BitVec 6) (sb : SReg)
  /-- TADD (R240). Appends an elementwise add node. -/
  | tadd (c : Ctl) (hd : BitVec 6) (ha : BitVec 6) (hb : BitVec 6)
  /-- TSUB (R240). Appends an elementwise subtract node. -/
  | tsub (c : Ctl) (hd : BitVec 6) (ha : BitVec 6) (hb : BitVec 6)
  /-- TMUL (R240). Appends an elementwise multiply node. -/
  | tmul (c : Ctl) (hd : BitVec 6) (ha : BitVec 6) (hb : BitVec 6)
  /-- TMAX (R240). Appends an elementwise maximum node. -/
  | tmax (c : Ctl) (hd : BitVec 6) (ha : BitVec 6) (hb : BitVec 6)
  /-- TMIN (R240). Appends an elementwise minimum node. -/
  | tmin (c : Ctl) (hd : BitVec 6) (ha : BitVec 6) (hb : BitVec 6)
  /-- TEXP (R243). Appends an exponential node. -/
  | texp (c : Ctl) (hd : BitVec 6) (ha : BitVec 6)
  /-- TLOG (R243). Appends a natural-log node. -/
  | tlog (c : Ctl) (hd : BitVec 6) (ha : BitVec 6)
  /-- TRCP (R243). Appends a reciprocal node. -/
  | trcp (c : Ctl) (hd : BitVec 6) (ha : BitVec 6)
  /-- TSIG (R243). Appends a sigmoid node. -/
  | tsig (c : Ctl) (hd : BitVec 6) (ha : BitVec 6)
  /-- TSELM (R240). Appends a lower- or upper-triangle selection node with fill. -/
  | tselm (c : Ctl) (hd : BitVec 6) (ha : BitVec 6) (sb : SReg) (up : Bool)
  /-- TSCAN (R240). Appends a running-sum node along rows or columns. -/
  | tscan (c : Ctl) (hd : BitVec 6) (ha : BitVec 6) (colw : Bool)
  /-- TRED (R240). Appends a sum or maximum reduction node along rows or columns. -/
  | tred (c : Ctl) (hd : BitVec 6) (ha : BitVec 6) (op : BitVec 2)
  /-- TMMA (R245). Appends a matrix-product node. -/
  | tmma (c : Ctl) (hd : BitVec 6) (ha : BitVec 6) (hb : BitVec 6) (sb : SReg)
  /-- TCVT (R246). Appends a format-conversion node. -/
  | tcvt (c : Ctl) (hd : BitVec 6) (ha : BitVec 6) (sb : SReg)
  /-- TST (R247). Queues a demand that writes a node region to global memory. -/
  | tst (c : Ctl) (ha : BitVec 6) (sb : SReg)
  /-- TFORCE (R247). Queues a demand that writes a node region to local memory and keeps it. -/
  | tforce (c : Ctl) (ha : BitVec 6) (sb : SReg)
  /-- TDROP (R255). Empties a handle and releases its node. -/
  | tdrop (c : Ctl) (hd : BitVec 6)
  /-- TCFG (R252). Sets the group's state-table set, capture area and fault ring. -/
  | tcfg (c : Ctl) (sb : SReg)
  /-- TSTAT_COUNTS (R266). Reads live-node, free-entry, handle and view counts. -/
  | tstatCounts (c : Ctl) (sb : SReg)
  /-- TSTAT_CAP (R266). Reads the capture units in use. -/
  | tstatCap (c : Ctl) (sb : SReg)
  /-- TSTAT_NODE (R266). Reads a handle's node shape and kind. -/
  | tstatNode (c : Ctl) (ha : BitVec 6) (sb : SReg)
  /-- TSTAT_FAULT (R266). Reads the fault record that sr.tfault locates. -/
  | tstatFault (c : Ctl) (sb : SReg)
  /-- CPY (R278). Requests a strided copy and returns its timeline number and promised time. -/
  | cpy (c : Ctl) (d : SReg) (a : SReg)
  /-- CPYM (R279). Requests a copy to the same local offset in a set of clusters. -/
  | cpym (c : Ctl) (d : SReg) (a : SReg)
  /-- CPYX (R280). Requests a copy to local memory followed by a matrix command. -/
  | cpyx (c : Ctl) (d : SReg) (a : SReg)
  /-- TLWAIT (R282). Sleeps until the selected timeline reaches a value, then acquires. -/
  | tlwait (c : Ctl) (a : SReg) (sel : Timeline)
  /-- TLRD (R282). Reads the selected timeline's value into a scalar pair. -/
  | tlrd (c : Ctl) (d : SReg) (sel : Timeline)
  /-- WAITP (R282). Sleeps until a promised time, then completes or takes the late-promise action. -/
  | waitp (c : Ctl) (a : SReg) (sel : Timeline)
  /-- BANKCFG (R271). Sets the mode of one cluster SRAM bank or is refused. -/
  | bankcfg (c : Ctl) (a : SReg)
  /-- FPUSH (R284). Appends a 32-byte entry to a FIFO queue. -/
  | fpush (c : Ctl) (a : SReg)
  /-- FPOP (R284). Removes the oldest entry of a FIFO queue into scalars. -/
  | fpop (c : Ctl) (d : SReg) (a : SReg)
  /-- PORTCFG (R285). Configures a message port for send with reserved credits, for receive, or releases it. -/
  | portcfg (c : Ctl) (d : Port) (a : SReg)
  /-- CBAR_ARRIVE (R288). Arrives at a cohort barrier with a cohort-scope release. -/
  | cbarArrive (c : Ctl) (bar : BitVec 4)
  /-- CBAR_WAIT (R288). Sleeps until the cohort barrier generation completes, then acquires. -/
  | cbarWait (c : Ctl) (bar : BitVec 4)
  /-- RBIND (R309). Requests binding of a layout and walk program to a ray class. -/
  | rbind (c : Ctl) (d : SReg) (a : SReg) (cls : BitVec 3)
  /-- RTRACE (R310). Requests new traversals of an array of ray records. -/
  | rtrace (c : Ctl) (d : SReg) (a : SReg)
  /-- RSAVE (R311). Suspends every ray of the cohort's traversal context at its next save point. -/
  | rsave (c : Ctl)
  /-- RRESUME (R310). Requests resumption of suspended ray records. -/
  | rresume (c : Ctl) (d : SReg) (a : SReg)
  /-- RQUERY (R312). Reads traversal context status into a scalar. -/
  | rquery (c : Ctl) (d : SReg) (sub : RQuery)
  /-- LAUNCH (R361). Passes a child launch to the die's aggregator after a device-scope release. -/
  | launch (c : Ctl) (a : SReg)
  /-- TENQ (R365). Writes a task record into a task queue, sleeping while it is full. -/
  | tenq (c : Ctl) (a : SReg)
  /-- RNEXT (R366). Claims the next chunk of a range task. -/
  | rnext (c : Ctl) (d : SReg) (q : BitVec 4)
  /-- RECALLOC (R370). Allocates a record slot for a graph node, sleeping under back-pressure. -/
  | recalloc (c : Ctl) (d : SReg) (a : SReg)
  /-- RECSEND (R371). Commits a record to its node's pending batch. -/
  | recsend (c : Ctl) (a : SReg)
  /-- GATE (R368). Sleeps until the earlier launch has released or completed. -/
  | gate (c : Ctl)
  /-- RELEASE (R368). Counts the group's release towards the dependent launch's gate. -/
  | release (c : Ctl)
  /-- QCLAIM (R373). Claims ring slots of a packet queue, sleeping while it is full. -/
  | qclaim (c : Ctl) (d : SReg) (a : SReg)
  /-- PEMIT (R375). Emits a triangle primitive to the raster unit from a mesh batch. -/
  | pemit (c : Ctl) (a : SReg)
  /-- PXOUT (R378). Writes each enabled lane's pixel to a render target. -/
  | pxout (c : Ctl) (d : VReg) (tgt : BitVec 3)
  /-- NMV (R403). Requests a near-bank matrix-vector product on one stack. -/
  | nmv (c : Ctl) (d : SReg) (a : SReg)
  /-- SLEEP_EXPIRE (R108). The die counter reaches a sleeping run's wake time and its threads become ready. -/
  | sleepExpire (w : Nat)
  /-- BATON_TRANSFER (R213). The holder's outstanding operations reach zero and the pending pass hands the baton over. -/
  | batonTransfer (g : Nat)
  /-- MATRIX_COMMAND_START (R205). The engine chooses a group queue round-robin and starts its head command or demand. -/
  | matrixCommandStart (core : Nat)
  /-- ACCUMULATOR_TILE_FILL (R203). A non-resident accumulator tile is filled from the group image for a command. -/
  | accumulatorTileFill (g : Nat) (t : BitVec 3)
  /-- MATRIX_COMMAND_COMPLETE (R208). A command's last result is written; its flag decrements and its queue place frees. -/
  | matrixCommandComplete (core : Nat)
  /-- DEMAND_OUTPUT_STEP (R248). The sequencer evaluates and writes one 128x128 output step of a demand and advances PROG. -/
  | demandOutputStep (core : Nat)
  /-- DEMAND_COMPLETE (R249). A demand's last step is written; its flag decrements and its node reference is released. -/
  | demandComplete (core : Nat)
  /-- VIEW_CAPTURE (R263). The sequencer copies a live source view into capture units after an overlapping store, then releases the held word. -/
  | viewCapture (w : Nat)
  /-- BANK_MODE_CHANGE_DONE (R271). A bank's new mode comes into effect and the bankcfg completes. -/
  | bankModeChangeDone (cl : Nat) (bank : BitVec 4)
  /-- FIFO_PUSH_JOIN (R284). A pending push joins its queue once an unreserved place frees. -/
  | fifoPushJoin (cl : Nat) (qw : BitVec 8)
  /-- FIFO_POP_SERVE (R284). A pending pop receives the queue's next entry. -/
  | fifoPopServe (cl : Nat) (qw : BitVec 8)
  /-- CREDIT_RETURN (R286). A removed message returns one credit to its send port over the down-net. -/
  | creditReturn (w : Nat) (port : BitVec 3)
  /-- PORT_READ_SERVE (R286). A message reaches a receive queue and completes the oldest waiting port read. -/
  | portReadServe (cl : Nat) (qw : BitVec 8)
  /-- COPY_REQUEST_COMPLETE (R278). Every destination byte of a copy request is performed and the request completes. -/
  | copyRequestComplete (req : Nat)
  /-- FOLLOW_ON_ENQUEUE (R280). After a cpyx copy is performed, its follow-on command enters the target group's queue. -/
  | followOnEnqueue (req : Nat)
  /-- PROMISED_TIME_REACHED (R282). The die counter reaches a waitp's promised time. -/
  | promisedTimeReached (w : Nat)
  /-- RBIND_APPLY (R309). Once earlier requests complete, the engine reads, checks and installs a binding or unbinds the class. -/
  | rbindApply (req : Nat)
  /-- RAY_START (R290). A ray takes a free ray context and its record is read and initialised. -/
  | rayStart (req : Nat)
  /-- NODE_FETCH_RETURN (R299). An ldn's node bytes arrive in the buffer, or a fault suspends the ray. -/
  | nodeFetchReturn (ray : Nat)
  /-- RAY_WRITEBACK (R305). A suspended ray's record is written back as plain stores. -/
  | rayWriteback (ray : Nat)
  /-- TRAVERSAL_REQUEST_COMPLETE (R310). All rays of a request are written back and the summary is written. -/
  | traversalRequestComplete (req : Nat)
  /-- NMV_REQUEST_COMPLETE (R404). Every result byte of a near-bank request is written and the request completes. -/
  | nmvRequestComplete (req : Nat)
  /-- PIXEL_WAVE_LAUNCH (R377). The owning die launches a pixel wave for a covered 8x8 block, in key order for ordered nodes. -/
  | pixelWaveLaunch (prim : Nat) (bx by' : Nat)
  /-- AGGREGATOR_WINDOW_CLOSE (R361). An aggregation window reaches 4,096 children or its time-out and starts as one grid. -/
  | aggregatorWindowClose (die : Nat) (kdesc : Nat)
  /-- TASK_START (R364). The front end starts a task record as a one-group cohort. -/
  | taskStart (q : Nat)
  /-- RANGE_TASK_SPLIT (R367). A core with a free slot and no queued task takes half of a running range task. -/
  | rangeTaskSplit (core : Nat)
  /-- BATCH_TIMEOUT (R371). A pending batch reaches TIMEOUT die cycles after its first commit and launches. -/
  | batchTimeout (graph : Nat) (node : Nat)
  /-- BATCH_GROUP_END (R372). A batch group ends and frees its records, admitting waiting allocations. -/
  | batchGroupEnd (g : Nat)
  /-- COHORT_PLACEMENT (R269). The cluster dispatcher places a waiting cohort's groups and local allocation together. -/
  | cohortPlacement (cohort : Nat) (cl : Nat)
  /-- WAVE_END (R20). A wave whose launched threads have all exited frees its slot once its operations complete. -/
  | waveEnd (w : Nat)
  /-- REGISTER_LINE_FILL (R175). A missing register-cache line is filled from the wave image. -/
  | registerLineFill (w : Nat) (line : Nat)
  /-- WAVE_PROMOTION (R164). A wave's aging count reaches sr.age and the quadrant promotes it. -/
  | wavePromotion (core : Nat) (quad : BitVec 2)
  /-- FIXED_LATENCY_COMPLETE (R39). A fixed-latency word's latency elapses and its SETF flag decrements. -/
  | fixedLatencyComplete (w : Nat) (op : Nat)
  /-- LOAD_COMPLETE (R150). A load's data returns and is written to its destinations. -/
  | loadComplete (w : Nat) (op : Nat)
  /-- STORE_PERFORMED (R150). A store is performed at the scope its ORD names and completes. -/
  | storePerformed (w : Nat) (op : Nat)
  /-- RMW_PERFORMED (R153). A read-modify-write is performed at its home and returns the old value. -/
  | rmwPerformed (w : Nat) (op : Nat)
  /-- FENCE_COMPLETE (R156). A fence's ordering is satisfied and later memory and engine words may issue. -/
  | fenceComplete (w : Nat) (op : Nat)
  /-- MWAIT_WAKE (R157). A watch notice or own-core store sets the written bit and wakes a sleeping mwait. -/
  | mwaitWake (w : Nat)
  /-- WAIT_POLL (R177). Every 1,024 cycles a wait without a table entry tests its condition. -/
  | waitPoll (w : Nat)
  /-- TRAP_DELIVERY (R25). A pending user-handled set is delivered to the trap vector once no set is active. -/
  | trapDelivery (w : Nat)
  /-- PAGE_WALK (R190). The walker completes a two-stage page walk, setting A and D, or raises a fault. -/
  | pageWalk (core : Nat) (pasid : BitVec 20) (va : BitVec 64) (acc : Access)
  /-- TLBI_GO (R192). A write of GO starts invalidation of the named translations. -/
  | tlbiGo (die : Nat) (value : BitVec 64)
  /-- TLBI_COMPLETE (R193). The invalidation has taken effect everywhere and GO reads 0. -/
  | tlbiComplete (die : Nat)
  /-- PREEMPT (R194). The firmware stops selecting a context's waves on a core. -/
  | preempt (core : Nat) (pasid : BitVec 20)
  /-- CONTEXT_HALT (R195). Dispatch, matrix and sequencer steps finish and the context is halted and saved. -/
  | contextHalt (core : Nat) (pasid : BitVec 20)
  /-- CONTROL_STATE_SWAP (R197). Outgoing control pages go to the shadow store and incoming ones are read. -/
  | controlStateSwap (core : Nat) (outgoing : BitVec 20) (incoming : BitVec 20)
  /-- SHADOW_STORE_DRAIN (R197). The shadow store finishes draining to the wave images. -/
  | shadowStoreDrain (core : Nat)
  /-- RESTORE (R198). A wave's control page and records are checked and its waits re-armed. -/
  | restore (w : Nat) (core : Nat) (slot : BitVec 5)
  /-- WAVE_EVICT (R200). The core evicts a single resident wave whose threads all sleep or are parked. -/
  | waveEvict (w : Nat)
  /-- L2_LINE_FILL (R316). A slice fills a sector's invalid bytes from DRAM. -/
  | l2LineFill (pa : Nat)
  /-- PACKET_PROMOTION (R327). A head packet waiting 64 network cycles is promoted at its output. -/
  | packetPromotion (die : Nat) (net : Bool) (router : Nat) (port : BitVec 3)
  /-- TAIL_FILTER_REPORT (R358). A write to a resident queue's first QCB sector makes the front end re-read WRIDX and CTL. -/
  | tailFilterReport (q : Nat)
  /-- LAUNCH_PACKET (R351). The front end reads, checks and retires a launch packet. -/
  | launchPacket (q : Nat)
  /-- LAUNCH_START (R341). A retired launch starts once its handle, barrier and early-start conditions hold. -/
  | launchStart (launch : Nat)
  /-- LAUNCH_COMPLETE (R362). A launch and all its children complete; QTL rises and a child signal add is performed. -/
  | launchComplete (launch : Nat)
  /-- GRAPH_DISPATCH (R369). The front end starts a work graph and commits its initial records. -/
  | graphDispatch (q : Nat)
  /-- DRAW_GRAPH (R369). The front end starts a work graph with raster draw state. -/
  | drawGraph (q : Nat)
  /-- DEPENDENCY (R354). A dependency packet waits on other queues' timelines. -/
  | dependency (q : Nat)
  /-- DEPENDENCY_SATISFIED (R354). Every listed queue timeline reaches its value and the packet completes. -/
  | dependencySatisfied (q : Nat) (n : Nat)
  /-- TIMELINE_SIGNAL (R354). After earlier packets complete, writes or adds a 64-bit value with a system release. -/
  | timelineSignal (q : Nat)
  /-- TIMELINE_WAIT (R354). A timeline-wait packet watches a 64-bit word. -/
  | timelineWait (q : Nat)
  /-- TIMELINE_WAIT_SATISFIED (R354). The watched word reaches the value and the packet completes. -/
  | timelineWaitSatisfied (q : Nat) (n : Nat)
  /-- HANDLE_DECLARATION (R441). Writes, redeclares or retires a buffer-handle table entry. -/
  | handleDeclaration (q : Nat)
  /-- NO_OP (R350). A no-op packet is retired and completes. -/
  | noOp (q : Nat)
  /-- FIRMWARE_DEFINED_PACKET (R387). A packet of type 0x80-0xFF is forwarded to and parsed by the firmware. -/
  | firmwareDefinedPacket (q : Nat)
  /-- QUEUE_RESTART (R355). A write of RESTART clears the error state and resumes reading at RDIDX. -/
  | queueRestart (q : Nat)
  /-- QCBINV (R381). Drops a queue's QCB from the front end's cache. -/
  | qcbinv (die : Nat) (value : BitVec 64)
  /-- MBDONE (R384). A resident kernel's write answers a mailbox entry with release or end-launch. -/
  | mbdone (die : Nat) (value : BitVec 64)
  /-- MAILBOX_POST (R384). A system-service parked set is posted to the first free mailbox entry with an interrupt. -/
  | mailboxPost (w : Nat)
  /-- MAILBOX_ACTION_APPLY (R384). The forwarded action writes the reply, clears a failure record, retries or ends the launch. -/
  | mailboxActionApply (pasid : BitVec 20) (entry : BitVec 8)
  /-- CONTEXT_CREATE (R382). The firmware writes a context descriptor at the resident kernel's request. -/
  | contextCreate (desc : CtxDesc)
  /-- WINDOW_DERIVE (R386). A Turel core derives a narrower window from a valid parent. -/
  | windowDerive (turel : Nat) (parent : BitVec 128) (win : BitVec 10) (base len : Nat) (perm : BitVec 4)
  /-- WINDOW_INVALIDATE (R386). A window and its descendants are invalidated and their generations raised. -/
  | windowInvalidate (turel : Nat) (win : BitVec 10)
  /-- CAPABILITY_ACCESS (R386). A Turel access through a capability reaches memory or raises a capability fault. -/
  | capabilityAccess (turel : Nat) (cap : BitVec 128) (size : Nat) (acc : Access) (value : BitVec 64)
  /-- DOORBELL_WRITE (R388). A doorbell write of a non-resident queue wakes the firmware to make it resident. -/
  | doorbellWrite (q : Nat)
  /-- QUEUE_TABLE_FAULT (R388). A queue walk reaching P=0 or V=0 wakes the firmware. -/
  | queueTableFault (q : Nat)
  /-- QUEUE_ERROR_NOTICE (R388). The firmware informs the resident kernel of a queue entering the error state. -/
  | queueErrorNotice (q : Nat)
  /-- PARTITION_CREATE (R389). The firmware creates a partition and applies its bank-mode word. -/
  | partitionCreate (part : BitVec 8) (spec : PartSpec)
  /-- PARTITION_RESIZE (R390). The firmware moves cohorts between clusters by halt, copy and restore. -/
  | partitionResize (part : BitVec 8) (add remove : List Nat)
  /-- SURF_WRITE (R393). A new surface base is latched for the next vertical blank. -/
  | surfWrite (die : Nat) (head : BitVec 3) (value : BitVec 64)
  /-- VERTICAL_BLANK (R393). At vertical blank the head switches to the latched surface. -/
  | verticalBlank (die : Nat) (head : BitVec 3)
  /-- SLICE_ENCODE_COMPLETE (R392). A slice's AV1 OBUs and index entry are written to the output ring. -/
  | sliceEncodeComplete (die : Nat) (head : BitVec 3)
  /-- FLIT_CRC_RETRY (R395). A flit failing its CRC is sent again. -/
  | flitCrcRetry (die : Nat) (link : BitVec 2)
  /-- LINK_RETRAIN (R396). Repeated CRC failures make a die link retrain and hold its traffic. -/
  | linkRetrain (die : Nat) (link : BitVec 2)
  /-- LINK_RECOVER (R396). A retraining link recovers and delivers its waiting packets. -/
  | linkRecover (die : Nat) (link : BitVec 2)
  /-- LINK_DOWN (R396). A link not recovered within 1 ms is declared down and rerouted. -/
  | linkDown (die : Nat) (link : BitVec 2)
  /-- CECNT_CLEAR (R399). A write-one-to-clear write clears a stack's corrected-error count. -/
  | cecntClear (die : Nat) (k : BitVec 3) (value : BitVec 64)
  /-- DRAM_PATROL (R407). The background patrol reads and corrects DRAM sectors each 24 hours. -/
  | dramPatrol (pa : Nat)
  /-- GOVERNOR_TICK (R409). Every 8 microseconds the governor divides the power budget and sets core clocks. -/
  | governorTick (die : Nat)
  /-- COOLANT_LIMIT (R409). Coolant above its limit holds every core at 0.6 GHz. -/
  | coolantLimit (above : Bool)
  /-- COOLANT_SHUTDOWN (R409). Coolant above the shutdown limit resets the module. -/
  | coolantShutdown
  /-- PEER_REQUEST (R412). A request from a peer package is checked against exports and performed at its home slice. -/
  | peerRequest (req : ExtReq)
  /-- PEER_UNREACHABLE (R412). A peer unreachable for 10 ms completes its requests with data loss. -/
  | peerUnreachable (id : BitVec 9)
  /-- HOST_WRITE (R415). A host write is performed at its home slice in arrival order. -/
  | hostWrite (pa : Nat) (bytes : List Byte) (relaxed : Bool)
  /-- HOST_READ (R415). A host read is served at its home slice. -/
  | hostRead (pa : Nat) (n : Nat)
  /-- FEATACC_WRITE (R422). The first FEATACC write stores the accepted features and sets LOCK. -/
  | feataccWrite (value : BitVec 64)
  /-- SHARD_FETCH (R417). An SHCMD FETCH starts copying and digesting a manifest entry's shard. -/
  | shardFetch (die : Nat) (cx : BitVec 6) (index : BitVec 16)
  /-- SHARD_VERIFY (R417). An SHCMD VERIFY re-digests a verified shard. -/
  | shardVerify (die : Nat) (cx : BitVec 6) (index : BitVec 16)
  /-- SHARD_FETCH_COMPLETE (R417). A shard fetch ends with STATE 2 on a digest match or 3 otherwise. -/
  | shardFetchComplete (die : Nat) (cx : BitVec 6)
  /-- SHARD_SCRUB (R417). Every SCRUBINT seconds every verified shard is verified again. -/
  | shardScrub (die : Nat)
  /-- BOOT (R420). At reset the boot ROM checks the firmware image and loads the Turel cores or enters recovery. -/
  | boot (img : FwImage)
  /-- GET_VERSION (R421). SPDM request for supported versions. -/
  | getVersion (via : SpdmPath) (param : BitVec 8)
  /-- GET_CAPABILITIES (R421). SPDM request for capabilities. -/
  | getCapabilities (via : SpdmPath) (param : BitVec 8)
  /-- NEGOTIATE_ALGORITHMS (R421). SPDM algorithm negotiation. -/
  | negotiateAlgorithms (via : SpdmPath) (param : BitVec 8)
  /-- GET_DIGESTS (R421). SPDM request for certificate digests. -/
  | getDigests (via : SpdmPath) (param : BitVec 8)
  /-- GET_CERTIFICATE (R421). SPDM request for the device certificate chain. -/
  | getCertificate (via : SpdmPath) (param : BitVec 8)
  /-- CHALLENGE (R421). SPDM challenge for authentication. -/
  | challenge (via : SpdmPath) (param : BitVec 8)
  /-- GET_MEASUREMENTS (R421). SPDM request for the measurement blocks. -/
  | getMeasurements (via : SpdmPath) (param : BitVec 8)
  /-- REGISTER_WRITE (R381). A write to a service-window register with no behaviour of its own. -/
  | registerWrite (die : Nat) (off : BitVec 24) (value : BitVec 64)
  /-- EFLER_ACCESS (R339). An Efler hart's load, store, AMO, LR/SC or fence is performed through the coherent L2 and its directory. -/
  | eflerAccess (hart : Nat) (op : EflerOp)
  /-- HOST_ATOMIC (R410). A host PCI Express AtomicOp (FetchAdd, Swap or CAS) arrives and is performed at its home slice. -/
  | hostAtomic (pa : Nat) (wide : Bool) (op : HostAtomicOp)
  /-- PEER_PORT_DOWN (R412). A UALink port is declared down and its traffic moves to the next valid route. -/
  | peerPortDown (port : BitVec 4)
  /-- RECOVERY_IMAGE (R420). In recovery the device accepts a new firmware image through the physical function. -/
  | recoveryImage (img : FwImage)
deriving DecidableEq, Repr

end Sys2Proof
end

