-- ==== Sys2Proof/Machine/Float.lean ====
section
/-!
DEFINITION. Number formats and the one rounding procedure (R71 to R88). Values are exact: a sign and a fraction of
natural numbers, so every result is formed exactly and rounded once (R82).
-/

namespace Sys2Proof.Machine

/-- The exception flags, in the positions of sr.fpstat (R34). -/
abbrev Flags := BitVec 5
def flagIV : Flags := 1
def flagDZ : Flags := 2
def flagOF : Flags := 4
def flagUF : Flags := 8
def flagNX : Flags := 16

/-- A floating value: NaN, an infinity, or the exact value `n / d` with a sign (`d` is not 0). -/
inductive FVal where
  | nan
  | inf (neg : Bool)
  | fin (neg : Bool) (n d : Nat)
deriving DecidableEq, Repr

/-- The rounding mode of one rounding; a stochastic one carries its draw (R82, R84). -/
inductive RMode where
  | rne | rtz | rdn | rup | rna
  | sto (draw : Word)
deriving DecidableEq, Repr

/-- A floating format (R74): fraction bits, exponent bits, bias, least exponent of a last bit, largest finite value
`maxM · 2^maxQ`, infinity, canonical NaN. -/
structure FloatFmt where
  w : Nat
  eb : Nat
  bias : Nat
  qmin : Int
  maxM : Nat
  maxQ : Nat
  hasInf : Bool
  canon : Nat
deriving DecidableEq, Repr

def fmtF32 : FloatFmt := ⟨23, 8, 127, -149, 2 ^ 24 - 1, 104, true, 0x7FC00000⟩
def fmtBf16 : FloatFmt := ⟨7, 8, 127, -133, 255, 120, true, 0x7FC0⟩
def fmtF16 : FloatFmt := ⟨10, 5, 15, -24, 2047, 5, true, 0x7E00⟩
def fmtE4m3 : FloatFmt := ⟨3, 4, 7, -9, 14, 5, false, 0x7F⟩
def fmtE5m2 : FloatFmt := ⟨2, 5, 15, -16, 7, 13, true, 0x7E⟩

/-- `m · 2^q` as a finite value. -/
def FVal.dyadic (neg : Bool) (m : Nat) (q : Int) : FVal :=
  if 0 ≤ q then .fin neg (m * 2 ^ q.toNat) 1 else .fin neg m (2 ^ (-q).toNat)

def FVal.isNaN : FVal → Bool
  | .nan => true
  | _ => false
def FVal.isInf : FVal → Bool
  | .inf _ => true
  | _ => false
def FVal.isZero : FVal → Bool
  | .fin _ 0 _ => true
  | _ => false
def FVal.sign : FVal → Bool
  | .nan => false
  | .inf s => s
  | .fin s _ _ => s
def FVal.neg : FVal → FVal
  | .nan => .nan
  | .inf s => .inf (!s)
  | .fin s n d => .fin (!s) n d
def FVal.abs : FVal → FVal
  | .nan => .nan
  | .inf _ => .inf false
  | .fin _ n d => .fin false n d
/-- A positive zero. -/
def FVal.zero : FVal := .fin false 0 1

/-- Decodes the bits of a format (R75). -/
def FloatFmt.decode (F : FloatFmt) (b : Nat) : FVal :=
  let m := b % 2 ^ F.w
  let e := (b / 2 ^ F.w) % 2 ^ F.eb
  let s := (b / 2 ^ (F.w + F.eb)) % 2 == 1
  let emax := 2 ^ F.eb - 1
  if e = 0 then FVal.dyadic s m F.qmin
  else if e = emax then
    if F.hasInf then (if m = 0 then .inf s else .nan)
    else if m = 2 ^ F.w - 1 then .nan
    else FVal.dyadic s (2 ^ F.w + m) (Int.ofNat e - F.bias - F.w)
  else FVal.dyadic s (2 ^ F.w + m) (Int.ofNat e - F.bias - F.w)

/-- The floor of the base-2 logarithm of `n / d`, `n` not 0. -/
def ilog2 (n d : Nat) : Int :=
  let k : Int := Int.ofNat n.log2 - Int.ofNat d.log2
  let ge := if 0 ≤ k then d * 2 ^ k.toNat ≤ n else d ≤ n * 2 ^ (-k).toNat
  if ge then k else k - 1

/-- Encodes a value that the format holds exactly; a NaN as the canonical one (R76). -/
def FloatFmt.encode (F : FloatFmt) : FVal → Nat
  | .nan => F.canon
  | .inf s => (if s then 2 ^ (F.w + F.eb) else 0) + (2 ^ F.eb - 1) * 2 ^ F.w
  | .fin s n d =>
    let sb := if s then 2 ^ (F.w + F.eb) else 0
    if n = 0 then sb
    else
      let e := ilog2 n d
      let q := max (e - F.w) F.qmin
      let m := if 0 ≤ q then n / (d * 2 ^ q.toNat) else (n * 2 ^ (-q).toNat) / d
      if m < 2 ^ F.w then sb + m
      else sb + (e + F.bias).toNat * 2 ^ F.w + (m - 2 ^ F.w)

/-- Rounds `n / d` to a multiple of `2^q`: the multiple, and whether it differs (R82, R84). -/
def roundSig (m : RMode) (neg : Bool) (n d : Nat) (q : Int) : Nat × Bool :=
  let n' := if 0 ≤ q then n else n * 2 ^ (-q).toNat
  let d' := if 0 ≤ q then d * 2 ^ q.toNat else d
  let f := n' / d'
  let r := n' % d'
  let up : Bool := match m with
    | .rne => decide (d' < 2 * r) || (decide (2 * r = d') && f % 2 == 1)
    | .rtz => false
    | .rdn => decide (r ≠ 0) && neg
    | .rup => decide (r ≠ 0) && !neg
    | .rna => decide (r ≠ 0 ∧ d' ≤ 2 * r)
    | .sto draw => decide (2 ^ 32 * d' ≤ r * 2 ^ 32 + draw.toNat * d')
  (if up then f + 1 else f, decide (r ≠ 0))

/-- A value smaller in magnitude than 2^-126 and not 0 (R86). -/
def tinyF32 (n d : Nat) : Bool := decide (n ≠ 0 ∧ n * 2 ^ 126 < d)

/-- Flushes an operand under FTZ (R86). -/
def ftzIn (ftz : Bool) : FVal → FVal
  | .fin s n d => if ftz && tinyF32 n d then .fin s 0 1 else .fin s n d
  | v => v

/-- The result of an overflow (R85). -/
def overflowTo (F : FloatFmt) (neg : Bool) (m : RMode) (sat : Bool) : FVal :=
  let big := FVal.dyadic neg F.maxM F.maxQ
  let beyond := if F.hasInf then FVal.inf neg else .nan
  if sat then big
  else match m with
    | .rtz => big
    | .rdn => if neg then beyond else big
    | .rup => if neg then big else beyond
    | _ => beyond

/-- RoundTo of R83: an exact value to a format. Operands are flushed before, by `ftzIn`. In stochastic mode Tiny rounds with
the draw of the result (log entry 117). -/
def roundTo (F : FloatFmt) (m : RMode) (sat ftz : Bool) : FVal → FVal × Flags
  | .nan => (.nan, 0)
  | .inf s =>
    if F.hasInf then (.inf s, 0)
    else if sat then (FVal.dyadic s F.maxM F.maxQ, 0)
    else (.nan, flagIV)
  | .fin s n d =>
    if n = 0 then (.fin s 0 1, 0)
    else
      let e := ilog2 n d
      let q := max (e - F.w) F.qmin
      let (k, inx) := roundSig m s n d q
      let y := FVal.dyadic s k q
      let beyond := if 0 ≤ q then decide (F.maxM * 2 ^ F.maxQ < k * 2 ^ q.toNat)
                  else decide (F.maxM * 2 ^ F.maxQ * 2 ^ (-q).toNat < k)
      if beyond then (overflowTo F s m sat, flagOF ||| flagNX)
      else
        let tinyOut := match y with
          | .fin _ yn yd => tinyF32 yn yd
          | _ => false
        if ftz && tinyOut then (.fin s 0 1, flagUF ||| flagNX)
        else
          let q0 := e - F.w
          let (k0, _) := roundSig m s n d q0
          -- the value rounded without a lower limit is below the least normal value (R83, Tiny)
          let emin : Int := 1 - Int.ofNat F.bias
          let tiny := decide (k0 ≠ 0) && (if emin ≤ q0 then false
            else decide (k0 < 2 ^ (emin - q0).toNat))
          (y, if inx then (if tiny then flagNX ||| flagUF else flagNX) else 0)

/-- Whether a rounding of this value consumes a draw in stochastic mode (R84). -/
def FVal.rounds : FVal → Bool
  | .fin _ n _ => decide (n ≠ 0)
  | _ => false

/-- The sum of two signed fractions. -/
def fracAdd (s1 : Bool) (n1 d1 : Nat) (s2 : Bool) (n2 d2 : Nat) : Bool × Nat × Nat :=
  let (a, b, d) :=
    if d1 = d2 then (n1, n2, d1)
    else if d1 % d2 = 0 then (n1, n2 * (d1 / d2), d1)
    else if d2 % d1 = 0 then (n1 * (d2 / d1), n2, d2)
    else (n1 * d2, n2 * d1, d1 * d2)
  if s1 = s2 then (s1, a + b, d)
  else if b ≤ a then (s1, a - b, d)
  else (s2, b - a, d)

/-- The exact sum, with the sign rule of an exact zero (R83); ∞ − ∞ raises IV (R87). -/
def fAdd (rdn : Bool) : FVal → FVal → FVal × Flags
  | .nan, _ => (.nan, 0)
  | _, .nan => (.nan, 0)
  | .inf s, .inf t => if s = t then (.inf s, 0) else (.nan, flagIV)
  | .inf s, .fin .. => (.inf s, 0)
  | .fin .., .inf t => (.inf t, 0)
  | .fin s1 n1 d1, .fin s2 n2 d2 =>
    let (s, n, d) := fracAdd s1 n1 d1 s2 n2 d2
    if n = 0 then
      if n1 = 0 ∧ n2 = 0 ∧ s1 = s2 then (.fin s1 0 1, 0) else (.fin rdn 0 1, 0)
    else (.fin s n d, 0)

/-- The exact product; 0 × ∞ raises IV (R87). -/
def fMul : FVal → FVal → FVal × Flags
  | .nan, _ => (.nan, 0)
  | _, .nan => (.nan, 0)
  | .inf s, .inf t => (.inf (s != t), 0)
  | .inf s, .fin t n _ => if n = 0 then (.nan, flagIV) else (.inf (s != t), 0)
  | .fin s n _, .inf t => if n = 0 then (.nan, flagIV) else (.inf (s != t), 0)
  | .fin s1 n1 d1, .fin s2 n2 d2 => (.fin (s1 != s2) (n1 * n2) (d1 * d2), 0)

/-- The exact a·b + c; 0 × ∞ raises IV even with a NaN addend (R129). -/
def fFma (rdn : Bool) (a b c : FVal) : FVal × Flags :=
  let (p, f) := fMul a b
  let (r, g) := fAdd rdn p c
  (r, f ||| g)

/-- The order of two values that are not NaN, with zeros equal: less, equal or greater. -/
def fOrd : FVal → FVal → Option Ordering
  | .nan, _ => none
  | _, .nan => none
  | .inf s, .inf t => some (if s = t then .eq else if s then .lt else .gt)
  | .inf s, .fin .. => some (if s then .lt else .gt)
  | .fin .., .inf t => some (if t then .gt else .lt)
  | .fin s1 n1 d1, .fin s2 n2 d2 =>
    let x : Int := if s1 then -Int.ofNat (n1 * d2) else Int.ofNat (n1 * d2)
    let y : Int := if s2 then -Int.ofNat (n2 * d1) else Int.ofNat (n2 * d1)
    some (if x < y then .lt else if x = y then .eq else .gt)

def fLt (a b : FVal) : Bool := fOrd a b == some .lt
def fLe (a b : FVal) : Bool := fOrd a b == some .lt || fOrd a b == some .eq

/-- The lesser of two values with −0 below +0 and NaN rules (R130). -/
def fMin (a b : FVal) : FVal :=
  if a.isNaN then b else if b.isNaN then a
  else if fLt a b then a else if fLt b a then b
  else if a.sign then a else b

/-- The greater of two values with −0 below +0 and NaN rules (R130). -/
def fMax (a b : FVal) : FVal :=
  if a.isNaN then b else if b.isNaN then a
  else if fLt b a then a else if fLt a b then b
  else if a.sign then b else a

/-- The quotient of two finite values as a fraction, the divisor not 0. -/
def fracDiv (s1 : Bool) (n1 d1 : Nat) (s2 : Bool) (n2 d2 : Nat) : FVal :=
  .fin (s1 != s2) (n1 * d2) (d1 * n2)

/-! Values of 32-bit registers and of narrow formats. -/

def f32 (b : Word) : FVal := fmtF32.decode b.toNat
def toF32 (v : FVal) : Word := BitVec.ofNat 32 (fmtF32.encode v)

/-- Rounds to f32 under RNE without saturation or flushing. -/
def rneF32 (v : FVal) : FVal × Flags := roundTo fmtF32 .rne false false v

/-! Fixed-point evaluation of the special functions. A value x is held as a whole number near x·2^fxBits. Each series
is cut far below the last bit kept, and 400 bits lie far beyond what an f32 rounding can turn on (log entry 11). -/

def fxBits : Nat := 400
def fxOne : Int := 2 ^ 400

/-- The fixed-point value of a signed fraction. -/
def toFx (neg : Bool) (n d : Nat) : Int :=
  let v : Int := Int.ofNat ((n * 2 ^ fxBits) / d)
  if neg then -v else v

def fxMul (a b : Int) : Int := (a * b) / fxOne
def fxDiv (a b : Int) : Int := (a * fxOne) / b

/-- Σ terms of e^r: `k` counts the terms left, `i` the index of the next factor. -/
def expSeries : Nat → Nat → Int → Int → Int → Int
  | 0, _, _, _, acc => acc
  | k + 1, i, r, term, acc =>
    let t := fxMul term r / Int.ofNat i
    expSeries k (i + 1) r t (acc + t)

/-- e^r for |r| at most 1. -/
def fxExpSmall (r : Int) : Int := expSeries 110 1 r fxOne fxOne

/-- Σ z^(2i+1)/(2i+1), with alternating signs when `alt`. -/
def atanhSeries : Nat → Nat → Bool → Int → Int → Int → Int
  | 0, _, _, _, _, acc => acc
  | k + 1, i, alt, z2, p, acc =>
    let t := p / Int.ofNat i
    atanhSeries k (i + 2) alt z2 (if alt then -(fxMul p z2) else fxMul p z2) (acc + t)

def fxAtanh (z : Int) : Int := atanhSeries 180 1 false (fxMul z z) z 0
def fxAtan (z : Int) : Int := atanhSeries 180 1 true (fxMul z z) z 0
/-- ln 2. -/
def fxLn2 : Int := 2 * fxAtanh (fxOne / 3)
/-- π, by Machin's formula. -/
def fxPi : Int := 16 * fxAtan (fxOne / 5) - 4 * fxAtan (fxOne / 239)

/-- 2^k · v for a whole k. -/
def fxShift (v : Int) (k : Int) : Int := if 0 ≤ k then v * 2 ^ k.toNat else v / 2 ^ (-k).toNat

/-- e^x. -/
def fxExp (x : Int) : Int :=
  let k := x / fxLn2
  fxShift (fxExpSmall (x - k * fxLn2)) k

/-- ln of the positive value n/d: the exponent and the logarithm of the rest. -/
def fxLn (n d : Nat) : Int :=
  let e := ilog2 n d
  let m := if 0 ≤ e then toFx false n (d * 2 ^ e.toNat) else toFx false (n * 2 ^ (-e).toNat) d
  e * fxLn2 + 2 * fxAtanh (fxDiv (m - fxOne) (m + fxOne))

/-- Σ of the sine series of y. -/
def sinSeries : Nat → Nat → Int → Int → Int → Int
  | 0, _, _, _, acc => acc
  | k + 1, i, y2, t, acc =>
    let t' := -(fxMul t y2) / Int.ofNat ((i + 1) * (i + 2))
    sinSeries k (i + 2) y2 t' (acc + t')

/-- sin(π·r) for r = n/d in [0, 1/2]. -/
def fxSinPi (n d : Nat) : Int :=
  let y := fxMul fxPi (toFx false n d)
  sinSeries 70 1 (fxMul y y) y y

/-- A fixed-point value that is not exact, as a value strictly between neighbours of the fixed-point grid. -/
def ofFx (v : Int) : FVal :=
  let w := 2 * v + 1
  .fin (decide (w < 0)) w.natAbs (2 ^ (fxBits + 1))

/-- The whole square root, bit by bit. -/
def isqrt : Nat → Nat → Nat → Nat
  | 0, _, r => r
  | k + 1, n, r =>
    let t := r + 2 ^ k
    isqrt k n (if t * t ≤ n then t else r)

/-- √(n/d): the exact root when there is one, else a value with a bit set far below. -/
def fracSqrt (n d : Nat) : FVal :=
  -- √(n/d) = √(n·d)/d
  let v := n * d * 2 ^ 600
  let r := isqrt (v.log2 / 2 + 2) v 0
  if r * r = v then .fin false r (d * 2 ^ 300) else .fin false (2 * r + 1) (d * 2 ^ 301)

/-- The special functions of R138 and R243. -/
inductive SFun where
  | rcp | rsq | sqrt | ex2 | lg2 | sinp | cosp | tanh | exp | log | sig
deriving DecidableEq, Repr

/-- Whether n/d is whole. -/
def isWhole (n d : Nat) : Bool := n % d == 0

/-- A finite argument clamped to magnitude 300: beyond it the rounded result does not change. -/
def clampArg (s : Bool) (n d : Nat) : Int := if 300 * d < n then toFx s 300 1 else toFx s n d

/-- The exact value of a special function, and the flags its special cases raise (R138, R243). -/
def SFun.value : SFun → FVal → FVal × Flags
  | _, .nan => (.nan, 0)
  | .rcp, .inf s => (.fin s 0 1, 0)
  | .rcp, .fin s n d => if n = 0 then (.inf s, flagDZ) else (.fin s d n, 0)
  | .rsq, .inf s => if s then (.nan, flagIV) else (.zero, 0)
  | .rsq, .fin s n d =>
    if n = 0 then (.inf s, flagDZ) else if s then (.nan, flagIV) else (fracSqrt d n, 0)
  | .sqrt, .inf s => if s then (.nan, flagIV) else (.inf false, 0)
  | .sqrt, .fin s n d =>
    if n = 0 then (.fin s 0 1, 0) else if s then (.nan, flagIV) else (fracSqrt n d, 0)
  | .ex2, .inf s => if s then (.zero, 0) else (.inf false, 0)
  | .ex2, .fin s n d =>
    if isWhole n d ∧ n / d ≤ 300 then
      (if s then .fin false 1 (2 ^ (n / d)) else .fin false (2 ^ (n / d)) 1, 0)
    else
      let x := clampArg s n d
      let k := x / fxOne
      (ofFx (fxShift (fxExpSmall (fxMul (x - k * fxOne) fxLn2)) k), 0)
  | .lg2, .inf s => if s then (.nan, flagIV) else (.inf false, 0)
  | .lg2, .fin s n d =>
    if n = 0 then (.inf true, flagDZ)
    else if s then (.nan, flagIV)
    else
      let e := ilog2 n d
      let whole := if 0 ≤ e then decide (n = d * 2 ^ e.toNat) else decide (n * 2 ^ (-e).toNat = d)
      if whole then (.fin (decide (e < 0)) e.natAbs 1, 0)
      else (ofFx (fxDiv (fxLn n d) fxLn2), 0)
  | .sinp, .inf _ => (.nan, flagIV)
  | .sinp, .fin s n d =>
    if isWhole n d then (.fin s 0 1, 0)
    else
      let r := n % (2 * d)            -- the argument modulo 2
      let flip := decide (d < r)      -- in (1, 2) the sine is the negative of that at r - 1
      let r1 := if flip then r - d else r
      let r2 := if d < 2 * r1 then d - r1 else r1
      let sg := s != flip
      if 2 * r2 = d then (.fin sg 1 1, 0)
      else
        let v := fxSinPi r2 d
        (ofFx (if sg then -v else v), 0)
  | .cosp, .inf _ => (.nan, flagIV)
  | .cosp, .fin _ n d =>
    let r := n % (2 * d)
    let r1 := if d < r then 2 * d - r else r      -- cos is even about 1
    if r1 = 0 then (.fin false 1 1, 0)
    else if r1 = d then (.fin true 1 1, 0)
    else if 2 * r1 = d then (.zero, 0)
    else if 2 * r1 < d then (ofFx (fxSinPi (d - 2 * r1) (2 * d)), 0)
    else (ofFx (-(fxSinPi (2 * r1 - d) (2 * d))), 0)
  | .tanh, .inf s => (.fin s 1 1, 0)
  | .tanh, .fin s n d =>
    if n = 0 then (.fin s 0 1, 0)
    else
      let e := fxExp (2 * (if 100 * d < n then toFx false 100 1 else toFx false n d))
      let v := fxDiv (e - fxOne) (e + fxOne)
      (ofFx (if s then -v else v), 0)
  | .exp, .inf s => if s then (.zero, 0) else (.inf false, 0)
  | .exp, .fin s n d => if n = 0 then (.fin false 1 1, 0) else (ofFx (fxExp (clampArg s n d)), 0)
  | .log, .inf s => if s then (.nan, flagIV) else (.inf false, 0)
  | .log, .fin s n d =>
    if n = 0 then (.inf true, flagDZ)
    else if s then (.nan, flagIV)
    else if n = d then (.zero, 0)
    else (ofFx (fxLn n d), 0)
  | .sig, .inf s => if s then (.zero, 0) else (.fin false 1 1, 0)
  | .sig, .fin s n d =>
    if n = 0 then (.fin false 1 2, 0)
    else if s then
      let e := fxExp (clampArg true n d)
      (ofFx (fxDiv e (fxOne + e)), 0)
    else
      let e := fxExp (if 100 * d < n then toFx true 100 1 else toFx true n d)
      (ofFx (fxDiv fxOne (fxOne + e)), 0)

/-- A special function rounded once to f32 with RNE (R138). -/
def SFun.apply (f : SFun) (sat ftz : Bool) (a : FVal) : FVal × Flags :=
  let (v, fl) := f.value (ftzIn ftz a)
  match v with
  | .inf s => (.inf s, fl)
  | v =>
    let (r, g) := roundTo fmtF32 .rne sat ftz v
    (r, fl ||| g)

/-! Formats with a cvt code. -/

/-- The floating formats among the cvt codes (R71). -/
def fmtFloat : Fmt → Option FloatFmt
  | .f32 => some fmtF32
  | .bf16 => some fmtBf16
  | .f16 => some fmtF16
  | .e4m3 => some fmtE4m3
  | .e5m2 => some fmtE5m2
  | _ => none

/-- Width and signedness of the integer formats (R71). -/
def fmtInt : Fmt → Option (Nat × Bool)
  | .i8 => some (8, true)
  | .i16 => some (16, true)
  | .i32 => some (32, true)
  | .n8 => some (8, false)
  | .n16 => some (16, false)
  | .n32 => some (32, false)
  | _ => none

/-- The E5M3 block scale: none for NaN (R74, R75). -/
def scaleValue (b : Nat) : Option (Nat × Nat) :=
  let e := (b / 8) % 32
  let m := b % 8
  if b % 256 = 255 then none
  else if e = 0 then some (m, 2 ^ 17)
  else some ((8 + m) * 2 ^ e, 2 ^ 18)

/-- The magnitude of a blk4 code's index, in eighths, for block types 01, 10 and 11 (R79). -/
def blk4Mag (type m : Nat) : Nat :=
  (match type with
    | 1 => [0, 4, 8, 12, 16, 24, 32, 48]
    | 2 => [0, 1, 2, 4, 8, 16, 32, 64]
    | _ => [0, 8, 16, 24, 32, 48, 64, 128]).getD m 0

/-- Decode(code) of a blk4 element (R79). -/
def blk4Code (type code : Nat) : FVal :=
  if type = 0 then
    let c := code % 16
    if c < 8 then .fin false c 1 else .fin true (16 - c) 1
  else .fin (decide (8 ≤ code % 16)) (blk4Mag type (code % 8)) 8

/-- Whether a block header is bad for its format (R77). -/
def badHeader (blk8 : Bool) (h : Nat) : Bool :=
  decide (h / 1024 % 64 ≠ 0) || (blk8 && decide (h / 256 % 4 ≠ 0))

/-- The value of one element of a block (R78, R79, R81). -/
def blockElem (blk8 : Bool) (h code : Nat) : FVal :=
  let c := if blk8 then fmtE4m3.decode (code % 256) else blk4Code (h / 256 % 4) code
  match scaleValue h, c with
  | none, _ => .nan
  | _, .nan => .nan
  | _, .inf s => .inf s
  | some (sn, sd), .fin s n d => .fin s (sn * n) (sd * d)

/-- The signed whole number of an integer format held in the low bits (R73). -/
def intOf (w : Nat) (signed : Bool) (b : Nat) : Int :=
  let v := b % 2 ^ w
  if signed ∧ 2 ^ (w - 1) ≤ v then Int.ofNat v - 2 ^ w else Int.ofNat v

/-- The ends of an integer format's range. -/
def intRange (w : Nat) (signed : Bool) : Int × Int :=
  if signed then (-(2 ^ (w - 1)), 2 ^ (w - 1) - 1) else (0, 2 ^ w - 1)

/-- Clamps a whole number. -/
def clampInt (r : Int × Int) (v : Int) : Int := if v < r.1 then r.1 else if r.2 < v then r.2 else v

/-- A value rounded to a whole number (R88, R131). -/
def roundWhole (m : RMode) (s : Bool) (n d : Nat) : Nat × Bool := roundSig m s n d 0

/-- Floating to integer (R88). -/
def floatToInt (w : Nat) (signed : Bool) (m : RMode) : FVal → Word × Flags
  | .nan => (0, flagIV)
  | .inf s => (BitVec.ofInt 32 (if s then (intRange w signed).1 else (intRange w signed).2), flagIV)
  | .fin s n d =>
    let (k, inx) := roundWhole m s n d
    let v : Int := if s then -Int.ofNat k else Int.ofNat k
    let c := clampInt (intRange w signed) v
    if c = v then (BitVec.ofInt 32 v, if inx then flagNX else 0) else (BitVec.ofInt 32 c, flagIV)

/-- The value of a source register read in a format (R73, R75, R136); none for a bad block header. -/
def srcFloat (F : Fmt) (b : Word) : Option FVal :=
  match F with
  | .blk4 => if badHeader false (b.toNat / 65536) then none else some (blockElem false (b.toNat / 65536) (b.toNat % 16))
  | .blk8 => if badHeader true (b.toNat / 65536) then none else some (blockElem true (b.toNat / 65536) (b.toNat % 256))
  | F => match fmtFloat F with
    | some G => some (G.decode (b.toNat % 2 ^ (G.w + G.eb + 1)))
    | none => some .nan

/-- Whether converting this source rounds and so draws in stochastic mode (R84, R88): the widenings that R88 lists do not (log
entry 123). -/
def cvtDraws (dst src : Fmt) (ftz : Bool) (b : Word) : Bool :=
  match fmtInt src, fmtFloat dst with
  | some (w, sg), some _ => decide (intOf w sg b.toNat ≠ 0)
  | some _, none => false
  | none, df =>
    match srcFloat src b with
    | some v =>
      let exactWiden := match df with
        | none => false
        | some _ => dst == src || (dst == .f32 && (fmtFloat src).isSome) || (dst == .f16 && src == .e4m3)
      !exactWiden && (ftzIn ftz v).rounds
    | none => false

/-- Conversion of one value (R88, R135): the register result and flags, or none for a bad block header. -/
def convert (dst src : Fmt) (m : RMode) (sat ftz : Bool) (b : Word) : Option (Word × Flags) :=
  match fmtInt src with
  | some (w, sg) =>
    let v := intOf w sg b.toNat
    match fmtInt dst with
    | some (w', sg') =>
      let c := if sat && dst != src then clampInt (intRange w' sg') v else intOf w' sg' (BitVec.ofInt 32 v).toNat
      some (BitVec.ofInt 32 c, 0)
    | none => match fmtFloat dst with
      | some G =>
        let (r, f) := roundTo G m sat ftz (.fin (decide (v < 0)) v.natAbs 1)
        some (BitVec.ofNat 32 (G.encode r), f)
      | none => some (0, 0)
  | none =>
    match srcFloat src b with
    | none => none
    | some v0 =>
      let v := ftzIn ftz v0
      match fmtInt dst with
      | some (w', sg') => some (floatToInt w' sg' m v)
      | none => match fmtFloat dst with
        | some G =>
          let (r, f) := roundTo G m sat ftz v
          some (BitVec.ofNat 32 (G.encode r), f)
        | none => some (0, 0)

end Sys2Proof.Machine
end

