-- ==== Sys2Proof/Config.lean ====
section
/-!
DEFINITION. What the manual leaves open, as opaque constants: nothing can evaluate them or prove a value of them, so a
statement about one holds for every value. They are applied to the operands they depend on, or to the counter
`State.freeCtr`, which a use reads and advances (log entry 3).
-/

namespace Sys2Proof.Config

/-- A free 64-bit value, fresh for each value of the counter it is applied to (log entry 3). -/
opaque freeValue : Nat → BitVec 64

/-- The bytes of an encoded slice of a frame: die, head, the slice's luma samples and its two planes of chroma samples as
fractions, number of the slice (R392; log entry 18). -/
opaque slicePayload : Nat → Nat → List (List (Int × Nat)) → List (List (Int × Nat)) → List (List (Int × Nat)) → Nat →
  List Byte

/-- The device certificate chain of slot 0, signed at manufacture (R421; log entry 17). -/
opaque certificateChain : List Byte

/-- The bytes of a firmware image: its signature field, and the image with that field excluded, whose places the manual does
not state (R420, R421; log entry 16). -/
opaque imageBytes : Nat → List Byte → List Byte

/-- How an Efler hart translates an address: its page tables are not described (R437; log entry 20). -/
opaque hartPa : Nat → BitVec 64 → Option Nat

/-- What a response of the SPDM responder holds beside measurements: request code, parameter, and the counter
`State.freeCtr` (R421 names the messages and not their layout; log entry 17). -/
opaque spdmBody : Nat → BitVec 8 → Nat → List Byte

/-- The version of the boot ROM, as measurement 1 reports it (R421 gives no value; log entry 17). -/
opaque bootRomVersion : Nat

/-- The bytes of a public key's modulus and exponent whose digest the fuses hold (R420 does not lay them out; log
entry 16). -/
opaque keyBytes : Nat → Nat → List Byte

/-- The ranges, first address and bytes, that the fields of a firmware-defined packet name: the manual does not lay such
packets out (R350, R387; log entry 21). -/
opaque firmwareRanges : List Byte → List (Nat × Nat)

/-- The key digest of each fused slot that has not been revoked: the fuses are not in the spec (R420; log entry 16). -/
opaque fusedKeyDigest : Fin 4 → Option (BitVec 512)

/-- The fused minimum security version (R420; log entry 16). -/
opaque fusedMinVersion : Nat

/-- The features the device offers: FEATOFF bits [11:0] (R422 gives no value; log entry 22). -/
opaque featOff : BitVec 12

end Sys2Proof.Config
end

