-- ==== Sys2Proof/WellFormed.lean ====
section
/-!
DEFINITION. Well-formed instructions: the operand rules that the operand types do not carry already (R30, R31, R39,
R45, R51, R55, R57, R58, R61, R135, R272). An instruction that is not well formed has no encoding that the core runs.
-/

namespace Sys2Proof

/-- The flag field names a flag or none (R39). -/
def hdrOk (h : Hdr) : Bool := decide (h.setf.toNat ≤ 11) || h.setf == 15#4

/-- Numbers of the special registers (R31). -/
def srNumbers : List Nat :=
  [0x000, 0x001, 0x002, 0x003, 0x004, 0x005, 0x006, 0x007, 0x008, 0x010, 0x011, 0x018, 0x019, 0x020, 0x021,
   0x028, 0x029, 0x02A, 0x02B, 0x02C, 0x030, 0x031, 0x032, 0x033, 0x038, 0x039, 0x03A, 0x040, 0x041]

/-- Special registers marked RW (R31). -/
def srWritableNumbers : List Nat := [0x018, 0x019, 0x020, 0x021, 0x028, 0x029, 0x02A, 0x02B, 0x038, 0x039]

/-- An assigned special-register number. -/
def srKnown (n : BitVec 12) : Bool := srNumbers.contains n.toNat
/-- A wave-scope special register, which `srd` may read (R30). -/
def srReadable (n : BitVec 12) : Bool := srKnown n && decide (2 ≤ n.toNat)
/-- A register `swr` may write (R30). -/
def srWritable (n : BitVec 12) : Bool := srWritableNumbers.contains n.toNat

/-- A timeline selector in range: stacks 0 to 23 (R272). -/
def selOk : Timeline → Bool
  | .copy => true
  | .trav => true
  | .nmv k => decide (k.toNat < 24)

/-- A timeline that carries promises (R274). -/
def selPromise : Timeline → Bool
  | .copy => true
  | .trav => true
  | .nmv _ => false

/-- The block formats, which `cvt` does not write (R135). -/
def isBlockFmt : Fmt → Bool
  | .blk4 => true
  | .blk8 => true
  | _ => false

/-- The bank of a register of a dual word (R55). -/
def bankOf (r : BitVec 8) : Nat := r.toNat % 4

/-- Which part of R57 lets a word follow a prefix. -/
inductive PairClass where
  | arith | load | store
deriving DecidableEq, Repr

/-- The class of a word that may follow a prefix, with its predicate (R57). -/
def pairClass : Instr → Option (Ctl × PairClass)
  | .vadd c _ _ _ => some (c, .arith)
  | .vsub c _ _ _ => some (c, .arith)
  | .vmul c _ _ _ => some (c, .arith)
  | .vmulh c _ _ _ => some (c, .arith)
  | .vmulhu c _ _ _ => some (c, .arith)
  | .vmad c _ _ _ => some (c, .arith)
  | .vand c _ _ _ => some (c, .arith)
  | .vor c _ _ _ => some (c, .arith)
  | .vxor c _ _ _ => some (c, .arith)
  | .vshl c _ _ _ => some (c, .arith)
  | .vshr c _ _ _ => some (c, .arith)
  | .vsra c _ _ _ => some (c, .arith)
  | .vmin c _ _ _ => some (c, .arith)
  | .vmax c _ _ _ => some (c, .arith)
  | .vminu c _ _ _ => some (c, .arith)
  | .vmaxu c _ _ _ => some (c, .arith)
  | .vaddi c _ _ _ => some (c, .arith)
  | .vandi c _ _ _ => some (c, .arith)
  | .vori c _ _ _ => some (c, .arith)
  | .vxori c _ _ _ => some (c, .arith)
  | .vshli c _ _ _ => some (c, .arith)
  | .vshri c _ _ _ => some (c, .arith)
  | .vsrai c _ _ _ => some (c, .arith)
  | .vli c _ _ => some (c, .arith)
  | .vmov c _ _ => some (c, .arith)
  | .vmovs c _ _ => some (c, .arith)
  | .vaddp c _ _ _ => some (c, .arith)
  | .vclz c _ _ => some (c, .arith)
  | .vpopc c _ _ => some (c, .arith)
  | .vbfe c _ _ _ _ => some (c, .arith)
  | .vsel c _ _ _ => some (c, .arith)
  | .vcmp c _ _ _ _ => some (c, .arith)
  | .vcmpi c _ _ _ _ => some (c, .arith)
  | .vdot4 c _ _ _ => some (c, .arith)
  | .fadd c _ _ _ => some (c, .arith)
  | .fsub c _ _ _ => some (c, .arith)
  | .fmul c _ _ _ => some (c, .arith)
  | .ffma c _ _ _ => some (c, .arith)
  | .fmin c _ _ _ => some (c, .arith)
  | .fmax c _ _ _ => some (c, .arith)
  | .fabs c _ _ => some (c, .arith)
  | .fneg c _ _ => some (c, .arith)
  | .fcpsgn c _ _ _ => some (c, .arith)
  | .frnd c _ _ => some (c, .arith)
  | .fcmp c _ _ _ _ => some (c, .arith)
  | .hadd c _ _ _ => some (c, .arith)
  | .hmul c _ _ _ => some (c, .arith)
  | .hfma c _ _ _ => some (c, .arith)
  | .badd c _ _ _ => some (c, .arith)
  | .bmul c _ _ _ => some (c, .arith)
  | .bfma c _ _ _ => some (c, .arith)
  | .fdot2h c _ _ _ => some (c, .arith)
  | .fdot2b c _ _ _ => some (c, .arith)
  | .cvt c _ _ _ _ => some (c, .arith)
  | .packh c _ _ _ => some (c, .arith)
  | .packb c _ _ _ => some (c, .arith)
  | .frcp c _ _ => some (c, .arith)
  | .frsq c _ _ => some (c, .arith)
  | .fsqrt c _ _ => some (c, .arith)
  | .fex2 c _ _ => some (c, .arith)
  | .flg2 c _ _ => some (c, .arith)
  | .fsinp c _ _ => some (c, .arith)
  | .fcosp c _ _ => some (c, .arith)
  | .ftanh c _ _ => some (c, .arith)
  | .vperm c _ _ _ => some (c, .arith)
  | .vshfl c _ _ _ _ => some (c, .arith)
  | .vbcast c _ _ _ => some (c, .arith)
  | .vred c _ _ _ => some (c, .arith)
  | .vscan c _ _ _ _ => some (c, .arith)
  | .vhperm c _ _ _ => some (c, .arith)
  | .vrand c _ => some (c, .arith)
  | .vrandf c _ => some (c, .arith)
  | .vrseed c _ => some (c, .arith)
  | .ldvB8z c _ _ _ _ _ _ => some (c, .load)
  | .ldvB8s c _ _ _ _ _ _ => some (c, .load)
  | .ldvB16z c _ _ _ _ _ _ => some (c, .load)
  | .ldvB16s c _ _ _ _ _ _ => some (c, .load)
  | .ldvB32 c _ _ _ _ _ _ => some (c, .load)
  | .ldvB64 c _ _ _ _ _ _ => some (c, .load)
  | .ldvB128 c _ _ _ _ _ _ => some (c, .load)
  | .stvB8 c _ _ _ _ _ _ => some (c, .store)
  | .stvB16 c _ _ _ _ _ _ => some (c, .store)
  | .stvB32 c _ _ _ _ _ _ => some (c, .store)
  | .stvB64 c _ _ _ _ _ _ => some (c, .store)
  | .stvB128 c _ _ _ _ _ _ => some (c, .store)
  | .wnop => none
  | .ldn => none
  | .tbox => none
  | .wSort => none
  | .pushc => none
  | .wNext => none
  | .ttri => none
  | .wHit => none
  | .wPop => none
  | .brc _ _ _ => none
  | .callout _ => none
  | .wDone => none
  | .xform _ _ _ => none
  | .ipop => none
  | .cull => none
  | .sett _ _ => none
  | .dualWord _ _ _ _ _ _ _ _ => none
  | .prefixedPair _ _ => none
  | .nop _ => none
  | .bra _ _ _ _ => none
  | .call _ _ _ => none
  | .jr _ _ => none
  | .loop _ _ _ => none
  | .split _ _ _ _ => none
  | .jmpv _ _ => none
  | .sync _ => none
  | .exit _ => none
  | .yield _ => none
  | .sleep _ _ _ => none
  | .trap _ _ => none
  | .upcall _ _ _ _ => none
  | .elect _ _ => none
  | .setprio _ _ => none
  | .qany _ _ _ => none
  | .qall _ _ _ => none
  | .qnone _ _ _ => none
  | .qcmp _ _ _ _ _ => none
  | .qcmpi _ _ _ _ _ => none
  | .qop _ _ _ _ _ => none
  | .srd _ _ _ => none
  | .swr _ _ _ => none
  | .vsrd _ _ _ => none
  | .sadd _ _ _ _ => none
  | .ssub _ _ _ _ => none
  | .smul _ _ _ _ => none
  | .smulh _ _ _ _ => none
  | .sdiv _ _ _ _ => none
  | .sdivu _ _ _ _ => none
  | .srem _ _ _ _ => none
  | .sremu _ _ _ _ => none
  | .sand _ _ _ _ => none
  | .sor _ _ _ _ => none
  | .sxor _ _ _ _ => none
  | .sshl _ _ _ _ => none
  | .sshr _ _ _ _ => none
  | .ssra _ _ _ _ => none
  | .smin _ _ _ _ => none
  | .smax _ _ _ _ => none
  | .sminu _ _ _ _ => none
  | .smaxu _ _ _ _ => none
  | .saddi _ _ _ _ => none
  | .sandi _ _ _ _ => none
  | .sori _ _ _ _ => none
  | .sxori _ _ _ _ => none
  | .sshli _ _ _ _ => none
  | .sshri _ _ _ _ => none
  | .ssrai _ _ _ _ => none
  | .sli _ _ _ => none
  | .slui _ _ _ => none
  | .smov _ _ _ => none
  | .saddp _ _ _ _ => none
  | .sclz _ _ _ => none
  | .spopc _ _ _ => none
  | .sbfe _ _ _ _ _ => none
  | .mand _ _ _ _ => none
  | .mor _ _ _ _ => none
  | .mxor _ _ _ _ => none
  | .mandn _ _ _ _ => none
  | .mnot _ _ _ => none
  | .mfroms _ _ _ => none
  | .mtos _ _ _ => none
  | .mpopc _ _ _ => none
  | .mffs _ _ _ => none
  | .ldsB32 _ _ _ _ _ _ _ => none
  | .ldsB64 _ _ _ _ _ _ _ => none
  | .ldsB128 _ _ _ _ _ _ _ => none
  | .stsB32 _ _ _ _ _ _ _ => none
  | .stsB64 _ _ _ _ _ _ _ => none
  | .ldlB32 _ _ _ _ _ _ _ => none
  | .ldlB128 _ _ _ _ _ _ _ => none
  | .stlB32 _ _ _ _ _ _ _ => none
  | .stlB128 _ _ _ _ _ _ _ => none
  | .atomAddB32 _ _ _ _ _ _ _ => none
  | .atomMinB32 _ _ _ _ _ _ _ => none
  | .atomMaxB32 _ _ _ _ _ _ _ => none
  | .atomMinuB32 _ _ _ _ _ _ _ => none
  | .atomMaxuB32 _ _ _ _ _ _ _ => none
  | .atomAndB32 _ _ _ _ _ _ _ => none
  | .atomOrB32 _ _ _ _ _ _ _ => none
  | .atomXorB32 _ _ _ _ _ _ _ => none
  | .atomXchgB32 _ _ _ _ _ _ _ => none
  | .casB32 _ _ _ _ _ _ _ => none
  | .atomfAddF32 _ _ _ _ _ _ _ => none
  | .atomfAddBf16x2 _ _ _ _ _ _ _ => none
  | .atomAddB64 _ _ _ _ _ _ _ => none
  | .atomMinB64 _ _ _ _ _ _ _ => none
  | .atomMaxB64 _ _ _ _ _ _ _ => none
  | .atomMinuB64 _ _ _ _ _ _ _ => none
  | .atomMaxuB64 _ _ _ _ _ _ _ => none
  | .atomAndB64 _ _ _ _ _ _ _ => none
  | .atomOrB64 _ _ _ _ _ _ _ => none
  | .atomXorB64 _ _ _ _ _ _ _ => none
  | .atomXchgB64 _ _ _ _ _ _ _ => none
  | .casB64 _ _ _ _ _ _ _ => none
  | .atomsAddB32 _ _ _ _ _ _ _ => none
  | .atomsMinB32 _ _ _ _ _ _ _ => none
  | .atomsMaxB32 _ _ _ _ _ _ _ => none
  | .atomsMinuB32 _ _ _ _ _ _ _ => none
  | .atomsMaxuB32 _ _ _ _ _ _ _ => none
  | .atomsAndB32 _ _ _ _ _ _ _ => none
  | .atomsOrB32 _ _ _ _ _ _ _ => none
  | .atomsXorB32 _ _ _ _ _ _ _ => none
  | .atomsXchgB32 _ _ _ _ _ _ _ => none
  | .cassB32 _ _ _ _ _ _ _ => none
  | .atomlAddB32 _ _ _ _ _ _ _ => none
  | .atomlMinB32 _ _ _ _ _ _ _ => none
  | .atomlMaxB32 _ _ _ _ _ _ _ => none
  | .atomlMinuB32 _ _ _ _ _ _ _ => none
  | .atomlMaxuB32 _ _ _ _ _ _ _ => none
  | .atomlAndB32 _ _ _ _ _ _ _ => none
  | .atomlOrB32 _ _ _ _ _ _ _ => none
  | .atomlXorB32 _ _ _ _ _ _ _ => none
  | .atomlXchgB32 _ _ _ _ _ _ _ => none
  | .caslB32 _ _ _ _ _ _ _ => none
  | .fence _ _ _ _ => none
  | .monitor _ _ _ _ _ => none
  | .mwait _ _ _ _ _ _ _ => none
  | .pf _ _ _ _ _ => none
  | .cwb _ _ _ _ _ => none
  | .cinv _ _ _ _ _ => none
  | .barSync _ _ _ => none
  | .barArrive _ _ _ => none
  | .barWait _ _ _ => none
  | .rte _ => none
  | .brk _ _ => none
  | .mma _ _ _ _ => none
  | .mmas _ _ _ _ => none
  | .macz _ _ => none
  | .macld _ _ _ _ => none
  | .macst _ _ _ _ => none
  | .mepiScale _ _ _ _ => none
  | .mepiBiasRow _ _ _ _ => none
  | .mepiBiasCol _ _ _ _ => none
  | .mepiRelu _ _ _ _ => none
  | .mepiClamp _ _ _ _ => none
  | .mepiAdd _ _ _ _ => none
  | .mepiDeq _ _ _ _ => none
  | .batonTake _ _ => none
  | .batonPass _ _ => none
  | .mquery _ _ _ => none
  | .mqueryFlagsc _ _ => none
  | .tld _ _ _ => none
  | .tconst _ _ _ => none
  | .tiota _ _ _ => none
  | .tmapTr _ _ _ => none
  | .tmapSlice _ _ _ _ => none
  | .tmapBcr _ _ _ _ => none
  | .tmapBcc _ _ _ _ => none
  | .tmapRevr _ _ _ => none
  | .tmapRevc _ _ _ => none
  | .tmapShift _ _ _ _ => none
  | .tadd _ _ _ _ => none
  | .tsub _ _ _ _ => none
  | .tmul _ _ _ _ => none
  | .tmax _ _ _ _ => none
  | .tmin _ _ _ _ => none
  | .texp _ _ _ => none
  | .tlog _ _ _ => none
  | .trcp _ _ _ => none
  | .tsig _ _ _ => none
  | .tselm _ _ _ _ _ => none
  | .tscan _ _ _ _ => none
  | .tred _ _ _ _ => none
  | .tmma _ _ _ _ _ => none
  | .tcvt _ _ _ _ => none
  | .tst _ _ _ => none
  | .tforce _ _ _ => none
  | .tdrop _ _ => none
  | .tcfg _ _ => none
  | .tstatCounts _ _ => none
  | .tstatCap _ _ => none
  | .tstatNode _ _ _ => none
  | .tstatFault _ _ => none
  | .cpy _ _ _ => none
  | .cpym _ _ _ => none
  | .cpyx _ _ _ => none
  | .tlwait _ _ _ => none
  | .tlrd _ _ _ => none
  | .waitp _ _ _ => none
  | .bankcfg _ _ => none
  | .fpush _ _ => none
  | .fpop _ _ _ => none
  | .portcfg _ _ _ => none
  | .cbarArrive _ _ => none
  | .cbarWait _ _ => none
  | .rbind _ _ _ _ => none
  | .rtrace _ _ _ => none
  | .rsave _ => none
  | .rresume _ _ _ => none
  | .rquery _ _ _ => none
  | .launch _ _ => none
  | .tenq _ _ => none
  | .rnext _ _ _ => none
  | .recalloc _ _ _ => none
  | .recsend _ _ => none
  | .gate _ => none
  | .release _ => none
  | .qclaim _ _ _ => none
  | .pemit _ _ => none
  | .pxout _ _ _ => none
  | .nmv _ _ _ => none
  | .sleepExpire _ => none
  | .batonTransfer _ => none
  | .matrixCommandStart _ => none
  | .accumulatorTileFill _ _ => none
  | .matrixCommandComplete _ => none
  | .demandOutputStep _ => none
  | .demandComplete _ => none
  | .viewCapture _ => none
  | .bankModeChangeDone _ _ => none
  | .fifoPushJoin _ _ => none
  | .fifoPopServe _ _ => none
  | .creditReturn _ _ => none
  | .portReadServe _ _ => none
  | .copyRequestComplete _ => none
  | .followOnEnqueue _ => none
  | .promisedTimeReached _ => none
  | .rbindApply _ => none
  | .rayStart _ => none
  | .nodeFetchReturn _ => none
  | .rayWriteback _ => none
  | .traversalRequestComplete _ => none
  | .nmvRequestComplete _ => none
  | .pixelWaveLaunch _ _ _ => none
  | .aggregatorWindowClose _ _ => none
  | .taskStart _ => none
  | .rangeTaskSplit _ => none
  | .batchTimeout _ _ => none
  | .batchGroupEnd _ => none
  | .cohortPlacement _ _ => none
  | .waveEnd _ => none
  | .registerLineFill _ _ => none
  | .wavePromotion _ _ => none
  | .fixedLatencyComplete _ _ => none
  | .loadComplete _ _ => none
  | .storePerformed _ _ => none
  | .rmwPerformed _ _ => none
  | .fenceComplete _ _ => none
  | .mwaitWake _ => none
  | .waitPoll _ => none
  | .trapDelivery _ => none
  | .pageWalk _ _ _ _ => none
  | .tlbiGo _ _ => none
  | .tlbiComplete _ => none
  | .preempt _ _ => none
  | .contextHalt _ _ => none
  | .controlStateSwap _ _ _ => none
  | .shadowStoreDrain _ => none
  | .restore _ _ _ => none
  | .waveEvict _ => none
  | .l2LineFill _ => none
  | .packetPromotion _ _ _ _ => none
  | .tailFilterReport _ => none
  | .launchPacket _ => none
  | .launchStart _ => none
  | .launchComplete _ => none
  | .graphDispatch _ => none
  | .drawGraph _ => none
  | .dependency _ => none
  | .dependencySatisfied _ _ => none
  | .timelineSignal _ => none
  | .timelineWait _ => none
  | .timelineWaitSatisfied _ _ => none
  | .handleDeclaration _ => none
  | .noOp _ => none
  | .firmwareDefinedPacket _ => none
  | .queueRestart _ => none
  | .qcbinv _ _ => none
  | .mbdone _ _ => none
  | .mailboxPost _ => none
  | .mailboxActionApply _ _ => none
  | .contextCreate _ => none
  | .windowDerive _ _ _ _ _ _ => none
  | .windowInvalidate _ _ => none
  | .capabilityAccess _ _ _ _ _ => none
  | .doorbellWrite _ => none
  | .queueTableFault _ => none
  | .queueErrorNotice _ => none
  | .partitionCreate _ _ => none
  | .partitionResize _ _ _ => none
  | .surfWrite _ _ _ => none
  | .verticalBlank _ _ => none
  | .sliceEncodeComplete _ _ => none
  | .flitCrcRetry _ _ => none
  | .linkRetrain _ _ => none
  | .linkRecover _ _ => none
  | .linkDown _ _ => none
  | .cecntClear _ _ _ => none
  | .dramPatrol _ => none
  | .governorTick _ => none
  | .coolantLimit _ => none
  | .coolantShutdown => none
  | .peerRequest _ => none
  | .peerUnreachable _ => none
  | .hostWrite _ _ _ => none
  | .hostRead _ _ => none
  | .feataccWrite _ => none
  | .shardFetch _ _ _ => none
  | .shardVerify _ _ _ => none
  | .shardFetchComplete _ _ => none
  | .shardScrub _ => none
  | .boot _ => none
  | .getVersion _ _ => none
  | .getCapabilities _ _ => none
  | .negotiateAlgorithms _ _ => none
  | .getDigests _ _ => none
  | .getCertificate _ _ => none
  | .challenge _ _ => none
  | .getMeasurements _ _ => none
  | .registerWrite _ _ _ => none
  | .eflerAccess _ _ => none
  | .hostAtomic _ _ _ => none
  | .peerPortDown _ => none
  | .recoveryImage _ => none

/-- The prefix suits the class of the word it stands before (R58). -/
def pfxOk (x : Pfx) : PairClass → Bool
  | .arith => true
  | .load => x.rnd == .rne && !x.ftz && !x.sat && x.c == 0
  | .store => !x.zero && x.rnd == .rne && !x.ftz && !x.sat && x.c == 0

/-- The operand rules of a walk micro-operation and of a word that is not a pair. -/
def wellFormedWord : Instr → Bool
  | .nop c => hdrOk c.h
  | .bra c _ _ _ => hdrOk c.h
  | .call c _ _ => hdrOk c.h
  | .jr c _ => hdrOk c.h
  | .loop c _ _ => hdrOk c.h
  | .split c _ _ _ => hdrOk c.h
  | .jmpv c _ => hdrOk c.h
  | .sync c => hdrOk c.h
  | .exit c => hdrOk c.h
  | .yield c => hdrOk c.h
  | .sleep c _ _ => hdrOk c.h
  | .trap c _ => hdrOk c.h
  | .upcall c d a _ => hdrOk c.h && decide (d.toNat + 4 ≤ 256) && decide (a.toNat + 4 ≤ 256)
  | .elect c _ => hdrOk c.h
  | .setprio c _ => hdrOk c.h
  | .qany c _ _ => hdrOk c.h
  | .qall c _ _ => hdrOk c.h
  | .qnone c _ _ => hdrOk c.h
  | .qcmp c _ _ _ _ => hdrOk c.h
  | .qcmpi c _ _ _ _ => hdrOk c.h
  | .qop c _ _ _ _ => hdrOk c.h
  | .srd c _ spec => hdrOk c.h && srReadable spec
  | .swr c _ spec => hdrOk c.h && srWritable spec
  | .vsrd c _ spec => hdrOk c.h && srKnown spec
  | .sadd c _ _ _ => hdrOk c.h
  | .ssub c _ _ _ => hdrOk c.h
  | .smul c _ _ _ => hdrOk c.h
  | .smulh c _ _ _ => hdrOk c.h
  | .sdiv c _ _ _ => hdrOk c.h
  | .sdivu c _ _ _ => hdrOk c.h
  | .srem c _ _ _ => hdrOk c.h
  | .sremu c _ _ _ => hdrOk c.h
  | .sand c _ _ _ => hdrOk c.h
  | .sor c _ _ _ => hdrOk c.h
  | .sxor c _ _ _ => hdrOk c.h
  | .sshl c _ _ _ => hdrOk c.h
  | .sshr c _ _ _ => hdrOk c.h
  | .ssra c _ _ _ => hdrOk c.h
  | .smin c _ _ _ => hdrOk c.h
  | .smax c _ _ _ => hdrOk c.h
  | .sminu c _ _ _ => hdrOk c.h
  | .smaxu c _ _ _ => hdrOk c.h
  | .saddi c _ _ _ => hdrOk c.h
  | .sandi c _ _ _ => hdrOk c.h
  | .sori c _ _ _ => hdrOk c.h
  | .sxori c _ _ _ => hdrOk c.h
  | .sshli c _ _ _ => hdrOk c.h
  | .sshri c _ _ _ => hdrOk c.h
  | .ssrai c _ _ _ => hdrOk c.h
  | .sli c _ _ => hdrOk c.h
  | .slui c _ _ => hdrOk c.h
  | .smov c _ _ => hdrOk c.h
  | .saddp c d a b => hdrOk c.h && d.toNat % 2 == 0 && a.toNat % 2 == 0 && b.toNat % 2 == 0
  | .sclz c _ _ => hdrOk c.h
  | .spopc c _ _ => hdrOk c.h
  | .sbfe c _ _ _ _ => hdrOk c.h
  | .mand c _ _ _ => hdrOk c.h
  | .mor c _ _ _ => hdrOk c.h
  | .mxor c _ _ _ => hdrOk c.h
  | .mandn c _ _ _ => hdrOk c.h
  | .mnot c _ _ => hdrOk c.h
  | .mfroms c _ a => hdrOk c.h && a.toNat % 2 == 0
  | .mtos c d _ => hdrOk c.h && d.toNat % 2 == 0
  | .mpopc c _ _ => hdrOk c.h
  | .mffs c _ _ => hdrOk c.h
  | .vadd c _ _ _ => hdrOk c.h
  | .vsub c _ _ _ => hdrOk c.h
  | .vmul c _ _ _ => hdrOk c.h
  | .vmulh c _ _ _ => hdrOk c.h
  | .vmulhu c _ _ _ => hdrOk c.h
  | .vmad c _ _ _ => hdrOk c.h
  | .vand c _ _ _ => hdrOk c.h
  | .vor c _ _ _ => hdrOk c.h
  | .vxor c _ _ _ => hdrOk c.h
  | .vshl c _ _ _ => hdrOk c.h
  | .vshr c _ _ _ => hdrOk c.h
  | .vsra c _ _ _ => hdrOk c.h
  | .vmin c _ _ _ => hdrOk c.h
  | .vmax c _ _ _ => hdrOk c.h
  | .vminu c _ _ _ => hdrOk c.h
  | .vmaxu c _ _ _ => hdrOk c.h
  | .vaddi c _ _ _ => hdrOk c.h
  | .vandi c _ _ _ => hdrOk c.h
  | .vori c _ _ _ => hdrOk c.h
  | .vxori c _ _ _ => hdrOk c.h
  | .vshli c _ _ _ => hdrOk c.h
  | .vshri c _ _ _ => hdrOk c.h
  | .vsrai c _ _ _ => hdrOk c.h
  | .vli c _ _ => hdrOk c.h
  | .vmov c _ _ => hdrOk c.h
  | .vmovs c _ _ => hdrOk c.h
  | .vaddp c d a b => hdrOk c.h && d.toNat % 2 == 0 && a.toNat % 2 == 0 && b.toNat % 2 == 0
  | .vclz c _ _ => hdrOk c.h
  | .vpopc c _ _ => hdrOk c.h
  | .vbfe c _ _ _ _ => hdrOk c.h
  | .vsel c _ _ _ => hdrOk c.h
  | .vcmp c _ _ _ _ => hdrOk c.h
  | .vcmpi c _ _ _ _ => hdrOk c.h
  | .vdot4 c _ _ _ => hdrOk c.h
  | .fadd c _ _ _ => hdrOk c.h
  | .fsub c _ _ _ => hdrOk c.h
  | .fmul c _ _ _ => hdrOk c.h
  | .ffma c _ _ _ => hdrOk c.h
  | .fmin c _ _ _ => hdrOk c.h
  | .fmax c _ _ _ => hdrOk c.h
  | .fabs c _ _ => hdrOk c.h
  | .fneg c _ _ => hdrOk c.h
  | .fcpsgn c _ _ _ => hdrOk c.h
  | .frnd c _ _ => hdrOk c.h
  | .fcmp c _ _ _ _ => hdrOk c.h
  | .hadd c _ _ _ => hdrOk c.h
  | .hmul c _ _ _ => hdrOk c.h
  | .hfma c _ _ _ => hdrOk c.h
  | .badd c _ _ _ => hdrOk c.h
  | .bmul c _ _ _ => hdrOk c.h
  | .bfma c _ _ _ => hdrOk c.h
  | .fdot2h c _ _ _ => hdrOk c.h
  | .fdot2b c _ _ _ => hdrOk c.h
  | .cvt c _ _ dst _ => hdrOk c.h && !isBlockFmt dst
  | .packh c _ _ _ => hdrOk c.h
  | .packb c _ _ _ => hdrOk c.h
  | .frcp c _ _ => hdrOk c.h
  | .frsq c _ _ => hdrOk c.h
  | .fsqrt c _ _ => hdrOk c.h
  | .fex2 c _ _ => hdrOk c.h
  | .flg2 c _ _ => hdrOk c.h
  | .fsinp c _ _ => hdrOk c.h
  | .fcosp c _ _ => hdrOk c.h
  | .ftanh c _ _ => hdrOk c.h
  | .vperm c _ _ _ => hdrOk c.h
  | .vshfl c _ _ _ _ => hdrOk c.h
  | .vbcast c _ _ _ => hdrOk c.h
  | .vred c _ _ _ => hdrOk c.h
  | .vscan c _ _ _ _ => hdrOk c.h
  | .vhperm c _ _ _ => hdrOk c.h
  | .vrand c _ => hdrOk c.h
  | .vrandf c _ => hdrOk c.h
  | .vrseed c a => hdrOk c.h && a.toNat % 2 == 0
  | .ldvB8z c _ a _ _ _ _ => hdrOk c.h && a.toNat % 2 == 0
  | .ldvB8s c _ a _ _ _ _ => hdrOk c.h && a.toNat % 2 == 0
  | .ldvB16z c _ a _ _ _ _ => hdrOk c.h && a.toNat % 2 == 0
  | .ldvB16s c _ a _ _ _ _ => hdrOk c.h && a.toNat % 2 == 0
  | .ldvB32 c _ a _ _ _ _ => hdrOk c.h && a.toNat % 2 == 0
  | .ldvB64 c d a _ _ _ _ => hdrOk c.h && d.toNat % 2 == 0 && a.toNat % 2 == 0
  | .ldvB128 c d a _ _ _ _ => hdrOk c.h && d.toNat % 4 == 0 && a.toNat % 2 == 0
  | .stvB8 c _ a _ _ _ _ => hdrOk c.h && a.toNat % 2 == 0
  | .stvB16 c _ a _ _ _ _ => hdrOk c.h && a.toNat % 2 == 0
  | .stvB32 c _ a _ _ _ _ => hdrOk c.h && a.toNat % 2 == 0
  | .stvB64 c d a _ _ _ _ => hdrOk c.h && d.toNat % 2 == 0 && a.toNat % 2 == 0
  | .stvB128 c d a _ _ _ _ => hdrOk c.h && d.toNat % 4 == 0 && a.toNat % 2 == 0
  | .ldsB32 c _ a _ _ _ _ => hdrOk c.h && a.toNat % 2 == 0
  | .ldsB64 c d a _ _ _ _ => hdrOk c.h && d.toNat % 2 == 0 && a.toNat % 2 == 0
  | .ldsB128 c d a _ _ _ _ => hdrOk c.h && d.toNat % 4 == 0 && a.toNat % 2 == 0
  | .stsB32 c _ a _ _ _ _ => hdrOk c.h && a.toNat % 2 == 0
  | .stsB64 c d a _ _ _ _ => hdrOk c.h && d.toNat % 2 == 0 && a.toNat % 2 == 0
  | .ldlB32 c _ _ _ _ _ _ => hdrOk c.h
  | .ldlB128 c d _ _ _ _ _ => hdrOk c.h && d.toNat % 4 == 0
  | .stlB32 c _ _ _ _ _ _ => hdrOk c.h
  | .stlB128 c d _ _ _ _ _ => hdrOk c.h && d.toNat % 4 == 0
  | .atomAddB32 c _ a _ _ _ _ => hdrOk c.h && a.toNat % 2 == 0
  | .atomMinB32 c _ a _ _ _ _ => hdrOk c.h && a.toNat % 2 == 0
  | .atomMaxB32 c _ a _ _ _ _ => hdrOk c.h && a.toNat % 2 == 0
  | .atomMinuB32 c _ a _ _ _ _ => hdrOk c.h && a.toNat % 2 == 0
  | .atomMaxuB32 c _ a _ _ _ _ => hdrOk c.h && a.toNat % 2 == 0
  | .atomAndB32 c _ a _ _ _ _ => hdrOk c.h && a.toNat % 2 == 0
  | .atomOrB32 c _ a _ _ _ _ => hdrOk c.h && a.toNat % 2 == 0
  | .atomXorB32 c _ a _ _ _ _ => hdrOk c.h && a.toNat % 2 == 0
  | .atomXchgB32 c _ a _ _ _ _ => hdrOk c.h && a.toNat % 2 == 0
  | .casB32 c d a _ _ _ _ => hdrOk c.h && d.toNat % 2 == 0 && a.toNat % 2 == 0
  | .atomfAddF32 c _ a _ _ _ _ => hdrOk c.h && a.toNat % 2 == 0
  | .atomfAddBf16x2 c _ a _ _ _ _ => hdrOk c.h && a.toNat % 2 == 0
  | .atomAddB64 c d a _ _ _ _ => hdrOk c.h && d.toNat % 2 == 0 && a.toNat % 2 == 0
  | .atomMinB64 c d a _ _ _ _ => hdrOk c.h && d.toNat % 2 == 0 && a.toNat % 2 == 0
  | .atomMaxB64 c d a _ _ _ _ => hdrOk c.h && d.toNat % 2 == 0 && a.toNat % 2 == 0
  | .atomMinuB64 c d a _ _ _ _ => hdrOk c.h && d.toNat % 2 == 0 && a.toNat % 2 == 0
  | .atomMaxuB64 c d a _ _ _ _ => hdrOk c.h && d.toNat % 2 == 0 && a.toNat % 2 == 0
  | .atomAndB64 c d a _ _ _ _ => hdrOk c.h && d.toNat % 2 == 0 && a.toNat % 2 == 0
  | .atomOrB64 c d a _ _ _ _ => hdrOk c.h && d.toNat % 2 == 0 && a.toNat % 2 == 0
  | .atomXorB64 c d a _ _ _ _ => hdrOk c.h && d.toNat % 2 == 0 && a.toNat % 2 == 0
  | .atomXchgB64 c d a _ _ _ _ => hdrOk c.h && d.toNat % 2 == 0 && a.toNat % 2 == 0
  | .casB64 c d a _ _ _ _ => hdrOk c.h && d.toNat % 4 == 0 && a.toNat % 2 == 0
  | .atomsAddB32 c _ a _ _ _ _ => hdrOk c.h && a.toNat % 2 == 0
  | .atomsMinB32 c _ a _ _ _ _ => hdrOk c.h && a.toNat % 2 == 0
  | .atomsMaxB32 c _ a _ _ _ _ => hdrOk c.h && a.toNat % 2 == 0
  | .atomsMinuB32 c _ a _ _ _ _ => hdrOk c.h && a.toNat % 2 == 0
  | .atomsMaxuB32 c _ a _ _ _ _ => hdrOk c.h && a.toNat % 2 == 0
  | .atomsAndB32 c _ a _ _ _ _ => hdrOk c.h && a.toNat % 2 == 0
  | .atomsOrB32 c _ a _ _ _ _ => hdrOk c.h && a.toNat % 2 == 0
  | .atomsXorB32 c _ a _ _ _ _ => hdrOk c.h && a.toNat % 2 == 0
  | .atomsXchgB32 c _ a _ _ _ _ => hdrOk c.h && a.toNat % 2 == 0
  | .cassB32 c d a _ _ _ _ => hdrOk c.h && d.toNat % 2 == 0 && a.toNat % 2 == 0
  | .atomlAddB32 c _ _ _ _ _ _ => hdrOk c.h
  | .atomlMinB32 c _ _ _ _ _ _ => hdrOk c.h
  | .atomlMaxB32 c _ _ _ _ _ _ => hdrOk c.h
  | .atomlMinuB32 c _ _ _ _ _ _ => hdrOk c.h
  | .atomlMaxuB32 c _ _ _ _ _ _ => hdrOk c.h
  | .atomlAndB32 c _ _ _ _ _ _ => hdrOk c.h
  | .atomlOrB32 c _ _ _ _ _ _ => hdrOk c.h
  | .atomlXorB32 c _ _ _ _ _ _ => hdrOk c.h
  | .atomlXchgB32 c _ _ _ _ _ _ => hdrOk c.h
  | .caslB32 c d _ _ _ _ _ => hdrOk c.h && d.toNat % 2 == 0
  | .fence c _ _ _ => hdrOk c.h
  | .monitor c a _ _ _ => hdrOk c.h && a.toNat % 2 == 0
  | .mwait c _ a _ _ _ _ => hdrOk c.h && a.toNat % 2 == 0
  | .pf c a _ _ _ => hdrOk c.h && a.toNat % 2 == 0
  | .cwb c a _ _ _ => hdrOk c.h && a.toNat % 2 == 0
  | .cinv c a _ _ _ => hdrOk c.h && a.toNat % 2 == 0
  | .barSync c _ _ => hdrOk c.h
  | .barArrive c _ _ => hdrOk c.h
  | .barWait c _ _ => hdrOk c.h
  | .rte c => hdrOk c.h
  | .brk c _ => hdrOk c.h
  | .mma c _ a _ => hdrOk c.h && decide (a.toNat + 4 ≤ 256)
  | .mmas c _ a _ => hdrOk c.h && decide (a.toNat + 5 ≤ 256)
  | .macz c _ => hdrOk c.h
  | .macld c _ a _ => hdrOk c.h && decide (a.toNat + 3 ≤ 256)
  | .macst c _ a _ => hdrOk c.h && decide (a.toNat + 3 ≤ 256)
  | .mepiScale c _ a _ => hdrOk c.h && decide (a.toNat + 2 ≤ 256)
  | .mepiBiasRow c _ a _ => hdrOk c.h && decide (a.toNat + 2 ≤ 256)
  | .mepiBiasCol c _ a _ => hdrOk c.h && decide (a.toNat + 2 ≤ 256)
  | .mepiRelu c _ a _ => hdrOk c.h && decide (a.toNat + 2 ≤ 256)
  | .mepiClamp c _ a _ => hdrOk c.h && decide (a.toNat + 2 ≤ 256)
  | .mepiAdd c _ a _ => hdrOk c.h && decide (a.toNat + 2 ≤ 256)
  | .mepiDeq c _ a _ => hdrOk c.h && decide (a.toNat + 2 ≤ 256)
  | .batonTake c _ => hdrOk c.h
  | .batonPass c _ => hdrOk c.h
  | .mquery c _ _ => hdrOk c.h
  | .mqueryFlagsc c _ => hdrOk c.h
  | .tld c _ sb => hdrOk c.h && decide (sb.toNat + 5 ≤ 256)
  | .tconst c _ sb => hdrOk c.h && decide (sb.toNat + 2 ≤ 256)
  | .tiota c _ sb => hdrOk c.h && decide (sb.toNat + 4 ≤ 256)
  | .tmapTr c _ _ => hdrOk c.h
  | .tmapSlice c _ _ sb => hdrOk c.h && decide (sb.toNat + 2 ≤ 256)
  | .tmapBcr c _ _ _ => hdrOk c.h
  | .tmapBcc c _ _ _ => hdrOk c.h
  | .tmapRevr c _ _ => hdrOk c.h
  | .tmapRevc c _ _ => hdrOk c.h
  | .tmapShift c _ _ sb => hdrOk c.h && decide (sb.toNat + 2 ≤ 256)
  | .tadd c _ _ _ => hdrOk c.h
  | .tsub c _ _ _ => hdrOk c.h
  | .tmul c _ _ _ => hdrOk c.h
  | .tmax c _ _ _ => hdrOk c.h
  | .tmin c _ _ _ => hdrOk c.h
  | .texp c _ _ => hdrOk c.h
  | .tlog c _ _ => hdrOk c.h
  | .trcp c _ _ => hdrOk c.h
  | .tsig c _ _ => hdrOk c.h
  | .tselm c _ _ sb _ => hdrOk c.h && decide (sb.toNat + 2 ≤ 256)
  | .tscan c _ _ _ => hdrOk c.h
  | .tred c _ _ _ => hdrOk c.h
  | .tmma c _ _ _ _ => hdrOk c.h
  | .tcvt c _ _ _ => hdrOk c.h
  | .tst c _ sb => hdrOk c.h && decide (sb.toNat + 5 ≤ 256)
  | .tforce c _ sb => hdrOk c.h && decide (sb.toNat + 4 ≤ 256)
  | .tdrop c _ => hdrOk c.h
  | .tcfg c sb => hdrOk c.h && decide (sb.toNat + 6 ≤ 256)
  | .tstatCounts c _ => hdrOk c.h
  | .tstatCap c _ => hdrOk c.h
  | .tstatNode c _ sb => hdrOk c.h && decide (sb.toNat + 2 ≤ 256)
  | .tstatFault c sb => hdrOk c.h && decide (sb.toNat + 16 ≤ 256)
  | .cpy c d a => hdrOk c.h && decide (d.toNat + 2 ≤ 256) && decide (a.toNat + 8 ≤ 256)
  | .cpym c d a => hdrOk c.h && decide (d.toNat + 2 ≤ 256) && decide (a.toNat + 10 ≤ 256)
  | .cpyx c d a => hdrOk c.h && decide (d.toNat + 2 ≤ 256) && decide (a.toNat + 16 ≤ 256)
  | .tlwait c _ sel => hdrOk c.h && selOk sel
  | .tlrd c d sel => hdrOk c.h && decide (d.toNat + 2 ≤ 256) && selOk sel
  | .waitp c a sel => hdrOk c.h && decide (a.toNat + 2 ≤ 256) && selPromise sel
  | .bankcfg c _ => hdrOk c.h
  | .fpush c a => hdrOk c.h && decide (a.toNat + 9 ≤ 256)
  | .fpop c d _ => hdrOk c.h && decide (d.toNat + 8 ≤ 256)
  | .portcfg c _ a => hdrOk c.h && decide (a.toNat + 3 ≤ 256)
  | .cbarArrive c _ => hdrOk c.h
  | .cbarWait c _ => hdrOk c.h
  | .rbind c d a _ => hdrOk c.h && decide (d.toNat + 2 ≤ 256) && decide (a.toNat + 5 ≤ 256)
  | .rtrace c d a => hdrOk c.h && decide (d.toNat + 2 ≤ 256) && decide (a.toNat + 5 ≤ 256)
  | .rsave c => hdrOk c.h
  | .rresume c d a => hdrOk c.h && decide (d.toNat + 2 ≤ 256) && decide (a.toNat + 5 ≤ 256)
  | .rquery c _ _ => hdrOk c.h
  | .launch c a => hdrOk c.h && decide (a.toNat + 14 ≤ 256)
  | .tenq c a => hdrOk c.h && decide (a.toNat + 17 ≤ 256)
  | .rnext c d _ => hdrOk c.h && decide (d.toNat + 2 ≤ 256)
  | .recalloc c d _ => hdrOk c.h && decide (d.toNat + 2 ≤ 256)
  | .recsend c a => hdrOk c.h && decide (a.toNat + 2 ≤ 256)
  | .gate c => hdrOk c.h
  | .release c => hdrOk c.h
  | .qclaim c d _ => hdrOk c.h && decide (d.toNat + 2 ≤ 256)
  | .pemit c a => hdrOk c.h && decide (a.toNat + 10 ≤ 256)
  | .pxout c _ _ => hdrOk c.h
  | .nmv c d a => hdrOk c.h && decide (d.toNat + 2 ≤ 256) && decide (a.toNat + 8 ≤ 256)
  | .dualWord h _ dH aH _ dL aL _ => hdrOk h && bankOf dH != bankOf dL && bankOf aH != bankOf aL
  | .prefixedPair _ _ => false
  | .wnop => true
  | .ldn => true
  | .tbox => true
  | .wSort => true
  | .pushc => true
  | .wNext => true
  | .ttri => true
  | .wHit => true
  | .wPop => true
  | .brc _ _ _ => true
  | .callout _ => true
  | .wDone => true
  | .xform _ _ _ => true
  | .ipop => true
  | .cull => true
  | .sett _ _ => true
  | .sleepExpire _ => true
  | .batonTransfer _ => true
  | .matrixCommandStart _ => true
  | .accumulatorTileFill _ _ => true
  | .matrixCommandComplete _ => true
  | .demandOutputStep _ => true
  | .demandComplete _ => true
  | .viewCapture _ => true
  | .bankModeChangeDone _ _ => true
  | .fifoPushJoin _ _ => true
  | .fifoPopServe _ _ => true
  | .creditReturn _ _ => true
  | .portReadServe _ _ => true
  | .copyRequestComplete _ => true
  | .followOnEnqueue _ => true
  | .promisedTimeReached _ => true
  | .rbindApply _ => true
  | .rayStart _ => true
  | .nodeFetchReturn _ => true
  | .rayWriteback _ => true
  | .traversalRequestComplete _ => true
  | .nmvRequestComplete _ => true
  | .pixelWaveLaunch _ _ _ => true
  | .aggregatorWindowClose _ _ => true
  | .taskStart _ => true
  | .rangeTaskSplit _ => true
  | .batchTimeout _ _ => true
  | .batchGroupEnd _ => true
  | .cohortPlacement _ _ => true
  | .waveEnd _ => true
  | .registerLineFill _ _ => true
  | .wavePromotion _ _ => true
  | .fixedLatencyComplete _ _ => true
  | .loadComplete _ _ => true
  | .storePerformed _ _ => true
  | .rmwPerformed _ _ => true
  | .fenceComplete _ _ => true
  | .mwaitWake _ => true
  | .waitPoll _ => true
  | .trapDelivery _ => true
  | .pageWalk _ _ _ _ => true
  | .tlbiGo _ _ => true
  | .tlbiComplete _ => true
  | .preempt _ _ => true
  | .contextHalt _ _ => true
  | .controlStateSwap _ _ _ => true
  | .shadowStoreDrain _ => true
  | .restore _ _ _ => true
  | .waveEvict _ => true
  | .l2LineFill _ => true
  | .packetPromotion _ _ _ _ => true
  | .tailFilterReport _ => true
  | .launchPacket _ => true
  | .launchStart _ => true
  | .launchComplete _ => true
  | .graphDispatch _ => true
  | .drawGraph _ => true
  | .dependency _ => true
  | .dependencySatisfied _ _ => true
  | .timelineSignal _ => true
  | .timelineWait _ => true
  | .timelineWaitSatisfied _ _ => true
  | .handleDeclaration _ => true
  | .noOp _ => true
  | .firmwareDefinedPacket _ => true
  | .queueRestart _ => true
  | .qcbinv _ _ => true
  | .mbdone _ _ => true
  | .mailboxPost _ => true
  | .mailboxActionApply _ _ => true
  | .contextCreate _ => true
  | .windowDerive _ _ _ _ _ _ => true
  | .windowInvalidate _ _ => true
  | .capabilityAccess _ _ _ _ _ => true
  | .doorbellWrite _ => true
  | .queueTableFault _ => true
  | .queueErrorNotice _ => true
  | .partitionCreate _ _ => true
  | .partitionResize _ _ _ => true
  | .surfWrite _ _ _ => true
  | .verticalBlank _ _ => true
  | .sliceEncodeComplete _ _ => true
  | .flitCrcRetry _ _ => true
  | .linkRetrain _ _ => true
  | .linkRecover _ _ => true
  | .linkDown _ _ => true
  | .cecntClear _ _ _ => true
  | .dramPatrol _ => true
  | .governorTick _ => true
  | .coolantLimit _ => true
  | .coolantShutdown => true
  | .peerRequest _ => true
  | .peerUnreachable _ => true
  | .hostWrite _ _ _ => true
  | .hostRead _ _ => true
  | .feataccWrite _ => true
  | .shardFetch _ _ _ => true
  | .shardVerify _ _ _ => true
  | .shardFetchComplete _ _ => true
  | .shardScrub _ => true
  | .boot _ => true
  | .getVersion _ _ => true
  | .getCapabilities _ _ => true
  | .negotiateAlgorithms _ _ => true
  | .getDigests _ _ => true
  | .getCertificate _ _ => true
  | .challenge _ _ => true
  | .getMeasurements _ _ => true
  | .registerWrite _ _ _ => true
  | .eflerAccess _ _ => true
  | .hostAtomic _ _ _ => true
  | .peerPortDown _ => true
  | .recoveryImage _ => true

/-- Every operand lies where the encodings allow it. Events have no encoding and no operand rule here. -/
def wellFormed : Instr → Bool
  | .prefixedPair x i =>
    match pairClass i with
    | some (c, k) => wellFormedWord i && c.pm == 0#3 && !c.neg && pfxOk x k
    | none => false
  | i => wellFormedWord i

end Sys2Proof
end

