-- ==== Sys2Proof/Decode.lean ====
section
/-!
DEFINITION. Decoding and encoding (R35 to R63, R298, R299). `decode` reads an instruction from bytes: it is total, and
what it rejects it rejects by name. Every legal word has one encoding, which `encode` writes from the same tables.
-/

namespace Sys2Proof

/-- Why a sequence of bytes is no instruction (R61). -/
inductive DecodeError where
  /-- fewer bytes than the instruction has -/
  | short
  /-- KIND 11 (R36) -/
  | kind3
  /-- SETF 12 to 14 (R39) -/
  | setf
  /-- an opcode that R63 does not assign -/
  | unassigned
  /-- a reserved field, operand value, alignment, block, SUB, CC or other code that is illegal (R61) -/
  | field
  /-- a slot opcode 28 to 31 or a breach of R55 -/
  | dual
  /-- the header, bits 42:32, PXK, RND or bits 6:0 of a prefix (R56) -/
  | prefixWord
  /-- a prefix followed by a word that may not follow one (R57) -/
  | prefixFollower
  /-- a prefix field that must be 0 for its full word is not (R58) -/
  | prefixField
deriving DecidableEq, Repr

/-- The errors that trap whatever the predicate: KIND 11 and what decides what a pair is (R60). -/
def DecodeError.always : DecodeError → Bool
  | .kind3 => true
  | .prefixWord => true
  | .prefixFollower => true
  | _ => false

/-- The code of each of the Integer compares (R47). -/
def IntCC.code : IntCC → BitVec 4
  | .eq => 0#4
  | .ne => 1#4
  | .lt => 2#4
  | .le => 3#4
  | .gt => 4#4
  | .ge => 5#4
  | .ltu => 6#4
  | .leu => 7#4
  | .gtu => 8#4
  | .geu => 9#4

/-- Reads a code of the Integer compares (R47); the other codes are illegal. -/
def IntCC.ofCode (c : BitVec 4) : Option IntCC :=
  if c = 0#4 then some .eq
  else if c = 1#4 then some .ne
  else if c = 2#4 then some .lt
  else if c = 3#4 then some .le
  else if c = 4#4 then some .gt
  else if c = 5#4 then some .ge
  else if c = 6#4 then some .ltu
  else if c = 7#4 then some .leu
  else if c = 8#4 then some .gtu
  else if c = 9#4 then some .geu
  else none

/-- The code of each of the Float compares (R47). -/
def FloatCC.code : FloatCC → BitVec 4
  | .oeq => 0#4
  | .une => 1#4
  | .olt => 2#4
  | .ole => 3#4
  | .ogt => 4#4
  | .oge => 5#4
  | .ord => 10#4
  | .uno => 11#4

/-- Reads a code of the Float compares (R47); the other codes are illegal. -/
def FloatCC.ofCode (c : BitVec 4) : Option FloatCC :=
  if c = 0#4 then some .oeq
  else if c = 1#4 then some .une
  else if c = 2#4 then some .olt
  else if c = 3#4 then some .ole
  else if c = 4#4 then some .ogt
  else if c = 5#4 then some .oge
  else if c = 10#4 then some .ord
  else if c = 11#4 then some .uno
  else none

/-- The code of each of the SCO (R49). -/
def Scope.code : Scope → BitVec 3
  | .wave => 0#3
  | .group => 1#3
  | .cohort => 2#3
  | .die => 3#3
  | .device => 4#3
  | .system => 5#3

/-- Reads a code of the SCO (R49); the other codes are illegal. -/
def Scope.ofCode (c : BitVec 3) : Option Scope :=
  if c = 0#3 then some .wave
  else if c = 1#3 then some .group
  else if c = 2#3 then some .cohort
  else if c = 3#3 then some .die
  else if c = 4#3 then some .device
  else if c = 5#3 then some .system
  else none

/-- The code of each of the ORD of loads (R49). -/
def LdOrd.code : LdOrd → BitVec 2
  | .plain => 0#2
  | .acquire => 1#2
  | .relaxed => 2#2

/-- Reads a code of the ORD of loads (R49); the other codes are illegal. -/
def LdOrd.ofCode (c : BitVec 2) : Option LdOrd :=
  if c = 0#2 then some .plain
  else if c = 1#2 then some .acquire
  else if c = 2#2 then some .relaxed
  else none

/-- The code of each of the ORD of stores (R49). -/
def StOrd.code : StOrd → BitVec 2
  | .plain => 0#2
  | .release => 1#2
  | .relaxed => 2#2

/-- Reads a code of the ORD of stores (R49); the other codes are illegal. -/
def StOrd.ofCode (c : BitVec 2) : Option StOrd :=
  if c = 0#2 then some .plain
  else if c = 1#2 then some .release
  else if c = 2#2 then some .relaxed
  else none

/-- The code of each of the ORD of read-modify-writes (R49). -/
def RmwOrd.code : RmwOrd → BitVec 2
  | .relaxed => 0#2
  | .acquire => 1#2
  | .release => 2#2
  | .acqRel => 3#2

/-- Reads a code of the ORD of read-modify-writes (R49); the other codes are illegal. -/
def RmwOrd.ofCode (c : BitVec 2) : Option RmwOrd :=
  if c = 0#2 then some .relaxed
  else if c = 1#2 then some .acquire
  else if c = 2#2 then some .release
  else if c = 3#2 then some .acqRel
  else none

/-- The code of each of the CH (R49). -/
def Chan.code : Chan → BitVec 2
  | .dflt => 0#2
  | .stream => 1#2
  | .roPath => 2#2
  | .l2Direct => 3#2

/-- Reads a code of the CH (R49); the other codes are illegal. -/
def Chan.ofCode (c : BitVec 2) : Option Chan :=
  if c = 0#2 then some .dflt
  else if c = 1#2 then some .stream
  else if c = 2#2 then some .roPath
  else if c = 3#2 then some .l2Direct
  else none

/-- The code of each of the FKIND (R50). -/
def FenceKind.code : FenceKind → BitVec 2
  | .acquire => 0#2
  | .release => 1#2
  | .acqRel => 2#2

/-- Reads a code of the FKIND (R50); the other codes are illegal. -/
def FenceKind.ofCode (c : BitVec 2) : Option FenceKind :=
  if c = 0#2 then some .acquire
  else if c = 1#2 then some .release
  else if c = 2#2 then some .acqRel
  else none

/-- The code of each of the OPC of `qop` (R48). -/
def QOpc.code : QOpc → BitVec 2
  | .and => 0#2
  | .or => 1#2
  | .xor => 2#2
  | .andn => 3#2

/-- Reads a code of the OPC of `qop` (R48); the other codes are illegal. -/
def QOpc.ofCode (c : BitVec 2) : Option QOpc :=
  if c = 0#2 then some .and
  else if c = 1#2 then some .or
  else if c = 2#2 then some .xor
  else if c = 3#2 then some .andn
  else none

/-- The code of each of the Reductions (R140). -/
def RedOp.code : RedOp → BitVec 4
  | .add => 0#4
  | .min => 1#4
  | .max => 2#4
  | .minu => 3#4
  | .maxu => 4#4
  | .and => 5#4
  | .or => 6#4
  | .xor => 7#4
  | .fadd => 8#4
  | .fmin => 9#4
  | .fmax => 10#4

/-- Reads a code of the Reductions (R140); the other codes are illegal. -/
def RedOp.ofCode (c : BitVec 4) : Option RedOp :=
  if c = 0#4 then some .add
  else if c = 1#4 then some .min
  else if c = 2#4 then some .max
  else if c = 3#4 then some .minu
  else if c = 4#4 then some .maxu
  else if c = 5#4 then some .and
  else if c = 6#4 then some .or
  else if c = 7#4 then some .xor
  else if c = 8#4 then some .fadd
  else if c = 9#4 then some .fmin
  else if c = 10#4 then some .fmax
  else none

/-- The code of each of the cvt codes (R71). -/
def Fmt.code : Fmt → BitVec 5
  | .i8 => 0#5
  | .i16 => 1#5
  | .i32 => 2#5
  | .n8 => 4#5
  | .n16 => 5#5
  | .n32 => 6#5
  | .f32 => 8#5
  | .bf16 => 9#5
  | .f16 => 10#5
  | .e4m3 => 11#5
  | .e5m2 => 12#5
  | .blk4 => 13#5
  | .blk8 => 14#5

/-- Reads a code of the cvt codes (R71); the other codes are illegal. -/
def Fmt.ofCode (c : BitVec 5) : Option Fmt :=
  if c = 0#5 then some .i8
  else if c = 1#5 then some .i16
  else if c = 2#5 then some .i32
  else if c = 4#5 then some .n8
  else if c = 5#5 then some .n16
  else if c = 6#5 then some .n32
  else if c = 8#5 then some .f32
  else if c = 9#5 then some .bf16
  else if c = 10#5 then some .f16
  else if c = 11#5 then some .e4m3
  else if c = 12#5 then some .e5m2
  else if c = 13#5 then some .blk4
  else if c = 14#5 then some .blk8
  else none

/-- The code of each of the SUB of `mquery` (R225). -/
def MQuery.code : MQuery → BitVec 7
  | .baton => 0#7
  | .outstanding => 1#7
  | .queued => 2#7
  | .flags => 3#7

/-- Reads a code of the SUB of `mquery` (R225); the other codes are illegal. -/
def MQuery.ofCode (c : BitVec 7) : Option MQuery :=
  if c = 0#7 then some .baton
  else if c = 1#7 then some .outstanding
  else if c = 2#7 then some .queued
  else if c = 3#7 then some .flags
  else none

/-- The code of each of the SUB of `rquery` (R312). -/
def RQuery.code : RQuery → BitVec 10
  | .inflight => 0#10
  | .outstanding => 1#10
  | .bound => 2#10

/-- Reads a code of the SUB of `rquery` (R312); the other codes are illegal. -/
def RQuery.ofCode (c : BitVec 10) : Option RQuery :=
  if c = 0#10 then some .inflight
  else if c = 1#10 then some .outstanding
  else if c = 2#10 then some .bound
  else none

/-- The code of each of the COND of `brc` (R299). -/
def WalkCond.code : WalkCond → BitVec 4
  | .al => 0#4
  | .z => 1#4
  | .h => 2#4
  | .m => 3#4
  | .l => 4#4

/-- Reads a code of the COND of `brc` (R299); the other codes are illegal. -/
def WalkCond.ofCode (c : BitVec 4) : Option WalkCond :=
  if c = 0#4 then some .al
  else if c = 1#4 then some .z
  else if c = 2#4 then some .h
  else if c = 3#4 then some .m
  else if c = 4#4 then some .l
  else none

/-- The code of each of the SEL of `sett` (R299). -/
def SetSel.code : SetSel → BitVec 2
  | .tmax => 0#2
  | .term => 1#2

/-- Reads a code of the SEL of `sett` (R299); the other codes are illegal. -/
def SetSel.ofCode (c : BitVec 2) : Option SetSel :=
  if c = 0#2 then some .tmax
  else if c = 1#2 then some .term
  else none

/-- The code of each of the RND (R56). -/
def Rnd.code : Rnd → BitVec 3
  | .rne => 0#3
  | .rtz => 1#3
  | .rdn => 2#3
  | .rup => 3#3
  | .rna => 4#3
  | .sto => 5#3
  | .dyn => 6#3

/-- Reads a code of the RND (R56); the other codes are illegal. -/
def Rnd.ofCode (c : BitVec 3) : Option Rnd :=
  if c = 0#3 then some .rne
  else if c = 1#3 then some .rtz
  else if c = 2#3 then some .rdn
  else if c = 3#3 then some .rup
  else if c = 4#3 then some .rna
  else if c = 5#3 then some .sto
  else if c = 6#3 then some .dyn
  else none

/-- The code of each of the slot opcodes (R53). -/
def Slot.code : Slot → BitVec 5
  | .vmov => 0#5
  | .vadd => 1#5
  | .vsub => 2#5
  | .vand => 3#5
  | .vor => 4#5
  | .vxor => 5#5
  | .vmin => 6#5
  | .vmax => 7#5
  | .vminu => 8#5
  | .vmaxu => 9#5
  | .vmul => 10#5
  | .vshl => 11#5
  | .vshr => 12#5
  | .vsra => 13#5
  | .fadd => 14#5
  | .fsub => 15#5
  | .fmul => 16#5
  | .fmin => 17#5
  | .fmax => 18#5
  | .hadd => 19#5
  | .hmul => 20#5
  | .badd => 21#5
  | .bmul => 22#5
  | .fabs => 23#5
  | .fneg => 24#5
  | .vnot => 25#5
  | .cvtF32I32 => 26#5
  | .cvtI32F32 => 27#5

/-- Reads a code of the slot opcodes (R53); the other codes are illegal. -/
def Slot.ofCode (c : BitVec 5) : Option Slot :=
  if c = 0#5 then some .vmov
  else if c = 1#5 then some .vadd
  else if c = 2#5 then some .vsub
  else if c = 3#5 then some .vand
  else if c = 4#5 then some .vor
  else if c = 5#5 then some .vxor
  else if c = 6#5 then some .vmin
  else if c = 7#5 then some .vmax
  else if c = 8#5 then some .vminu
  else if c = 9#5 then some .vmaxu
  else if c = 10#5 then some .vmul
  else if c = 11#5 then some .vshl
  else if c = 12#5 then some .vshr
  else if c = 13#5 then some .vsra
  else if c = 14#5 then some .fadd
  else if c = 15#5 then some .fsub
  else if c = 16#5 then some .fmul
  else if c = 17#5 then some .fmin
  else if c = 18#5 then some .fmax
  else if c = 19#5 then some .hadd
  else if c = 20#5 then some .hmul
  else if c = 21#5 then some .badd
  else if c = 22#5 then some .bmul
  else if c = 23#5 then some .fabs
  else if c = 24#5 then some .fneg
  else if c = 25#5 then some .vnot
  else if c = 26#5 then some .cvtF32I32
  else if c = 27#5 then some .cvtI32F32
  else none

/-- SUB of `baton.pass`: 0x00 frees the baton, 0x10 + w names a wave (R213). -/
def PassTarget.code : PassTarget → BitVec 7
  | .free => 0#7
  | .wave w => 1#3 ++ w

/-- Reads the target of `baton.pass`. -/
def PassTarget.ofCode (c : BitVec 7) : Option PassTarget :=
  if c = 0#7 then some .free
  else if c.extractLsb' 4 3 = 1#3 then some (.wave (c.extractLsb' 0 4))
  else none

/-- Timeline selectors (R272). -/
def Timeline.code : Timeline → BitVec 10
  | .copy => 0#10
  | .trav => 1#10
  | .nmv k => 0#5 ++ (k + 8#5)

/-- Reads a timeline selector. -/
def Timeline.ofCode (c : BitVec 10) : Option Timeline :=
  if c = 0#10 then some .copy
  else if c = 1#10 then some .trav
  else if c.toNat < 8 then none
  else if 32 ≤ c.toNat then none
  else some (.nmv (c.extractLsb' 0 5 - 8#5))

/-- A scalar field: s0 to s255 (R45). -/
def sField (f : BitVec 10) : Option SReg := if f.extractLsb' 8 2 = 0#2 then some (f.extractLsb' 0 8) else none
/-- A message port: operand values 0x100 to 0x107 (R45). -/
def portField (f : BitVec 10) : Option Port :=
  if f.extractLsb' 3 7 = 32#7 then some (f.extractLsb' 0 3) else none
/-- A scalar operand that may name a port (R98). -/
def sopField (f : BitVec 10) : Option SOp :=
  match sField f with
  | some r => some (.s r)
  | none => (portField f).map .n
/-- A mask field: m0 to m15 (R45). -/
def mField (f : BitVec 10) : Option MReg := if f.extractLsb' 4 6 = 0#6 then some (f.extractLsb' 0 4) else none
/-- A bit of a word. -/
def boolField (f : BitVec 1) : Bool := f == 1#1

/-- Writes a scalar field. -/
def encS (r : SReg) : BitVec 10 := 0#2 ++ r
/-- Writes a port field. -/
def encPort (p : Port) : BitVec 10 := 32#7 ++ p
/-- Writes a scalar operand. -/
def encSOp : SOp → BitVec 10
  | .s r => encS r
  | .n p => encPort p
/-- Writes a mask field. -/
def encM (r : MReg) : BitVec 10 := 0#6 ++ r
/-- Writes a bit. -/
def encB (b : Bool) : BitVec 1 := BitVec.ofBool b

/-- Decodes the control, condition and special-register words: OP 0x000 to 0x03F (R63), with the payload bits 29:0. -/
def decodeControl (c : Ctl) (op : Nat) (p : BitVec 30) : Option Instr :=
  match op with
  | 0x000 =>
    if p.extractLsb' 0 30 = 0#30 then some (.nop c) else none
  | 0x001 =>
    some (.bra c (p.extractLsb' 26 4) (boolField (p.extractLsb' 25 1)) (p.extractLsb' 0 25))
  | 0x002 =>
    (sField (p.extractLsb' 20 10)).bind fun d => some (.call c d (p.extractLsb' 0 20))
  | 0x003 =>
    if p.extractLsb' 20 10 = 0#10 ∧ p.extractLsb' 0 10 = 0#10 then (sField (p.extractLsb' 10 10)).bind fun a =>
    some (.jr c a) else none
  | 0x004 =>
    (sField (p.extractLsb' 20 10)).bind fun d => some (.loop c d (p.extractLsb' 0 20))
  | 0x005 =>
    some (.split c (p.extractLsb' 26 4) (boolField (p.extractLsb' 25 1)) (p.extractLsb' 0 25))
  | 0x006 =>
    if p.extractLsb' 20 10 = 0#10 ∧ p.extractLsb' 0 10 = 0#10 then some (.jmpv c (p.extractLsb' 10 10)) else none
  | 0x007 =>
    if p.extractLsb' 0 30 = 0#30 then some (.sync c) else none
  | 0x008 =>
    if p.extractLsb' 0 30 = 0#30 then some (.exit c) else none
  | 0x009 =>
    if p.extractLsb' 0 30 = 0#30 then some (.yield c) else none
  | 0x00A =>
    if p.extractLsb' 20 10 = 0#10 then (sField (p.extractLsb' 10 10)).bind fun a =>
    some (.sleep c a (p.extractLsb' 0 10)) else none
  | 0x00B =>
    if p.extractLsb' 16 14 = 0#14 then some (.trap c (p.extractLsb' 0 16)) else none
  | 0x00C =>
    if p.extractLsb' 6 4 = 0#4 then (sField (p.extractLsb' 20 10)).bind fun d =>
    (sField (p.extractLsb' 10 10)).bind fun a => some (.upcall c d a (p.extractLsb' 0 6)) else none
  | 0x00D =>
    if p.extractLsb' 0 20 = 0#20 then (mField (p.extractLsb' 20 10)).bind fun d => some (.elect c d) else none
  | 0x00E =>
    if p.extractLsb' 8 22 = 0#22 then some (.setprio c (p.extractLsb' 0 8)) else none
  | 0x010 =>
    if p.extractLsb' 20 6 = 0#6 ∧ p.extractLsb' 0 10 = 0#10 then (mField (p.extractLsb' 10 10)).bind fun a =>
    some (.qany c (p.extractLsb' 26 4) a) else none
  | 0x011 =>
    if p.extractLsb' 20 6 = 0#6 ∧ p.extractLsb' 0 10 = 0#10 then (mField (p.extractLsb' 10 10)).bind fun a =>
    some (.qall c (p.extractLsb' 26 4) a) else none
  | 0x012 =>
    if p.extractLsb' 20 6 = 0#6 ∧ p.extractLsb' 0 10 = 0#10 then (mField (p.extractLsb' 10 10)).bind fun a =>
    some (.qnone c (p.extractLsb' 26 4) a) else none
  | 0x013 =>
    if p.extractLsb' 24 2 = 0#2 then (IntCC.ofCode (p.extractLsb' 20 4)).bind fun cc =>
    (sField (p.extractLsb' 10 10)).bind fun a => (sField (p.extractLsb' 0 10)).bind fun b =>
    some (.qcmp c (p.extractLsb' 26 4) cc a b) else none
  | 0x014 =>
    if p.extractLsb' 24 2 = 0#2 then (IntCC.ofCode (p.extractLsb' 20 4)).bind fun cc =>
    (sField (p.extractLsb' 10 10)).bind fun a =>
    some (.qcmpi c (p.extractLsb' 26 4) cc a (p.extractLsb' 0 10)) else none
  | 0x015 =>
    if p.extractLsb' 0 16 = 0#16 then (QOpc.ofCode (p.extractLsb' 16 2)).bind fun opc =>
    some (.qop c (p.extractLsb' 26 4) (p.extractLsb' 22 4) (p.extractLsb' 18 4) opc) else none
  | 0x018 =>
    if p.extractLsb' 12 8 = 0#8 then (sField (p.extractLsb' 20 10)).bind fun d =>
    some (.srd c d (p.extractLsb' 0 12)) else none
  | 0x019 =>
    if p.extractLsb' 12 8 = 0#8 then (sField (p.extractLsb' 20 10)).bind fun a =>
    some (.swr c a (p.extractLsb' 0 12)) else none
  | 0x01A =>
    if p.extractLsb' 12 8 = 0#8 then some (.vsrd c (p.extractLsb' 20 10) (p.extractLsb' 0 12)) else none
  | _ => none

/-- Decodes the scalar words: OP 0x040 to 0x05F (R63), with the payload bits 29:0. -/
def decodeScalar (c : Ctl) (op : Nat) (p : BitVec 30) : Option Instr :=
  match op with
  | 0x040 =>
    (sopField (p.extractLsb' 20 10)).bind fun d => (sopField (p.extractLsb' 10 10)).bind fun a =>
    (sopField (p.extractLsb' 0 10)).bind fun b => some (.sadd c d a b)
  | 0x041 =>
    (sopField (p.extractLsb' 20 10)).bind fun d => (sopField (p.extractLsb' 10 10)).bind fun a =>
    (sopField (p.extractLsb' 0 10)).bind fun b => some (.ssub c d a b)
  | 0x042 =>
    (sopField (p.extractLsb' 20 10)).bind fun d => (sopField (p.extractLsb' 10 10)).bind fun a =>
    (sopField (p.extractLsb' 0 10)).bind fun b => some (.smul c d a b)
  | 0x043 =>
    (sopField (p.extractLsb' 20 10)).bind fun d => (sopField (p.extractLsb' 10 10)).bind fun a =>
    (sopField (p.extractLsb' 0 10)).bind fun b => some (.smulh c d a b)
  | 0x044 =>
    (sopField (p.extractLsb' 20 10)).bind fun d => (sopField (p.extractLsb' 10 10)).bind fun a =>
    (sopField (p.extractLsb' 0 10)).bind fun b => some (.sdiv c d a b)
  | 0x045 =>
    (sopField (p.extractLsb' 20 10)).bind fun d => (sopField (p.extractLsb' 10 10)).bind fun a =>
    (sopField (p.extractLsb' 0 10)).bind fun b => some (.sdivu c d a b)
  | 0x046 =>
    (sopField (p.extractLsb' 20 10)).bind fun d => (sopField (p.extractLsb' 10 10)).bind fun a =>
    (sopField (p.extractLsb' 0 10)).bind fun b => some (.srem c d a b)
  | 0x047 =>
    (sopField (p.extractLsb' 20 10)).bind fun d => (sopField (p.extractLsb' 10 10)).bind fun a =>
    (sopField (p.extractLsb' 0 10)).bind fun b => some (.sremu c d a b)
  | 0x048 =>
    (sopField (p.extractLsb' 20 10)).bind fun d => (sopField (p.extractLsb' 10 10)).bind fun a =>
    (sopField (p.extractLsb' 0 10)).bind fun b => some (.sand c d a b)
  | 0x049 =>
    (sopField (p.extractLsb' 20 10)).bind fun d => (sopField (p.extractLsb' 10 10)).bind fun a =>
    (sopField (p.extractLsb' 0 10)).bind fun b => some (.sor c d a b)
  | 0x04A =>
    (sopField (p.extractLsb' 20 10)).bind fun d => (sopField (p.extractLsb' 10 10)).bind fun a =>
    (sopField (p.extractLsb' 0 10)).bind fun b => some (.sxor c d a b)
  | 0x04B =>
    (sopField (p.extractLsb' 20 10)).bind fun d => (sopField (p.extractLsb' 10 10)).bind fun a =>
    (sopField (p.extractLsb' 0 10)).bind fun b => some (.sshl c d a b)
  | 0x04C =>
    (sopField (p.extractLsb' 20 10)).bind fun d => (sopField (p.extractLsb' 10 10)).bind fun a =>
    (sopField (p.extractLsb' 0 10)).bind fun b => some (.sshr c d a b)
  | 0x04D =>
    (sopField (p.extractLsb' 20 10)).bind fun d => (sopField (p.extractLsb' 10 10)).bind fun a =>
    (sopField (p.extractLsb' 0 10)).bind fun b => some (.ssra c d a b)
  | 0x04E =>
    (sopField (p.extractLsb' 20 10)).bind fun d => (sopField (p.extractLsb' 10 10)).bind fun a =>
    (sopField (p.extractLsb' 0 10)).bind fun b => some (.smin c d a b)
  | 0x04F =>
    (sopField (p.extractLsb' 20 10)).bind fun d => (sopField (p.extractLsb' 10 10)).bind fun a =>
    (sopField (p.extractLsb' 0 10)).bind fun b => some (.smax c d a b)
  | 0x050 =>
    (sopField (p.extractLsb' 20 10)).bind fun d => (sopField (p.extractLsb' 10 10)).bind fun a =>
    (sopField (p.extractLsb' 0 10)).bind fun b => some (.sminu c d a b)
  | 0x051 =>
    (sopField (p.extractLsb' 20 10)).bind fun d => (sopField (p.extractLsb' 10 10)).bind fun a =>
    (sopField (p.extractLsb' 0 10)).bind fun b => some (.smaxu c d a b)
  | 0x052 =>
    (sopField (p.extractLsb' 20 10)).bind fun d => (sopField (p.extractLsb' 10 10)).bind fun a =>
    some (.saddi c d a (p.extractLsb' 0 10))
  | 0x053 =>
    (sopField (p.extractLsb' 20 10)).bind fun d => (sopField (p.extractLsb' 10 10)).bind fun a =>
    some (.sandi c d a (p.extractLsb' 0 10))
  | 0x054 =>
    (sopField (p.extractLsb' 20 10)).bind fun d => (sopField (p.extractLsb' 10 10)).bind fun a =>
    some (.sori c d a (p.extractLsb' 0 10))
  | 0x055 =>
    (sopField (p.extractLsb' 20 10)).bind fun d => (sopField (p.extractLsb' 10 10)).bind fun a =>
    some (.sxori c d a (p.extractLsb' 0 10))
  | 0x056 =>
    if p.extractLsb' 5 5 = 0#5 then (sopField (p.extractLsb' 20 10)).bind fun d =>
    (sopField (p.extractLsb' 10 10)).bind fun a => some (.sshli c d a (p.extractLsb' 0 5)) else none
  | 0x057 =>
    if p.extractLsb' 5 5 = 0#5 then (sopField (p.extractLsb' 20 10)).bind fun d =>
    (sopField (p.extractLsb' 10 10)).bind fun a => some (.sshri c d a (p.extractLsb' 0 5)) else none
  | 0x058 =>
    if p.extractLsb' 5 5 = 0#5 then (sopField (p.extractLsb' 20 10)).bind fun d =>
    (sopField (p.extractLsb' 10 10)).bind fun a => some (.ssrai c d a (p.extractLsb' 0 5)) else none
  | 0x059 =>
    (sopField (p.extractLsb' 20 10)).bind fun d => some (.sli c d (p.extractLsb' 0 20))
  | 0x05A =>
    (sopField (p.extractLsb' 20 10)).bind fun d => some (.slui c d (p.extractLsb' 0 20))
  | 0x05B =>
    if p.extractLsb' 0 10 = 0#10 then (sopField (p.extractLsb' 20 10)).bind fun d =>
    (sopField (p.extractLsb' 10 10)).bind fun a => some (.smov c d a) else none
  | 0x05C =>
    (sField (p.extractLsb' 20 10)).bind fun d => (sField (p.extractLsb' 10 10)).bind fun a =>
    (sField (p.extractLsb' 0 10)).bind fun b => some (.saddp c d a b)
  | 0x05D =>
    if p.extractLsb' 0 10 = 0#10 then (sopField (p.extractLsb' 20 10)).bind fun d =>
    (sopField (p.extractLsb' 10 10)).bind fun a => some (.sclz c d a) else none
  | 0x05E =>
    if p.extractLsb' 0 10 = 0#10 then (sopField (p.extractLsb' 20 10)).bind fun d =>
    (sopField (p.extractLsb' 10 10)).bind fun a => some (.spopc c d a) else none
  | 0x05F =>
    (sopField (p.extractLsb' 20 10)).bind fun d => (sopField (p.extractLsb' 10 10)).bind fun a =>
    some (.sbfe c d a (p.extractLsb' 5 5) (p.extractLsb' 0 5))
  | _ => none

/-- Decodes the mask words: OP 0x060 to 0x07F (R63), with the payload bits 29:0. -/
def decodeMask (c : Ctl) (op : Nat) (p : BitVec 30) : Option Instr :=
  match op with
  | 0x068 =>
    (mField (p.extractLsb' 20 10)).bind fun d => (mField (p.extractLsb' 10 10)).bind fun a =>
    (mField (p.extractLsb' 0 10)).bind fun b => some (.mand c d a b)
  | 0x069 =>
    (mField (p.extractLsb' 20 10)).bind fun d => (mField (p.extractLsb' 10 10)).bind fun a =>
    (mField (p.extractLsb' 0 10)).bind fun b => some (.mor c d a b)
  | 0x06A =>
    (mField (p.extractLsb' 20 10)).bind fun d => (mField (p.extractLsb' 10 10)).bind fun a =>
    (mField (p.extractLsb' 0 10)).bind fun b => some (.mxor c d a b)
  | 0x06B =>
    (mField (p.extractLsb' 20 10)).bind fun d => (mField (p.extractLsb' 10 10)).bind fun a =>
    (mField (p.extractLsb' 0 10)).bind fun b => some (.mandn c d a b)
  | 0x06C =>
    if p.extractLsb' 0 10 = 0#10 then (mField (p.extractLsb' 20 10)).bind fun d =>
    (mField (p.extractLsb' 10 10)).bind fun a => some (.mnot c d a) else none
  | 0x06D =>
    if p.extractLsb' 0 10 = 0#10 then (mField (p.extractLsb' 20 10)).bind fun d =>
    (sField (p.extractLsb' 10 10)).bind fun a => some (.mfroms c d a) else none
  | 0x06E =>
    if p.extractLsb' 0 10 = 0#10 then (sField (p.extractLsb' 20 10)).bind fun d =>
    (mField (p.extractLsb' 10 10)).bind fun a => some (.mtos c d a) else none
  | 0x06F =>
    if p.extractLsb' 0 10 = 0#10 then (sField (p.extractLsb' 20 10)).bind fun d =>
    (mField (p.extractLsb' 10 10)).bind fun a => some (.mpopc c d a) else none
  | 0x070 =>
    if p.extractLsb' 0 10 = 0#10 then (sField (p.extractLsb' 20 10)).bind fun d =>
    (mField (p.extractLsb' 10 10)).bind fun a => some (.mffs c d a) else none
  | _ => none

/-- Decodes the integer vector words: OP 0x080 to 0x0BF (R63), with the payload bits 29:0. -/
def decodeVInt (c : Ctl) (op : Nat) (p : BitVec 30) : Option Instr :=
  match op with
  | 0x080 =>
    some (.vadd c (p.extractLsb' 20 10) (p.extractLsb' 10 10) (p.extractLsb' 0 10))
  | 0x081 =>
    some (.vsub c (p.extractLsb' 20 10) (p.extractLsb' 10 10) (p.extractLsb' 0 10))
  | 0x082 =>
    some (.vmul c (p.extractLsb' 20 10) (p.extractLsb' 10 10) (p.extractLsb' 0 10))
  | 0x083 =>
    some (.vmulh c (p.extractLsb' 20 10) (p.extractLsb' 10 10) (p.extractLsb' 0 10))
  | 0x084 =>
    some (.vmulhu c (p.extractLsb' 20 10) (p.extractLsb' 10 10) (p.extractLsb' 0 10))
  | 0x085 =>
    some (.vmad c (p.extractLsb' 20 10) (p.extractLsb' 10 10) (p.extractLsb' 0 10))
  | 0x086 =>
    some (.vand c (p.extractLsb' 20 10) (p.extractLsb' 10 10) (p.extractLsb' 0 10))
  | 0x087 =>
    some (.vor c (p.extractLsb' 20 10) (p.extractLsb' 10 10) (p.extractLsb' 0 10))
  | 0x088 =>
    some (.vxor c (p.extractLsb' 20 10) (p.extractLsb' 10 10) (p.extractLsb' 0 10))
  | 0x089 =>
    some (.vshl c (p.extractLsb' 20 10) (p.extractLsb' 10 10) (p.extractLsb' 0 10))
  | 0x08A =>
    some (.vshr c (p.extractLsb' 20 10) (p.extractLsb' 10 10) (p.extractLsb' 0 10))
  | 0x08B =>
    some (.vsra c (p.extractLsb' 20 10) (p.extractLsb' 10 10) (p.extractLsb' 0 10))
  | 0x08C =>
    some (.vmin c (p.extractLsb' 20 10) (p.extractLsb' 10 10) (p.extractLsb' 0 10))
  | 0x08D =>
    some (.vmax c (p.extractLsb' 20 10) (p.extractLsb' 10 10) (p.extractLsb' 0 10))
  | 0x08E =>
    some (.vminu c (p.extractLsb' 20 10) (p.extractLsb' 10 10) (p.extractLsb' 0 10))
  | 0x08F =>
    some (.vmaxu c (p.extractLsb' 20 10) (p.extractLsb' 10 10) (p.extractLsb' 0 10))
  | 0x090 =>
    some (.vaddi c (p.extractLsb' 20 10) (p.extractLsb' 10 10) (p.extractLsb' 0 10))
  | 0x091 =>
    some (.vandi c (p.extractLsb' 20 10) (p.extractLsb' 10 10) (p.extractLsb' 0 10))
  | 0x092 =>
    some (.vori c (p.extractLsb' 20 10) (p.extractLsb' 10 10) (p.extractLsb' 0 10))
  | 0x093 =>
    some (.vxori c (p.extractLsb' 20 10) (p.extractLsb' 10 10) (p.extractLsb' 0 10))
  | 0x094 =>
    if p.extractLsb' 5 5 = 0#5 then
    some (.vshli c (p.extractLsb' 20 10) (p.extractLsb' 10 10) (p.extractLsb' 0 5)) else none
  | 0x095 =>
    if p.extractLsb' 5 5 = 0#5 then
    some (.vshri c (p.extractLsb' 20 10) (p.extractLsb' 10 10) (p.extractLsb' 0 5)) else none
  | 0x096 =>
    if p.extractLsb' 5 5 = 0#5 then
    some (.vsrai c (p.extractLsb' 20 10) (p.extractLsb' 10 10) (p.extractLsb' 0 5)) else none
  | 0x097 =>
    some (.vli c (p.extractLsb' 20 10) (p.extractLsb' 0 20))
  | 0x098 =>
    if p.extractLsb' 0 10 = 0#10 then some (.vmov c (p.extractLsb' 20 10) (p.extractLsb' 10 10)) else none
  | 0x099 =>
    if p.extractLsb' 0 10 = 0#10 then (sField (p.extractLsb' 10 10)).bind fun a =>
    some (.vmovs c (p.extractLsb' 20 10) a) else none
  | 0x09A =>
    some (.vaddp c (p.extractLsb' 20 10) (p.extractLsb' 10 10) (p.extractLsb' 0 10))
  | 0x09B =>
    if p.extractLsb' 0 10 = 0#10 then some (.vclz c (p.extractLsb' 20 10) (p.extractLsb' 10 10)) else none
  | 0x09C =>
    if p.extractLsb' 0 10 = 0#10 then some (.vpopc c (p.extractLsb' 20 10) (p.extractLsb' 10 10)) else none
  | 0x09D =>
    some (.vbfe c (p.extractLsb' 20 10) (p.extractLsb' 10 10) (p.extractLsb' 5 5) (p.extractLsb' 0 5))
  | 0x09E =>
    some (.vsel c (p.extractLsb' 20 10) (p.extractLsb' 10 10) (p.extractLsb' 0 10))
  | 0x0A0 =>
    if p.extractLsb' 24 2 = 0#2 then (IntCC.ofCode (p.extractLsb' 20 4)).bind fun cc =>
    some (.vcmp c (p.extractLsb' 26 4) cc (p.extractLsb' 10 10) (p.extractLsb' 0 10)) else none
  | 0x0A1 =>
    if p.extractLsb' 24 2 = 0#2 then (IntCC.ofCode (p.extractLsb' 20 4)).bind fun cc =>
    some (.vcmpi c (p.extractLsb' 26 4) cc (p.extractLsb' 10 10) (p.extractLsb' 0 10)) else none
  | 0x0A2 =>
    some (.vdot4 c (p.extractLsb' 20 10) (p.extractLsb' 10 10) (p.extractLsb' 0 10))
  | _ => none

/-- Decodes the floating vector words: OP 0x0C0 to 0x0EF (R63), with the payload bits 29:0. -/
def decodeVFloat (c : Ctl) (op : Nat) (p : BitVec 30) : Option Instr :=
  match op with
  | 0x0C0 =>
    some (.fadd c (p.extractLsb' 20 10) (p.extractLsb' 10 10) (p.extractLsb' 0 10))
  | 0x0C1 =>
    some (.fsub c (p.extractLsb' 20 10) (p.extractLsb' 10 10) (p.extractLsb' 0 10))
  | 0x0C2 =>
    some (.fmul c (p.extractLsb' 20 10) (p.extractLsb' 10 10) (p.extractLsb' 0 10))
  | 0x0C3 =>
    some (.ffma c (p.extractLsb' 20 10) (p.extractLsb' 10 10) (p.extractLsb' 0 10))
  | 0x0C4 =>
    some (.fmin c (p.extractLsb' 20 10) (p.extractLsb' 10 10) (p.extractLsb' 0 10))
  | 0x0C5 =>
    some (.fmax c (p.extractLsb' 20 10) (p.extractLsb' 10 10) (p.extractLsb' 0 10))
  | 0x0C6 =>
    if p.extractLsb' 0 10 = 0#10 then some (.fabs c (p.extractLsb' 20 10) (p.extractLsb' 10 10)) else none
  | 0x0C7 =>
    if p.extractLsb' 0 10 = 0#10 then some (.fneg c (p.extractLsb' 20 10) (p.extractLsb' 10 10)) else none
  | 0x0C8 =>
    some (.fcpsgn c (p.extractLsb' 20 10) (p.extractLsb' 10 10) (p.extractLsb' 0 10))
  | 0x0C9 =>
    if p.extractLsb' 0 10 = 0#10 then some (.frnd c (p.extractLsb' 20 10) (p.extractLsb' 10 10)) else none
  | 0x0CA =>
    if p.extractLsb' 24 2 = 0#2 then (FloatCC.ofCode (p.extractLsb' 20 4)).bind fun cc =>
    some (.fcmp c (p.extractLsb' 26 4) cc (p.extractLsb' 10 10) (p.extractLsb' 0 10)) else none
  | 0x0CB =>
    some (.hadd c (p.extractLsb' 20 10) (p.extractLsb' 10 10) (p.extractLsb' 0 10))
  | 0x0CC =>
    some (.hmul c (p.extractLsb' 20 10) (p.extractLsb' 10 10) (p.extractLsb' 0 10))
  | 0x0CD =>
    some (.hfma c (p.extractLsb' 20 10) (p.extractLsb' 10 10) (p.extractLsb' 0 10))
  | 0x0CE =>
    some (.badd c (p.extractLsb' 20 10) (p.extractLsb' 10 10) (p.extractLsb' 0 10))
  | 0x0CF =>
    some (.bmul c (p.extractLsb' 20 10) (p.extractLsb' 10 10) (p.extractLsb' 0 10))
  | 0x0D0 =>
    some (.bfma c (p.extractLsb' 20 10) (p.extractLsb' 10 10) (p.extractLsb' 0 10))
  | 0x0D1 =>
    some (.fdot2h c (p.extractLsb' 20 10) (p.extractLsb' 10 10) (p.extractLsb' 0 10))
  | 0x0D2 =>
    some (.fdot2b c (p.extractLsb' 20 10) (p.extractLsb' 10 10) (p.extractLsb' 0 10))
  | 0x0D8 =>
    (Fmt.ofCode (p.extractLsb' 5 5)).bind fun dst => (Fmt.ofCode (p.extractLsb' 0 5)).bind fun src =>
    some (.cvt c (p.extractLsb' 20 10) (p.extractLsb' 10 10) dst src)
  | 0x0D9 =>
    some (.packh c (p.extractLsb' 20 10) (p.extractLsb' 10 10) (p.extractLsb' 0 10))
  | 0x0DA =>
    some (.packb c (p.extractLsb' 20 10) (p.extractLsb' 10 10) (p.extractLsb' 0 10))
  | 0x0E0 =>
    if p.extractLsb' 0 10 = 0#10 then some (.frcp c (p.extractLsb' 20 10) (p.extractLsb' 10 10)) else none
  | 0x0E1 =>
    if p.extractLsb' 0 10 = 0#10 then some (.frsq c (p.extractLsb' 20 10) (p.extractLsb' 10 10)) else none
  | 0x0E2 =>
    if p.extractLsb' 0 10 = 0#10 then some (.fsqrt c (p.extractLsb' 20 10) (p.extractLsb' 10 10)) else none
  | 0x0E3 =>
    if p.extractLsb' 0 10 = 0#10 then some (.fex2 c (p.extractLsb' 20 10) (p.extractLsb' 10 10)) else none
  | 0x0E4 =>
    if p.extractLsb' 0 10 = 0#10 then some (.flg2 c (p.extractLsb' 20 10) (p.extractLsb' 10 10)) else none
  | 0x0E5 =>
    if p.extractLsb' 0 10 = 0#10 then some (.fsinp c (p.extractLsb' 20 10) (p.extractLsb' 10 10)) else none
  | 0x0E6 =>
    if p.extractLsb' 0 10 = 0#10 then some (.fcosp c (p.extractLsb' 20 10) (p.extractLsb' 10 10)) else none
  | 0x0E7 =>
    if p.extractLsb' 0 10 = 0#10 then some (.ftanh c (p.extractLsb' 20 10) (p.extractLsb' 10 10)) else none
  | _ => none

/-- Decodes the cross-lane and random words: OP 0x0F0 to 0x0FF (R63), with the payload bits 29:0. -/
def decodeCross (c : Ctl) (op : Nat) (p : BitVec 30) : Option Instr :=
  match op with
  | 0x0F0 =>
    some (.vperm c (p.extractLsb' 20 10) (p.extractLsb' 10 10) (p.extractLsb' 0 10))
  | 0x0F1 =>
    if p.extractLsb' 6 2 = 0#2 then
    some (.vshfl c (p.extractLsb' 20 10) (p.extractLsb' 10 10) (p.extractLsb' 8 2) (p.extractLsb' 0 6)) else none
  | 0x0F2 =>
    if p.extractLsb' 6 4 = 0#4 then
    some (.vbcast c (p.extractLsb' 20 10) (p.extractLsb' 10 10) (p.extractLsb' 0 6)) else none
  | 0x0F3 =>
    if p.extractLsb' 4 6 = 0#6 then (sField (p.extractLsb' 20 10)).bind fun d =>
    (RedOp.ofCode (p.extractLsb' 0 4)).bind fun op => some (.vred c d (p.extractLsb' 10 10) op) else none
  | 0x0F4 =>
    if p.extractLsb' 5 5 = 0#5 then (RedOp.ofCode (p.extractLsb' 0 4)).bind fun op =>
    some (.vscan c (p.extractLsb' 20 10) (p.extractLsb' 10 10) (boolField (p.extractLsb' 4 1)) op) else none
  | 0x0F5 =>
    if p.extractLsb' 8 2 = 0#2 then
    some (.vhperm c (p.extractLsb' 20 10) (p.extractLsb' 10 10) (p.extractLsb' 0 8)) else none
  | 0x0F8 =>
    if p.extractLsb' 0 20 = 0#20 then some (.vrand c (p.extractLsb' 20 10)) else none
  | 0x0F9 =>
    if p.extractLsb' 0 20 = 0#20 then some (.vrandf c (p.extractLsb' 20 10)) else none
  | 0x0FA =>
    if p.extractLsb' 20 10 = 0#10 ∧ p.extractLsb' 0 10 = 0#10 then (sField (p.extractLsb' 10 10)).bind fun a =>
    some (.vrseed c a) else none
  | _ => none

/-- Decodes the loads and stores: OP 0x100 to 0x11F (R63), with the payload bits 29:0. -/
def decodeLoadStore (c : Ctl) (op : Nat) (p : BitVec 30) : Option Instr :=
  match op with
  | 0x100 =>
    (Scope.ofCode (p.extractLsb' 4 3)).bind fun sco => (LdOrd.ofCode (p.extractLsb' 2 2)).bind fun ord =>
    (Chan.ofCode (p.extractLsb' 0 2)).bind fun ch =>
    some (.ldvB8z c (p.extractLsb' 20 10) (p.extractLsb' 10 10) (p.extractLsb' 7 3) sco ord ch)
  | 0x101 =>
    (Scope.ofCode (p.extractLsb' 4 3)).bind fun sco => (LdOrd.ofCode (p.extractLsb' 2 2)).bind fun ord =>
    (Chan.ofCode (p.extractLsb' 0 2)).bind fun ch =>
    some (.ldvB8s c (p.extractLsb' 20 10) (p.extractLsb' 10 10) (p.extractLsb' 7 3) sco ord ch)
  | 0x102 =>
    (Scope.ofCode (p.extractLsb' 4 3)).bind fun sco => (LdOrd.ofCode (p.extractLsb' 2 2)).bind fun ord =>
    (Chan.ofCode (p.extractLsb' 0 2)).bind fun ch =>
    some (.ldvB16z c (p.extractLsb' 20 10) (p.extractLsb' 10 10) (p.extractLsb' 7 3) sco ord ch)
  | 0x103 =>
    (Scope.ofCode (p.extractLsb' 4 3)).bind fun sco => (LdOrd.ofCode (p.extractLsb' 2 2)).bind fun ord =>
    (Chan.ofCode (p.extractLsb' 0 2)).bind fun ch =>
    some (.ldvB16s c (p.extractLsb' 20 10) (p.extractLsb' 10 10) (p.extractLsb' 7 3) sco ord ch)
  | 0x104 =>
    (Scope.ofCode (p.extractLsb' 4 3)).bind fun sco => (LdOrd.ofCode (p.extractLsb' 2 2)).bind fun ord =>
    (Chan.ofCode (p.extractLsb' 0 2)).bind fun ch =>
    some (.ldvB32 c (p.extractLsb' 20 10) (p.extractLsb' 10 10) (p.extractLsb' 7 3) sco ord ch)
  | 0x105 =>
    (Scope.ofCode (p.extractLsb' 4 3)).bind fun sco => (LdOrd.ofCode (p.extractLsb' 2 2)).bind fun ord =>
    (Chan.ofCode (p.extractLsb' 0 2)).bind fun ch =>
    some (.ldvB64 c (p.extractLsb' 20 10) (p.extractLsb' 10 10) (p.extractLsb' 7 3) sco ord ch)
  | 0x106 =>
    (Scope.ofCode (p.extractLsb' 4 3)).bind fun sco => (LdOrd.ofCode (p.extractLsb' 2 2)).bind fun ord =>
    (Chan.ofCode (p.extractLsb' 0 2)).bind fun ch =>
    some (.ldvB128 c (p.extractLsb' 20 10) (p.extractLsb' 10 10) (p.extractLsb' 7 3) sco ord ch)
  | 0x108 =>
    (Scope.ofCode (p.extractLsb' 4 3)).bind fun sco => (StOrd.ofCode (p.extractLsb' 2 2)).bind fun ord =>
    (Chan.ofCode (p.extractLsb' 0 2)).bind fun ch =>
    some (.stvB8 c (p.extractLsb' 20 10) (p.extractLsb' 10 10) (p.extractLsb' 7 3) sco ord ch)
  | 0x109 =>
    (Scope.ofCode (p.extractLsb' 4 3)).bind fun sco => (StOrd.ofCode (p.extractLsb' 2 2)).bind fun ord =>
    (Chan.ofCode (p.extractLsb' 0 2)).bind fun ch =>
    some (.stvB16 c (p.extractLsb' 20 10) (p.extractLsb' 10 10) (p.extractLsb' 7 3) sco ord ch)
  | 0x10A =>
    (Scope.ofCode (p.extractLsb' 4 3)).bind fun sco => (StOrd.ofCode (p.extractLsb' 2 2)).bind fun ord =>
    (Chan.ofCode (p.extractLsb' 0 2)).bind fun ch =>
    some (.stvB32 c (p.extractLsb' 20 10) (p.extractLsb' 10 10) (p.extractLsb' 7 3) sco ord ch)
  | 0x10B =>
    (Scope.ofCode (p.extractLsb' 4 3)).bind fun sco => (StOrd.ofCode (p.extractLsb' 2 2)).bind fun ord =>
    (Chan.ofCode (p.extractLsb' 0 2)).bind fun ch =>
    some (.stvB64 c (p.extractLsb' 20 10) (p.extractLsb' 10 10) (p.extractLsb' 7 3) sco ord ch)
  | 0x10C =>
    (Scope.ofCode (p.extractLsb' 4 3)).bind fun sco => (StOrd.ofCode (p.extractLsb' 2 2)).bind fun ord =>
    (Chan.ofCode (p.extractLsb' 0 2)).bind fun ch =>
    some (.stvB128 c (p.extractLsb' 20 10) (p.extractLsb' 10 10) (p.extractLsb' 7 3) sco ord ch)
  | 0x110 =>
    (sField (p.extractLsb' 20 10)).bind fun d => (sField (p.extractLsb' 10 10)).bind fun a =>
    (Scope.ofCode (p.extractLsb' 4 3)).bind fun sco => (LdOrd.ofCode (p.extractLsb' 2 2)).bind fun ord =>
    (Chan.ofCode (p.extractLsb' 0 2)).bind fun ch => some (.ldsB32 c d a (p.extractLsb' 7 3) sco ord ch)
  | 0x111 =>
    (sField (p.extractLsb' 20 10)).bind fun d => (sField (p.extractLsb' 10 10)).bind fun a =>
    (Scope.ofCode (p.extractLsb' 4 3)).bind fun sco => (LdOrd.ofCode (p.extractLsb' 2 2)).bind fun ord =>
    (Chan.ofCode (p.extractLsb' 0 2)).bind fun ch => some (.ldsB64 c d a (p.extractLsb' 7 3) sco ord ch)
  | 0x112 =>
    (sField (p.extractLsb' 20 10)).bind fun d => (sField (p.extractLsb' 10 10)).bind fun a =>
    (Scope.ofCode (p.extractLsb' 4 3)).bind fun sco => (LdOrd.ofCode (p.extractLsb' 2 2)).bind fun ord =>
    (Chan.ofCode (p.extractLsb' 0 2)).bind fun ch => some (.ldsB128 c d a (p.extractLsb' 7 3) sco ord ch)
  | 0x114 =>
    (sField (p.extractLsb' 20 10)).bind fun d => (sField (p.extractLsb' 10 10)).bind fun a =>
    (Scope.ofCode (p.extractLsb' 4 3)).bind fun sco => (StOrd.ofCode (p.extractLsb' 2 2)).bind fun ord =>
    (Chan.ofCode (p.extractLsb' 0 2)).bind fun ch => some (.stsB32 c d a (p.extractLsb' 7 3) sco ord ch)
  | 0x115 =>
    (sField (p.extractLsb' 20 10)).bind fun d => (sField (p.extractLsb' 10 10)).bind fun a =>
    (Scope.ofCode (p.extractLsb' 4 3)).bind fun sco => (StOrd.ofCode (p.extractLsb' 2 2)).bind fun ord =>
    (Chan.ofCode (p.extractLsb' 0 2)).bind fun ch => some (.stsB64 c d a (p.extractLsb' 7 3) sco ord ch)
  | 0x118 =>
    (Scope.ofCode (p.extractLsb' 4 3)).bind fun sco => (LdOrd.ofCode (p.extractLsb' 2 2)).bind fun ord =>
    (Chan.ofCode (p.extractLsb' 0 2)).bind fun ch =>
    some (.ldlB32 c (p.extractLsb' 20 10) (p.extractLsb' 10 10) (p.extractLsb' 7 3) sco ord ch)
  | 0x119 =>
    (Scope.ofCode (p.extractLsb' 4 3)).bind fun sco => (LdOrd.ofCode (p.extractLsb' 2 2)).bind fun ord =>
    (Chan.ofCode (p.extractLsb' 0 2)).bind fun ch =>
    some (.ldlB128 c (p.extractLsb' 20 10) (p.extractLsb' 10 10) (p.extractLsb' 7 3) sco ord ch)
  | 0x11A =>
    (Scope.ofCode (p.extractLsb' 4 3)).bind fun sco => (StOrd.ofCode (p.extractLsb' 2 2)).bind fun ord =>
    (Chan.ofCode (p.extractLsb' 0 2)).bind fun ch =>
    some (.stlB32 c (p.extractLsb' 20 10) (p.extractLsb' 10 10) (p.extractLsb' 7 3) sco ord ch)
  | 0x11B =>
    (Scope.ofCode (p.extractLsb' 4 3)).bind fun sco => (StOrd.ofCode (p.extractLsb' 2 2)).bind fun ord =>
    (Chan.ofCode (p.extractLsb' 0 2)).bind fun ch =>
    some (.stlB128 c (p.extractLsb' 20 10) (p.extractLsb' 10 10) (p.extractLsb' 7 3) sco ord ch)
  | _ => none

/-- Decodes the global per-lane read-modify-writes: OP 0x120 to 0x13F (R63), with the payload bits 29:0. -/
def decodeAtom (c : Ctl) (op : Nat) (p : BitVec 30) : Option Instr :=
  match op with
  | 0x120 =>
    (Scope.ofCode (p.extractLsb' 4 3)).bind fun sco => (RmwOrd.ofCode (p.extractLsb' 2 2)).bind fun ord =>
    (Chan.ofCode (p.extractLsb' 0 2)).bind fun ch =>
    some (.atomAddB32 c (p.extractLsb' 20 10) (p.extractLsb' 10 10) (p.extractLsb' 7 3) sco ord ch)
  | 0x121 =>
    (Scope.ofCode (p.extractLsb' 4 3)).bind fun sco => (RmwOrd.ofCode (p.extractLsb' 2 2)).bind fun ord =>
    (Chan.ofCode (p.extractLsb' 0 2)).bind fun ch =>
    some (.atomMinB32 c (p.extractLsb' 20 10) (p.extractLsb' 10 10) (p.extractLsb' 7 3) sco ord ch)
  | 0x122 =>
    (Scope.ofCode (p.extractLsb' 4 3)).bind fun sco => (RmwOrd.ofCode (p.extractLsb' 2 2)).bind fun ord =>
    (Chan.ofCode (p.extractLsb' 0 2)).bind fun ch =>
    some (.atomMaxB32 c (p.extractLsb' 20 10) (p.extractLsb' 10 10) (p.extractLsb' 7 3) sco ord ch)
  | 0x123 =>
    (Scope.ofCode (p.extractLsb' 4 3)).bind fun sco => (RmwOrd.ofCode (p.extractLsb' 2 2)).bind fun ord =>
    (Chan.ofCode (p.extractLsb' 0 2)).bind fun ch =>
    some (.atomMinuB32 c (p.extractLsb' 20 10) (p.extractLsb' 10 10) (p.extractLsb' 7 3) sco ord ch)
  | 0x124 =>
    (Scope.ofCode (p.extractLsb' 4 3)).bind fun sco => (RmwOrd.ofCode (p.extractLsb' 2 2)).bind fun ord =>
    (Chan.ofCode (p.extractLsb' 0 2)).bind fun ch =>
    some (.atomMaxuB32 c (p.extractLsb' 20 10) (p.extractLsb' 10 10) (p.extractLsb' 7 3) sco ord ch)
  | 0x125 =>
    (Scope.ofCode (p.extractLsb' 4 3)).bind fun sco => (RmwOrd.ofCode (p.extractLsb' 2 2)).bind fun ord =>
    (Chan.ofCode (p.extractLsb' 0 2)).bind fun ch =>
    some (.atomAndB32 c (p.extractLsb' 20 10) (p.extractLsb' 10 10) (p.extractLsb' 7 3) sco ord ch)
  | 0x126 =>
    (Scope.ofCode (p.extractLsb' 4 3)).bind fun sco => (RmwOrd.ofCode (p.extractLsb' 2 2)).bind fun ord =>
    (Chan.ofCode (p.extractLsb' 0 2)).bind fun ch =>
    some (.atomOrB32 c (p.extractLsb' 20 10) (p.extractLsb' 10 10) (p.extractLsb' 7 3) sco ord ch)
  | 0x127 =>
    (Scope.ofCode (p.extractLsb' 4 3)).bind fun sco => (RmwOrd.ofCode (p.extractLsb' 2 2)).bind fun ord =>
    (Chan.ofCode (p.extractLsb' 0 2)).bind fun ch =>
    some (.atomXorB32 c (p.extractLsb' 20 10) (p.extractLsb' 10 10) (p.extractLsb' 7 3) sco ord ch)
  | 0x128 =>
    (Scope.ofCode (p.extractLsb' 4 3)).bind fun sco => (RmwOrd.ofCode (p.extractLsb' 2 2)).bind fun ord =>
    (Chan.ofCode (p.extractLsb' 0 2)).bind fun ch =>
    some (.atomXchgB32 c (p.extractLsb' 20 10) (p.extractLsb' 10 10) (p.extractLsb' 7 3) sco ord ch)
  | 0x129 =>
    (Scope.ofCode (p.extractLsb' 4 3)).bind fun sco => (RmwOrd.ofCode (p.extractLsb' 2 2)).bind fun ord =>
    (Chan.ofCode (p.extractLsb' 0 2)).bind fun ch =>
    some (.casB32 c (p.extractLsb' 20 10) (p.extractLsb' 10 10) (p.extractLsb' 7 3) sco ord ch)
  | 0x12A =>
    (Scope.ofCode (p.extractLsb' 4 3)).bind fun sco => (RmwOrd.ofCode (p.extractLsb' 2 2)).bind fun ord =>
    (Chan.ofCode (p.extractLsb' 0 2)).bind fun ch =>
    some (.atomfAddF32 c (p.extractLsb' 20 10) (p.extractLsb' 10 10) (p.extractLsb' 7 3) sco ord ch)
  | 0x12B =>
    (Scope.ofCode (p.extractLsb' 4 3)).bind fun sco => (RmwOrd.ofCode (p.extractLsb' 2 2)).bind fun ord =>
    (Chan.ofCode (p.extractLsb' 0 2)).bind fun ch =>
    some (.atomfAddBf16x2 c (p.extractLsb' 20 10) (p.extractLsb' 10 10) (p.extractLsb' 7 3) sco ord ch)
  | 0x130 =>
    (Scope.ofCode (p.extractLsb' 4 3)).bind fun sco => (RmwOrd.ofCode (p.extractLsb' 2 2)).bind fun ord =>
    (Chan.ofCode (p.extractLsb' 0 2)).bind fun ch =>
    some (.atomAddB64 c (p.extractLsb' 20 10) (p.extractLsb' 10 10) (p.extractLsb' 7 3) sco ord ch)
  | 0x131 =>
    (Scope.ofCode (p.extractLsb' 4 3)).bind fun sco => (RmwOrd.ofCode (p.extractLsb' 2 2)).bind fun ord =>
    (Chan.ofCode (p.extractLsb' 0 2)).bind fun ch =>
    some (.atomMinB64 c (p.extractLsb' 20 10) (p.extractLsb' 10 10) (p.extractLsb' 7 3) sco ord ch)
  | 0x132 =>
    (Scope.ofCode (p.extractLsb' 4 3)).bind fun sco => (RmwOrd.ofCode (p.extractLsb' 2 2)).bind fun ord =>
    (Chan.ofCode (p.extractLsb' 0 2)).bind fun ch =>
    some (.atomMaxB64 c (p.extractLsb' 20 10) (p.extractLsb' 10 10) (p.extractLsb' 7 3) sco ord ch)
  | 0x133 =>
    (Scope.ofCode (p.extractLsb' 4 3)).bind fun sco => (RmwOrd.ofCode (p.extractLsb' 2 2)).bind fun ord =>
    (Chan.ofCode (p.extractLsb' 0 2)).bind fun ch =>
    some (.atomMinuB64 c (p.extractLsb' 20 10) (p.extractLsb' 10 10) (p.extractLsb' 7 3) sco ord ch)
  | 0x134 =>
    (Scope.ofCode (p.extractLsb' 4 3)).bind fun sco => (RmwOrd.ofCode (p.extractLsb' 2 2)).bind fun ord =>
    (Chan.ofCode (p.extractLsb' 0 2)).bind fun ch =>
    some (.atomMaxuB64 c (p.extractLsb' 20 10) (p.extractLsb' 10 10) (p.extractLsb' 7 3) sco ord ch)
  | 0x135 =>
    (Scope.ofCode (p.extractLsb' 4 3)).bind fun sco => (RmwOrd.ofCode (p.extractLsb' 2 2)).bind fun ord =>
    (Chan.ofCode (p.extractLsb' 0 2)).bind fun ch =>
    some (.atomAndB64 c (p.extractLsb' 20 10) (p.extractLsb' 10 10) (p.extractLsb' 7 3) sco ord ch)
  | 0x136 =>
    (Scope.ofCode (p.extractLsb' 4 3)).bind fun sco => (RmwOrd.ofCode (p.extractLsb' 2 2)).bind fun ord =>
    (Chan.ofCode (p.extractLsb' 0 2)).bind fun ch =>
    some (.atomOrB64 c (p.extractLsb' 20 10) (p.extractLsb' 10 10) (p.extractLsb' 7 3) sco ord ch)
  | 0x137 =>
    (Scope.ofCode (p.extractLsb' 4 3)).bind fun sco => (RmwOrd.ofCode (p.extractLsb' 2 2)).bind fun ord =>
    (Chan.ofCode (p.extractLsb' 0 2)).bind fun ch =>
    some (.atomXorB64 c (p.extractLsb' 20 10) (p.extractLsb' 10 10) (p.extractLsb' 7 3) sco ord ch)
  | 0x138 =>
    (Scope.ofCode (p.extractLsb' 4 3)).bind fun sco => (RmwOrd.ofCode (p.extractLsb' 2 2)).bind fun ord =>
    (Chan.ofCode (p.extractLsb' 0 2)).bind fun ch =>
    some (.atomXchgB64 c (p.extractLsb' 20 10) (p.extractLsb' 10 10) (p.extractLsb' 7 3) sco ord ch)
  | 0x139 =>
    (Scope.ofCode (p.extractLsb' 4 3)).bind fun sco => (RmwOrd.ofCode (p.extractLsb' 2 2)).bind fun ord =>
    (Chan.ofCode (p.extractLsb' 0 2)).bind fun ch =>
    some (.casB64 c (p.extractLsb' 20 10) (p.extractLsb' 10 10) (p.extractLsb' 7 3) sco ord ch)
  | _ => none

/-- Decodes the uniform and local read-modify-writes: OP 0x140 to 0x15F (R63), with the payload bits 29:0. -/
def decodeAtomS (c : Ctl) (op : Nat) (p : BitVec 30) : Option Instr :=
  match op with
  | 0x140 =>
    (sField (p.extractLsb' 20 10)).bind fun d => (sField (p.extractLsb' 10 10)).bind fun a =>
    (Scope.ofCode (p.extractLsb' 4 3)).bind fun sco => (RmwOrd.ofCode (p.extractLsb' 2 2)).bind fun ord =>
    (Chan.ofCode (p.extractLsb' 0 2)).bind fun ch => some (.atomsAddB32 c d a (p.extractLsb' 7 3) sco ord ch)
  | 0x141 =>
    (sField (p.extractLsb' 20 10)).bind fun d => (sField (p.extractLsb' 10 10)).bind fun a =>
    (Scope.ofCode (p.extractLsb' 4 3)).bind fun sco => (RmwOrd.ofCode (p.extractLsb' 2 2)).bind fun ord =>
    (Chan.ofCode (p.extractLsb' 0 2)).bind fun ch => some (.atomsMinB32 c d a (p.extractLsb' 7 3) sco ord ch)
  | 0x142 =>
    (sField (p.extractLsb' 20 10)).bind fun d => (sField (p.extractLsb' 10 10)).bind fun a =>
    (Scope.ofCode (p.extractLsb' 4 3)).bind fun sco => (RmwOrd.ofCode (p.extractLsb' 2 2)).bind fun ord =>
    (Chan.ofCode (p.extractLsb' 0 2)).bind fun ch => some (.atomsMaxB32 c d a (p.extractLsb' 7 3) sco ord ch)
  | 0x143 =>
    (sField (p.extractLsb' 20 10)).bind fun d => (sField (p.extractLsb' 10 10)).bind fun a =>
    (Scope.ofCode (p.extractLsb' 4 3)).bind fun sco => (RmwOrd.ofCode (p.extractLsb' 2 2)).bind fun ord =>
    (Chan.ofCode (p.extractLsb' 0 2)).bind fun ch => some (.atomsMinuB32 c d a (p.extractLsb' 7 3) sco ord ch)
  | 0x144 =>
    (sField (p.extractLsb' 20 10)).bind fun d => (sField (p.extractLsb' 10 10)).bind fun a =>
    (Scope.ofCode (p.extractLsb' 4 3)).bind fun sco => (RmwOrd.ofCode (p.extractLsb' 2 2)).bind fun ord =>
    (Chan.ofCode (p.extractLsb' 0 2)).bind fun ch => some (.atomsMaxuB32 c d a (p.extractLsb' 7 3) sco ord ch)
  | 0x145 =>
    (sField (p.extractLsb' 20 10)).bind fun d => (sField (p.extractLsb' 10 10)).bind fun a =>
    (Scope.ofCode (p.extractLsb' 4 3)).bind fun sco => (RmwOrd.ofCode (p.extractLsb' 2 2)).bind fun ord =>
    (Chan.ofCode (p.extractLsb' 0 2)).bind fun ch => some (.atomsAndB32 c d a (p.extractLsb' 7 3) sco ord ch)
  | 0x146 =>
    (sField (p.extractLsb' 20 10)).bind fun d => (sField (p.extractLsb' 10 10)).bind fun a =>
    (Scope.ofCode (p.extractLsb' 4 3)).bind fun sco => (RmwOrd.ofCode (p.extractLsb' 2 2)).bind fun ord =>
    (Chan.ofCode (p.extractLsb' 0 2)).bind fun ch => some (.atomsOrB32 c d a (p.extractLsb' 7 3) sco ord ch)
  | 0x147 =>
    (sField (p.extractLsb' 20 10)).bind fun d => (sField (p.extractLsb' 10 10)).bind fun a =>
    (Scope.ofCode (p.extractLsb' 4 3)).bind fun sco => (RmwOrd.ofCode (p.extractLsb' 2 2)).bind fun ord =>
    (Chan.ofCode (p.extractLsb' 0 2)).bind fun ch => some (.atomsXorB32 c d a (p.extractLsb' 7 3) sco ord ch)
  | 0x148 =>
    (sField (p.extractLsb' 20 10)).bind fun d => (sField (p.extractLsb' 10 10)).bind fun a =>
    (Scope.ofCode (p.extractLsb' 4 3)).bind fun sco => (RmwOrd.ofCode (p.extractLsb' 2 2)).bind fun ord =>
    (Chan.ofCode (p.extractLsb' 0 2)).bind fun ch => some (.atomsXchgB32 c d a (p.extractLsb' 7 3) sco ord ch)
  | 0x149 =>
    (sField (p.extractLsb' 20 10)).bind fun d => (sField (p.extractLsb' 10 10)).bind fun a =>
    (Scope.ofCode (p.extractLsb' 4 3)).bind fun sco => (RmwOrd.ofCode (p.extractLsb' 2 2)).bind fun ord =>
    (Chan.ofCode (p.extractLsb' 0 2)).bind fun ch => some (.cassB32 c d a (p.extractLsb' 7 3) sco ord ch)
  | 0x150 =>
    (Scope.ofCode (p.extractLsb' 4 3)).bind fun sco => (RmwOrd.ofCode (p.extractLsb' 2 2)).bind fun ord =>
    (Chan.ofCode (p.extractLsb' 0 2)).bind fun ch =>
    some (.atomlAddB32 c (p.extractLsb' 20 10) (p.extractLsb' 10 10) (p.extractLsb' 7 3) sco ord ch)
  | 0x151 =>
    (Scope.ofCode (p.extractLsb' 4 3)).bind fun sco => (RmwOrd.ofCode (p.extractLsb' 2 2)).bind fun ord =>
    (Chan.ofCode (p.extractLsb' 0 2)).bind fun ch =>
    some (.atomlMinB32 c (p.extractLsb' 20 10) (p.extractLsb' 10 10) (p.extractLsb' 7 3) sco ord ch)
  | 0x152 =>
    (Scope.ofCode (p.extractLsb' 4 3)).bind fun sco => (RmwOrd.ofCode (p.extractLsb' 2 2)).bind fun ord =>
    (Chan.ofCode (p.extractLsb' 0 2)).bind fun ch =>
    some (.atomlMaxB32 c (p.extractLsb' 20 10) (p.extractLsb' 10 10) (p.extractLsb' 7 3) sco ord ch)
  | 0x153 =>
    (Scope.ofCode (p.extractLsb' 4 3)).bind fun sco => (RmwOrd.ofCode (p.extractLsb' 2 2)).bind fun ord =>
    (Chan.ofCode (p.extractLsb' 0 2)).bind fun ch =>
    some (.atomlMinuB32 c (p.extractLsb' 20 10) (p.extractLsb' 10 10) (p.extractLsb' 7 3) sco ord ch)
  | 0x154 =>
    (Scope.ofCode (p.extractLsb' 4 3)).bind fun sco => (RmwOrd.ofCode (p.extractLsb' 2 2)).bind fun ord =>
    (Chan.ofCode (p.extractLsb' 0 2)).bind fun ch =>
    some (.atomlMaxuB32 c (p.extractLsb' 20 10) (p.extractLsb' 10 10) (p.extractLsb' 7 3) sco ord ch)
  | 0x155 =>
    (Scope.ofCode (p.extractLsb' 4 3)).bind fun sco => (RmwOrd.ofCode (p.extractLsb' 2 2)).bind fun ord =>
    (Chan.ofCode (p.extractLsb' 0 2)).bind fun ch =>
    some (.atomlAndB32 c (p.extractLsb' 20 10) (p.extractLsb' 10 10) (p.extractLsb' 7 3) sco ord ch)
  | 0x156 =>
    (Scope.ofCode (p.extractLsb' 4 3)).bind fun sco => (RmwOrd.ofCode (p.extractLsb' 2 2)).bind fun ord =>
    (Chan.ofCode (p.extractLsb' 0 2)).bind fun ch =>
    some (.atomlOrB32 c (p.extractLsb' 20 10) (p.extractLsb' 10 10) (p.extractLsb' 7 3) sco ord ch)
  | 0x157 =>
    (Scope.ofCode (p.extractLsb' 4 3)).bind fun sco => (RmwOrd.ofCode (p.extractLsb' 2 2)).bind fun ord =>
    (Chan.ofCode (p.extractLsb' 0 2)).bind fun ch =>
    some (.atomlXorB32 c (p.extractLsb' 20 10) (p.extractLsb' 10 10) (p.extractLsb' 7 3) sco ord ch)
  | 0x158 =>
    (Scope.ofCode (p.extractLsb' 4 3)).bind fun sco => (RmwOrd.ofCode (p.extractLsb' 2 2)).bind fun ord =>
    (Chan.ofCode (p.extractLsb' 0 2)).bind fun ch =>
    some (.atomlXchgB32 c (p.extractLsb' 20 10) (p.extractLsb' 10 10) (p.extractLsb' 7 3) sco ord ch)
  | 0x159 =>
    (Scope.ofCode (p.extractLsb' 4 3)).bind fun sco => (RmwOrd.ofCode (p.extractLsb' 2 2)).bind fun ord =>
    (Chan.ofCode (p.extractLsb' 0 2)).bind fun ch =>
    some (.caslB32 c (p.extractLsb' 20 10) (p.extractLsb' 10 10) (p.extractLsb' 7 3) sco ord ch)
  | _ => none

/-- Decodes the fences, waits, cache words, barriers, rte and brk: OP 0x160 to 0x17F (R63), with the payload bits 29:0. -/
def decodeSync (c : Ctl) (op : Nat) (p : BitVec 30) : Option Instr :=
  match op with
  | 0x160 =>
    if p.extractLsb' 0 17 = 0#17 then (FenceKind.ofCode (p.extractLsb' 20 2)).bind fun fkind =>
    (Scope.ofCode (p.extractLsb' 17 3)).bind fun sco => some (.fence c (p.extractLsb' 22 8) fkind sco) else none
  | 0x161 =>
    if p.extractLsb' 20 10 = 0#10 ∧ p.extractLsb' 2 2 = 0#2 then (sField (p.extractLsb' 10 10)).bind fun a =>
    (Scope.ofCode (p.extractLsb' 4 3)).bind fun sco => (Chan.ofCode (p.extractLsb' 0 2)).bind fun ch =>
    some (.monitor c a (p.extractLsb' 7 3) sco ch) else none
  | 0x162 =>
    (sField (p.extractLsb' 20 10)).bind fun d => (sField (p.extractLsb' 10 10)).bind fun a =>
    (Scope.ofCode (p.extractLsb' 4 3)).bind fun sco => (LdOrd.ofCode (p.extractLsb' 2 2)).bind fun ord =>
    (Chan.ofCode (p.extractLsb' 0 2)).bind fun ch => some (.mwait c d a (p.extractLsb' 7 3) sco ord ch)
  | 0x163 =>
    if p.extractLsb' 20 10 = 0#10 ∧ p.extractLsb' 2 2 = 0#2 then (Scope.ofCode (p.extractLsb' 4 3)).bind fun sco =>
    (Chan.ofCode (p.extractLsb' 0 2)).bind fun ch =>
    some (.pf c (p.extractLsb' 10 10) (p.extractLsb' 7 3) sco ch) else none
  | 0x164 =>
    if p.extractLsb' 20 10 = 0#10 ∧ p.extractLsb' 2 2 = 0#2 then (Scope.ofCode (p.extractLsb' 4 3)).bind fun sco =>
    (Chan.ofCode (p.extractLsb' 0 2)).bind fun ch =>
    some (.cwb c (p.extractLsb' 10 10) (p.extractLsb' 7 3) sco ch) else none
  | 0x165 =>
    if p.extractLsb' 20 10 = 0#10 ∧ p.extractLsb' 2 2 = 0#2 then (Scope.ofCode (p.extractLsb' 4 3)).bind fun sco =>
    (Chan.ofCode (p.extractLsb' 0 2)).bind fun ch =>
    some (.cinv c (p.extractLsb' 10 10) (p.extractLsb' 7 3) sco ch) else none
  | 0x170 =>
    if p.extractLsb' 9 21 = 0#21 then some (.barSync c (p.extractLsb' 4 5) (p.extractLsb' 0 4)) else none
  | 0x171 =>
    if p.extractLsb' 9 21 = 0#21 then some (.barArrive c (p.extractLsb' 4 5) (p.extractLsb' 0 4)) else none
  | 0x172 =>
    if p.extractLsb' 9 21 = 0#21 then some (.barWait c (p.extractLsb' 4 5) (p.extractLsb' 0 4)) else none
  | 0x174 =>
    if p.extractLsb' 0 30 = 0#30 then some (.rte c) else none
  | 0x175 =>
    if p.extractLsb' 16 14 = 0#14 then some (.brk c (p.extractLsb' 0 16)) else none
  | _ => none

/-- Decodes the matrix words: OP 0x180 to 0x18F (R63), with the payload bits 29:0. -/
noncomputable def decodeMatrix (c : Ctl) (op : Nat) (p : BitVec 30) : Option Instr :=
  match op with
  | 0x180 =>
    if p.extractLsb' 0 7 = 0#7 then (sField (p.extractLsb' 10 10)).bind fun a =>
    some (.mma c (p.extractLsb' 20 10) a (p.extractLsb' 7 3)) else none
  | 0x181 =>
    if p.extractLsb' 0 7 = 0#7 then (sField (p.extractLsb' 10 10)).bind fun a =>
    some (.mmas c (p.extractLsb' 20 10) a (p.extractLsb' 7 3)) else none
  | 0x182 =>
    if p.extractLsb' 10 20 = 0#20 ∧ p.extractLsb' 0 7 = 0#7 then some (.macz c (p.extractLsb' 7 3)) else none
  | 0x183 =>
    if p.extractLsb' 0 7 = 0#7 then (sField (p.extractLsb' 10 10)).bind fun a =>
    some (.macld c (p.extractLsb' 20 10) a (p.extractLsb' 7 3)) else none
  | 0x184 =>
    if p.extractLsb' 0 7 = 0#7 then (sField (p.extractLsb' 10 10)).bind fun a =>
    some (.macst c (p.extractLsb' 20 10) a (p.extractLsb' 7 3)) else none
  | 0x185 =>
    if p.extractLsb' 0 7 = 0#7 then
      if p.extractLsb' 0 7 = 0#7 then (sField (p.extractLsb' 10 10)).bind fun a =>
      some (.mepiScale c (p.extractLsb' 20 10) a (p.extractLsb' 7 3)) else none
    else if p.extractLsb' 0 7 = 1#7 then
      if p.extractLsb' 0 7 = 1#7 then (sField (p.extractLsb' 10 10)).bind fun a =>
      some (.mepiBiasRow c (p.extractLsb' 20 10) a (p.extractLsb' 7 3)) else none
    else if p.extractLsb' 0 7 = 2#7 then
      if p.extractLsb' 0 7 = 2#7 then (sField (p.extractLsb' 10 10)).bind fun a =>
      some (.mepiBiasCol c (p.extractLsb' 20 10) a (p.extractLsb' 7 3)) else none
    else if p.extractLsb' 0 7 = 3#7 then
      if p.extractLsb' 0 7 = 3#7 then (sField (p.extractLsb' 10 10)).bind fun a =>
      some (.mepiRelu c (p.extractLsb' 20 10) a (p.extractLsb' 7 3)) else none
    else if p.extractLsb' 0 7 = 4#7 then
      if p.extractLsb' 0 7 = 4#7 then (sField (p.extractLsb' 10 10)).bind fun a =>
      some (.mepiClamp c (p.extractLsb' 20 10) a (p.extractLsb' 7 3)) else none
    else if p.extractLsb' 0 7 = 5#7 then
      if p.extractLsb' 0 7 = 5#7 then (sField (p.extractLsb' 10 10)).bind fun a =>
      some (.mepiAdd c (p.extractLsb' 20 10) a (p.extractLsb' 7 3)) else none
    else if p.extractLsb' 0 7 = 6#7 then
      if p.extractLsb' 0 7 = 6#7 then (sField (p.extractLsb' 10 10)).bind fun a =>
      some (.mepiDeq c (p.extractLsb' 20 10) a (p.extractLsb' 7 3)) else none
    else none
  | 0x186 =>
    if p.extractLsb' 0 20 = 0#20 then (sField (p.extractLsb' 20 10)).bind fun d => some (.batonTake c d) else none
  | 0x187 =>
    if p.extractLsb' 7 23 = 0#23 then (PassTarget.ofCode (p.extractLsb' 0 7)).bind fun target =>
    some (.batonPass c target) else none
  | 0x188 =>
    (if p.extractLsb' 7 13 = 0#13 then (sField (p.extractLsb' 20 10)).bind fun d => (MQuery.ofCode (p.extractLsb' 0 7)).bind fun sub => some (.mquery c d sub) else none).orElse fun _ =>
    if p.extractLsb' 0 7 = 4#7 then
      if p.extractLsb' 7 13 = 0#13 ∧ p.extractLsb' 0 7 = 4#7 then (sField (p.extractLsb' 20 10)).bind fun d =>
      some (.mqueryFlagsc c d) else none
    else none
  | _ => none

/-- Decodes the tile words: OP 0x190 to 0x1AF (R63), with the payload bits 29:0. -/
noncomputable def decodeTile (c : Ctl) (op : Nat) (p : BitVec 30) : Option Instr :=
  match op with
  | 0x190 =>
    if p.extractLsb' 12 12 = 0#12 ∧ p.extractLsb' 0 4 = 0#4 then
    some (.tld c (p.extractLsb' 24 6) (p.extractLsb' 4 8)) else none
  | 0x191 =>
    if p.extractLsb' 12 12 = 0#12 ∧ p.extractLsb' 0 4 = 0#4 then
    some (.tconst c (p.extractLsb' 24 6) (p.extractLsb' 4 8)) else none
  | 0x192 =>
    if p.extractLsb' 12 12 = 0#12 ∧ p.extractLsb' 0 4 = 0#4 then
    some (.tiota c (p.extractLsb' 24 6) (p.extractLsb' 4 8)) else none
  | 0x193 =>
    if p.extractLsb' 0 4 = 0#4 then
      if p.extractLsb' 4 14 = 0#14 ∧ p.extractLsb' 0 4 = 0#4 then
      some (.tmapTr c (p.extractLsb' 24 6) (p.extractLsb' 18 6)) else none
    else if p.extractLsb' 0 4 = 1#4 then
      if p.extractLsb' 12 6 = 0#6 ∧ p.extractLsb' 0 4 = 1#4 then
      some (.tmapSlice c (p.extractLsb' 24 6) (p.extractLsb' 18 6) (p.extractLsb' 4 8)) else none
    else if p.extractLsb' 0 4 = 2#4 then
      if p.extractLsb' 12 6 = 0#6 ∧ p.extractLsb' 0 4 = 2#4 then
      some (.tmapBcr c (p.extractLsb' 24 6) (p.extractLsb' 18 6) (p.extractLsb' 4 8)) else none
    else if p.extractLsb' 0 4 = 3#4 then
      if p.extractLsb' 12 6 = 0#6 ∧ p.extractLsb' 0 4 = 3#4 then
      some (.tmapBcc c (p.extractLsb' 24 6) (p.extractLsb' 18 6) (p.extractLsb' 4 8)) else none
    else if p.extractLsb' 0 4 = 4#4 then
      if p.extractLsb' 4 14 = 0#14 ∧ p.extractLsb' 0 4 = 4#4 then
      some (.tmapRevr c (p.extractLsb' 24 6) (p.extractLsb' 18 6)) else none
    else if p.extractLsb' 0 4 = 5#4 then
      if p.extractLsb' 4 14 = 0#14 ∧ p.extractLsb' 0 4 = 5#4 then
      some (.tmapRevc c (p.extractLsb' 24 6) (p.extractLsb' 18 6)) else none
    else if p.extractLsb' 0 4 = 6#4 then
      if p.extractLsb' 12 6 = 0#6 ∧ p.extractLsb' 0 4 = 6#4 then
      some (.tmapShift c (p.extractLsb' 24 6) (p.extractLsb' 18 6) (p.extractLsb' 4 8)) else none
    else none
  | 0x194 =>
    if p.extractLsb' 0 12 = 0#12 then
    some (.tadd c (p.extractLsb' 24 6) (p.extractLsb' 18 6) (p.extractLsb' 12 6)) else none
  | 0x195 =>
    if p.extractLsb' 0 12 = 0#12 then
    some (.tsub c (p.extractLsb' 24 6) (p.extractLsb' 18 6) (p.extractLsb' 12 6)) else none
  | 0x196 =>
    if p.extractLsb' 0 12 = 0#12 then
    some (.tmul c (p.extractLsb' 24 6) (p.extractLsb' 18 6) (p.extractLsb' 12 6)) else none
  | 0x197 =>
    if p.extractLsb' 0 12 = 0#12 then
    some (.tmax c (p.extractLsb' 24 6) (p.extractLsb' 18 6) (p.extractLsb' 12 6)) else none
  | 0x198 =>
    if p.extractLsb' 0 12 = 0#12 then
    some (.tmin c (p.extractLsb' 24 6) (p.extractLsb' 18 6) (p.extractLsb' 12 6)) else none
  | 0x199 =>
    if p.extractLsb' 0 18 = 0#18 then some (.texp c (p.extractLsb' 24 6) (p.extractLsb' 18 6)) else none
  | 0x19A =>
    if p.extractLsb' 0 18 = 0#18 then some (.tlog c (p.extractLsb' 24 6) (p.extractLsb' 18 6)) else none
  | 0x19B =>
    if p.extractLsb' 0 18 = 0#18 then some (.trcp c (p.extractLsb' 24 6) (p.extractLsb' 18 6)) else none
  | 0x19C =>
    if p.extractLsb' 0 18 = 0#18 then some (.tsig c (p.extractLsb' 24 6) (p.extractLsb' 18 6)) else none
  | 0x19D =>
    if p.extractLsb' 12 6 = 0#6 ∧ p.extractLsb' 1 3 = 0#3 then
    some (.tselm c (p.extractLsb' 24 6) (p.extractLsb' 18 6) (p.extractLsb' 4 8) (boolField (p.extractLsb' 0 1))) else none
  | 0x19E =>
    if p.extractLsb' 1 17 = 0#17 then
    some (.tscan c (p.extractLsb' 24 6) (p.extractLsb' 18 6) (boolField (p.extractLsb' 0 1))) else none
  | 0x19F =>
    if p.extractLsb' 2 16 = 0#16 then
    some (.tred c (p.extractLsb' 24 6) (p.extractLsb' 18 6) (p.extractLsb' 0 2)) else none
  | 0x1A0 =>
    if p.extractLsb' 0 4 = 0#4 then
    some (.tmma c (p.extractLsb' 24 6) (p.extractLsb' 18 6) (p.extractLsb' 12 6) (p.extractLsb' 4 8)) else none
  | 0x1A1 =>
    if p.extractLsb' 12 6 = 0#6 ∧ p.extractLsb' 0 4 = 0#4 then
    some (.tcvt c (p.extractLsb' 24 6) (p.extractLsb' 18 6) (p.extractLsb' 4 8)) else none
  | 0x1A2 =>
    if p.extractLsb' 24 6 = 0#6 ∧ p.extractLsb' 12 6 = 0#6 ∧ p.extractLsb' 0 4 = 0#4 then
    some (.tst c (p.extractLsb' 18 6) (p.extractLsb' 4 8)) else none
  | 0x1A3 =>
    if p.extractLsb' 24 6 = 0#6 ∧ p.extractLsb' 12 6 = 0#6 ∧ p.extractLsb' 0 4 = 0#4 then
    some (.tforce c (p.extractLsb' 18 6) (p.extractLsb' 4 8)) else none
  | 0x1A4 =>
    if p.extractLsb' 0 24 = 0#24 then some (.tdrop c (p.extractLsb' 24 6)) else none
  | 0x1A5 =>
    if p.extractLsb' 12 18 = 0#18 ∧ p.extractLsb' 0 4 = 0#4 then some (.tcfg c (p.extractLsb' 4 8)) else none
  | 0x1A6 =>
    if p.extractLsb' 0 4 = 0#4 then
      if p.extractLsb' 12 18 = 0#18 ∧ p.extractLsb' 0 4 = 0#4 then some (.tstatCounts c (p.extractLsb' 4 8)) else none
    else if p.extractLsb' 0 4 = 1#4 then
      if p.extractLsb' 12 18 = 0#18 ∧ p.extractLsb' 0 4 = 1#4 then some (.tstatCap c (p.extractLsb' 4 8)) else none
    else if p.extractLsb' 0 4 = 2#4 then
      if p.extractLsb' 24 6 = 0#6 ∧ p.extractLsb' 12 6 = 0#6 ∧ p.extractLsb' 0 4 = 2#4 then
      some (.tstatNode c (p.extractLsb' 18 6) (p.extractLsb' 4 8)) else none
    else if p.extractLsb' 0 4 = 3#4 then
      if p.extractLsb' 12 18 = 0#18 ∧ p.extractLsb' 0 4 = 3#4 then some (.tstatFault c (p.extractLsb' 4 8)) else none
    else none
  | _ => none

/-- Decodes the copy, port, traversal, device and near-bank words: OP 0x1B0 to 0x1FF (R63), with the payload bits 29:0. -/
noncomputable def decodeEngine (c : Ctl) (op : Nat) (p : BitVec 30) : Option Instr :=
  match op with
  | 0x1B0 =>
    if p.extractLsb' 0 10 = 0#10 then (sField (p.extractLsb' 20 10)).bind fun d =>
    (sField (p.extractLsb' 10 10)).bind fun a => some (.cpy c d a) else none
  | 0x1B1 =>
    if p.extractLsb' 0 10 = 0#10 then (sField (p.extractLsb' 20 10)).bind fun d =>
    (sField (p.extractLsb' 10 10)).bind fun a => some (.cpym c d a) else none
  | 0x1B2 =>
    if p.extractLsb' 0 10 = 0#10 then (sField (p.extractLsb' 20 10)).bind fun d =>
    (sField (p.extractLsb' 10 10)).bind fun a => some (.cpyx c d a) else none
  | 0x1B3 =>
    if p.extractLsb' 20 10 = 0#10 then (sField (p.extractLsb' 10 10)).bind fun a =>
    (Timeline.ofCode (p.extractLsb' 0 10)).bind fun sel => some (.tlwait c a sel) else none
  | 0x1B4 =>
    if p.extractLsb' 10 10 = 0#10 then (sField (p.extractLsb' 20 10)).bind fun d =>
    (Timeline.ofCode (p.extractLsb' 0 10)).bind fun sel => some (.tlrd c d sel) else none
  | 0x1B5 =>
    if p.extractLsb' 20 10 = 0#10 then (sField (p.extractLsb' 10 10)).bind fun a =>
    (Timeline.ofCode (p.extractLsb' 0 10)).bind fun sel => some (.waitp c a sel) else none
  | 0x1B6 =>
    if p.extractLsb' 20 10 = 0#10 ∧ p.extractLsb' 0 10 = 0#10 then (sField (p.extractLsb' 10 10)).bind fun a =>
    some (.bankcfg c a) else none
  | 0x1B7 =>
    if p.extractLsb' 20 10 = 0#10 ∧ p.extractLsb' 0 10 = 0#10 then (sField (p.extractLsb' 10 10)).bind fun a =>
    some (.fpush c a) else none
  | 0x1B8 =>
    if p.extractLsb' 0 10 = 0#10 then (sField (p.extractLsb' 20 10)).bind fun d =>
    (sField (p.extractLsb' 10 10)).bind fun a => some (.fpop c d a) else none
  | 0x1B9 =>
    if p.extractLsb' 0 10 = 0#10 then (portField (p.extractLsb' 20 10)).bind fun d =>
    (sField (p.extractLsb' 10 10)).bind fun a => some (.portcfg c d a) else none
  | 0x1BA =>
    if p.extractLsb' 4 26 = 0#26 then some (.cbarArrive c (p.extractLsb' 0 4)) else none
  | 0x1BB =>
    if p.extractLsb' 4 26 = 0#26 then some (.cbarWait c (p.extractLsb' 0 4)) else none
  | 0x1C0 =>
    if p.extractLsb' 3 7 = 0#7 then (sField (p.extractLsb' 20 10)).bind fun d =>
    (sField (p.extractLsb' 10 10)).bind fun a => some (.rbind c d a (p.extractLsb' 0 3)) else none
  | 0x1C1 =>
    if p.extractLsb' 0 10 = 0#10 then (sField (p.extractLsb' 20 10)).bind fun d =>
    (sField (p.extractLsb' 10 10)).bind fun a => some (.rtrace c d a) else none
  | 0x1C2 =>
    if p.extractLsb' 0 30 = 0#30 then some (.rsave c) else none
  | 0x1C3 =>
    if p.extractLsb' 0 10 = 0#10 then (sField (p.extractLsb' 20 10)).bind fun d =>
    (sField (p.extractLsb' 10 10)).bind fun a => some (.rresume c d a) else none
  | 0x1C4 =>
    if p.extractLsb' 10 10 = 0#10 then (sField (p.extractLsb' 20 10)).bind fun d =>
    (RQuery.ofCode (p.extractLsb' 0 10)).bind fun sub => some (.rquery c d sub) else none
  | 0x1D0 =>
    if p.extractLsb' 20 10 = 0#10 ∧ p.extractLsb' 0 10 = 0#10 then (sField (p.extractLsb' 10 10)).bind fun a =>
    some (.launch c a) else none
  | 0x1D1 =>
    if p.extractLsb' 20 10 = 0#10 ∧ p.extractLsb' 0 10 = 0#10 then (sField (p.extractLsb' 10 10)).bind fun a =>
    some (.tenq c a) else none
  | 0x1D2 =>
    if p.extractLsb' 4 16 = 0#16 then (sField (p.extractLsb' 20 10)).bind fun d =>
    some (.rnext c d (p.extractLsb' 0 4)) else none
  | 0x1D3 =>
    if p.extractLsb' 0 10 = 0#10 then (sField (p.extractLsb' 20 10)).bind fun d =>
    (sField (p.extractLsb' 10 10)).bind fun a => some (.recalloc c d a) else none
  | 0x1D4 =>
    if p.extractLsb' 20 10 = 0#10 ∧ p.extractLsb' 0 10 = 0#10 then (sField (p.extractLsb' 10 10)).bind fun a =>
    some (.recsend c a) else none
  | 0x1D5 =>
    if p.extractLsb' 0 30 = 0#30 then some (.gate c) else none
  | 0x1D6 =>
    if p.extractLsb' 0 30 = 0#30 then some (.release c) else none
  | 0x1D7 =>
    if p.extractLsb' 0 10 = 0#10 then (sField (p.extractLsb' 20 10)).bind fun d =>
    (sField (p.extractLsb' 10 10)).bind fun a => some (.qclaim c d a) else none
  | 0x1D8 =>
    if p.extractLsb' 20 10 = 0#10 ∧ p.extractLsb' 0 10 = 0#10 then (sField (p.extractLsb' 10 10)).bind fun a =>
    some (.pemit c a) else none
  | 0x1D9 =>
    if p.extractLsb' 3 17 = 0#17 then some (.pxout c (p.extractLsb' 20 10) (p.extractLsb' 0 3)) else none
  | 0x1E0 =>
    if p.extractLsb' 0 10 = 0#10 then (sField (p.extractLsb' 20 10)).bind fun d =>
    (sField (p.extractLsb' 10 10)).bind fun a => some (.nmv c d a) else none
  | _ => none

/-- Decodes the operation and payload of a full word (R42). -/
noncomputable def decodeOp (c : Ctl) (op : BitVec 9) (p : BitVec 30) : Option Instr :=
  let o := op.toNat
  if o < 0x040 then decodeControl c o p
  else if o < 0x060 then decodeScalar c o p
  else if o < 0x080 then decodeMask c o p
  else if o < 0x0C0 then decodeVInt c o p
  else if o < 0x0F0 then decodeVFloat c o p
  else if o < 0x100 then decodeCross c o p
  else if o < 0x120 then decodeLoadStore c o p
  else if o < 0x140 then decodeAtom c o p
  else if o < 0x160 then decodeAtomS c o p
  else if o < 0x180 then decodeSync c o p
  else if o < 0x190 then decodeMatrix c o p
  else if o < 0x1B0 then decodeTile c o p
  else decodeEngine c o p

/-- The assigned opcodes (R63). -/
def opAssigned (op : Nat) : Bool :=
  decide (0x000 ≤ op ∧ op ≤ 0x00E)
  || decide (0x010 ≤ op ∧ op ≤ 0x015)
  || decide (0x018 ≤ op ∧ op ≤ 0x01A)
  || decide (0x040 ≤ op ∧ op ≤ 0x05F)
  || decide (0x068 ≤ op ∧ op ≤ 0x070)
  || decide (0x080 ≤ op ∧ op ≤ 0x09E)
  || decide (0x0A0 ≤ op ∧ op ≤ 0x0A2)
  || decide (0x0C0 ≤ op ∧ op ≤ 0x0D2)
  || decide (0x0D8 ≤ op ∧ op ≤ 0x0DA)
  || decide (0x0E0 ≤ op ∧ op ≤ 0x0E7)
  || decide (0x0F0 ≤ op ∧ op ≤ 0x0F5)
  || decide (0x0F8 ≤ op ∧ op ≤ 0x0FA)
  || decide (0x100 ≤ op ∧ op ≤ 0x106)
  || decide (0x108 ≤ op ∧ op ≤ 0x10C)
  || decide (0x110 ≤ op ∧ op ≤ 0x112)
  || decide (0x114 ≤ op ∧ op ≤ 0x115)
  || decide (0x118 ≤ op ∧ op ≤ 0x11B)
  || decide (0x120 ≤ op ∧ op ≤ 0x12B)
  || decide (0x130 ≤ op ∧ op ≤ 0x139)
  || decide (0x140 ≤ op ∧ op ≤ 0x149)
  || decide (0x150 ≤ op ∧ op ≤ 0x159)
  || decide (0x160 ≤ op ∧ op ≤ 0x165)
  || decide (0x170 ≤ op ∧ op ≤ 0x172)
  || decide (0x174 ≤ op ∧ op ≤ 0x175)
  || decide (0x180 ≤ op ∧ op ≤ 0x188)
  || decide (0x190 ≤ op ∧ op ≤ 0x1A6)
  || decide (0x1B0 ≤ op ∧ op ≤ 0x1BB)
  || decide (0x1C0 ≤ op ∧ op ≤ 0x1C4)
  || decide (0x1D0 ≤ op ∧ op ≤ 0x1D9)
  || decide (0x1E0 ≤ op ∧ op ≤ 0x1E0)

/-- The vector-class opcodes of R43: the predicate selects lanes and a word with none does nothing. `vsel`
(0x09E) is active whenever it issues (R60) and is not among them. -/
def opVector (op : Nat) : Bool :=
  decide (0x005 ≤ op ∧ op ≤ 0x006)
  || decide (0x080 ≤ op ∧ op ≤ 0x09D)
  || decide (0x0A0 ≤ op ∧ op ≤ 0x0A2)
  || decide (0x0C0 ≤ op ∧ op ≤ 0x0D2)
  || decide (0x0D8 ≤ op ∧ op ≤ 0x0DA)
  || decide (0x0E0 ≤ op ∧ op ≤ 0x0E7)
  || decide (0x0F0 ≤ op ∧ op ≤ 0x0F5)
  || decide (0x0F8 ≤ op ∧ op ≤ 0x0FA)
  || decide (0x100 ≤ op ∧ op ≤ 0x106)
  || decide (0x108 ≤ op ∧ op ≤ 0x10C)
  || decide (0x118 ≤ op ∧ op ≤ 0x11B)
  || decide (0x120 ≤ op ∧ op ≤ 0x12B)
  || decide (0x130 ≤ op ∧ op ≤ 0x139)
  || decide (0x150 ≤ op ∧ op ≤ 0x159)
  || decide (0x163 ≤ op ∧ op ≤ 0x165)

/-! The fields of a word (R36, R42). -/

def fKind (w : DWord) : BitVec 2 := w.extractLsb' 62 2
def fOp (w : DWord) : BitVec 9 := w.extractLsb' 34 9
def fPred (w : DWord) : BitVec 4 := w.extractLsb' 30 4
def fPay (w : DWord) : BitVec 30 := w.extractLsb' 0 30
/-- The control header of a word (R36). -/
def fHdr (w : DWord) : Hdr := ⟨w.extractLsb' 59 3, w.extractLsb' 47 12, w.extractLsb' 43 4⟩
/-- The header and predicate of a full word (R42). -/
def fCtl (w : DWord) : Ctl := ⟨fHdr w, boolField (w.extractLsb' 33 1), w.extractLsb' 30 3⟩

/-- Decodes a full word (KIND 00). -/
noncomputable def decodeFull (w : DWord) : Except DecodeError Instr :=
  let c := fCtl w
  if !opAssigned (fOp w).toNat then .error .unassigned
  else if !hdrOk c.h then .error .setf
  else
    match decodeOp c (fOp w) (fPay w) with
    | some i => if wellFormed i then .ok i else .error .field
    | none => .error .field

/-- Decodes a dual word (KIND 01, R52). -/
def decodeDual (w : DWord) : Except DecodeError Instr :=
  match Slot.ofCode (w.extractLsb' 38 5), Slot.ofCode (w.extractLsb' 17 5) with
  | some opH, some opL =>
    let i := Instr.dualWord (fHdr w) opH (w.extractLsb' 30 8) (w.extractLsb' 22 8) opL (w.extractLsb' 9 8)
      (w.extractLsb' 1 8) (boolField (w.extractLsb' 0 1))
    if !hdrOk (fHdr w) then .error .setf else if wellFormed i then .ok i else .error .dual
  | _, _ => .error .dual

/-- Decodes a word that stands alone: not a prefix. -/
noncomputable def decodeWord (w : DWord) : Except DecodeError Instr :=
  if fKind w = 0#2 then decodeFull w
  else if fKind w = 1#2 then decodeDual w
  else if fKind w = 3#2 then .error .kind3
  else .error .prefixWord

/-- Decodes the fields of a prefix word (R56). -/
def decodePfx (w : DWord) : Option Pfx :=
  if w.extractLsb' 59 3 = 0#3 ∧ w.extractLsb' 47 12 = 0#12 ∧ w.extractLsb' 43 4 = 15#4 ∧ w.extractLsb' 32 11 = 0#11 ∧
      w.extractLsb' 28 4 = 1#4 ∧ w.extractLsb' 0 7 = 0#7 then
    (Rnd.ofCode (w.extractLsb' 19 3)).bind fun r =>
      some ⟨w.extractLsb' 24 4, boolField (w.extractLsb' 23 1), boolField (w.extractLsb' 22 1), r,
        boolField (w.extractLsb' 18 1), boolField (w.extractLsb' 17 1), w.extractLsb' 7 10⟩
  else none

/-- The opcodes that may follow a prefix (R57). -/
def opPairs (op : Nat) : Bool :=
  decide (0x080 ≤ op ∧ op ≤ 0x0FF) || decide (0x100 ≤ op ∧ op ≤ 0x106) || decide (0x108 ≤ op ∧ op ≤ 0x10C)

/-- Decodes a prefixed pair: the prefix word and the word after it (R57). -/
noncomputable def decodePair (w0 w1 : DWord) : Except DecodeError Instr :=
  match decodePfx w0 with
  | none => .error .prefixWord
  | some x =>
    if fKind w1 ≠ 0#2 ∨ fPred w1 ≠ 0#4 ∨ opPairs (fOp w1).toNat = false then .error .prefixFollower
    else
      match decodeFull w1 with
      | .error e => .error e
      | .ok i => if wellFormed (.prefixedPair x i) then .ok (.prefixedPair x i) else .error .prefixField

/-- The little-endian 64-bit word at the front of a list of bytes (R35), with the rest. -/
def takeWord : List Byte → Option (DWord × List Byte)
  | b0 :: b1 :: b2 :: b3 :: b4 :: b5 :: b6 :: b7 :: t => some (b7 ++ b6 ++ b5 ++ b4 ++ b3 ++ b2 ++ b1 ++ b0, t)
  | _ => none

/-- Decodes the instruction at the front of a list of bytes: a word, or a prefixed pair of two. -/
noncomputable def decode (bs : List Byte) : Except DecodeError (Instr × List Byte) :=
  match takeWord bs with
  | none => .error .short
  | some (w0, t) =>
    if fKind w0 = 2#2 then
      match decodePfx w0, takeWord t with
      | none, _ => .error .prefixWord
      | some _, none => .error .short
      | some _, some (w1, t') =>
        match decodePair w0 w1 with
        | .ok i => .ok (i, t')
        | .error e => .error e
    else
      match decodeWord w0 with
      | .ok i => .ok (i, t)
      | .error e => .error e

/-! Encoding. -/

/-- The header's bits (R36). -/
def encHdr (k : BitVec 2) (h : Hdr) : BitVec 21 := k ++ h.stall ++ h.wait ++ h.setf

/-- A full word from its parts (R42). -/
def encFull (c : Ctl) (op : BitVec 9) (p : BitVec 30) : DWord :=
  encHdr 0#2 c.h ++ op ++ encB c.neg ++ c.pm ++ p

/-- The prefix word of a pair (R56). -/
def encPfx (x : Pfx) : DWord :=
  encHdr 2#2 ⟨0#3, 0#12, 15#4⟩ ++ 0#11 ++ 1#4 ++ x.mask ++ encB x.neg ++ encB x.zero ++ x.rnd.code ++ encB x.ftz ++
    encB x.sat ++ x.c ++ 0#7

/-- Header, opcode and payload of a full word (R44, R63); none for what is not one. -/
def encParts : Instr → Option (Ctl × BitVec 9 × BitVec 30)
  | .nop c => some (c, 0x000#9, 0#30)
  | .bra c qc qn off => some (c, 0x001#9, qc ++ encB qn ++ off)
  | .call c d i => some (c, 0x002#9, encS d ++ i)
  | .jr c a => some (c, 0x003#9, 0#10 ++ encS a ++ 0#10)
  | .loop c d i => some (c, 0x004#9, encS d ++ i)
  | .split c m mn off => some (c, 0x005#9, m ++ encB mn ++ off)
  | .jmpv c a => some (c, 0x006#9, 0#10 ++ a ++ 0#10)
  | .sync c => some (c, 0x007#9, 0#30)
  | .exit c => some (c, 0x008#9, 0#30)
  | .yield c => some (c, 0x009#9, 0#30)
  | .sleep c a i => some (c, 0x00A#9, 0#10 ++ encS a ++ i)
  | .trap c code => some (c, 0x00B#9, 0#14 ++ code)
  | .upcall c d a chan => some (c, 0x00C#9, encS d ++ encS a ++ 0#4 ++ chan)
  | .elect c d => some (c, 0x00D#9, encM d ++ 0#20)
  | .setprio c i => some (c, 0x00E#9, 0#22 ++ i)
  | .qany c qd a => some (c, 0x010#9, qd ++ 0#6 ++ encM a ++ 0#10)
  | .qall c qd a => some (c, 0x011#9, qd ++ 0#6 ++ encM a ++ 0#10)
  | .qnone c qd a => some (c, 0x012#9, qd ++ 0#6 ++ encM a ++ 0#10)
  | .qcmp c qd cc a b => some (c, 0x013#9, qd ++ 0#2 ++ cc.code ++ encS a ++ encS b)
  | .qcmpi c qd cc a i => some (c, 0x014#9, qd ++ 0#2 ++ cc.code ++ encS a ++ i)
  | .qop c qd qa qb opc => some (c, 0x015#9, qd ++ qa ++ qb ++ opc.code ++ 0#16)
  | .srd c d spec => some (c, 0x018#9, encS d ++ 0#8 ++ spec)
  | .swr c a spec => some (c, 0x019#9, encS a ++ 0#8 ++ spec)
  | .vsrd c d spec => some (c, 0x01A#9, d ++ 0#8 ++ spec)
  | .sadd c d a b => some (c, 0x040#9, encSOp d ++ encSOp a ++ encSOp b)
  | .ssub c d a b => some (c, 0x041#9, encSOp d ++ encSOp a ++ encSOp b)
  | .smul c d a b => some (c, 0x042#9, encSOp d ++ encSOp a ++ encSOp b)
  | .smulh c d a b => some (c, 0x043#9, encSOp d ++ encSOp a ++ encSOp b)
  | .sdiv c d a b => some (c, 0x044#9, encSOp d ++ encSOp a ++ encSOp b)
  | .sdivu c d a b => some (c, 0x045#9, encSOp d ++ encSOp a ++ encSOp b)
  | .srem c d a b => some (c, 0x046#9, encSOp d ++ encSOp a ++ encSOp b)
  | .sremu c d a b => some (c, 0x047#9, encSOp d ++ encSOp a ++ encSOp b)
  | .sand c d a b => some (c, 0x048#9, encSOp d ++ encSOp a ++ encSOp b)
  | .sor c d a b => some (c, 0x049#9, encSOp d ++ encSOp a ++ encSOp b)
  | .sxor c d a b => some (c, 0x04A#9, encSOp d ++ encSOp a ++ encSOp b)
  | .sshl c d a b => some (c, 0x04B#9, encSOp d ++ encSOp a ++ encSOp b)
  | .sshr c d a b => some (c, 0x04C#9, encSOp d ++ encSOp a ++ encSOp b)
  | .ssra c d a b => some (c, 0x04D#9, encSOp d ++ encSOp a ++ encSOp b)
  | .smin c d a b => some (c, 0x04E#9, encSOp d ++ encSOp a ++ encSOp b)
  | .smax c d a b => some (c, 0x04F#9, encSOp d ++ encSOp a ++ encSOp b)
  | .sminu c d a b => some (c, 0x050#9, encSOp d ++ encSOp a ++ encSOp b)
  | .smaxu c d a b => some (c, 0x051#9, encSOp d ++ encSOp a ++ encSOp b)
  | .saddi c d a i => some (c, 0x052#9, encSOp d ++ encSOp a ++ i)
  | .sandi c d a i => some (c, 0x053#9, encSOp d ++ encSOp a ++ i)
  | .sori c d a i => some (c, 0x054#9, encSOp d ++ encSOp a ++ i)
  | .sxori c d a i => some (c, 0x055#9, encSOp d ++ encSOp a ++ i)
  | .sshli c d a i => some (c, 0x056#9, encSOp d ++ encSOp a ++ 0#5 ++ i)
  | .sshri c d a i => some (c, 0x057#9, encSOp d ++ encSOp a ++ 0#5 ++ i)
  | .ssrai c d a i => some (c, 0x058#9, encSOp d ++ encSOp a ++ 0#5 ++ i)
  | .sli c d i => some (c, 0x059#9, encSOp d ++ i)
  | .slui c d i => some (c, 0x05A#9, encSOp d ++ i)
  | .smov c d a => some (c, 0x05B#9, encSOp d ++ encSOp a ++ 0#10)
  | .saddp c d a b => some (c, 0x05C#9, encS d ++ encS a ++ encS b)
  | .sclz c d a => some (c, 0x05D#9, encSOp d ++ encSOp a ++ 0#10)
  | .spopc c d a => some (c, 0x05E#9, encSOp d ++ encSOp a ++ 0#10)
  | .sbfe c d a len pos => some (c, 0x05F#9, encSOp d ++ encSOp a ++ len ++ pos)
  | .mand c d a b => some (c, 0x068#9, encM d ++ encM a ++ encM b)
  | .mor c d a b => some (c, 0x069#9, encM d ++ encM a ++ encM b)
  | .mxor c d a b => some (c, 0x06A#9, encM d ++ encM a ++ encM b)
  | .mandn c d a b => some (c, 0x06B#9, encM d ++ encM a ++ encM b)
  | .mnot c d a => some (c, 0x06C#9, encM d ++ encM a ++ 0#10)
  | .mfroms c d a => some (c, 0x06D#9, encM d ++ encS a ++ 0#10)
  | .mtos c d a => some (c, 0x06E#9, encS d ++ encM a ++ 0#10)
  | .mpopc c d a => some (c, 0x06F#9, encS d ++ encM a ++ 0#10)
  | .mffs c d a => some (c, 0x070#9, encS d ++ encM a ++ 0#10)
  | .vadd c d a b => some (c, 0x080#9, d ++ a ++ b)
  | .vsub c d a b => some (c, 0x081#9, d ++ a ++ b)
  | .vmul c d a b => some (c, 0x082#9, d ++ a ++ b)
  | .vmulh c d a b => some (c, 0x083#9, d ++ a ++ b)
  | .vmulhu c d a b => some (c, 0x084#9, d ++ a ++ b)
  | .vmad c d a b => some (c, 0x085#9, d ++ a ++ b)
  | .vand c d a b => some (c, 0x086#9, d ++ a ++ b)
  | .vor c d a b => some (c, 0x087#9, d ++ a ++ b)
  | .vxor c d a b => some (c, 0x088#9, d ++ a ++ b)
  | .vshl c d a b => some (c, 0x089#9, d ++ a ++ b)
  | .vshr c d a b => some (c, 0x08A#9, d ++ a ++ b)
  | .vsra c d a b => some (c, 0x08B#9, d ++ a ++ b)
  | .vmin c d a b => some (c, 0x08C#9, d ++ a ++ b)
  | .vmax c d a b => some (c, 0x08D#9, d ++ a ++ b)
  | .vminu c d a b => some (c, 0x08E#9, d ++ a ++ b)
  | .vmaxu c d a b => some (c, 0x08F#9, d ++ a ++ b)
  | .vaddi c d a i => some (c, 0x090#9, d ++ a ++ i)
  | .vandi c d a i => some (c, 0x091#9, d ++ a ++ i)
  | .vori c d a i => some (c, 0x092#9, d ++ a ++ i)
  | .vxori c d a i => some (c, 0x093#9, d ++ a ++ i)
  | .vshli c d a i => some (c, 0x094#9, d ++ a ++ 0#5 ++ i)
  | .vshri c d a i => some (c, 0x095#9, d ++ a ++ 0#5 ++ i)
  | .vsrai c d a i => some (c, 0x096#9, d ++ a ++ 0#5 ++ i)
  | .vli c d i => some (c, 0x097#9, d ++ i)
  | .vmov c d a => some (c, 0x098#9, d ++ a ++ 0#10)
  | .vmovs c d a => some (c, 0x099#9, d ++ encS a ++ 0#10)
  | .vaddp c d a b => some (c, 0x09A#9, d ++ a ++ b)
  | .vclz c d a => some (c, 0x09B#9, d ++ a ++ 0#10)
  | .vpopc c d a => some (c, 0x09C#9, d ++ a ++ 0#10)
  | .vbfe c d a len pos => some (c, 0x09D#9, d ++ a ++ len ++ pos)
  | .vsel c d a b => some (c, 0x09E#9, d ++ a ++ b)
  | .vcmp c md cc a b => some (c, 0x0A0#9, md ++ 0#2 ++ cc.code ++ a ++ b)
  | .vcmpi c md cc a i => some (c, 0x0A1#9, md ++ 0#2 ++ cc.code ++ a ++ i)
  | .vdot4 c d a b => some (c, 0x0A2#9, d ++ a ++ b)
  | .fadd c d a b => some (c, 0x0C0#9, d ++ a ++ b)
  | .fsub c d a b => some (c, 0x0C1#9, d ++ a ++ b)
  | .fmul c d a b => some (c, 0x0C2#9, d ++ a ++ b)
  | .ffma c d a b => some (c, 0x0C3#9, d ++ a ++ b)
  | .fmin c d a b => some (c, 0x0C4#9, d ++ a ++ b)
  | .fmax c d a b => some (c, 0x0C5#9, d ++ a ++ b)
  | .fabs c d a => some (c, 0x0C6#9, d ++ a ++ 0#10)
  | .fneg c d a => some (c, 0x0C7#9, d ++ a ++ 0#10)
  | .fcpsgn c d a b => some (c, 0x0C8#9, d ++ a ++ b)
  | .frnd c d a => some (c, 0x0C9#9, d ++ a ++ 0#10)
  | .fcmp c md cc a b => some (c, 0x0CA#9, md ++ 0#2 ++ cc.code ++ a ++ b)
  | .hadd c d a b => some (c, 0x0CB#9, d ++ a ++ b)
  | .hmul c d a b => some (c, 0x0CC#9, d ++ a ++ b)
  | .hfma c d a b => some (c, 0x0CD#9, d ++ a ++ b)
  | .badd c d a b => some (c, 0x0CE#9, d ++ a ++ b)
  | .bmul c d a b => some (c, 0x0CF#9, d ++ a ++ b)
  | .bfma c d a b => some (c, 0x0D0#9, d ++ a ++ b)
  | .fdot2h c d a b => some (c, 0x0D1#9, d ++ a ++ b)
  | .fdot2b c d a b => some (c, 0x0D2#9, d ++ a ++ b)
  | .cvt c d a dst src => some (c, 0x0D8#9, d ++ a ++ dst.code ++ src.code)
  | .packh c d a b => some (c, 0x0D9#9, d ++ a ++ b)
  | .packb c d a b => some (c, 0x0DA#9, d ++ a ++ b)
  | .frcp c d a => some (c, 0x0E0#9, d ++ a ++ 0#10)
  | .frsq c d a => some (c, 0x0E1#9, d ++ a ++ 0#10)
  | .fsqrt c d a => some (c, 0x0E2#9, d ++ a ++ 0#10)
  | .fex2 c d a => some (c, 0x0E3#9, d ++ a ++ 0#10)
  | .flg2 c d a => some (c, 0x0E4#9, d ++ a ++ 0#10)
  | .fsinp c d a => some (c, 0x0E5#9, d ++ a ++ 0#10)
  | .fcosp c d a => some (c, 0x0E6#9, d ++ a ++ 0#10)
  | .ftanh c d a => some (c, 0x0E7#9, d ++ a ++ 0#10)
  | .vperm c d a b => some (c, 0x0F0#9, d ++ a ++ b)
  | .vshfl c d a mode k => some (c, 0x0F1#9, d ++ a ++ mode ++ 0#2 ++ k)
  | .vbcast c d a n => some (c, 0x0F2#9, d ++ a ++ 0#4 ++ n)
  | .vred c d a op => some (c, 0x0F3#9, encS d ++ a ++ 0#6 ++ op.code)
  | .vscan c d a excl op => some (c, 0x0F4#9, d ++ a ++ 0#5 ++ encB excl ++ op.code)
  | .vhperm c d a pat => some (c, 0x0F5#9, d ++ a ++ 0#2 ++ pat)
  | .vrand c d => some (c, 0x0F8#9, d ++ 0#20)
  | .vrandf c d => some (c, 0x0F9#9, d ++ 0#20)
  | .vrseed c a => some (c, 0x0FA#9, 0#10 ++ encS a ++ 0#10)
  | .ldvB8z c d a col sco ord ch => some (c, 0x100#9, d ++ a ++ col ++ sco.code ++ ord.code ++ ch.code)
  | .ldvB8s c d a col sco ord ch => some (c, 0x101#9, d ++ a ++ col ++ sco.code ++ ord.code ++ ch.code)
  | .ldvB16z c d a col sco ord ch => some (c, 0x102#9, d ++ a ++ col ++ sco.code ++ ord.code ++ ch.code)
  | .ldvB16s c d a col sco ord ch => some (c, 0x103#9, d ++ a ++ col ++ sco.code ++ ord.code ++ ch.code)
  | .ldvB32 c d a col sco ord ch => some (c, 0x104#9, d ++ a ++ col ++ sco.code ++ ord.code ++ ch.code)
  | .ldvB64 c d a col sco ord ch => some (c, 0x105#9, d ++ a ++ col ++ sco.code ++ ord.code ++ ch.code)
  | .ldvB128 c d a col sco ord ch => some (c, 0x106#9, d ++ a ++ col ++ sco.code ++ ord.code ++ ch.code)
  | .stvB8 c d a col sco ord ch => some (c, 0x108#9, d ++ a ++ col ++ sco.code ++ ord.code ++ ch.code)
  | .stvB16 c d a col sco ord ch => some (c, 0x109#9, d ++ a ++ col ++ sco.code ++ ord.code ++ ch.code)
  | .stvB32 c d a col sco ord ch => some (c, 0x10A#9, d ++ a ++ col ++ sco.code ++ ord.code ++ ch.code)
  | .stvB64 c d a col sco ord ch => some (c, 0x10B#9, d ++ a ++ col ++ sco.code ++ ord.code ++ ch.code)
  | .stvB128 c d a col sco ord ch => some (c, 0x10C#9, d ++ a ++ col ++ sco.code ++ ord.code ++ ch.code)
  | .ldsB32 c d a col sco ord ch => some (c, 0x110#9, encS d ++ encS a ++ col ++ sco.code ++ ord.code ++ ch.code)
  | .ldsB64 c d a col sco ord ch => some (c, 0x111#9, encS d ++ encS a ++ col ++ sco.code ++ ord.code ++ ch.code)
  | .ldsB128 c d a col sco ord ch => some (c, 0x112#9, encS d ++ encS a ++ col ++ sco.code ++ ord.code ++ ch.code)
  | .stsB32 c d a col sco ord ch => some (c, 0x114#9, encS d ++ encS a ++ col ++ sco.code ++ ord.code ++ ch.code)
  | .stsB64 c d a col sco ord ch => some (c, 0x115#9, encS d ++ encS a ++ col ++ sco.code ++ ord.code ++ ch.code)
  | .ldlB32 c d a col sco ord ch => some (c, 0x118#9, d ++ a ++ col ++ sco.code ++ ord.code ++ ch.code)
  | .ldlB128 c d a col sco ord ch => some (c, 0x119#9, d ++ a ++ col ++ sco.code ++ ord.code ++ ch.code)
  | .stlB32 c d a col sco ord ch => some (c, 0x11A#9, d ++ a ++ col ++ sco.code ++ ord.code ++ ch.code)
  | .stlB128 c d a col sco ord ch => some (c, 0x11B#9, d ++ a ++ col ++ sco.code ++ ord.code ++ ch.code)
  | .atomAddB32 c d a col sco ord ch => some (c, 0x120#9, d ++ a ++ col ++ sco.code ++ ord.code ++ ch.code)
  | .atomMinB32 c d a col sco ord ch => some (c, 0x121#9, d ++ a ++ col ++ sco.code ++ ord.code ++ ch.code)
  | .atomMaxB32 c d a col sco ord ch => some (c, 0x122#9, d ++ a ++ col ++ sco.code ++ ord.code ++ ch.code)
  | .atomMinuB32 c d a col sco ord ch => some (c, 0x123#9, d ++ a ++ col ++ sco.code ++ ord.code ++ ch.code)
  | .atomMaxuB32 c d a col sco ord ch => some (c, 0x124#9, d ++ a ++ col ++ sco.code ++ ord.code ++ ch.code)
  | .atomAndB32 c d a col sco ord ch => some (c, 0x125#9, d ++ a ++ col ++ sco.code ++ ord.code ++ ch.code)
  | .atomOrB32 c d a col sco ord ch => some (c, 0x126#9, d ++ a ++ col ++ sco.code ++ ord.code ++ ch.code)
  | .atomXorB32 c d a col sco ord ch => some (c, 0x127#9, d ++ a ++ col ++ sco.code ++ ord.code ++ ch.code)
  | .atomXchgB32 c d a col sco ord ch => some (c, 0x128#9, d ++ a ++ col ++ sco.code ++ ord.code ++ ch.code)
  | .casB32 c d a col sco ord ch => some (c, 0x129#9, d ++ a ++ col ++ sco.code ++ ord.code ++ ch.code)
  | .atomfAddF32 c d a col sco ord ch => some (c, 0x12A#9, d ++ a ++ col ++ sco.code ++ ord.code ++ ch.code)
  | .atomfAddBf16x2 c d a col sco ord ch => some (c, 0x12B#9, d ++ a ++ col ++ sco.code ++ ord.code ++ ch.code)
  | .atomAddB64 c d a col sco ord ch => some (c, 0x130#9, d ++ a ++ col ++ sco.code ++ ord.code ++ ch.code)
  | .atomMinB64 c d a col sco ord ch => some (c, 0x131#9, d ++ a ++ col ++ sco.code ++ ord.code ++ ch.code)
  | .atomMaxB64 c d a col sco ord ch => some (c, 0x132#9, d ++ a ++ col ++ sco.code ++ ord.code ++ ch.code)
  | .atomMinuB64 c d a col sco ord ch => some (c, 0x133#9, d ++ a ++ col ++ sco.code ++ ord.code ++ ch.code)
  | .atomMaxuB64 c d a col sco ord ch => some (c, 0x134#9, d ++ a ++ col ++ sco.code ++ ord.code ++ ch.code)
  | .atomAndB64 c d a col sco ord ch => some (c, 0x135#9, d ++ a ++ col ++ sco.code ++ ord.code ++ ch.code)
  | .atomOrB64 c d a col sco ord ch => some (c, 0x136#9, d ++ a ++ col ++ sco.code ++ ord.code ++ ch.code)
  | .atomXorB64 c d a col sco ord ch => some (c, 0x137#9, d ++ a ++ col ++ sco.code ++ ord.code ++ ch.code)
  | .atomXchgB64 c d a col sco ord ch => some (c, 0x138#9, d ++ a ++ col ++ sco.code ++ ord.code ++ ch.code)
  | .casB64 c d a col sco ord ch => some (c, 0x139#9, d ++ a ++ col ++ sco.code ++ ord.code ++ ch.code)
  | .atomsAddB32 c d a col sco ord ch => some (c, 0x140#9, encS d ++ encS a ++ col ++ sco.code ++ ord.code ++ ch.code)
  | .atomsMinB32 c d a col sco ord ch => some (c, 0x141#9, encS d ++ encS a ++ col ++ sco.code ++ ord.code ++ ch.code)
  | .atomsMaxB32 c d a col sco ord ch => some (c, 0x142#9, encS d ++ encS a ++ col ++ sco.code ++ ord.code ++ ch.code)
  | .atomsMinuB32 c d a col sco ord ch => some (c, 0x143#9, encS d ++ encS a ++ col ++ sco.code ++ ord.code ++ ch.code)
  | .atomsMaxuB32 c d a col sco ord ch => some (c, 0x144#9, encS d ++ encS a ++ col ++ sco.code ++ ord.code ++ ch.code)
  | .atomsAndB32 c d a col sco ord ch => some (c, 0x145#9, encS d ++ encS a ++ col ++ sco.code ++ ord.code ++ ch.code)
  | .atomsOrB32 c d a col sco ord ch => some (c, 0x146#9, encS d ++ encS a ++ col ++ sco.code ++ ord.code ++ ch.code)
  | .atomsXorB32 c d a col sco ord ch => some (c, 0x147#9, encS d ++ encS a ++ col ++ sco.code ++ ord.code ++ ch.code)
  | .atomsXchgB32 c d a col sco ord ch => some (c, 0x148#9, encS d ++ encS a ++ col ++ sco.code ++ ord.code ++ ch.code)
  | .cassB32 c d a col sco ord ch => some (c, 0x149#9, encS d ++ encS a ++ col ++ sco.code ++ ord.code ++ ch.code)
  | .atomlAddB32 c d a col sco ord ch => some (c, 0x150#9, d ++ a ++ col ++ sco.code ++ ord.code ++ ch.code)
  | .atomlMinB32 c d a col sco ord ch => some (c, 0x151#9, d ++ a ++ col ++ sco.code ++ ord.code ++ ch.code)
  | .atomlMaxB32 c d a col sco ord ch => some (c, 0x152#9, d ++ a ++ col ++ sco.code ++ ord.code ++ ch.code)
  | .atomlMinuB32 c d a col sco ord ch => some (c, 0x153#9, d ++ a ++ col ++ sco.code ++ ord.code ++ ch.code)
  | .atomlMaxuB32 c d a col sco ord ch => some (c, 0x154#9, d ++ a ++ col ++ sco.code ++ ord.code ++ ch.code)
  | .atomlAndB32 c d a col sco ord ch => some (c, 0x155#9, d ++ a ++ col ++ sco.code ++ ord.code ++ ch.code)
  | .atomlOrB32 c d a col sco ord ch => some (c, 0x156#9, d ++ a ++ col ++ sco.code ++ ord.code ++ ch.code)
  | .atomlXorB32 c d a col sco ord ch => some (c, 0x157#9, d ++ a ++ col ++ sco.code ++ ord.code ++ ch.code)
  | .atomlXchgB32 c d a col sco ord ch => some (c, 0x158#9, d ++ a ++ col ++ sco.code ++ ord.code ++ ch.code)
  | .caslB32 c d a col sco ord ch => some (c, 0x159#9, d ++ a ++ col ++ sco.code ++ ord.code ++ ch.code)
  | .fence c colmask fkind sco => some (c, 0x160#9, colmask ++ fkind.code ++ sco.code ++ 0#17)
  | .monitor c a col sco ch => some (c, 0x161#9, 0#10 ++ encS a ++ col ++ sco.code ++ 0#2 ++ ch.code)
  | .mwait c d a col sco ord ch => some (c, 0x162#9, encS d ++ encS a ++ col ++ sco.code ++ ord.code ++ ch.code)
  | .pf c a col sco ch => some (c, 0x163#9, 0#10 ++ a ++ col ++ sco.code ++ 0#2 ++ ch.code)
  | .cwb c a col sco ch => some (c, 0x164#9, 0#10 ++ a ++ col ++ sco.code ++ 0#2 ++ ch.code)
  | .cinv c a col sco ch => some (c, 0x165#9, 0#10 ++ a ++ col ++ sco.code ++ 0#2 ++ ch.code)
  | .barSync c count bar => some (c, 0x170#9, 0#21 ++ count ++ bar)
  | .barArrive c count bar => some (c, 0x171#9, 0#21 ++ count ++ bar)
  | .barWait c count bar => some (c, 0x172#9, 0#21 ++ count ++ bar)
  | .rte c => some (c, 0x174#9, 0#30)
  | .brk c code => some (c, 0x175#9, 0#14 ++ code)
  | .mma c d a acc => some (c, 0x180#9, d ++ encS a ++ acc ++ 0#7)
  | .mmas c d a acc => some (c, 0x181#9, d ++ encS a ++ acc ++ 0#7)
  | .macz c acc => some (c, 0x182#9, 0#20 ++ acc ++ 0#7)
  | .macld c d a acc => some (c, 0x183#9, d ++ encS a ++ acc ++ 0#7)
  | .macst c d a acc => some (c, 0x184#9, d ++ encS a ++ acc ++ 0#7)
  | .mepiScale c d a acc => some (c, 0x185#9, d ++ encS a ++ acc ++ 0#7)
  | .mepiBiasRow c d a acc => some (c, 0x185#9, d ++ encS a ++ acc ++ 1#7)
  | .mepiBiasCol c d a acc => some (c, 0x185#9, d ++ encS a ++ acc ++ 2#7)
  | .mepiRelu c d a acc => some (c, 0x185#9, d ++ encS a ++ acc ++ 3#7)
  | .mepiClamp c d a acc => some (c, 0x185#9, d ++ encS a ++ acc ++ 4#7)
  | .mepiAdd c d a acc => some (c, 0x185#9, d ++ encS a ++ acc ++ 5#7)
  | .mepiDeq c d a acc => some (c, 0x185#9, d ++ encS a ++ acc ++ 6#7)
  | .batonTake c d => some (c, 0x186#9, encS d ++ 0#20)
  | .batonPass c target => some (c, 0x187#9, 0#23 ++ target.code)
  | .mquery c d sub => some (c, 0x188#9, encS d ++ 0#13 ++ sub.code)
  | .mqueryFlagsc c d => some (c, 0x188#9, encS d ++ 0#13 ++ 4#7)
  | .tld c hd sb => some (c, 0x190#9, hd ++ 0#12 ++ sb ++ 0#4)
  | .tconst c hd sb => some (c, 0x191#9, hd ++ 0#12 ++ sb ++ 0#4)
  | .tiota c hd sb => some (c, 0x192#9, hd ++ 0#12 ++ sb ++ 0#4)
  | .tmapTr c hd ha => some (c, 0x193#9, hd ++ ha ++ 0#14 ++ 0#4)
  | .tmapSlice c hd ha sb => some (c, 0x193#9, hd ++ ha ++ 0#6 ++ sb ++ 1#4)
  | .tmapBcr c hd ha sb => some (c, 0x193#9, hd ++ ha ++ 0#6 ++ sb ++ 2#4)
  | .tmapBcc c hd ha sb => some (c, 0x193#9, hd ++ ha ++ 0#6 ++ sb ++ 3#4)
  | .tmapRevr c hd ha => some (c, 0x193#9, hd ++ ha ++ 0#14 ++ 4#4)
  | .tmapRevc c hd ha => some (c, 0x193#9, hd ++ ha ++ 0#14 ++ 5#4)
  | .tmapShift c hd ha sb => some (c, 0x193#9, hd ++ ha ++ 0#6 ++ sb ++ 6#4)
  | .tadd c hd ha hb => some (c, 0x194#9, hd ++ ha ++ hb ++ 0#12)
  | .tsub c hd ha hb => some (c, 0x195#9, hd ++ ha ++ hb ++ 0#12)
  | .tmul c hd ha hb => some (c, 0x196#9, hd ++ ha ++ hb ++ 0#12)
  | .tmax c hd ha hb => some (c, 0x197#9, hd ++ ha ++ hb ++ 0#12)
  | .tmin c hd ha hb => some (c, 0x198#9, hd ++ ha ++ hb ++ 0#12)
  | .texp c hd ha => some (c, 0x199#9, hd ++ ha ++ 0#18)
  | .tlog c hd ha => some (c, 0x19A#9, hd ++ ha ++ 0#18)
  | .trcp c hd ha => some (c, 0x19B#9, hd ++ ha ++ 0#18)
  | .tsig c hd ha => some (c, 0x19C#9, hd ++ ha ++ 0#18)
  | .tselm c hd ha sb up => some (c, 0x19D#9, hd ++ ha ++ 0#6 ++ sb ++ 0#3 ++ encB up)
  | .tscan c hd ha colw => some (c, 0x19E#9, hd ++ ha ++ 0#17 ++ encB colw)
  | .tred c hd ha op => some (c, 0x19F#9, hd ++ ha ++ 0#16 ++ op)
  | .tmma c hd ha hb sb => some (c, 0x1A0#9, hd ++ ha ++ hb ++ sb ++ 0#4)
  | .tcvt c hd ha sb => some (c, 0x1A1#9, hd ++ ha ++ 0#6 ++ sb ++ 0#4)
  | .tst c ha sb => some (c, 0x1A2#9, 0#6 ++ ha ++ 0#6 ++ sb ++ 0#4)
  | .tforce c ha sb => some (c, 0x1A3#9, 0#6 ++ ha ++ 0#6 ++ sb ++ 0#4)
  | .tdrop c hd => some (c, 0x1A4#9, hd ++ 0#24)
  | .tcfg c sb => some (c, 0x1A5#9, 0#18 ++ sb ++ 0#4)
  | .tstatCounts c sb => some (c, 0x1A6#9, 0#18 ++ sb ++ 0#4)
  | .tstatCap c sb => some (c, 0x1A6#9, 0#18 ++ sb ++ 1#4)
  | .tstatNode c ha sb => some (c, 0x1A6#9, 0#6 ++ ha ++ 0#6 ++ sb ++ 2#4)
  | .tstatFault c sb => some (c, 0x1A6#9, 0#18 ++ sb ++ 3#4)
  | .cpy c d a => some (c, 0x1B0#9, encS d ++ encS a ++ 0#10)
  | .cpym c d a => some (c, 0x1B1#9, encS d ++ encS a ++ 0#10)
  | .cpyx c d a => some (c, 0x1B2#9, encS d ++ encS a ++ 0#10)
  | .tlwait c a sel => some (c, 0x1B3#9, 0#10 ++ encS a ++ sel.code)
  | .tlrd c d sel => some (c, 0x1B4#9, encS d ++ 0#10 ++ sel.code)
  | .waitp c a sel => some (c, 0x1B5#9, 0#10 ++ encS a ++ sel.code)
  | .bankcfg c a => some (c, 0x1B6#9, 0#10 ++ encS a ++ 0#10)
  | .fpush c a => some (c, 0x1B7#9, 0#10 ++ encS a ++ 0#10)
  | .fpop c d a => some (c, 0x1B8#9, encS d ++ encS a ++ 0#10)
  | .portcfg c d a => some (c, 0x1B9#9, encPort d ++ encS a ++ 0#10)
  | .cbarArrive c bar => some (c, 0x1BA#9, 0#26 ++ bar)
  | .cbarWait c bar => some (c, 0x1BB#9, 0#26 ++ bar)
  | .rbind c d a cls => some (c, 0x1C0#9, encS d ++ encS a ++ 0#7 ++ cls)
  | .rtrace c d a => some (c, 0x1C1#9, encS d ++ encS a ++ 0#10)
  | .rsave c => some (c, 0x1C2#9, 0#30)
  | .rresume c d a => some (c, 0x1C3#9, encS d ++ encS a ++ 0#10)
  | .rquery c d sub => some (c, 0x1C4#9, encS d ++ 0#10 ++ sub.code)
  | .launch c a => some (c, 0x1D0#9, 0#10 ++ encS a ++ 0#10)
  | .tenq c a => some (c, 0x1D1#9, 0#10 ++ encS a ++ 0#10)
  | .rnext c d q => some (c, 0x1D2#9, encS d ++ 0#16 ++ q)
  | .recalloc c d a => some (c, 0x1D3#9, encS d ++ encS a ++ 0#10)
  | .recsend c a => some (c, 0x1D4#9, 0#10 ++ encS a ++ 0#10)
  | .gate c => some (c, 0x1D5#9, 0#30)
  | .release c => some (c, 0x1D6#9, 0#30)
  | .qclaim c d a => some (c, 0x1D7#9, encS d ++ encS a ++ 0#10)
  | .pemit c a => some (c, 0x1D8#9, 0#10 ++ encS a ++ 0#10)
  | .pxout c d tgt => some (c, 0x1D9#9, d ++ 0#17 ++ tgt)
  | .nmv c d a => some (c, 0x1E0#9, encS d ++ encS a ++ 0#10)
  | .wnop => none
  | .ldn => none
  | .tbox => none
  | .wSort => none
  | .pushc => none
  | .wNext => none
  | .ttri => none
  | .wHit => none
  | .wPop => none
  | .brc _ _ _ => none
  | .callout _ => none
  | .wDone => none
  | .xform _ _ _ => none
  | .ipop => none
  | .cull => none
  | .sett _ _ => none
  | .dualWord _ _ _ _ _ _ _ _ => none
  | .prefixedPair _ _ => none
  | .sleepExpire _ => none
  | .batonTransfer _ => none
  | .matrixCommandStart _ => none
  | .accumulatorTileFill _ _ => none
  | .matrixCommandComplete _ => none
  | .demandOutputStep _ => none
  | .demandComplete _ => none
  | .viewCapture _ => none
  | .bankModeChangeDone _ _ => none
  | .fifoPushJoin _ _ => none
  | .fifoPopServe _ _ => none
  | .creditReturn _ _ => none
  | .portReadServe _ _ => none
  | .copyRequestComplete _ => none
  | .followOnEnqueue _ => none
  | .promisedTimeReached _ => none
  | .rbindApply _ => none
  | .rayStart _ => none
  | .nodeFetchReturn _ => none
  | .rayWriteback _ => none
  | .traversalRequestComplete _ => none
  | .nmvRequestComplete _ => none
  | .pixelWaveLaunch _ _ _ => none
  | .aggregatorWindowClose _ _ => none
  | .taskStart _ => none
  | .rangeTaskSplit _ => none
  | .batchTimeout _ _ => none
  | .batchGroupEnd _ => none
  | .cohortPlacement _ _ => none
  | .waveEnd _ => none
  | .registerLineFill _ _ => none
  | .wavePromotion _ _ => none
  | .fixedLatencyComplete _ _ => none
  | .loadComplete _ _ => none
  | .storePerformed _ _ => none
  | .rmwPerformed _ _ => none
  | .fenceComplete _ _ => none
  | .mwaitWake _ => none
  | .waitPoll _ => none
  | .trapDelivery _ => none
  | .pageWalk _ _ _ _ => none
  | .tlbiGo _ _ => none
  | .tlbiComplete _ => none
  | .preempt _ _ => none
  | .contextHalt _ _ => none
  | .controlStateSwap _ _ _ => none
  | .shadowStoreDrain _ => none
  | .restore _ _ _ => none
  | .waveEvict _ => none
  | .l2LineFill _ => none
  | .packetPromotion _ _ _ _ => none
  | .tailFilterReport _ => none
  | .launchPacket _ => none
  | .launchStart _ => none
  | .launchComplete _ => none
  | .graphDispatch _ => none
  | .drawGraph _ => none
  | .dependency _ => none
  | .dependencySatisfied _ _ => none
  | .timelineSignal _ => none
  | .timelineWait _ => none
  | .timelineWaitSatisfied _ _ => none
  | .handleDeclaration _ => none
  | .noOp _ => none
  | .firmwareDefinedPacket _ => none
  | .queueRestart _ => none
  | .qcbinv _ _ => none
  | .mbdone _ _ => none
  | .mailboxPost _ => none
  | .mailboxActionApply _ _ => none
  | .contextCreate _ => none
  | .windowDerive _ _ _ _ _ _ => none
  | .windowInvalidate _ _ => none
  | .capabilityAccess _ _ _ _ _ => none
  | .doorbellWrite _ => none
  | .queueTableFault _ => none
  | .queueErrorNotice _ => none
  | .partitionCreate _ _ => none
  | .partitionResize _ _ _ => none
  | .surfWrite _ _ _ => none
  | .verticalBlank _ _ => none
  | .sliceEncodeComplete _ _ => none
  | .flitCrcRetry _ _ => none
  | .linkRetrain _ _ => none
  | .linkRecover _ _ => none
  | .linkDown _ _ => none
  | .cecntClear _ _ _ => none
  | .dramPatrol _ => none
  | .governorTick _ => none
  | .coolantLimit _ => none
  | .coolantShutdown => none
  | .peerRequest _ => none
  | .peerUnreachable _ => none
  | .hostWrite _ _ _ => none
  | .hostRead _ _ => none
  | .feataccWrite _ => none
  | .shardFetch _ _ _ => none
  | .shardVerify _ _ _ => none
  | .shardFetchComplete _ _ => none
  | .shardScrub _ => none
  | .boot _ => none
  | .getVersion _ _ => none
  | .getCapabilities _ _ => none
  | .negotiateAlgorithms _ _ => none
  | .getDigests _ _ => none
  | .getCertificate _ _ => none
  | .challenge _ _ => none
  | .getMeasurements _ _ => none
  | .registerWrite _ _ _ => none
  | .eflerAccess _ _ => none
  | .hostAtomic _ _ _ => none
  | .peerPortDown _ => none
  | .recoveryImage _ => none

/-- The 64-bit words of an instruction, in ascending address order; none for an event or a walk micro-operation. -/
def encodeWords : Instr → List DWord
  | .dualWord h opH dH aH opL dL aL p =>
    [encHdr 1#2 h ++ opH.code ++ dH ++ aH ++ opL.code ++ dL ++ aL ++ encB p]
  | .prefixedPair x i =>
    match encParts i with
    | some (c, op, p) => [encPfx x, encFull c op p]
    | none => []
  | i =>
    match encParts i with
    | some (c, op, p) => [encFull c op p]
    | none => []

/-- The bytes of a word, least significant first (R35). -/
def wordBytes (w : DWord) : List Byte :=
  [w.extractLsb' 0 8, w.extractLsb' 8 8, w.extractLsb' 16 8, w.extractLsb' 24 8, w.extractLsb' 32 8,
   w.extractLsb' 40 8, w.extractLsb' 48 8, w.extractLsb' 56 8]

/-- The bytes of an instruction word or pair. -/
def encode (i : Instr) : List Byte := (encodeWords i).flatMap wordBytes

/-! Walk micro-operations (R298, R299). -/

/-- Decodes a walk micro-word; `none` for a code or field that `rbind` rejects. -/
def decodeWalk (w : BitVec 32) : Option Instr :=
  let p := w.extractLsb' 0 27
  match (w.extractLsb' 27 5).toNat with
  | 0 => if p.extractLsb' 0 27 = 0#27 then some (.wnop) else none
  | 1 => if p.extractLsb' 0 27 = 0#27 then some (.ldn) else none
  | 2 => if p.extractLsb' 0 27 = 0#27 then some (.tbox) else none
  | 3 => if p.extractLsb' 0 27 = 0#27 then some (.wSort) else none
  | 4 => if p.extractLsb' 0 27 = 0#27 then some (.pushc) else none
  | 5 => if p.extractLsb' 0 27 = 0#27 then some (.wNext) else none
  | 6 => if p.extractLsb' 0 27 = 0#27 then some (.ttri) else none
  | 7 => if p.extractLsb' 0 27 = 0#27 then some (.wHit) else none
  | 8 => if p.extractLsb' 0 27 = 0#27 then some (.wPop) else none
  | 9 => if p.extractLsb' 6 16 = 0#16 then (WalkCond.ofCode (p.extractLsb' 23 4)).bind fun cond =>
    some (.brc cond (boolField (p.extractLsb' 22 1)) (p.extractLsb' 0 6)) else none
  | 10 => if p.extractLsb' 0 19 = 0#19 then some (.callout (p.extractLsb' 19 8)) else none
  | 11 => if p.extractLsb' 0 27 = 0#27 then some (.wDone) else none
  | 12 => some (.xform (p.extractLsb' 18 9) (p.extractLsb' 9 9) (p.extractLsb' 0 9))
  | 13 => if p.extractLsb' 0 27 = 0#27 then some (.ipop) else none
  | 14 => if p.extractLsb' 0 27 = 0#27 then some (.cull) else none
  | 15 => if p.extractLsb' 0 24 = 0#24 then (SetSel.ofCode (p.extractLsb' 25 2)).bind fun sel =>
    some (.sett sel (boolField (p.extractLsb' 24 1))) else none
  | _ => none

/-- The micro-word of a walk micro-operation (R299); none for what is not one. -/
def encodeWalk : Instr → Option (BitVec 32)
  | .wnop => some (0#5 ++ 0#27)
  | .ldn => some (1#5 ++ 0#27)
  | .tbox => some (2#5 ++ 0#27)
  | .wSort => some (3#5 ++ 0#27)
  | .pushc => some (4#5 ++ 0#27)
  | .wNext => some (5#5 ++ 0#27)
  | .ttri => some (6#5 ++ 0#27)
  | .wHit => some (7#5 ++ 0#27)
  | .wPop => some (8#5 ++ 0#27)
  | .brc cond neg target => some (9#5 ++ cond.code ++ encB neg ++ 0#16 ++ target)
  | .callout code => some (10#5 ++ code ++ 0#19)
  | .wDone => some (11#5 ++ 0#27)
  | .xform mat ident child => some (12#5 ++ mat ++ ident ++ child)
  | .ipop => some (13#5 ++ 0#27)
  | .cull => some (14#5 ++ 0#27)
  | .sett sel value => some (15#5 ++ sel.code ++ encB value ++ 0#24)
  | .dualWord _ _ _ _ _ _ _ _ => none
  | .prefixedPair _ _ => none
  | .nop _ => none
  | .bra _ _ _ _ => none
  | .call _ _ _ => none
  | .jr _ _ => none
  | .loop _ _ _ => none
  | .split _ _ _ _ => none
  | .jmpv _ _ => none
  | .sync _ => none
  | .exit _ => none
  | .yield _ => none
  | .sleep _ _ _ => none
  | .trap _ _ => none
  | .upcall _ _ _ _ => none
  | .elect _ _ => none
  | .setprio _ _ => none
  | .qany _ _ _ => none
  | .qall _ _ _ => none
  | .qnone _ _ _ => none
  | .qcmp _ _ _ _ _ => none
  | .qcmpi _ _ _ _ _ => none
  | .qop _ _ _ _ _ => none
  | .srd _ _ _ => none
  | .swr _ _ _ => none
  | .vsrd _ _ _ => none
  | .sadd _ _ _ _ => none
  | .ssub _ _ _ _ => none
  | .smul _ _ _ _ => none
  | .smulh _ _ _ _ => none
  | .sdiv _ _ _ _ => none
  | .sdivu _ _ _ _ => none
  | .srem _ _ _ _ => none
  | .sremu _ _ _ _ => none
  | .sand _ _ _ _ => none
  | .sor _ _ _ _ => none
  | .sxor _ _ _ _ => none
  | .sshl _ _ _ _ => none
  | .sshr _ _ _ _ => none
  | .ssra _ _ _ _ => none
  | .smin _ _ _ _ => none
  | .smax _ _ _ _ => none
  | .sminu _ _ _ _ => none
  | .smaxu _ _ _ _ => none
  | .saddi _ _ _ _ => none
  | .sandi _ _ _ _ => none
  | .sori _ _ _ _ => none
  | .sxori _ _ _ _ => none
  | .sshli _ _ _ _ => none
  | .sshri _ _ _ _ => none
  | .ssrai _ _ _ _ => none
  | .sli _ _ _ => none
  | .slui _ _ _ => none
  | .smov _ _ _ => none
  | .saddp _ _ _ _ => none
  | .sclz _ _ _ => none
  | .spopc _ _ _ => none
  | .sbfe _ _ _ _ _ => none
  | .mand _ _ _ _ => none
  | .mor _ _ _ _ => none
  | .mxor _ _ _ _ => none
  | .mandn _ _ _ _ => none
  | .mnot _ _ _ => none
  | .mfroms _ _ _ => none
  | .mtos _ _ _ => none
  | .mpopc _ _ _ => none
  | .mffs _ _ _ => none
  | .vadd _ _ _ _ => none
  | .vsub _ _ _ _ => none
  | .vmul _ _ _ _ => none
  | .vmulh _ _ _ _ => none
  | .vmulhu _ _ _ _ => none
  | .vmad _ _ _ _ => none
  | .vand _ _ _ _ => none
  | .vor _ _ _ _ => none
  | .vxor _ _ _ _ => none
  | .vshl _ _ _ _ => none
  | .vshr _ _ _ _ => none
  | .vsra _ _ _ _ => none
  | .vmin _ _ _ _ => none
  | .vmax _ _ _ _ => none
  | .vminu _ _ _ _ => none
  | .vmaxu _ _ _ _ => none
  | .vaddi _ _ _ _ => none
  | .vandi _ _ _ _ => none
  | .vori _ _ _ _ => none
  | .vxori _ _ _ _ => none
  | .vshli _ _ _ _ => none
  | .vshri _ _ _ _ => none
  | .vsrai _ _ _ _ => none
  | .vli _ _ _ => none
  | .vmov _ _ _ => none
  | .vmovs _ _ _ => none
  | .vaddp _ _ _ _ => none
  | .vclz _ _ _ => none
  | .vpopc _ _ _ => none
  | .vbfe _ _ _ _ _ => none
  | .vsel _ _ _ _ => none
  | .vcmp _ _ _ _ _ => none
  | .vcmpi _ _ _ _ _ => none
  | .vdot4 _ _ _ _ => none
  | .fadd _ _ _ _ => none
  | .fsub _ _ _ _ => none
  | .fmul _ _ _ _ => none
  | .ffma _ _ _ _ => none
  | .fmin _ _ _ _ => none
  | .fmax _ _ _ _ => none
  | .fabs _ _ _ => none
  | .fneg _ _ _ => none
  | .fcpsgn _ _ _ _ => none
  | .frnd _ _ _ => none
  | .fcmp _ _ _ _ _ => none
  | .hadd _ _ _ _ => none
  | .hmul _ _ _ _ => none
  | .hfma _ _ _ _ => none
  | .badd _ _ _ _ => none
  | .bmul _ _ _ _ => none
  | .bfma _ _ _ _ => none
  | .fdot2h _ _ _ _ => none
  | .fdot2b _ _ _ _ => none
  | .cvt _ _ _ _ _ => none
  | .packh _ _ _ _ => none
  | .packb _ _ _ _ => none
  | .frcp _ _ _ => none
  | .frsq _ _ _ => none
  | .fsqrt _ _ _ => none
  | .fex2 _ _ _ => none
  | .flg2 _ _ _ => none
  | .fsinp _ _ _ => none
  | .fcosp _ _ _ => none
  | .ftanh _ _ _ => none
  | .vperm _ _ _ _ => none
  | .vshfl _ _ _ _ _ => none
  | .vbcast _ _ _ _ => none
  | .vred _ _ _ _ => none
  | .vscan _ _ _ _ _ => none
  | .vhperm _ _ _ _ => none
  | .vrand _ _ => none
  | .vrandf _ _ => none
  | .vrseed _ _ => none
  | .ldvB8z _ _ _ _ _ _ _ => none
  | .ldvB8s _ _ _ _ _ _ _ => none
  | .ldvB16z _ _ _ _ _ _ _ => none
  | .ldvB16s _ _ _ _ _ _ _ => none
  | .ldvB32 _ _ _ _ _ _ _ => none
  | .ldvB64 _ _ _ _ _ _ _ => none
  | .ldvB128 _ _ _ _ _ _ _ => none
  | .stvB8 _ _ _ _ _ _ _ => none
  | .stvB16 _ _ _ _ _ _ _ => none
  | .stvB32 _ _ _ _ _ _ _ => none
  | .stvB64 _ _ _ _ _ _ _ => none
  | .stvB128 _ _ _ _ _ _ _ => none
  | .ldsB32 _ _ _ _ _ _ _ => none
  | .ldsB64 _ _ _ _ _ _ _ => none
  | .ldsB128 _ _ _ _ _ _ _ => none
  | .stsB32 _ _ _ _ _ _ _ => none
  | .stsB64 _ _ _ _ _ _ _ => none
  | .ldlB32 _ _ _ _ _ _ _ => none
  | .ldlB128 _ _ _ _ _ _ _ => none
  | .stlB32 _ _ _ _ _ _ _ => none
  | .stlB128 _ _ _ _ _ _ _ => none
  | .atomAddB32 _ _ _ _ _ _ _ => none
  | .atomMinB32 _ _ _ _ _ _ _ => none
  | .atomMaxB32 _ _ _ _ _ _ _ => none
  | .atomMinuB32 _ _ _ _ _ _ _ => none
  | .atomMaxuB32 _ _ _ _ _ _ _ => none
  | .atomAndB32 _ _ _ _ _ _ _ => none
  | .atomOrB32 _ _ _ _ _ _ _ => none
  | .atomXorB32 _ _ _ _ _ _ _ => none
  | .atomXchgB32 _ _ _ _ _ _ _ => none
  | .casB32 _ _ _ _ _ _ _ => none
  | .atomfAddF32 _ _ _ _ _ _ _ => none
  | .atomfAddBf16x2 _ _ _ _ _ _ _ => none
  | .atomAddB64 _ _ _ _ _ _ _ => none
  | .atomMinB64 _ _ _ _ _ _ _ => none
  | .atomMaxB64 _ _ _ _ _ _ _ => none
  | .atomMinuB64 _ _ _ _ _ _ _ => none
  | .atomMaxuB64 _ _ _ _ _ _ _ => none
  | .atomAndB64 _ _ _ _ _ _ _ => none
  | .atomOrB64 _ _ _ _ _ _ _ => none
  | .atomXorB64 _ _ _ _ _ _ _ => none
  | .atomXchgB64 _ _ _ _ _ _ _ => none
  | .casB64 _ _ _ _ _ _ _ => none
  | .atomsAddB32 _ _ _ _ _ _ _ => none
  | .atomsMinB32 _ _ _ _ _ _ _ => none
  | .atomsMaxB32 _ _ _ _ _ _ _ => none
  | .atomsMinuB32 _ _ _ _ _ _ _ => none
  | .atomsMaxuB32 _ _ _ _ _ _ _ => none
  | .atomsAndB32 _ _ _ _ _ _ _ => none
  | .atomsOrB32 _ _ _ _ _ _ _ => none
  | .atomsXorB32 _ _ _ _ _ _ _ => none
  | .atomsXchgB32 _ _ _ _ _ _ _ => none
  | .cassB32 _ _ _ _ _ _ _ => none
  | .atomlAddB32 _ _ _ _ _ _ _ => none
  | .atomlMinB32 _ _ _ _ _ _ _ => none
  | .atomlMaxB32 _ _ _ _ _ _ _ => none
  | .atomlMinuB32 _ _ _ _ _ _ _ => none
  | .atomlMaxuB32 _ _ _ _ _ _ _ => none
  | .atomlAndB32 _ _ _ _ _ _ _ => none
  | .atomlOrB32 _ _ _ _ _ _ _ => none
  | .atomlXorB32 _ _ _ _ _ _ _ => none
  | .atomlXchgB32 _ _ _ _ _ _ _ => none
  | .caslB32 _ _ _ _ _ _ _ => none
  | .fence _ _ _ _ => none
  | .monitor _ _ _ _ _ => none
  | .mwait _ _ _ _ _ _ _ => none
  | .pf _ _ _ _ _ => none
  | .cwb _ _ _ _ _ => none
  | .cinv _ _ _ _ _ => none
  | .barSync _ _ _ => none
  | .barArrive _ _ _ => none
  | .barWait _ _ _ => none
  | .rte _ => none
  | .brk _ _ => none
  | .mma _ _ _ _ => none
  | .mmas _ _ _ _ => none
  | .macz _ _ => none
  | .macld _ _ _ _ => none
  | .macst _ _ _ _ => none
  | .mepiScale _ _ _ _ => none
  | .mepiBiasRow _ _ _ _ => none
  | .mepiBiasCol _ _ _ _ => none
  | .mepiRelu _ _ _ _ => none
  | .mepiClamp _ _ _ _ => none
  | .mepiAdd _ _ _ _ => none
  | .mepiDeq _ _ _ _ => none
  | .batonTake _ _ => none
  | .batonPass _ _ => none
  | .mquery _ _ _ => none
  | .mqueryFlagsc _ _ => none
  | .tld _ _ _ => none
  | .tconst _ _ _ => none
  | .tiota _ _ _ => none
  | .tmapTr _ _ _ => none
  | .tmapSlice _ _ _ _ => none
  | .tmapBcr _ _ _ _ => none
  | .tmapBcc _ _ _ _ => none
  | .tmapRevr _ _ _ => none
  | .tmapRevc _ _ _ => none
  | .tmapShift _ _ _ _ => none
  | .tadd _ _ _ _ => none
  | .tsub _ _ _ _ => none
  | .tmul _ _ _ _ => none
  | .tmax _ _ _ _ => none
  | .tmin _ _ _ _ => none
  | .texp _ _ _ => none
  | .tlog _ _ _ => none
  | .trcp _ _ _ => none
  | .tsig _ _ _ => none
  | .tselm _ _ _ _ _ => none
  | .tscan _ _ _ _ => none
  | .tred _ _ _ _ => none
  | .tmma _ _ _ _ _ => none
  | .tcvt _ _ _ _ => none
  | .tst _ _ _ => none
  | .tforce _ _ _ => none
  | .tdrop _ _ => none
  | .tcfg _ _ => none
  | .tstatCounts _ _ => none
  | .tstatCap _ _ => none
  | .tstatNode _ _ _ => none
  | .tstatFault _ _ => none
  | .cpy _ _ _ => none
  | .cpym _ _ _ => none
  | .cpyx _ _ _ => none
  | .tlwait _ _ _ => none
  | .tlrd _ _ _ => none
  | .waitp _ _ _ => none
  | .bankcfg _ _ => none
  | .fpush _ _ => none
  | .fpop _ _ _ => none
  | .portcfg _ _ _ => none
  | .cbarArrive _ _ => none
  | .cbarWait _ _ => none
  | .rbind _ _ _ _ => none
  | .rtrace _ _ _ => none
  | .rsave _ => none
  | .rresume _ _ _ => none
  | .rquery _ _ _ => none
  | .launch _ _ => none
  | .tenq _ _ => none
  | .rnext _ _ _ => none
  | .recalloc _ _ _ => none
  | .recsend _ _ => none
  | .gate _ => none
  | .release _ => none
  | .qclaim _ _ _ => none
  | .pemit _ _ => none
  | .pxout _ _ _ => none
  | .nmv _ _ _ => none
  | .sleepExpire _ => none
  | .batonTransfer _ => none
  | .matrixCommandStart _ => none
  | .accumulatorTileFill _ _ => none
  | .matrixCommandComplete _ => none
  | .demandOutputStep _ => none
  | .demandComplete _ => none
  | .viewCapture _ => none
  | .bankModeChangeDone _ _ => none
  | .fifoPushJoin _ _ => none
  | .fifoPopServe _ _ => none
  | .creditReturn _ _ => none
  | .portReadServe _ _ => none
  | .copyRequestComplete _ => none
  | .followOnEnqueue _ => none
  | .promisedTimeReached _ => none
  | .rbindApply _ => none
  | .rayStart _ => none
  | .nodeFetchReturn _ => none
  | .rayWriteback _ => none
  | .traversalRequestComplete _ => none
  | .nmvRequestComplete _ => none
  | .pixelWaveLaunch _ _ _ => none
  | .aggregatorWindowClose _ _ => none
  | .taskStart _ => none
  | .rangeTaskSplit _ => none
  | .batchTimeout _ _ => none
  | .batchGroupEnd _ => none
  | .cohortPlacement _ _ => none
  | .waveEnd _ => none
  | .registerLineFill _ _ => none
  | .wavePromotion _ _ => none
  | .fixedLatencyComplete _ _ => none
  | .loadComplete _ _ => none
  | .storePerformed _ _ => none
  | .rmwPerformed _ _ => none
  | .fenceComplete _ _ => none
  | .mwaitWake _ => none
  | .waitPoll _ => none
  | .trapDelivery _ => none
  | .pageWalk _ _ _ _ => none
  | .tlbiGo _ _ => none
  | .tlbiComplete _ => none
  | .preempt _ _ => none
  | .contextHalt _ _ => none
  | .controlStateSwap _ _ _ => none
  | .shadowStoreDrain _ => none
  | .restore _ _ _ => none
  | .waveEvict _ => none
  | .l2LineFill _ => none
  | .packetPromotion _ _ _ _ => none
  | .tailFilterReport _ => none
  | .launchPacket _ => none
  | .launchStart _ => none
  | .launchComplete _ => none
  | .graphDispatch _ => none
  | .drawGraph _ => none
  | .dependency _ => none
  | .dependencySatisfied _ _ => none
  | .timelineSignal _ => none
  | .timelineWait _ => none
  | .timelineWaitSatisfied _ _ => none
  | .handleDeclaration _ => none
  | .noOp _ => none
  | .firmwareDefinedPacket _ => none
  | .queueRestart _ => none
  | .qcbinv _ _ => none
  | .mbdone _ _ => none
  | .mailboxPost _ => none
  | .mailboxActionApply _ _ => none
  | .contextCreate _ => none
  | .windowDerive _ _ _ _ _ _ => none
  | .windowInvalidate _ _ => none
  | .capabilityAccess _ _ _ _ _ => none
  | .doorbellWrite _ => none
  | .queueTableFault _ => none
  | .queueErrorNotice _ => none
  | .partitionCreate _ _ => none
  | .partitionResize _ _ _ => none
  | .surfWrite _ _ _ => none
  | .verticalBlank _ _ => none
  | .sliceEncodeComplete _ _ => none
  | .flitCrcRetry _ _ => none
  | .linkRetrain _ _ => none
  | .linkRecover _ _ => none
  | .linkDown _ _ => none
  | .cecntClear _ _ _ => none
  | .dramPatrol _ => none
  | .governorTick _ => none
  | .coolantLimit _ => none
  | .coolantShutdown => none
  | .peerRequest _ => none
  | .peerUnreachable _ => none
  | .hostWrite _ _ _ => none
  | .hostRead _ _ => none
  | .feataccWrite _ => none
  | .shardFetch _ _ _ => none
  | .shardVerify _ _ _ => none
  | .shardFetchComplete _ _ => none
  | .shardScrub _ => none
  | .boot _ => none
  | .getVersion _ _ => none
  | .getCapabilities _ _ => none
  | .negotiateAlgorithms _ _ => none
  | .getDigests _ _ => none
  | .getCertificate _ _ => none
  | .challenge _ _ => none
  | .getMeasurements _ _ => none
  | .registerWrite _ _ _ => none
  | .eflerAccess _ _ => none
  | .hostAtomic _ _ _ => none
  | .peerPortDown _ => none
  | .recoveryImage _ => none

/-- The instruction the decoder reads from bits numbered as the spec's table numbers them: 32 bits are a walk
micro-word, 64 a word, 128 a prefixed pair. -/
noncomputable def decodeTableWord (nbits w : Nat) : Option Instr :=
  if nbits = 32 then decodeWalk (BitVec.ofNat 32 w)
  else
    match decode (wordBytes (BitVec.ofNat 64 w) ++ wordBytes (BitVec.ofNat 64 (w / 2 ^ 64))) with
    | .ok (i, _) => some i
    | .error _ => none

end Sys2Proof
end

