-- ==== Sys2Proof/Machine/Units.lean ====
section
/-!
DEFINITION. The records of the machine's state below a core: threads, waves, groups, and the operations in flight.
A record that a table does not list stands at its default, which is the record at reset.
-/

namespace Sys2Proof.Machine

/-- Thread states (R12). -/
inductive ThreadState where
  | unlaunched | ready | sleeping | parked | syncing | exited
deriving DecidableEq, Repr

/-- The code of a thread state in the control page (R12). -/
def ThreadState.code : ThreadState → Byte
  | .unlaunched => 0
  | .ready => 1
  | .sleeping => 2
  | .parked => 3
  | .syncing => 4
  | .exited => 5

/-- Causes of parked sets and of the end of a launch (R182). -/
inductive Cause where
  | illegal | illegalFormat | formatDivergence | stallUndersized | baton | chrysalisFull | aliased | tileFault
  | breakpoint | softTrap | misalignment | fpException | latePromise | portFault | fetchFault | translation
  | access | upcall | dataLoss | doubleTrap
deriving DecidableEq, Repr

/-- The cause codes of R182. -/
def Cause.code : Cause → Byte
  | .illegal => 0x01
  | .illegalFormat => 0x02
  | .formatDivergence => 0x03
  | .stallUndersized => 0x04
  | .baton => 0x05
  | .chrysalisFull => 0x06
  | .aliased => 0x07
  | .tileFault => 0x08
  | .breakpoint => 0x09
  | .softTrap => 0x0A
  | .misalignment => 0x0B
  | .fpException => 0x0C
  | .latePromise => 0x0D
  | .portFault => 0x0E
  | .fetchFault => 0x20
  | .translation => 0x21
  | .access => 0x22
  | .upcall => 0x23
  | .dataLoss => 0x24
  | .doubleTrap => 0x30

/-- A parked set (R23): members, PC, cause and address; whether the resident kernel serves it or the user handler;
its order of raising; whether it is the active set (R25); whether its mailbox entry has been posted (R384), under
which handle. An upcall holds its arguments, first reply scalar and flag (R110). -/
structure Parked where
  members : Lanes
  pc : Word
  cause : Cause
  system : Bool
  addr : BitVec 64
  order : Nat
  active : Bool
  posted : Option (BitVec 8)
  args : List Word
  replyTo : SReg
  flag : BitVec 4
  polling : Option Nat
  /-- the timeline whose failure record parked it (R276) -/
  onTl : Option Timeline
  /-- its place in the order of parking of the system-service sets of all waves (R384) -/
  seq : Nat
deriving DecidableEq, Repr

/-- The scalar operations that R98 lets read and write message ports, as one function of two operands. -/
inductive SAlu where
  | add | sub | mul | mulh | div | divu | rem | remu | and | or | xor | shl | shr | sra | min | max | minu | maxu
  | mov | lui | clz | popc
  | bfe (len pos : BitVec 5)
deriving DecidableEq, Repr

/-- A source of a scalar operation: a register or port, or a constant. -/
inductive SSrc where
  | op (o : SOp)
  | const (x : Word)
deriving DecidableEq, Repr

/-- What a sleeping run waits for (R13, R173), with the operand captured at issue. -/
inductive Wait where
  /-- `sleep`: the die count at which it wakes (R108) -/
  | sleep (until_ : BitVec 64)
  /-- a group barrier and the generation awaited (R178) -/
  | bar (b : BitVec 4) (gen : Bool)
  /-- a cohort barrier and the generation awaited (R288) -/
  | cbar (b : BitVec 4) (gen : Nat)
  /-- `mwait`: virtual and physical address of the word, the value compared, the destination, ORD, SCO and CH; while its
  first read still waits for earlier accesses of its run, the number of its operation (R157, R159) -/
  | mwait (va pa : Nat) (old : Word) (d : SReg) (ord : LdOrd) (sco : Scope) (ch : Chan) (untested : Option Nat)
  /-- `tlwait`: timeline and value awaited (R276) -/
  | timeline (sel : Timeline) (value : Word)
  /-- `waitp`: timeline, value, promised time, whether that time is still to come (R187), and the die that made the
  promise (R198) -/
  | promise (sel : Timeline) (value time : Word) (coming : Bool) (die : Nat)
  /-- a blocking port read: the operation, its sources, its destination, and the messages taken so far (R98) -/
  | port (f : SAlu) (a b : SSrc) (d : SOp) (va vb : Option Word)
  /-- `recalloc`: graph node and result (R371) -/
  | recalloc (arg : BitVec 32) (d : SReg)
  /-- `tenq`: the captured descriptor words (R367) -/
  | tenq (words : List Word)
  /-- `qclaim` (R374) -/
  | qclaim (arg : BitVec 32) (d : SReg)
  /-- `gate` (R368) -/
  | gate
deriving DecidableEq, Repr

/-- A sleeping run: members, the index of the word it sleeps in, what it waits for, its completion flag, whether it
holds a wait-table entry, and the next poll when it has none (R176, R177). -/
structure Sleeper where
  members : Lanes
  pc : Word
  wait : Wait
  flag : BitVec 4
  entry : Bool
  poll : Option Nat
  order : Nat
deriving DecidableEq, Repr

/-- The wave's watch (R157): virtual and physical address of the word, the written bit, and whether a slice watch entry
is held or the sector is polled (R320). -/
structure Watch where
  va : Nat
  pa : Nat
  written : Bool
  held : Bool
deriving DecidableEq, Repr

/-- A register write that the completion of an operation makes. -/
inductive RegWrite where
  | v (r : VReg) (lane : Nat) (x : Word)
  | s (r : SReg) (x : Word)
  | m (r : MReg) (x : Lanes)
  | mBit (r : MReg) (lane : Nat) (b : Bool)
  | q (r : BitVec 4) (b : Bool)
  | sr (n : BitVec 12) (x : Word)
  | flags (f : BitVec 5)
  | send (p : Port) (x : Word)
deriving DecidableEq, Repr

/-- Where one access lies: a physical address, or a byte of the cluster's scratch space (R146). -/
inductive Loc where
  | mem (pa : Nat)
  | scratch (off : Nat)
deriving DecidableEq, Repr

/-- The access of one lane (64 stands for a uniform access): place, data going out (operand, and the new value of a
compare and swap), and the value read once performed. -/
structure LaneAcc where
  lane : Nat
  loc : Loc
  data : BitVec 128
  data2 : BitVec 64
  got : Option (BitVec 128)
  /-- the virtual address, and the PC of the word (R412) -/
  va : Nat
  pc : Word
deriving DecidableEq, Repr

/-- What a read-modify-write computes (R153, R155). -/
inductive RmwFn where
  | op (o : AtomOp)
  | cas
  | addF32
  | addBf16x2
deriving DecidableEq, Repr

/-- How a loaded value extends into its registers (R150). -/
inductive Extend where
  | zero | sign
deriving DecidableEq, Repr

/-- Where a memory result goes: vector registers of each lane, or scalars. -/
inductive MemDest where
  | v (r : VReg)
  | s (r : SReg)
deriving DecidableEq, Repr

/-- A register as the checking scoreboard knows it (R169). -/
inductive RegId where
  | v (n : Nat)
  | s (n : Nat)
  | m (n : Nat)
  | q (n : Nat)
  | sr (n : Nat)
deriving DecidableEq, Repr

/-- The operand field value that names a register (R169). -/
def RegId.field : RegId → Nat
  | .v n => n
  | .s n => n
  | .m n => n
  | .q n => n
  | .sr n => n

/-- A register whose fixed latency the STALL fields since its producer have not covered yet: the cycles left and the
producer's flag (R167). -/
structure Owed where
  reg : RegId
  left : Nat
  flag : BitVec 4
deriving DecidableEq, Repr

/-- An operation in flight (R39, R41). -/
inductive FlightKind where
  /-- a fixed-latency word: the core cycle at which it completes, and its writes that have not landed, each with the
  cycle in which it does (R39, R53, R166) -/
  | fixed (due : Nat) (writes : List (RegWrite × Nat))
  /-- an `mquery` in its cycle of issue: it reads once every completion of that cycle is applied (R225) -/
  | query (due : Nat) (d : SReg) (sub : MQuery) (clear : Bool)
  /-- a result of variable latency that is ready: its completion may come at any time (R41) -/
  | result (writes : List RegWrite)
  | load (n : Nat) (ext : Extend) (dest : MemDest) (ord : LdOrd) (sco : Scope) (ch : Chan)
  | store (n : Nat) (ord : StOrd) (sco : Scope) (ch : Chan) (col : BitVec 3)
  | rmw (n : Nat) (f : RmwFn) (dest : MemDest) (ord : RmwOrd) (sco : Scope) (col : BitVec 3)
  | fence (kind : FenceKind) (sco : Scope) (colours : BitVec 8)
  /-- cache-control words: what they do to each line (R158) -/
  | cache (write inval cluster prefetch l2only : Bool)
  /-- `pxout`: a pixel of 4 bytes stored at its home, in the order of its primitive (R378, R379) -/
  | pxout
  /-- a command whose completion the owning unit makes (matrix, tile, engine, upcall, waits) -/
  | command
deriving DecidableEq, Repr

/-- An operation in flight: its kind, flag (15 none), the threads that issued it and its accesses. -/
structure Flight where
  kind : FlightKind
  flag : BitVec 4
  threads : Lanes
  accs : List LaneAcc
deriving DecidableEq, Repr

/-- A message port (R285 to R287): mode (0 unconfigured, 1 send, 2 receive), credits reserved and held, the buffered
data word, word 1 of its configuration and the header word; of a send port, the number of its reservation. -/
structure PortSt where
  mode : BitVec 2
  cred : Nat
  held : Nat
  full : Option Word
  target : Word
  hdr : Word
  resv : Nat
deriving DecidableEq, Repr

def PortSt.unconfigured : PortSt := ⟨0, 0, 0, none, 0, 0, 0⟩

/-- An entry of a queue: eight words, and the send port whose message it is: wave, port, reservation (R283, R286). -/
structure QEntry where
  words : List Word
  port : Option (Nat × Nat × Nat)
deriving DecidableEq, Repr

/-- A push that has not joined the queue: the entry, and the operation it completes. -/
structure QPush where
  entry : QEntry
  op : Option (Nat × Nat)
deriving DecidableEq, Repr

/-- Who takes the next entry: an `fpop` (wave, operation, first scalar) or a sleeping port read (wave, order, whether
for operand B). -/
inductive QTaker where
  | pop (w op : Nat) (d : SReg)
  | read (w order : Nat) (second : Bool)
deriving DecidableEq, Repr

/-- A reservation of a send port on a queue; a closing one goes once its messages are removed, and keeps a message
that still waits for a credit (R286). `owed` credits are on their way back to the port. -/
structure QResv where
  /-- the number that the port's configuration gave it -/
  id : Nat
  wave : Nat
  port : Nat
  cred : Nat
  owed : Nat
  closing : Bool
  buffered : Option QEntry
deriving DecidableEq, Repr

/-- A FIFO queue (R283 to R286). -/
structure FQueue where
  entries : List QEntry
  pushes : List QPush
  takers : List QTaker
  resv : List QResv
deriving DecidableEq, Repr

def FQueue.blank : FQueue := ⟨[], [], [], []⟩

/-- A fault record that waits for its delivery (R259, R260): the demand's flag, ring index, address of the record in
the fault area, ADDR. -/
structure TileFault where
  flag : BitVec 4
  index : Nat
  at_ : Nat
  addr : BitVec 64
deriving DecidableEq, Repr

/-- A wave: its threads' state and the state they share (R10 to R34, R172). -/
structure Wave where
  group : Nat
  launch : Nat
  pasid : BitVec 20
  /-- the core, 144·die + 12·cluster + core in the cluster -/
  core : Nat
  /-- the wave slot, when resident -/
  slot : Option (BitVec 5)
  image : Nat
  launched : Lanes
  pcs : SMap 32
  threads : AMap ThreadState
  /-- vector registers: register n of lane L at key 64·n + L -/
  v : SMap 32
  s : SMap 32
  m : SMap 64
  q : BitVec 16
  f : SMap 6
  ports : AMap PortSt
  seed : BitVec 64
  draws : SMap 32
  save : SMap 32
  fpctl : Word
  fpstat : Word
  prio : Word
  age : Word
  trapcause : Word
  trapaddr : BitVec 64
  trappc : Word
  delivered : Word
  tfault : Word
  late : Word
  waitovf : Word
  capture : Option (BitVec 64)
  waveid : Word
  gidx : Word
  ngroups : Word
  cidx : Word
  rngstream : Word
  codebase : BitVec 64
  localbase : Word
  localsize : Word
  /-- the trap vector of the kernel descriptor, 0xFFFF_FFFF for none (R180) -/
  trapVec : Word
  /-- the queue's priority ceiling (R113) -/
  ceiling : BitVec 8
  /-- lines of the wave's register footprint and whether it is a pixel wave (R161, R377) -/
  regsDecl : Nat
  pixel : Option Nat
  parked : List Parked
  sleepers : List Sleeper
  watch : Option Watch
  /-- cohort barriers at which the wave has arrived in the current generation (R288) -/
  arrivals : BitVec 16
  flights : AMap Flight
  nextOp : Nat
  nextOrder : Nat
  /-- first cycle of the latest issue since dispatch or restore (R37) -/
  lastIssue : Option Nat
  /-- whether the latest issue was a `yield` (R107) -/
  yielded : Bool
  owed : List Owed
  aging : Nat
  promoted : Option Nat
  /-- the sr.prio by which quadrants choose in this cycle (R113) -/
  selPrio : Word
  /-- the order in which waves were pre-empted (R199) -/
  preempted : Nat
  /-- the mailbox entry that reports a corrupt image (R12, R384) -/
  corrupt : Option Nat
  /-- deferred-tile fault records to deliver at a word that waits on their flag (R260) -/
  tileFaults : List TileFault
  /-- a word that stays in dispatch (R163): its run and PC, and whether the last issue held it again -/
  holding : Option (Lanes × Word × Bool)
  /-- the fetched words of a word that stays in dispatch -/
  heldWords : List DWord
  /-- views to capture before the held store performs (R263) -/
  captures : List Nat
deriving DecidableEq, Repr

/-- A wave before dispatch: every register 0, but q0 and sr.age (R28, R31). -/
def Wave.blank : Wave :=
  { group := 0, launch := 0, pasid := 0, core := 0, slot := none, image := 0, launched := 0, pcs := [], threads := [],
    v := [], s := [], m := [], q := 1, f := [], ports := [], seed := 0, draws := [], save := [], fpctl := 0,
    fpstat := 0, prio := 0, age := 2048, trapcause := 0, trapaddr := 0, trappc := 0, delivered := 0, tfault := 0,
    late := 0, waitovf := 0, capture := none, waveid := 0, gidx := 0, ngroups := 0, cidx := 0, rngstream := 0,
    codebase := 0, localbase := 0, localsize := 0, trapVec := 0xFFFFFFFF, ceiling := 255, regsDecl := 0,
    pixel := none, parked := [], sleepers := [], watch := none, arrivals := 0, flights := [], nextOp := 0,
    nextOrder := 0, lastIssue := none, yielded := false, owed := [], aging := 0, promoted := none, selPrio := 0,
    preempted := 0, corrupt := none, tileFaults := [], holding := none, heldWords := [], captures := [] }

/-- A cached byte of a core's L1 (R149): value, dirty bit, colour of the last store. -/
structure L1Byte where
  val : Byte
  dirty : Bool
  colour : BitVec 3
deriving DecidableEq, Repr

/-- A cached translation (R190): context, virtual page and its size in address bits, physical page, permissions, dirty
bit, and the partition-physical pages that its walk used (R192). -/
structure TlbEntry where
  pasid : BitVec 20
  part : BitVec 8
  vpage : Nat
  bits : Nat
  ppage : Nat
  r : Bool
  w : Bool
  x : Bool
  ros : Bool
  d : Bool
  via : List Nat
deriving DecidableEq, Repr

/-- A pointer entry that a walk cache of a die holds (R190): its stage, context and partition, its level, the bits of the
input address above those that the level indexes, with them; its value; the partition-physical pages of the tables
down to it. -/
structure WalkEntry where
  stage2 : Bool
  pasid : BitVec 20
  part : BitVec 8
  level : Nat
  pre : Nat
  entry : Nat
  via : List Nat
deriving DecidableEq, Repr

end Sys2Proof.Machine
end

