-- ==== Sys2Proof/Machine/Parts.lean ====
section
/-!
DEFINITION. The records of the machine's state above a wave: groups with their matrix engine and tiles, cohorts with
their timelines, engine requests and rays, launches, queues and graphs, and the units of a die and of the package.
-/

namespace Sys2Proof.Machine

/-! Groups. -/

/-- A command of a group's queue (R205, R229). A demand's FORMAT holds its node, set and trap enables (R254). -/
structure Cmd where
  op : BitVec 9
  acc : BitVec 3
  sub : BitVec 7
  follow : Bool
  /-- the issuing wave and its sr.waveid -/
  wave : Nat
  wid : BitVec 4
  format : Word
  flag : BitVec 4
  desc : List Word
  /-- the operation of the issuing wave that completes with it -/
  opId : Option Nat
  pc : Word
  /-- the operations that come before it: waves with the number of their next operation (R207, R248) -/
  marks : List (Nat × Nat)
  /-- the copy request whose follow-on it is (R280) -/
  req : Option Nat
  /-- its operand bytes as sampled since it started (R207); none before -/
  snap : Option (SMap 8)
  /-- block steps done (R228) -/
  step : Nat
  /-- the local offset of the first bad header that its steps have read, until it completes (R227) -/
  bad : Option (BitVec 23)
deriving DecidableEq, Repr

/-- A node of the chrysalis table (R233). `age` orders the nodes by their append (R264). -/
structure Node where
  kind : BitVec 8
  sub : BitVec 8
  tag : BitVec 8
  kept : Bool
  captured : Bool
  refs : Nat
  opa : Option Nat
  opb : Option Nat
  rows : Nat
  cols : Nat
  capu : Nat
  apc : Word
  prog : Nat
  param : List Word
  keep : List Word
  age : Nat
deriving DecidableEq, Repr

/-- A range of the alias filter (R234): first byte, bytes, the source view's node. -/
structure AliasRange where
  first : Nat
  len : Nat
  node : Nat
deriving DecidableEq, Repr

/-- What `tcfg` sets (R234, R252): CAPOFF and CAPSIZE in 256-byte units. -/
structure TileCfg where
  on : Bool
  set : BitVec 4
  capOff : Nat
  capSize : Nat
  farea : Nat
  nrec : Nat
  next : Nat
deriving DecidableEq, Repr

def TileCfg.reset : TileCfg := ⟨false, 0, 0, 0, 0, 1, 0⟩

/-- A group barrier (R178): waves arrived in this generation, the COUNT that governs (0: the live waves), generation
bit. -/
structure Barrier where
  arrived : BitVec 16
  count : Nat
  gen : Bool
deriving DecidableEq, Repr

def Barrier.fresh : Barrier := ⟨0, 0, false⟩

/-- A group of waves on one core (R160, R174). -/
structure Group where
  core : Nat
  waves : Nat
  ended : BitVec 16
  bars : AMap Barrier
  pasid : BitVec 20
  launch : Nat
  cohort : Nat
  /-- index in its cohort -/
  index : Nat
  /-- group slot, when resident -/
  slot : Option (BitVec 3)
  image : Nat
  localbase : Word
  localsize : Word
  accDecl : Nat
  /-- accumulator tiles: element (i, j) of tile t at key 16384·t + 128·i + j (R202) -/
  acc : SMap 32
  /-- tiles that lie in the group image only (R203) -/
  away : BitVec 8
  /-- the baton's holder, and a pending pass (R210, R213) -/
  baton : Option (BitVec 4)
  pass : Option PassTarget
  sticky : BitVec 5
  /-- the operation that completes with the pass: wave, operation -/
  passOp : Option (Nat × Nat)
  /-- the pending header report: local offset, wave and its sr.waveid (R227) -/
  report : Option (BitVec 23 × Nat × BitVec 4)
  queue : List Cmd
  handles : AMap Nat
  nodes : AMap Node
  ranges : AMap AliasRange
  tcfg : TileCfg
  nodeAge : Nat
  /-- `release` executed (R368) -/
  released : Bool
deriving DecidableEq, Repr

def Group.blank : Group :=
  { core := 0, waves := 0, ended := 0, bars := [], pasid := 0, launch := 0, cohort := 0, index := 0, slot := none,
    image := 0, localbase := 0, localsize := 0, accDecl := 0, acc := [], away := 0, baton := none, pass := none, passOp := none,
    sticky := 0, report := none, queue := [], handles := [], nodes := [], ranges := [], tcfg := TileCfg.reset,
    nodeAge := 0, released := false }

/-! Cohorts. -/

/-- A timeline (R273): its value, the requests accepted, the completed numbers above the value, and the failure
record: lowest failed number, cause, address (R276). -/
structure Tl where
  value : Nat
  accepted : Nat
  done : List Nat
  fail : Option (Nat × Cause × Nat)
deriving DecidableEq, Repr

def Tl.fresh : Tl := ⟨0, 0, [], none⟩

/-- A layout descriptor (R292). -/
structure Layout where
  geom : Nat
  leaf : Nat
  idxStr : Nat
  idxBase : Nat
  slots : List Nat
deriving DecidableEq, Repr

/-- A class binding (R291): layout and walk program. -/
structure Binding where
  layout : Layout
  prog : List Word
deriving DecidableEq, Repr

/-- The task register of a range task (R366), and the record's other fields for a split (R367). -/
structure TaskReg where
  cur : Word
  hi : Word
  grain : Word
deriving DecidableEq, Repr

/-- A placed cohort (R268, R272, R288, R383). `bars` holds the generation bits of its barriers. -/
structure Cohort where
  pasid : BitVec 20
  launch : Nat
  /-- 12·die + cluster -/
  cluster : Nat
  cidx : Nat
  /-- its groups that have not ended, and how many it was placed with -/
  groups : List Nat
  count : Nat
  base : Nat
  size : Nat
  record : Nat
  copy : Tl
  trav : Tl
  nmv : AMap Tl
  bars : BitVec 16
  /-- the bindings of its classes: class k on cluster c at 8·c + k (R291) -/
  classes : AMap Binding
  task : Option TaskReg
deriving DecidableEq, Repr

def Cohort.blank : Cohort :=
  ⟨0, 0, 0, 0, [], 0, 0, 0, 0, Tl.fresh, Tl.fresh, [], 0, [], none⟩

/-! Engine requests. -/

/-- The kinds of engine request (R277 to R280, R308, R403). -/
inductive ReqKind where
  | copy
  | multi (mask : BitVec 48)
  | follow
  | bind (cls : BitVec 3)
  | trace (resume : Bool)
  | nmv
deriving DecidableEq, Repr

/-- An engine request in flight. Copy: bytes read, destination bytes written, whether its stream has reached it, and the
virtual address whose translation fault stalls its stream (R276, R278). Near-bank: the vectors as sampled, the results
written (R404). Traversal: node bytes as sampled (R313), records started, the
summary's counts, the `rsave` operations (wave, operation) that cover its rays not yet started (R310, R311). -/
structure Req where
  kind : ReqKind
  desc : List Word
  cohort : Nat
  cluster : Nat
  wave : Nat
  wid : BitVec 4
  group : Nat
  pasid : BitVec 20
  flag : BitVec 4
  sel : Timeline
  n : Nat
  pc : Word
  read : AMap Byte
  written : List Nat
  started : Bool
  stall : Option Nat
  /-- a near-bank request's sample of its weights, by offset (R404) -/
  weights : Option (SMap 8)
  failed : Bool
  /-- the follow-on has entered its queue (R280) -/
  queued : Bool
  next : Nat
  counts : List Nat
  savers : List (Nat × Nat)
deriving DecidableEq, Repr

/-- A ray in the engine (R294, R296): its record, transient state, and what it waits for. -/
structure Ray where
  req : Nat
  cohort : Nat
  cluster : Nat
  pasid : BitVec 20
  at_ : Nat
  binding : Option Binding
  org : List Word
  tmin : Word
  dir : List Word
  tmax : Word
  flags : BitVec 8
  cls : BitVec 8
  upc : Nat
  status : BitVec 8
  cause : BitVec 8
  inst : BitVec 16
  node : Nat
  hitt : Word
  prim : Word
  hitu : Word
  hitv : Word
  /-- stack entries, bottom first; DEPTH is their number -/
  stack : List (BitVec 64)
  /-- the node buffer, when loaded -/
  buf : Option (List Byte)
  kids : List (Word × Nat × Nat)
  cand : Option (Word × Word × Word × Word)
  z : Bool
  h : Bool
  m : Bool
  /-- the `rsave` operations that apply: wave, operation -/
  savers : List (Nat × Nat)
  /-- an `ldn` waits for its node -/
  fetching : Bool
  /-- suspended: the record waits for its write-back -/
  out : Bool
  depth : Nat
deriving DecidableEq, Repr

/-! Launches, queues, graphs. -/

/-- A kernel descriptor (R352). -/
structure KDesc where
  code : Nat
  trapvec : Word
  waves : Nat
  groups : Nat
  acc : Nat
  args : Nat
  regs : Nat
  prio : Nat
  kkind : Nat
  local_ : Nat
  feat : BitVec 64
  nodes : Nat
  nnodes : Nat
deriving DecidableEq, Repr

def KDesc.blank : KDesc := ⟨0, 0xFFFFFFFF, 1, 1, 0, 0, 1, 0, 0, 0, 0, 0, 0⟩

/-- What created a launch (R363). A graph is a launch that places no group of its own (R372). -/
inductive LaunchKind where
  | grid
  | graph
  | child (signal : Nat)
  | task
  | batch (graph node : Nat) (slots : List (Nat × Nat))
  | pixel (prim : Nat) (bx by_ : Nat)
deriving DecidableEq, Repr

/-- The error record of a launch (R356). -/
structure ErrRec where
  cause : Byte
  pc : Word
  addr : BitVec 64
  lref : BitVec 64
  place : Word
  gidx : Word
  cidx : Word
deriving DecidableEq, Repr

/-- A launch: a queued grid, a graph, a child, a task, a batch group or a pixel wave (R348 to R372). `queue` is its
queue and its number on the queue timeline; `root` the queue that takes its error record; `gate` the earlier launch it
was started early behind (R368); `behind` the child of the same merged grid that precedes it (R361); `cores` the cores
on which its waves have run (R341). -/
structure Launch where
  lref : BitVec 64
  error : Option ErrRec
  reported : Bool
  pasid : BitVec 20
  die : Nat
  kind : LaunchKind
  parent : Option Nat
  queue : Option (Nat × Nat)
  root : Nat
  kd : KDesc
  kaddr : Nat
  ngroups : Nat
  threads : Nat
  entry : Word
  args : List Word
  vregs : List (Nat × Nat × Word)
  cover : Lanes
  ceil : Nat
  prio : Nat
  handles : List (Nat × Bool)
  gate : Option Nat
  behind : Option Nat
  started : Bool
  /-- the next cohort to place, and the groups ended and released -/
  nextCohort : Nat
  endedGroups : Nat
  releasedGroups : Nat
  task : Option TaskReg
  cores : List Nat
deriving DecidableEq, Repr

def Launch.blank : Launch :=
  { lref := 0, error := none, reported := false, pasid := 0, die := 0, kind := .grid, parent := none, queue := none,
    root := 0, kd := KDesc.blank, kaddr := 0, ngroups := 1, threads := 64, entry := 0,
    args := [0, 0, 0, 0, 0, 0, 0, 0], vregs := [], cover := 0, ceil := 255, prio := 0, handles := [],
    gate := none, behind := none, started := false, nextCohort := 0, endedGroups := 0, releasedGroups := 0,
    task := none, cores := [] }

/-- A packet that has been retired and has not completed (R350). -/
inductive PacketKind where
  | noOp
  | launch (l : Nat)
  | dependency (es : List (Nat × Nat))
  | signal (addr v : Nat) (add : Bool)
  | wait (addr v : Nat)
  | handle (h : Nat) (ro dram retire : Bool) (base bytes : Nat)
  | firmware
deriving DecidableEq, Repr

/-- A retired packet: its action, its BARRIER flag, whether it holds back later packets no more, and the earlier
packets that must have completed first (R341, R354). -/
structure Packet where
  kind : PacketKind
  barrier : Bool
  started : Bool
  after : List Nat
deriving DecidableEq, Repr

/-- The front end's copy of a QCB (R344). -/
structure Qcb where
  ring : Nat
  log2n : Nat
  rdidx : Nat
  wridx : Nat
  ctl : Nat
  htab : Nat
  erec : Nat
  tkdesc : Nat
  aggto : Nat
  clean : Bool
deriving DecidableEq, Repr

/-- The ranges that the capabilities of a resident queue cover: ring and its bytes, handle table, error record (R387). -/
structure QueueCaps where
  ring : Nat
  bytes : Nat
  htab : Nat
  erec : Nat
deriving DecidableEq, Repr

/-- A queue at a die's front end. `at_` is the physical address of its QCB; `tl` the queue timeline; `writer` and
`readers` track the handles by packet number (R340); `stale` the RO handles written since the banks were invalidated
for them (R341); `last` the latest launch packet's launch and whether it carried EARLY (R368); `written` the die count
at which its tail was last seen written (R388); `caps` its capabilities, installed when its QCB is first read after it
became resident (R387). -/
structure FQ where
  at_ : Nat
  resident : Bool
  qcb : Option Qcb
  tl : Tl
  packets : AMap Packet
  writer : AMap Nat
  readers : AMap (List Nat)
  stale : List Nat
  last : Option (Nat × Bool)
  written : Nat
  caps : Option QueueCaps
deriving DecidableEq, Repr

def FQ.blank : FQ := ⟨0, false, none, Tl.fresh, [], [], [], [], none, 0, none⟩

/-- A node of a work graph (R380), with the pixel kernel of a mesh node of a draw graph. -/
structure GNode where
  entry : Word
  batch : Nat
  nkind : Nat
  reserve : Nat
  timeout : Nat
  cls : Nat
  waves : Nat
  pixk : Nat
  pix : KDesc
deriving DecidableEq, Repr

/-- A record slot in use (R370, R371): its node, the group that allocated it (none for the initial records), its
commit number once sent, and the batch launch that holds it. -/
structure RecSlot where
  node : Nat
  owner : Option Nat
  commit : Option Nat
  batch : Option Nat
deriving DecidableEq, Repr

/-- A render target of a draw state (R375). -/
structure Target where
  base : Nat
  pitch : Nat
  width : Nat
  height : Nat
deriving DecidableEq, Repr

/-- A work graph in progress (R369 to R372). `pending` lists each node's committed slots with the die cycle of the
first; `waiters` the waiting allocations in order: node, wave, order of the sleeper. -/
structure Graph where
  launch : Nat
  die : Nat
  pool : Nat
  nslot : Nat
  btab : Nat
  draw : Bool
  targets : List Target
  nodes : List GNode
  slots : AMap RecSlot
  commits : Nat
  pending : AMap (List Nat × Nat)
  waiters : List (Nat × Nat × Nat)
  prims : Nat
deriving DecidableEq, Repr

/-- A primitive the raster unit accepted, the die it came from, and the dies that it has reached (R375, R376, R379). -/
structure Prim where
  graph : Nat
  node : Nat
  commit : Nat
  seq : Nat
  pts : List Word
  attr : List Word
  launched : List (Nat × Nat)
  ordered : Bool
  die : Nat
  reached : List Nat
deriving DecidableEq, Repr

/-- A child waiting in an aggregation window (R361). -/
structure Child where
  parent : Nat
  ngroups : Nat
  threads : Nat
  signal : Nat
  args : List Word
deriving DecidableEq, Repr

/-- An aggregation window (R361): its die, context, kernel descriptor, die cycle of its first child, time-out. -/
structure Window where
  die : Nat
  pasid : BitVec 20
  kdesc : Nat
  kd : KDesc
  since : Nat
  timeout : Nat
  children : List Child
deriving DecidableEq, Repr

/-! The units of a die. -/

/-- A display head (R393): its registers, the surface in use, the slice being encoded, bytes written to its ring, the
rows of the frame that the scan has reached, and the pixels of those of the slice being encoded (R392). -/
structure Head where
  surf : BitVec 64
  geom : BitVec 64
  ctlt : BitVec 64
  obuf : BitVec 64
  obcfg : BitVec 64
  active : BitVec 64
  slice : Nat
  outPos : Nat
  row : Nat
  lines : List (List Word)
deriving DecidableEq, Repr

def Head.reset : Head := ⟨0, 0, 0, 0, 0, 0, 0, 0, 0, []⟩

/-- A shard context (R416): registers, commands waiting (VERIFY?, index), and the fetch in progress: entry and the
bytes read. -/
structure Shard where
  base : BitVec 64
  count : BitVec 64
  cmds : List (Bool × Nat)
  busy : Option Nat
  read : List Byte
  ok : Bool
deriving DecidableEq, Repr

def Shard.reset : Shard := ⟨0, 0, [], none, [], true⟩

/-- The state of a die link (R396). -/
inductive LinkMode where
  | up | retraining | down
deriving DecidableEq, Repr

/-- A die link: its state, CRC retries since it last worked, die cycle at which it began to retrain. -/
structure Link where
  mode : LinkMode
  retries : Nat
  since : Nat
deriving DecidableEq, Repr

def Link.reset : Link := ⟨.up, 0, 0⟩

/-- What a packet of a network is for (R327): a word of a wave, an engine request, a service of the die. -/
inductive NetSource where
  | wave (w : Nat)
  | request (r : Nat)
  | service
deriving DecidableEq, Repr

/-- A packet at the head of a router's input (R322, R327): priority, output it asks for, flits, cycles waited, the network
cycle of its promotion. -/
structure NetHead where
  prio : BitVec 8
  out : BitVec 3
  flits : Nat
  waited : Nat
  promoted : Option Nat
deriving DecidableEq, Repr

/-- A window of a Turel core (R386). -/
structure TWin where
  base : Nat
  len : Nat
  gen : Word
  perm : BitVec 4
  parent : BitVec 10
  valid : Bool
deriving DecidableEq, Repr

/-- A Turel core: its window table, the last value loaded or capability derived, whether a capability fault is
raised. -/
structure Turel where
  wins : AMap TWin
  value : BitVec 128
  fault : Bool
deriving DecidableEq, Repr

def Turel.reset : Turel := ⟨[], 0, false⟩

/-- An Efler hart: the value of its last access, and its reservation (R339); its integer registers x1 to x31 and its
program counter (R437; log entry 20). -/
structure Efler where
  value : BitVec 64
  resv : Option Nat
  x : SMap 64
  pc : BitVec 64
deriving DecidableEq, Repr

def Efler.reset : Efler := ⟨0, none, [], 0⟩

/-- A line in the directory of its slice (R318): shared by Efler harts, or owned by one. -/
inductive DirLine where
  | shared (harts : List Nat)
  | owned (hart : Nat)
deriving DecidableEq, Repr

/-- What the firmware is told or wakes for (R343, R388, R396, R408, R409). -/
inductive Notice where
  | notPresent (q : Nat)
  | noQueue (q : Nat)
  | queueError (q : Nat)
  | packet (q n : Nat)
  | linkDown (die : Nat) (link : BitVec 2)
  | sparesGone (stack : Nat)
  | shutdown
deriving DecidableEq, Repr

/-- Boot (R420): not yet run, running, or in recovery. -/
inductive BootMode where
  | held | running | recovery
deriving DecidableEq, Repr

end Sys2Proof.Machine
end

