-- ==== Sys2Proof/Machine/State.lean ====
section
/-!
DEFINITION. The state of the package as plain data, the reasons a step can stop, and the state after reset.
-/

namespace Sys2Proof.Machine

/-- Why the model stops. -/
inductive Fault where
  /-- an instruction word is executed while the current wave has no head run: raised by the meaning of every
  instruction word, and never by `step`, which chooses a wave that has one (R14). Safe: the machine issues no word
  then. -/
  | noRun
  /-- a walk micro-operation is executed while no ray is current: raised by the meaning of every walk
  micro-operation, and never by `step`. Safe: the engine executes none then. -/
  | noRay
deriving DecidableEq, Repr

/-- Why an instruction has no meaning. -/
inductive Refusal where
  /-- not modelled yet: raised by the arms of Dispatch only. Safe. -/
  | notModelled (mnemonic : String)
deriving DecidableEq, Repr

/-- A core: its L1, TLB, clock, quadrants and engine (R160 to R205). -/
structure CoreSt where
  l1 : AMap L1Byte
  tlb : List TlbEntry
  /-- core cycles since reset, and the clock in units of 50 MHz (R409) -/
  cycle : Nat
  clock : Nat
  /-- by quadrant: the cycle at which it is free again (R17, R163) -/
  busy : AMap Nat
  /-- gated hand-cycles counted (R17) -/
  gated : Nat
  /-- by quadrant: the cycle of its latest promotion (R164) -/
  lastPromotion : AMap Nat
  /-- register lines that are not resident: wave, line (R162, R175) -/
  missing : List (Nat × Nat)
  /-- register lines (wave, line) and accumulator tiles (group, tile) that have been used, the latest last (R175) -/
  lineUse : List (Nat × Nat)
  tileUse : List (Nat × Nat)
  /-- waves whose control pages drain from the shadow store (R197) -/
  draining : List Nat
  /-- contexts stopped on this core, with whether the halt is complete (R194) -/
  halting : AMap Bool
  /-- the group whose command the matrix engine runs and the cycle before which it does not complete; the group slot
  it served last (R205, R209) -/
  engine : Option (Nat × Nat)
  lastSlot : Nat
  /-- sectors of the L1, and register lines (wave, line), that hold an uncorrectable error which nothing has read yet
  (R407) -/
  upset : List Nat
  upsetLines : List (Nat × Nat)
deriving DecidableEq, Repr

def CoreSt.blank : CoreSt := ⟨[], [], 0, 20, [], 0, [], [], [], [], [], [], none, 7, [], []⟩

/-- A cluster: scratch banks, translation and cache banks (R267). -/
structure ClusterSt where
  scratch : SMap 8
  tlb : List TlbEntry
  cache : AMap Byte
  /-- bank modes as R267 codes them, 0 cache -/
  modes : SMap 2
  /-- bank mode changes on their way: bank to the mode, the wave and its operation (R271) -/
  changing : AMap (BitVec 2 × Nat × Nat)
  /-- queue q of bank b at 16·b + q -/
  queues : AMap FQueue
  /-- 64-byte sectors of the banks that hold an uncorrectable error which nothing has read yet (R407) -/
  upset : List Nat
deriving DecidableEq, Repr

def ClusterSt.blank : ClusterSt := ⟨[], [], [], [], [], [], []⟩

/-- A die: its reference counter, and the registers of its service window and units. -/
structure DieSt where
  counter : BitVec 64
  tlbiAddr : BitVec 64
  tlbiCtl : BitVec 64
  qroot : BitVec 64
  seqset : BitVec 64
  heads : AMap Head
  /-- NEARMAP1 and NEARMAP0 -/
  near : BitVec 96
  cecnt : SMap 32
  retcnt : SMap 32
  shards : AMap Shard
  /-- external interrupts raised on the sixteen Efler harts -/
  irq : BitVec 16
  links : AMap Link
  /-- packets at the heads of router inputs: 512·net + 8·router + port; the network cycle; the latest promotion of
  each output, and the input it served last (R327) -/
  net : AMap NetHead
  netCycle : Nat
  netPromo : AMap Nat
  netLast : AMap Nat
  /-- the network cycle until which a packet's flits hold an output (R327) -/
  netHeld : AMap Nat
  /-- the walk caches (R190) -/
  walks : List WalkEntry
  /-- line locations of the L2 that have been retired, by 512·slice + set (R316) -/
  retired : AMap Nat
  /-- the shard context that the integrity engine served last (R416) -/
  shardLast : Nat
deriving DecidableEq, Repr

def DieSt.blank : DieSt where
  counter := 0
  tlbiAddr := 0
  tlbiCtl := 0
  qroot := 0
  seqset := 0
  heads := []
  near := 0
  cecnt := []
  retcnt := []
  shards := []
  irq := 0
  links := []
  net := []
  netCycle := 0
  netPromo := []
  netLast := []
  netHeld := []
  walks := []
  retired := []
  shardLast := 63

/-- A context (R382), the mailbox actions on their way: entry and ACTION (R384), and refusals. -/
structure Ctx where
  desc : CtxDesc
  actions : List (Nat × Bool)
  /-- pages whose translation the resident kernel refuses to an engine stream or a demand that stalls on it (R257, R309) -/
  refused : List Nat
deriving DecidableEq, Repr

/-- A partition (R389). -/
structure Part where
  spec : PartSpec
  /-- the shard contexts assigned to it: die, context (R416) -/
  shards : List (Nat × Nat)
  /-- a resize whose cohorts are being halted: clusters to add and to remove; then the clusters that leave, and the cohorts
  that moved, until these have been restored (R390) -/
  resizing : Option (List Nat × List Nat)
  leaving : List Nat
  moving : List Nat
deriving DecidableEq, Repr

/-- The package's registers of the fabric block (R413, R422), its exports (R412), boot (R420) and sensors (R409). -/
structure Fabric where
  pkgid : BitVec 9
  lock : Bool
  peerport : SMap 8
  scrubint : Word
  featacc : BitVec 64
  exported : List (Nat × Nat)
  portsDown : BitVec 16
  boot : BootMode
  fwDigest : BitVec 512
  fwVersion : Nat
  hot : Bool
deriving DecidableEq, Repr

def Fabric.blank : Fabric := ⟨0x1FF, false, [], 3600, 0, [], 0, .held, 0, 0, false⟩

/-- A peer package: what of its memory this package has seen or written, whether it can be reached, the replies sent to it,
and the ranges that its firmware has exported to the group (R412). -/
structure Peer where
  mem : SMap 8
  reachable : Bool
  replies : List (Nat × List Byte)
  exported : List (Nat × Nat)
deriving DecidableEq, Repr

def Peer.reset : Peer := ⟨[], true, [], []⟩

/-- What happens next (log entry 2): the agents' moves in the order the agenda lists them. -/
inductive Action where
  /-- an event of the table -/
  | event (i : Instr)
  /-- a quadrant chooses and issues a word (R163) -/
  | select (core quad : Nat)
  /-- a ray executes its next micro-operation (R297) -/
  | walk (ray : Nat)
  /-- the first remaining lane access of an operation is performed (R150, R153) -/
  | perform (wave op lane : Nat)
  /-- an L1 line is evicted, a cached translation or a cluster cache line is dropped (R149, R190, R267) -/
  | evictLine (core line : Nat)
  | dropTlb (core page : Nat)
  | dropClusterTlb (cluster page : Nat)
  | dropWalk (die : Nat) (stage2 : Bool) (level pre : Nat)
  | dropCache (cluster line : Nat)
  /-- a line leaves the L2 (R316) or a register line leaves the cache (R175) -/
  | evictL2 (line : Nat)
  | evictRegLine (wave line : Nat)
  /-- an accumulator tile leaves accumulator memory (R175) -/
  | evictTile (group tile : Nat)
  /-- the matrix engine of a core samples its operands again (R207) -/
  | sample (core : Nat)
  /-- the matrix engine of a core does its command's next block step (R226, R228) -/
  | engineStep (core : Nat)
  /-- the traversal engine takes a granule of a node (R313); a near-bank request samples its operands again, or writes
  bytes of its result (R404) -/
  | sampleNode (req va : Nat)
  | nmSample (req : Nat)
  | nmWrite (req v n : Nat)
  /-- the resident kernel refuses the page of an address to a stream that stalls on it (R257, R309) -/
  | refusePage (pasid : BitVec 20) (va : Nat)
  /-- one byte of a copy is read, or written to its destination in the d-th cluster (R278) -/
  | copyRead (req i : Nat)
  | copyWrite (req d i : Nat)
  /-- the integrity engine copies one byte of a shard (R417) -/
  | shardByte (die : Nat) (cx : BitVec 6)
  /-- a packet reaches the head of a router's input, or leaves it (R327) -/
  | headPacket (die : Nat) (net : Bool) (router : Nat) (port : BitVec 3) (src : NetSource) (out : BitVec 3)
      (data : Nat)
  | leavePacket (die : Nat) (net : Bool) (router : Nat) (port : BitVec 3)
  | netCycle (die : Nat)
  /-- the controller finds a DRAM sector uncorrectable, or corrects an error of a stack (R407, R408) -/
  | dramError (pa : Nat)
  /-- a line of the L2 (R316), a sector of an L1 or of a cluster's banks, or a register line has an uncorrectable error
  (R407) -/
  | l2Error (pa : Nat)
  | l1Error (core pa : Nat)
  | bankError (cluster off : Nat)
  | lineError (wave line : Nat)
  | dramCorrected (pa : Nat)
  /-- the firmware exports a range to the peer group, and a peer's firmware one to this package (R412) -/
  | exportRange (lo len : Nat)
  /-- the firmware releases the clusters of a resize (R390) -/
  | releaseClusters (part : BitVec 8)
  | peerExport (id : BitVec 9) (lo len : Nat)
  /-- the scan of a head reaches the next row of its frame (R393) -/
  | scanRow (die : Nat) (head : BitVec 3)
  /-- software on an Efler hart enters a routine with arguments a0 to a4, or its hart executes the instruction at its program
  counter (R437) -/
  | hartEnter (hart : Nat) (pc : BitVec 64) (args : List (BitVec 64))
  | hartStep (hart : Nat)
  /-- a core cycle of one core, a die cycle of one die, or one of each everywhere -/
  | coreCycle (core : Nat)
  | dieCycle (die : Nat)
  | tick
deriving DecidableEq, Repr

/-- The machine. -/
structure State where
  mem : Memory
  /-- bytes held by the L2 slices: value and dirty bit (R316) -/
  l2 : AMap (Byte × Bool)
  cores : AMap CoreSt
  clusters : AMap ClusterSt
  dies : AMap DieSt
  waves : AMap Wave
  groups : AMap Group
  launches : AMap Launch
  contexts : AMap Ctx
  parts : AMap Part
  cohorts : AMap Cohort
  reqs : AMap Req
  rays : AMap Ray
  queues : AMap FQ
  graphs : AMap Graph
  prims : AMap Prim
  windows : AMap Window
  turels : AMap Turel
  eflers : AMap Efler
  /-- the directory of the lines that Efler harts cache, by 64-byte line (R318) -/
  dir : AMap DirLine
  fabric : Fabric
  peers : AMap Peer
  /-- what the host has been answered, SPDM responses with their link, and the firmware's notices (R415, R421) -/
  hostOut : List (Nat × List Byte)
  spdmOut : List (SpdmPath × List Byte)
  notices : List Notice
  /-- identifiers of new records (log entry 2) -/
  nextId : Nat
  /-- sectors of DRAM that hold an uncorrectable error (R408): the bytes not written since, and whether the sector
  stays in place for want of a spare -/
  lost : AMap (BitVec 64 × Bool)
  /-- the wave whose word is issued, and the ray whose micro-operation is executed -/
  cur : Nat
  curRay : Nat
  agenda : List Action
  freeCtr : Nat
deriving DecidableEq, Repr

/-- The package right after reset: no context, no wave, memory with nothing listed (log entries 1 and 9). -/
def State.reset : State :=
  { mem := [], l2 := [], cores := [], clusters := [], dies := [], waves := [], groups := [], launches := [],
    contexts := [], parts := [], cohorts := [], reqs := [], rays := [], queues := [], graphs := [], prims := [],
    windows := [], turels := [], eflers := [], dir := [], fabric := Fabric.blank, peers := [], hostOut := [], spdmOut := [],
    notices := [], nextId := 1, lost := [], cur := 0, curRay := 0, agenda := [], freeCtr := 0 }

end Sys2Proof.Machine
end

