-- ==== Sys2Proof/Machine/Flags.lean ====
section
/-!
DEFINITION. Completion flags (R38 to R41), the floating exception flags and trap enables (R33, R34), and the filters of
written special registers (R31 to R34).
-/

namespace Sys2Proof.Machine

/-- The value of completion flag f_i (R28). -/
def Wave.flag (w : Wave) (i : Nat) : BitVec 6 := SMap.get w.f i

/-- At issue: f_SETF increments; 15 names no flag (R39). -/
def Wave.raiseFlag (w : Wave) (setf : BitVec 4) : Wave :=
  if 11 < setf.toNat then w else { w with f := SMap.set w.f setf.toNat (w.flag setf.toNat + 1) }

/-- At completion: f_SETF decrements, never below 0 (R39, R40). -/
def Wave.lowerFlag (w : Wave) (setf : BitVec 4) : Wave :=
  if 11 < setf.toNat ∨ w.flag setf.toNat = 0 then w
  else { w with f := SMap.set w.f setf.toNat (w.flag setf.toNat - 1) }

/-- Every flag that WAIT names is 0 (R38). -/
def Wave.waitMet (w : Wave) (wait : BitVec 12) : Bool :=
  [0, 1, 2, 3, 4, 5, 6, 7, 8, 9, 10, 11].all fun i => !wait.getLsbD i || w.flag i == 0

/-- The flag that SETF names is below 63 (R40). -/
def Wave.setfFree (w : Wave) (setf : BitVec 4) : Bool := decide (11 < setf.toNat) || w.flag setf.toNat != 63

/-- The trap enables of sr.fpctl, in the positions of sr.fpstat (R33). -/
def Wave.fpEnables (w : Wave) : BitVec 5 := w.fpctl.extractLsb' 8 5

/-- The rounding mode that RND 110 reads: DRM of sr.fpctl (R33). -/
def Wave.drm (w : Wave) : Rnd :=
  match (w.fpctl.extractLsb' 0 3).toNat with
  | 1 => .rtz
  | 2 => .rdn
  | 3 => .rup
  | 4 => .rna
  | 5 => .sto
  | _ => .rne

/-- What a write of sr.fpctl stores: reserved bits 0; DRM 110 and 111, and 101 without the stochastic feature, as 000
(R33, R422). -/
def filterFpctl (stochastic : Bool) (x : Word) : Word :=
  let drm := x.toNat % 8
  let keep := if drm = 6 ∨ drm = 7 ∨ (drm = 5 ∧ stochastic = false) then 0 else drm
  BitVec.ofNat 32 (((x.toNat / 256) % 32) * 256 + keep)

/-- What a write of sr.fpstat stores (R34). -/
def filterFpstat (x : Word) : Word := BitVec.ofNat 32 (x.toNat % 32)

/-- What a write of sr.prio stores: bits [7:0], at most the queue's ceiling (R31). -/
def filterPrio (ceiling : BitVec 8) (x : Word) : Word := BitVec.ofNat 32 (min (x.toNat % 256) ceiling.toNat)

/-- What a write of sr.age stores: bits [15:0], at least 64 (R31). -/
def filterAge (x : Word) : Word := BitVec.ofNat 32 (max (x.toNat % 65536) 64)

/-- A saturating 32-bit sum (R31: sr.late, sr.waitovf). -/
def satAdd (x : Word) (n : Nat) : Word := BitVec.ofNat 32 (min (x.toNat + n) 0xFFFFFFFF)

end Sys2Proof.Machine
end

