-- ==== Sys2Proof/Machine/Ops.lean ====
section
/-!
DEFINITION. The named operations over registers, threads and time: register reads and writes, the head run, moves of
the PC, parking (the one operation that raises a trap), delivery and the return from one.
-/

namespace Sys2Proof.Machine

/-! Registers. -/

/-- A lane's vector register; 0 in an unlaunched lane (R10). -/
def Wave.rv (w : Wave) (r : VReg) (l : Nat) : Word :=
  if w.launched.getLsbD l then SMap.get w.v (64 * r.toNat + l) else 0

/-- Register r + k of a pair, quad or block. -/
def Wave.rvk (w : Wave) (r : VReg) (k l : Nat) : Word := w.rv (BitVec.ofNat 10 (r.toNat + k)) l

/-- Writes a lane's vector register; a write to an unlaunched lane is discarded (R10). -/
def Wave.wv (w : Wave) (r : VReg) (l : Nat) (x : Word) : Wave :=
  if w.launched.getLsbD l then { w with v := SMap.set w.v (64 * r.toNat + l) x } else w

def Wave.rs (w : Wave) (r : SReg) : Word := SMap.get w.s r.toNat
def Wave.rsk (w : Wave) (r : SReg) (k : Nat) : Word := SMap.get w.s (r.toNat + k)
def Wave.ws (w : Wave) (r : SReg) (x : Word) : Wave := { w with s := SMap.set w.s r.toNat x }

/-- A mask; m0 is all ones (R28). -/
def Wave.rm (w : Wave) (r : MReg) : Lanes := if r = 0 then BitVec.allOnes 64 else SMap.get w.m r.toNat
/-- Writes a mask; a write to m0 is ignored (R28). -/
def Wave.wm (w : Wave) (r : MReg) (x : Lanes) : Wave :=
  if r = 0 then w else { w with m := SMap.set w.m r.toNat x }

/-- A condition bit; q0 is 1 (R28). -/
def Wave.rq (w : Wave) (r : BitVec 4) : Bool := r == 0 || w.q.getLsbD r.toNat
/-- Writes a condition bit; a write to q0 is ignored (R28). -/
def Wave.wq (w : Wave) (r : BitVec 4) (b : Bool) : Wave :=
  if r = 0 then w
  else
    let bit : BitVec 16 := BitVec.ofNat 16 (2 ^ r.toNat)
    { w with q := if b then w.q ||| bit else w.q &&& ~~~bit }

/-- A 64-bit value in a scalar pair, low word in the even register. -/
def Wave.rsPair (w : Wave) (r : SReg) : BitVec 64 := w.rsk r 1 ++ w.rsk r 0
/-- A 64-bit value in a vector pair. -/
def Wave.rvPair (w : Wave) (r : VReg) (l : Nat) : BitVec 64 := w.rvk r 1 l ++ w.rvk r 0 l

/-- Low and high word of a 64-bit value. -/
def lo32 (x : BitVec 64) : Word := x.extractLsb' 0 32
def hi32 (x : BitVec 64) : Word := x.extractLsb' 32 32

/-- The writes of a 64-bit value into a scalar pair. -/
def pairWrites (d : SReg) (x : BitVec 64) : List RegWrite := [.s d (lo32 x), .s (d + 1) (hi32 x)]

/-- The writes of consecutive scalars. -/
def scalarWrites (d : SReg) : List Word → List RegWrite
  | [] => []
  | x :: t => .s d x :: scalarWrites (d + 1) t

/-- The words of a descriptor block (R51). -/
def Wave.block (w : Wave) (a : SReg) (n : Nat) : List Word := (upTo n).map fun k => w.rsk a k

/-! Threads and runs. -/

/-- The state of a lane's thread (R12). -/
def Wave.stateOf (w : Wave) (l : Nat) : ThreadState := AMap.getD w.threads l .unlaunched

/-- The lanes whose threads are in a state. -/
def Wave.lanesIn (w : Wave) (t : ThreadState) : Lanes :=
  w.threads.foldl (fun m e => if e.2 = t then m ||| laneBit e.1 else m) 0

/-- Puts the threads of a set of lanes into a state. -/
def Wave.setThreads (w : Wave) (ls : Lanes) (t : ThreadState) : Wave :=
  { w with threads := w.threads.map fun e => if ls.getLsbD e.1 then (e.1, t) else e }

/-- The PC-table entry of a lane (R11). -/
def Wave.pcOf (w : Wave) (l : Nat) : Word := SMap.get w.pcs l

/-- Next(T, x): sets the PC of every thread in T (R97). -/
def Wave.next (w : Wave) (ls : Lanes) (pc : Word) : Wave :=
  { w with pcs := (lanesOf ls).foldl (fun m l => SMap.set m l pc) w.pcs }

/-- The least PC among some lanes, none for no lane. -/
def Wave.leastPC (w : Wave) (ls : Lanes) : Option Word :=
  (lanesOf ls).foldl (fun b l =>
    match b with
    | none => some (w.pcOf l)
    | some p => if (w.pcOf l).toNat < p.toNat then some (w.pcOf l) else some p) none

/-- The ready threads whose PC is the least among the ready threads (R14). -/
def Wave.leastRun (w : Wave) : Option (Lanes × Word) :=
  let ready := w.lanesIn .ready
  match w.leastPC ready with
  | none => none
  | some p => some (maskOf fun l => ready.getLsbD l && w.pcOf l == p, p)

/-- The head run and its PC (R14); a word that stays in dispatch is still its run's (R163). -/
def Wave.head (w : Wave) : Option (Lanes × Word) :=
  match w.holding with
  | some (run, pc, _) => some (run, pc)
  | none => w.leastRun

/-- Lanes(run, pred): the lanes of the run that NEG and PM enable (R43). -/
def Wave.enabled (w : Wave) (run : Lanes) (c : Ctl) : Lanes :=
  let m := w.rm (0#1 ++ c.pm)
  run &&& (if c.neg then ~~~m else m)

/-- The release of `sync` (R19): when every launched thread that has not exited is syncing, those at the least PC go
to the next word. -/
def Wave.settle (w : Wave) : Wave :=
  let sy := w.lanesIn .syncing
  if sy ≠ 0 ∧ sy ||| w.lanesIn .exited = w.launched then
    match w.leastPC sy with
    | none => w
    | some p =>
      let rel := maskOf fun l => sy.getLsbD l && w.pcOf l == p
      (w.setThreads rel .ready).next rel (p + 1)
  else w

/-! The machine's parts. -/

def State.wave (s : State) (w : Nat) : Wave := AMap.getD s.waves w Wave.blank
def State.putWave (s : State) (w : Nat) (x : Wave) : State := { s with waves := AMap.put s.waves w x }
def State.onWave (s : State) (w : Nat) (f : Wave → Wave) : State := s.putWave w (f (s.wave w))
def State.core (s : State) (c : Nat) : CoreSt := AMap.getD s.cores c CoreSt.blank
def State.onCore (s : State) (c : Nat) (f : CoreSt → CoreSt) : State :=
  { s with cores := AMap.put s.cores c (f (s.core c)) }
def State.cluster (s : State) (c : Nat) : ClusterSt := AMap.getD s.clusters c ClusterSt.blank
def State.onCluster (s : State) (c : Nat) (f : ClusterSt → ClusterSt) : State :=
  { s with clusters := AMap.put s.clusters c (f (s.cluster c)) }
def State.die (s : State) (d : Nat) : DieSt := AMap.getD s.dies d DieSt.blank
def State.onDie (s : State) (d : Nat) (f : DieSt → DieSt) : State :=
  { s with dies := AMap.put s.dies d (f (s.die d)) }
def State.cohort (s : State) (c : Nat) : Cohort := AMap.getD s.cohorts c Cohort.blank
def State.onCohort (s : State) (c : Nat) (f : Cohort → Cohort) : State :=
  { s with cohorts := AMap.put s.cohorts c (f (s.cohort c)) }
def State.group (s : State) (g : Nat) : Group := AMap.getD s.groups g Group.blank
def State.onGroup (s : State) (g : Nat) (f : Group → Group) : State :=
  { s with groups := AMap.put s.groups g (f (s.group g)) }
def State.launch (s : State) (l : Nat) : Launch := AMap.getD s.launches l Launch.blank
def State.onLaunch (s : State) (l : Nat) (f : Launch → Launch) : State :=
  { s with launches := AMap.put s.launches l (f (s.launch l)) }

/-- Cluster (12·die + cluster) and die of a core, and its number in the cluster. -/
def clusterOf (core : Nat) : Nat := core / 12
def dieOf (core : Nat) : Nat := core / 144
def coreIn (core : Nat) : Nat := core % 12

/-- The descriptor's control word of a wave's context: CSB, LPH and DBG (R168). -/
def State.ctlw (s : State) (pasid : BitVec 20) : BitVec 32 :=
  match AMap.find s.contexts pasid.toNat with
  | some x => x.desc.ctlw
  | none => 0

/-- Reads a free value and advances the counter (log entry 3). -/
def State.free (s : State) : BitVec 64 × State :=
  (Config.freeValue s.freeCtr, { s with freeCtr := s.freeCtr + 1 })

/-- The die counter of a wave's die (R5, R32). -/
def State.dieCycle (s : State) (w : Wave) : BitVec 64 := (s.die (dieOf w.core)).counter

/-- The core cycle of a wave's core. -/
def State.coreCycle (s : State) (w : Wave) : Nat := (s.core w.core).cycle

/-! Register writes of completing operations. -/

/-- A write to a special register once filtered (R117, R118). -/
def Wave.putSR (w : Wave) (n : Nat) (x : Word) : Wave :=
  match n with
  | 0x018 => { w with fpctl := x }
  | 0x019 => { w with fpstat := x }
  | 0x020 => { w with prio := x }
  | 0x021 => { w with age := x }
  | 0x028 => { w with trapcause := x }
  | 0x029 => { w with trapaddr := w.trapaddr.extractLsb' 32 32 ++ x }
  | 0x02A => { w with trapaddr := 0#7 ++ x.extractLsb' 0 25 ++ w.trapaddr.extractLsb' 0 32 }
  | 0x02B => { w with trappc := x }
  | 0x038 => { w with late := x }
  | 0x039 => { w with waitovf := x }
  | _ => w

/-- One register write of a completion; a message is sent by `State.complete` (R98). -/
def Wave.land (w : Wave) : RegWrite → Wave
  | .v r l x => w.wv r l x
  | .s r x => w.ws r x
  | .m r x => w.wm r x
  | .mBit r l b => w.wm r (if b then w.rm r ||| laneBit l else w.rm r &&& ~~~laneBit l)
  | .q r b => w.wq r b
  | .sr n x => w.putSR n.toNat x
  | .flags f => { w with fpstat := w.fpstat ||| (0#27 ++ f) }
  | .send _ _ => w

/-- The writes of a list, in order. -/
def Wave.landAll (w : Wave) (ws : List RegWrite) : Wave := ws.foldl Wave.land w

/-- Puts an operation in flight. -/
def Wave.addFlight (w : Wave) (f : Flight) : Wave :=
  { w with flights := AMap.put w.flights w.nextOp f, nextOp := w.nextOp + 1 }

/-- The effect of issuing a fixed-latency word whose writes have latencies of their own: the flag rises, each write
lands when its latency has passed, and the word completes `lat` cycles after issue (R39, R53, R166). -/
def State.fixedParts (s : State) (w : Nat) (setf : BitVec 4) (run : Lanes) (lat : Nat) (ws : List (RegWrite × Nat)) :
    State :=
  if ws.isEmpty && setf == 15#4 then s
  else
    let x := s.wave w
    let now := s.coreCycle x
    s.putWave w ((x.raiseFlag setf).addFlight ⟨.fixed (now + lat) (ws.map fun r => (r.1, now + r.2)), setf, run, []⟩)

/-- The same with one latency (R39, R166). Without writes the word completes one cycle after issue. -/
def State.fixed (s : State) (w : Nat) (setf : BitVec 4) (run : Lanes) (lat : Nat) (ws : List RegWrite) : State :=
  s.fixedParts w setf run lat (ws.map fun r => (r, lat))

/-! Traps (R23 to R25, R180 to R186). -/

/-- The causes that the resident kernel serves (R182). -/
def Cause.isSystem : Cause → Bool
  | .fetchFault => true
  | .translation => true
  | .access => true
  | .upcall => true
  | .dataLoss => true
  | _ => false

/-- The members of the active user-handled set that have not returned (R25). -/
def Wave.activeMembers (w : Wave) : Lanes :=
  w.parked.foldl (fun m p => if p.active then m ||| p.members else m) 0

/-- Where a wave runs, as WHERE of the error record gives it (R356). -/
def Wave.place (w : Wave) : Word :=
  let slot := match w.slot with
    | some k => k.toNat
    | none => 0
  BitVec.ofNat 32 (dieOf w.core + 16 * (clusterOf w.core % 12) + 256 * coreIn w.core + 65536 * slot +
    16777216 * w.waveid.toNat)

/-- The launch that takes an error record: for a batch group and a pixel wave it is the graph (R372). -/
def State.errLaunch (s : State) (l : Nat) : Nat :=
  let x := s.launch l
  match x.kind with
  | .batch .. => x.parent.getD l
  | .pixel .. => x.parent.getD l
  | _ => l

/-- A launch that has ended with an error: its waves stop at their next word boundary (R180, R372). -/
def State.ended (s : State) (l : Nat) : Bool := (s.launch (s.errLaunch l)).error.isSome

/-- Ends a launch with an error record; only its first error is recorded (R356). -/
def State.endWith (s : State) (l : Nat) (e : ErrRec) : State :=
  s.onLaunch (s.errLaunch l) fun x => if x.error.isSome then x else { x with error := some e }

/-- A launch ends with an error record; only its first error is recorded (R180, R356), and the threads of its other
waves stop at their next word boundary. -/
def State.endLaunch (s : State) (w : Nat) (cause : Cause) (pc : Word) (addr : BitVec 64) : State :=
  let x := s.wave w
  s.endWith x.launch ⟨cause.code, pc, addr, (s.launch x.launch).lref, x.place, x.gidx, x.cidx⟩

/-- A parked set of a cause, not yet posted or delivered. -/
def Parked.make (ls : Lanes) (pc : Word) (cause : Cause) (system : Bool) (addr : BitVec 64) (order : Nat) : Parked :=
  ⟨ls, pc, cause, system, addr, order, false, none, [], 0, 15, none, none, 0⟩

/-- The place of a set that parks now: after every set that is parked (R384). -/
def State.parkSeq (s : State) : Nat :=
  s.waves.foldl (fun n e => e.2.parked.foldl (fun n p => max n (p.seq + 1)) n) 0

/-- Adds a parked set and parks its threads. -/
def Wave.addParked (w : Wave) (p : Parked) : Wave :=
  { (w.setThreads p.members .parked) with parked := w.parked ++ [p], nextOrder := w.nextOrder + 1 }

/-- TAKING AN EXCEPTION: the threads of one cause leave the ready set and form a parked set at a PC (R23). A
system-service set waits for the resident kernel (R24). A user-handled set waits for its delivery (R25, R181); without
a handler, or when one of its threads is between delivery and `rte`, it ends the launch (R180, R25). -/
def State.park (s : State) (w : Nat) (ls : Lanes) (pc : Word) (cause : Cause) (addr : BitVec 64) : State :=
  if ls = 0 then s
  else
    let x := s.wave w
    let system := cause.isSystem || (cause == .breakpoint && (s.ctlw x.pasid).getLsbD 2)
    let s1 := s.putWave w (x.addParked { Parked.make ls pc cause system addr x.nextOrder with seq := s.parkSeq })
    if system then s1
    else if x.activeMembers &&& ls ≠ 0 then s1.endLaunch w .doubleTrap pc addr
    else if x.trapVec = 0xFFFFFFFF#32 then s1.endLaunch w cause pc addr
    else s1

/-- Whether an order number is the least among some sets. -/
def leastOrder (ps : List Parked) (o : Nat) : Bool := ps.all fun p => decide (o ≤ p.order)

/-- The oldest pending user-handled set (R181). -/
def Wave.pending (w : Wave) : Option Parked :=
  let ps := w.parked.filter fun p => !p.system && !p.active
  ps.find? fun p => leastOrder ps p.order

/-- DELIVERY of a user-handled set (R25): save words, trap registers, and the members ready at the trap vector. -/
def Wave.deliver (w : Wave) (p : Parked) : Wave :=
  let w1 := { w with
    save := (lanesOf p.members).foldl (fun m l => SMap.set m l (w.pcOf l)) w.save,
    trapcause := 0#24 ++ p.cause.code,
    trapaddr := p.addr &&& 0x01FFFFFFFFFFFFFF#64,
    trappc := p.pc,
    delivered := p.pc,
    parked := w.parked.map (fun (q : Parked) => if q.order = p.order then { q with active := true } else q) }
  (w1.setThreads p.members .ready).next p.members w.trapVec

/-- The active set loses members that returned or exited; when none is left it is gone (R106, R181). -/
def Wave.leaveActive (w : Wave) (ls : Lanes) : Wave :=
  let ps := w.parked.map (fun (p : Parked) => if p.active then { p with members := p.members &&& ~~~ls } else p)
  { w with parked := ps.filter (fun p => p.members ≠ 0) }

/-- RETURNING FROM AN EXCEPTION (R184): each thread goes to its save word, moved by what the handler added to
sr.trappc. -/
def Wave.returnFrom (w : Wave) (run : Lanes) : Wave :=
  let delta := w.trappc - w.delivered
  { w with pcs := (lanesOf run).foldl (fun m l => SMap.set m l (SMap.get w.save l + delta)) w.pcs }.leaveActive run

/-- The threads of a system-service set become ready at their PC-table entries (R24). -/
def Wave.release (w : Wave) (order : Nat) : Wave :=
  match w.parked.find? fun p => p.order == order with
  | none => w
  | some p => { (w.setThreads p.members .ready) with parked := w.parked.filter fun q => q.order != order }

/-! Sleeping runs (R13, R176, R177). -/

/-- The waits that take a wait-table entry (R176). -/
def Wait.takesEntry : Wait → Bool
  | .sleep _ => false
  | .bar _ _ => false
  | .cbar _ _ => false
  | .gate => false
  | _ => true

/-- Wait-table entries in use on a core, of 32 (R176). -/
def State.waitEntries (s : State) (core : Nat) : Nat :=
  s.waves.foldl (fun n e =>
    if e.2.core = core ∧ e.2.slot.isSome then
      n + (e.2.sleepers.filter fun z => z.entry).length +
        (e.2.parked.filter fun p => p.cause == .upcall && p.polling.isNone).length
    else n) 0

/-- A run goes to sleep: its threads' PC becomes `resume`, and it takes an entry, or polls when there is none or when
its watch holds no slice entry (R13, R177, R320). -/
def State.sleepRun (s : State) (w : Nat) (run : Lanes) (pc resume : Word) (wait : Wait) (flag : BitVec 4) : State :=
  let x := s.wave w
  let full := decide (32 ≤ s.waitEntries x.core)
  let unwatched := match wait, x.watch with
    | .mwait .., some u => !u.held
    | .mwait .., none => true
    | _, _ => false
  let polls := wait.takesEntry && (full || unwatched)
  let z : Sleeper := ⟨run, pc, wait, flag, wait.takesEntry && !polls,
    if polls then some (s.coreCycle x + 1024) else none, x.nextOrder⟩
  s.putWave w { ((x.setThreads run .sleeping).next run resume) with
    sleepers := x.sleepers ++ [z], nextOrder := x.nextOrder + 1,
    waitovf := if polls then satAdd x.waitovf 1 else x.waitovf }

/-- A sleeping run wakes: its writes are made, its flag falls, and its threads become ready (R13). -/
def Wave.wake (w : Wave) (z : Sleeper) (ws : List RegWrite) : Wave :=
  { (((w.landAll ws).lowerFlag z.flag).setThreads z.members .ready) with
    sleepers := w.sleepers.filter fun y => y.order != z.order }

/-! The issue of a word. -/

/-- What a word's meaning is told: the wave, its run, the PC of the word, and the lanes its predicate enables. -/
structure Issue where
  w : Nat
  run : Lanes
  pc : Word
  en : Lanes
deriving DecidableEq, Repr

/-- The issue of the current wave's word under a predicate; none when the wave has no head run. -/
def State.issue (s : State) (c : Ctl) : Option Issue :=
  let x := s.wave s.cur
  match x.head with
  | none => none
  | some (run, pc) => some ⟨s.cur, run, pc, x.enabled run c⟩

/-- The run moves to a PC. -/
def State.goto (s : State) (x : Issue) (ls : Lanes) (pc : Word) : State := s.onWave x.w fun w => w.next ls pc

/-- The illegal-instruction trap on the whole run (R61). -/
def State.illegal (s : State) (x : Issue) : State := s.park x.w x.run x.pc .illegal 0

/-- The word stays in dispatch (R163): nothing else happens, and it is taken up again. -/
def State.hold (s : State) (x : Issue) : State :=
  s.onWave x.w fun w => { w with holding := some (x.run, x.pc, true) }

/-- The meaning of a scalar-class word (R43, R97): once for the wave when a lane is enabled, else the run goes on. -/
def scalarWord (c : Ctl) (s : State) (body : Issue → State → State) : Host.Outcome State Fault Refusal :=
  match s.issue c with
  | none => .fault .noRun
  | some x => if x.en = 0 then .next (s.goto x x.run (x.pc + 1)) else .next (body x s)

/-- A fixed-latency scalar-class word that falls through. -/
def fixedWord (c : Ctl) (lat : Nat) (s : State) (writes : Issue → Wave → List RegWrite) :
    Host.Outcome State Fault Refusal :=
  scalarWord c s fun x s => (s.fixed x.w c.h.setf x.run lat (writes x (s.wave x.w))).goto x x.run (x.pc + 1)

end Sys2Proof.Machine
end

