-- ==== Sys2Proof/Machine/Window.lean ====
section
/-!
DEFINITION. The service windows of the dies (R381): what their registers read; the banks and the alias filter.
-/

namespace Sys2Proof.Machine

/-! The networks' routing tables (R323 to R325). -/

/-- Subgraph, group and member of router r. -/
def routerAt (r : Nat) : Nat × Nat × Nat := (r / 25, r % 25 / 5, r % 5)

/-- The router at a port of a router (R324). -/
def routerPort (r p : Nat) : Nat :=
  let (h, a, b) := routerAt r
  if h = 0 then
    if p = 0 then 5 * a + (b + 1) % 5
    else if p = 1 then 5 * a + (b + 4) % 5
    else 25 + 5 * (p - 2) + (b + 5 * a - (p - 2) * a) % 5
  else
    if p = 0 then 25 + 5 * a + (b + 2) % 5
    else if p = 1 then 25 + 5 * a + (b + 3) % 5
    else 5 * (p - 2) + ((p - 2) * a + b) % 5

/-- The router whose local port serves slice s of its die (R324). -/
def sliceRouter (s : Nat) : Nat := s

/-- The router whose local port a core uses: cluster port 4·c + (k mod 4) for core k of cluster c of its die (R324). -/
def coreRouter (core : Nat) : Nat := 4 * (clusterOf core % 12) + core % 12 % 4

/-- The routers of the cluster ports of a cluster of a die (R324). -/
def clusterRouters (cl : Nat) : List Nat := (upTo 4).map fun k => 4 * (cl % 12) + k

/-- The router of a die link: 48 for links 0 and 1, 49 for link 2, and for the die's other services (R324). -/
def linkRouter (j : Nat) : Nat := if j < 2 then 48 else 49
def serviceRouter : Nat := 49

def netPorts : List Nat := [0, 1, 2, 3, 4, 5, 6]

/-- The routing-table entry of router r for a destination (R325). -/
def routeEntry (r d : Nat) : Nat :=
  if d = r then 0x87
  else
    match netPorts.find? fun p => routerPort r p == d with
    | some p => 0x80 + p
    | none =>
      match netPorts.find? fun p => netPorts.any fun k => routerPort (routerPort r p) k == d with
      | some p =>
        0xC0 + p + 8 * (match netPorts.find? fun k => routerPort (routerPort r p) k == d with
          | some k => k
          | none => 0)
      | none => 0

/-- Eight entries of a router's table as a register; there are 50 entries. -/
def routeWord (off : Nat) : BitVec 64 :=
  let r := off / 64
  if 50 ≤ r then 0
  else BitVec.ofNat 64 ((upTo 8).foldl (fun v k =>
    let d := off % 64 + k
    v + 256 ^ k * (if d < 50 then routeEntry r d else 0)) 0)

/-! The registers of a service window (R381). -/

/-- A head of a die (R393). -/
def State.head (s : State) (die h : Nat) : Head := AMap.getD (s.die die).heads h Head.reset
def State.shard (s : State) (die c : Nat) : Shard := AMap.getD (s.die die).shards c Shard.reset

/-- The fabric block, die 0's on every die (R413, R422). -/
def State.fabricRead (s : State) (o : Nat) : BitVec 64 :=
  if o = 0 then Config.featOff.setWidth 64
  else if o = 8 then s.fabric.featacc
  else if o = 0x10 then BitVec.ofNat 64 ((if s.fabric.lock then 512 else 0) + s.fabric.pkgid.toNat)
  else if o = 0x18 then s.fabric.scrubint.setWidth 64
  else if 0x100 ≤ o ∧ o < 0x300 then
    BitVec.ofNat 64 ((upTo 8).foldl (fun v k => v + 256 ^ k * (SMap.get s.fabric.peerport (o - 0x100 + k)).toNat) 0)
  else 0

/-- The register at an offset of a die's service window; what is no register reads 0 (R381). -/
def State.windowRead (s : State) (die off : Nat) : BitVec 64 :=
  let d := s.die die
  let b := off / 0x10000
  let o := off % 0x10000
  if b = 0 then (if o = 0 then d.tlbiAddr else if o = 8 then d.tlbiCtl else 0)
  else if b = 2 ∨ b = 3 then routeWord o
  else if b = 4 then (if o = 0 then d.qroot else if o = 0x10 then d.seqset else 0)
  else if b = 5 then
    let h := s.head die (o / 0x40)
    if 0x200 ≤ o then 0
    else match o % 0x40 with
      | 0x00 => h.surf
      | 0x08 => h.geom
      | 0x10 => h.ctlt
      | 0x18 => h.obuf
      | 0x20 => h.obcfg
      | _ => 0
  else if b = 6 then
    if o = 0 then d.near.extractLsb' 0 64
    else if o = 8 then (d.near.extractLsb' 64 32).setWidth 64
    else if 0x40 ≤ o ∧ o < 0x70 then (SMap.get d.cecnt ((o - 0x40) / 8)).setWidth 64
    else if 0x100 ≤ o ∧ o < 0x130 then BitVec.ofNat 64 (2 ^ 32 * (SMap.get d.retcnt ((o - 0x100) / 8)).toNat)
    else 0
  else if b = 7 then s.fabricRead o
  else if 8 ≤ b ∧ b < 12 then
    let c := s.shard die ((off - 0x80000) / 0x1000)
    match off % 0x1000 with
    | 0x00 => c.base
    | 0x10 => c.count
    | _ => 0
  else 0

/-- Whether a frame of a die is near (R398). -/
def State.nearFrame (s : State) (die frame : Nat) : Bool := (s.die die).near.getLsbD frame

/-- The mode of a bank (R267). -/
def State.bankMode (s : State) (cl b : Nat) : Nat := (SMap.get (s.cluster cl).modes b).toNat

/-- The banks of a cluster that serve as cache: none that is on its way to another mode (R267, R271). -/
def State.cacheBanks (s : State) (cl : Nat) : Nat :=
  ((upTo 16).filter fun b => s.bankMode cl b == 0 && (AMap.find (s.cluster cl).changing b).isNone).length

/-- Whether a cluster has a bank in cache mode (R267). -/
def State.cachesIn (s : State) (cl : Nat) : Bool := s.cacheBanks cl != 0

/-! The alias filter of a group (R262 to R264). -/

/-- RowBytes of a tag's format (R217), by cvt code. -/
def tagRowBytes (tag n : Nat) : Nat :=
  match tag with
  | 0x08 => 4 * n
  | 0x09 => 2 * n
  | 0x0A => 2 * n
  | 0x0D => 18 * n / 32
  | 0x0E => 34 * n / 32
  | _ => n

/-- Units of 256 bytes that the capture of a view takes (R253). -/
def Node.units (n : Node) : Nat := (n.rows * tagRowBytes n.tag.toNat n.cols + 255) / 256

/-- Whether units [u, u + n) are free of captured views. -/
def Group.unitsFree (g : Group) (u n : Nat) : Bool :=
  g.nodes.all fun e => !e.2.captured || decide (u + n ≤ e.2.capu ∨ e.2.capu + e.2.units ≤ u)

/-- The first place in the capture area for `n` units (R253). -/
def Group.captureRoom (g : Group) (n : Nat) : Option Nat :=
  (upTo (g.tcfg.capSize + 1)).map (fun k => g.tcfg.capOff + k) |>.find? fun u =>
    decide (u + n ≤ g.tcfg.capOff + g.tcfg.capSize) && g.unitsFree u n

/-- The live source views that bytes [va, va + n) overlap, oldest first. -/
def Group.viewsHit (g : Group) (va n : Nat) : List Nat :=
  (g.ranges.filter fun e => decide (va < e.2.first + e.2.len ∧ e.2.first < va + n)).map fun e => e.2.node

/-- Whether a node's view can be captured now. -/
def Group.canCapture (g : Group) (node : Nat) : Bool :=
  match AMap.find g.nodes node with
  | some n => (g.captureRoom n.units).isSome
  | none => false

/-- Whether a store of a wave touches a live source view of its group (R263). -/
def State.aliasHit (s : State) (w va n : Nat) : Bool := !((s.group (s.wave w).group).viewsHit va n).isEmpty

/-- The views that a store to some addresses touches and that can be captured before it performs (R263). -/
def State.toCapture (s : State) (w n : Nat) (vas : List Nat) : List Nat :=
  let g := s.group (s.wave w).group
  ((vas.flatMap fun va => g.viewsHit va n).filter fun v => g.canCapture v).eraseDups

end Sys2Proof.Machine
end

