-- ==== Sys2Proof/Machine/Home.lean ====
section
/-!
DEFINITION. Memory at its home: the address map (R397, R411), bytes in the L2 and in DRAM (R315, R316), and reads of the
page tables (R188, R189).
-/

namespace Sys2Proof.Machine

/-! The address map. -/

/-- What a physical address names (R397, R381, R411). -/
inductive PaClass where
  | dram
  | window (die off : Nat)
  | peer (id x : Nat)
  | unbacked
deriving DecidableEq, Repr

def dramEnd : Nat := 0x24000000000
def windowBase : Nat := 0xFFF0000000000
def fabricBase : Nat := 0x8000000000000
def fabricEnd : Nat := 0xEC00000000000

/-- The class of a physical address. -/
def paClass (pa : Nat) : PaClass :=
  if pa < dramEnd then .dram
  else if fabricBase ≤ pa ∧ pa < fabricEnd then .peer ((pa - fabricBase) / 2 ^ 42) ((pa - fabricBase) % 2 ^ 42)
  else if windowBase ≤ pa ∧ pa < windowBase + 4 * 0x1000000 then
    .window ((pa - windowBase) / 0x1000000) ((pa - windowBase) % 0x1000000)
  else .unbacked

/-- The peer entry of an identifier. -/
def State.peer (s : State) (id : Nat) : Peer := AMap.getD s.peers id Peer.reset

/-- Whether an identifier has a valid route (R411, R413). -/
def Fabric.routes (f : Fabric) (id : Nat) : Bool :=
  f.pkgid != 0x1FF#9 && decide (f.pkgid.toNat ≠ id) && (SMap.get f.peerport id).getLsbD 7

/-- The fault of an access to a physical address, before it is performed (R397, R411, R412). -/
def State.backed (s : State) (pa : Nat) : Option Cause :=
  match paClass pa with
  | .dram => none
  | .window _ _ => none
  | .unbacked => some .access
  | .peer id x =>
    if !s.fabric.routes id || decide (dramEnd ≤ x) then some .access
    else if !(s.peer id).reachable then some .dataLoss
    else if (s.peer id).exported.any fun r => decide (r.1 ≤ x ∧ x < r.1 + r.2) then none
    else some .access

/-- The die that homes a DRAM address (R397). -/
def homeDie (pa : Nat) : Nat := pa / 0x9000000000

/-- The frame of a DRAM address on its die (R397). -/
def frameOf (pa : Nat) : Nat := (pa % 0x9000000000) / 0x180000000

/-- The stack of its die on which a DRAM address lies (R398). -/
def State.stackOf (s : State) (pa : Nat) : Nat :=
  let o := pa % 0x180000000
  if (s.die (homeDie pa)).near.getLsbD (frameOf pa) then o / 2 ^ 30 else o / 4096 % 6

/-- The slice of its home die on which a 256-byte line lies, and its set there (R315, R316; log entry 121): 512·slice + set. -/
def l2Set (line : Nat) : Nat := 512 * (line % 48) + line / 48 % 512

/-! Die links (R395, R396). -/

/-- The link of a die that leads to another: link j of die d leads to die d + j + 1 modulo 4 (R324). -/
def linkTo (a b : Nat) : Nat := (b + 3 - a) % 4

def State.link (s : State) (die j : Nat) : Link := AMap.getD (s.die die).links j Link.reset

/-- The links that traffic between two dies takes: over the lowest-numbered other die once its own link is down. -/
def State.route (s : State) (a b : Nat) : List (Nat × Nat) :=
  if a = b then []
  else if (s.link a (linkTo a b)).mode = .down then
    match [0, 1, 2, 3].find? fun m => m != a && m != b with
    | some m => [(a, linkTo a m), (m, linkTo m b)]
    | none => []
  else [(a, linkTo a b)]

/-- Traffic between two dies moves: no link on its way retrains (R396). -/
def State.linkOpen (s : State) (a b : Nat) : Bool := (s.route a b).all fun l => (s.link l.1 l.2).mode != .retraining

/-- The die at which a physical address leaves for its home: its home die, or that of the port to its
peer, the next one where ports are down (R412). -/
def State.dieFor (s : State) (pa : Nat) : Nat :=
  match paClass pa with
  | .dram => homeDie pa
  | .window d _ => d
  | .peer id _ =>
    let r := SMap.get s.fabric.peerport id
    let p := r.toNat % 16
    if r.getLsbD 6 then 0
    else match (upTo 16).find? fun k => !s.fabric.portsDown.getLsbD ((p + k) % 16) with
      | some k => (p + k) % 16 / 4
      | none => p / 4
  | .unbacked => 0

/-! Bytes at their home. -/

/-- The byte the home slice would give (R316); what is not backed holds none (R397). -/
def State.homeByte (s : State) (pa : Nat) : Byte :=
  match paClass pa with
  | .peer id x => SMap.get (s.peer id).mem x
  | .dram => match AMap.find s.l2 pa with
    | some b => b.1
    | none => s.mem.read pa
  | _ => 0

/-- The sector of an address is lost: a read of it from DRAM finds an uncorrectable error (R407, R408). It is served
by the L2 when every byte is valid there (R316). -/
def State.sectorLost (s : State) (pa : Nat) : Bool :=
  (AMap.find s.lost (pa / 64)).isSome &&
    !(upTo 64).all fun k => (AMap.find s.l2 (pa / 64 * 64 + k)).isSome

/-- A lost sector that has been written at one byte; one that stays in place is never sound again (R408). -/
def State.healByte (s : State) (pa : Nat) : State :=
  match AMap.find s.lost (pa / 64) with
  | none => s
  | some (_, true) => s
  | some (m, false) =>
    let m' := m &&& ~~~laneBit (pa % 64)
    { s with lost := if m' = 0 then AMap.del s.lost (pa / 64) else AMap.put s.lost (pa / 64) (m', false) }

/-- A write performed at its home: the written bit of every armed watch on its sector that holds a slice entry is set
(R321), and an Efler hart's reservation on it is lost (R339; log entry 20); no Efler hart caches the line any longer (R318). -/
def State.notifyHome (s : State) (pa : Nat) : State :=
  { s with
    waves := s.waves.map fun e =>
      match e.2.watch with
      | some u => if u.pa / 64 = pa / 64 ∧ u.held then (e.1, { e.2 with watch := some { u with written := true } }) else e
      | none => e
    dir := AMap.del s.dir (pa / 64)
    eflers := s.eflers.map fun e => if e.2.resv = some (pa / 64) then (e.1, { e.2 with resv := none }) else e }

/-- A store into a core's L1 sets the written bit of the watches of its resident waves (R321). -/
def State.notifyCore (s : State) (core pa : Nat) : State :=
  { s with waves := s.waves.map fun e =>
      match e.2.watch with
      | some u =>
        if u.pa / 64 = pa / 64 ∧ e.2.core = core ∧ e.2.slot.isSome then
          (e.1, { e.2 with watch := some { u with written := true } })
        else e
      | none => e }

/-- A byte is performed at its home slice: dirty in the L2, or already in DRAM for a near region (R316, R319). A write of
what is not backed has no effect (R397). -/
def State.homeWrite (s : State) (pa : Nat) (b : Byte) : State :=
  match paClass pa with
  | .peer id x =>
    let p := s.peer id
    State.notifyHome { s with peers := AMap.put s.peers id { p with mem := SMap.set p.mem x b } } pa
  | .dram =>
    let near := s.nearFrame (homeDie pa) (frameOf pa)
    let s1 := if near then { s with mem := s.mem.write pa b, l2 := AMap.put s.l2 pa (b, false) }
      else { s with l2 := AMap.put s.l2 pa (b, true) }
    (s1.healByte pa).notifyHome pa
  | _ => s

/-- The little-endian value of `n` bytes at their home. An aligned 8-byte read of a service window is a register; any
other read of it is 0 (R381). -/
def State.homeValue (s : State) (pa n : Nat) : Nat :=
  match paClass pa with
  | .window d off => if n = 8 ∧ off % 8 = 0 then (s.windowRead d off).toNat else 0
  | _ => leValue s.homeByte pa n

/-- Writes the bytes of a list at their home. -/
def State.homeWriteBytes (s : State) (pa : Nat) : List Byte → State
  | [] => s
  | b :: t => (s.homeWrite pa b).homeWriteBytes (pa + 1) t

/-! The page tables. -/

/-- A leaf entry a walk reached: where it stands, its value, the size of its page in address bits. -/
structure Leaf where
  at_ : Nat
  entry : Nat
  bits : Nat
deriving DecidableEq, Repr

/-- Whether an entry permits an access (R189). -/
def permits (e : Nat) : Access → Bool
  | .load => e / 2 % 2 == 1
  | .store => e / 4 % 2 == 1
  | .fetch => e / 8 % 2 == 1

/-- The size that SIZE and a level give a leaf, none where they do not match (R189). -/
def leafBits (level size : Nat) : Option Nat :=
  if level = 0 ∧ size = 0 then some 12
  else if level = 0 ∧ size = 1 then some 16
  else if level = 1 ∧ size = 2 then some 21
  else if level = 2 ∧ size = 3 then some 30
  else none

/-- Checks a valid leaf entry (R189). -/
def checkLeaf (level e : Nat) : Except Cause Nat :=
  match leafBits level (natBits e 11 10) with
  | none => .error .access
  | some b =>
    let r := e / 2 % 2
    let w := e / 4 % 2
    let ros := e / 16 % 2
    if w = 1 ∧ r = 0 then .error .access
    else if ros = 1 ∧ w = 1 then .error .access
    else if 16 < b ∧ natBits e (b - 1) 12 ≠ 0 then .error .access
    else .ok b

/-- How a walk reads the entry of a level at an address of its stage's output space: from there, or from a walk cache
(R190). -/
abbrev EntryRead := Nat → Nat → Except Cause Nat

/-- The address of a level's entry in a table (R188). -/
def entryAt (level table va : Nat) : Nat := table + 8 * (va / 2 ^ (12 + 9 * level) % 512)

/-- A valid entry points to the next table (R189). -/
def isPointer (e : Nat) : Bool := e % 2 == 1 && e / 2 % 8 == 0

/-- A walk of the five levels from a table (R188, R189). `k` is the entry used where the sixteen entries of a 64 KiB page
differ. -/
def walkTable (rd : EntryRead) (k : Nat) : List Nat → Nat → Nat → Except Cause Leaf
  | [], _, _ => .error .access
  | level :: rest, table, va =>
    let a := entryAt level table va
    match rd level a with
    | .error c => .error c
    | .ok e =>
      if e % 2 = 0 then .error .translation
      else if natBits e 55 52 ≠ 0 ∨ natBits e 9 7 ≠ 0 then .error .access
      else if e / 2 % 8 = 0 then
        if natBits e 11 10 ≠ 0 ∨ natBits e 6 4 ≠ 0 then .error .access
        else walkTable rd k rest (natBits e 51 12 * 4096) va
      else
        match checkLeaf level e with
        | .error c => .error c
        | .ok b =>
          if b = 16 then
            let base := a / 128 * 128
            let same := (upTo 16).all fun i =>
              match rd level (base + 8 * i) with
              | .ok e' => e' / 128 == e / 128 && e' % 32 == e % 32
              | .error _ => false
            if same then .ok ⟨a, e, b⟩
            else
              match rd level (base + 8 * k) with
              | .error c => .error c
              | .ok e' =>
                if e' % 2 = 0 then .error .translation
                else if natBits e' 55 52 ≠ 0 ∨ natBits e' 9 7 ≠ 0 then .error .access
                else if e' / 2 % 8 = 0 then .error .access
                else match checkLeaf level e' with
                  | .ok b' => .ok ⟨base + 8 * k, e', b'⟩
                  | .error c => .error c
          else .ok ⟨a, e, b⟩

/-- The entries that a walk comes to, each with its level and address: pointers, and the one at which it ends. -/
def walkPath (rd : EntryRead) : List Nat → Nat → Nat → List (Nat × Nat × Nat)
  | [], _, _ => []
  | level :: rest, table, va =>
    let a := entryAt level table va
    match rd level a with
    | .error _ => [(level, a, 0)]
    | .ok e => (level, a, e) :: if isPointer e then walkPath rd rest (natBits e 51 12 * 4096) va else []

/-- The output address of a leaf (R189). -/
def Leaf.out (l : Leaf) (va : Nat) : Nat := natBits l.entry 51 l.bits * 2 ^ l.bits + va % 2 ^ l.bits

def walkLevels : List Nat := [4, 3, 2, 1, 0]

/-- An entry read from memory at its home. -/
def State.readEntry (s : State) (pa : Nat) : Except Cause Nat :=
  match s.backed pa with
  | some c => .error c
  | none => if s.sectorLost pa then .error .dataLoss else .ok (s.homeValue pa 8)

/-- What a walk goes by: the die whose walk caches serve it, if any; its context and partition; the roots of its stages;
the entry taken where those of a 64 KiB page differ (R188 to R190). -/
structure Walker where
  die : Option Nat
  pasid : BitVec 20
  part : BitVec 8
  root1 : Nat
  root2 : Nat
  k : Nat
deriving DecidableEq, Repr

/-- The walker of a context. -/
def State.walker (s : State) (die : Option Nat) (pasid : BitVec 20) (x : Ctx) (k : Nat) : Walker :=
  ⟨die, pasid, x.desc.part, x.desc.s1root.toNat, match AMap.find s.parts x.desc.part.toNat with
    | some p => p.spec.s2root.toNat
    | none => 0, k⟩

/-- A walk of stage 2 alone, from a root. -/
def Walker.hyper (root : Nat) : Walker := ⟨none, 0, 0, 0, root, 0⟩

/-- A walk-cache entry serves a level of a walk (R190). -/
def WalkEntry.serves (e : WalkEntry) (w : Walker) (stage2 : Bool) (level a : Nat) : Bool :=
  e.stage2 == stage2 && e.part == w.part && (stage2 || e.pasid == w.pasid) && e.level == level &&
    e.pre == a / 2 ^ (12 + 9 * level)

/-- The pointer that the walk caches of a walk's die hold for a level. -/
def State.walkHit (s : State) (w : Walker) (stage2 : Bool) (level a : Nat) : Option Nat :=
  match w.die with
  | none => none
  | some d => ((s.die d).walks.find? fun e => e.serves w stage2 level a).map fun e => e.entry

/-- How a walk of stage 2 reads its entries. -/
def State.read2 (s : State) (w : Walker) (pp : Nat) : EntryRead := fun level a =>
  match s.walkHit w true level pp with
  | some e => .ok e
  | none => s.readEntry a

/-- Stage 2: partition-physical to physical (R188). -/
def State.stage2 (s : State) (w : Walker) (pp : Nat) (acc : Access) : Except Cause Leaf :=
  match walkTable (s.read2 w pp) w.k walkLevels w.root2 pp with
  | .error c => .error c
  | .ok l => if permits l.entry acc then .ok l else .error .access

/-- An entry of a stage-1 table, through stage 2. -/
def State.readStage1 (s : State) (w : Walker) (pp : Nat) : Except Cause Nat :=
  match s.stage2 w pp .load with
  | .error c => .error c
  | .ok l => s.readEntry (l.out pp)

/-- How a walk of stage 1 reads its entries. -/
def State.read1 (s : State) (w : Walker) (va : Nat) : EntryRead := fun level a =>
  match s.walkHit w false level va with
  | some e => .ok e
  | none => s.readStage1 w a

/-! The areas of a context (R170, R171, R382). -/

/-- A field of a page: offset, bytes, value. -/
abbrev PageField := Nat × Nat × Nat

/-- The offset of wave image k in a context's image area (R170). -/
def waveImageOff (k : Nat) : Nat := 266240 * k
/-- The offset of group image g (R170). -/
def groupImageOff (g : Nat) : Nat := 4907335680 + 544768 * g
/-- The control page of a wave image (R172). -/
def controlOff : Nat := 64 * 4096

/-- The leaves behind an address of a context, its page permissions apart, and the walk that finds them: the areas of a
context's descriptor are mapped without R and W (R170, R382). -/
def State.areaLeaves (s : State) (pasid : BitVec 20) (va : Nat) : Option (Walker × Leaf × Leaf) :=
  match AMap.find s.contexts pasid.toNat with
  | none => none
  | some x =>
    let w := s.walker none pasid x 0
    match walkTable (s.read1 w va) 0 walkLevels w.root1 va with
    | .error _ => none
    | .ok l1 =>
      match walkTable (s.read2 w (l1.out va)) 0 walkLevels w.root2 (l1.out va) with
      | .error _ => none
      | .ok l2 => some (w, l1, l2)

/-- The physical address behind an address of an area of a context, where it is backed (R397). -/
def State.areaPa (s : State) (pasid : BitVec 20) (va : Nat) : Option Nat :=
  match s.areaLeaves pasid va with
  | none => none
  | some (_, l1, l2) =>
    let pa := l2.out (l1.out va)
    if (s.backed pa).isNone then some pa else none

/-- The physical address of a byte of a context's image area (R170). -/
def State.imagePa (s : State) (pasid : BitVec 20) (off : Nat) : Option Nat :=
  match AMap.find s.contexts pasid.toNat with
  | none => none
  | some ctx => s.areaPa pasid (ctx.desc.image.toNat + off)

/-- Reads a field of a context's image area. -/
def State.imageRead (s : State) (pasid : BitVec 20) (off n : Nat) : Nat :=
  match s.imagePa pasid off with
  | none => 0
  | some pa => s.homeValue pa n

/-- Reads bytes of an area of a context. -/
def State.areaRead (s : State) (pasid : BitVec 20) (va n : Nat) : Nat :=
  match s.areaPa pasid va with
  | none => 0
  | some pa => s.homeValue pa n

/-! The accessed and dirty bits (R189). -/

/-- Sets A, and D when asked, in an entry at its home; an entry that has them is not written. -/
def State.touch (s : State) (pa : Nat) (d : Bool) : State :=
  let b := s.homeByte pa
  let b' := b ||| (if d then 0x60#8 else 0x20#8)
  if b' = b then s else s.homeWrite pa b'

/-- The same for a stage-1 entry at a partition-physical address: A of the leaf behind it is set, and D too when the entry
is written. -/
def State.touchVia (s : State) (w : Walker) (pp : Nat) (d : Bool) : State :=
  match s.stage2 w pp .load with
  | .error _ => s
  | .ok t =>
    let b := s.homeByte (t.out pp)
    (s.touch t.at_ (decide (b ||| (if d then 0x60#8 else 0x20#8) ≠ b))).touch (t.out pp) d

/-- A is set in the stage-2 leaf behind every stage-1 entry that a walk reads. -/
def State.touchTables (s : State) (w : Walker) (va : Nat) (path : List (Nat × Nat × Nat)) : State :=
  path.foldl (fun s e =>
    if (s.walkHit w false e.1 va).isSome then s
    else match s.stage2 w e.2.1 .load with
      | .ok t => s.touch t.at_ false
      | .error _ => s) s

/-- The entries behind an address of an area of a context are used, for a write when `d`. -/
def State.useArea (s : State) (pasid : BitVec 20) (va : Nat) (d : Bool) : State :=
  match s.areaLeaves pasid va with
  | none => s
  | some (w, l1, l2) =>
    ((s.touchTables w va (walkPath (s.read1 w va) walkLevels w.root1 va)).touch l2.at_ d).touchVia w l1.at_ d

/-- Pages that bytes [va, va + n) lie in. -/
def pagesIn (va n : Nat) : Nat := (va % 4096 + n + 4095) / 4096

/-- The pages of an area that a range of bytes lies in are used. -/
def State.useRange (s : State) (pasid : BitVec 20) (va n : Nat) (d : Bool) : State :=
  (upTo (pagesIn va n)).foldl (fun s k => s.useArea pasid (va / 4096 * 4096 + 4096 * k) d) s

/-- A register line of a wave in its image: 16 lanes of one register (R171). -/
def lineOff (line : Nat) : Nat := 4096 * (line / 4 / 16) + 256 * (line / 4 % 16) + 64 * (line % 4)

end Sys2Proof.Machine
end

