-- ==== Sys2Proof/Machine/Registers.lean ====
section
/-!
DEFINITION. Writes of the registers of the service windows (R381): the translation block (R192), the mailbox block
(R384), the front end, the display heads (R393), the stack block (R399), the fabric block (R413, R422) and the shard
contexts (R416).
-/

namespace Sys2Proof.Machine

/-- Keeps bits [hi:lo] of a register. -/
def bitsOf (v : BitVec 64) (hi lo : Nat) : BitVec 64 := BitVec.ofNat 64 (natBits v.toNat hi lo * 2 ^ lo)

/-! The translation block (R192). -/

/-- The bits of TLBI_CTL that are stored. -/
def tlbiMask : BitVec 64 := 0xFFFFF1FFFFFFFF07#64

/-- A write of TLBI_CTL: ignored while GO is 1 (R192). -/
def State.tlbiWrite (s : State) (die : Nat) (v : BitVec 64) : State :=
  if (s.die die).tlbiCtl.getLsbD 0 then s else s.onDie die fun d => { d with tlbiCtl := v &&& tlbiMask }

/-! The mailbox block (R384). -/

/-- The physical address of a byte of a mailbox entry (R382, R384). -/
def State.mailPa (s : State) (pasid : BitVec 20) (entry o : Nat) : Option Nat :=
  match AMap.find s.contexts pasid.toNat with
  | none => none
  | some x => s.areaPa pasid (x.desc.mbox.toNat + 64 * entry + o)

/-- STATE of a mailbox entry. -/
def State.mailState (s : State) (pasid : BitVec 20) (entry : Nat) : Nat :=
  match s.mailPa pasid entry 1 with
  | some pa => s.homeValue pa 1
  | none => 0

def State.setMailState (s : State) (pasid : BitVec 20) (entry v : Nat) : State :=
  match AMap.find s.contexts pasid.toNat, s.mailPa pasid entry 1 with
  | some x, some pa => (s.useArea pasid (x.desc.mbox.toNat + 64 * entry) true).homeWrite pa (BitVec.ofNat 8 v)
  | _, _ => s

/-- A write of MBDONE (R384): accepted on the service die for a posted entry, whose STATE becomes 2. -/
def State.mbdoneWrite (s : State) (die : Nat) (v : BitVec 64) : State :=
  let pasid : BitVec 20 := v.extractLsb' 44 20
  let action := natBits v.toNat 9 8
  let entry := v.toNat % 256
  match AMap.find s.contexts pasid.toNat with
  | none => s
  | some x =>
    if natBits v.toNat 43 10 ≠ 0 ∨ 2 ≤ action ∨ x.desc.mbdie.toNat ≠ die ∨ s.mailState pasid entry ≠ 1 then s
    else
      let s1 := s.setMailState pasid entry 2
      { s1 with contexts := AMap.put s1.contexts pasid.toNat { x with actions := x.actions ++ [(entry, action == 1)] } }

/-! The front end (R381). -/

/-- A write of QCBINV: the QCB leaves the front end's cache. -/
def State.qcbinvWrite (s : State) (die : Nat) (v : BitVec 64) : State :=
  { s with queues := AMap.adjust s.queues (2 ^ 28 * die + v.toNat % 2 ^ 28) fun (f : FQ) => { f with qcb := none } }

/-! Display heads (R392, R393). -/

/-- The registers lie within their limits; those of the output ring count while encoding is enabled (log entry 30). -/
def Head.ok (h : Head) : Bool :=
  natBits h.geom.toNat 31 0 % 4 == 0 && decide (natBits h.geom.toNat 47 32 ≤ 3840 ∧ natBits h.geom.toNat 63 48 ≤ 2160) &&
  decide (24 ≤ natBits h.ctlt.toNat 55 48 ∧ natBits h.ctlt.toNat 55 48 ≤ 60) &&
  (!h.ctlt.getLsbD 1 || decide (12 ≤ natBits h.obcfg.toNat 4 0 ∧ natBits h.obcfg.toNat 4 0 ≤ 30))

/-- Values outside the limits make the head stop with EN cleared. -/
def Head.settle (h : Head) : Head :=
  if h.ctlt.getLsbD 0 && !h.ok then { h with ctlt := h.ctlt &&& ~~~1#64 } else h

/-- A write of a head's register. A surface takes effect at the next vertical blank. -/
def Head.write (h : Head) (o : Nat) (v : BitVec 64) : Head :=
  match o with
  | 0x00 => { h with surf := bitsOf v 56 8 }
  | 0x08 => Head.settle { h with geom := v }
  | 0x10 => Head.settle { h with ctlt := bitsOf v 55 32 ||| bitsOf v 2 0 }
  | 0x18 => { h with obuf := bitsOf v 56 12 }
  | 0x20 => Head.settle { h with obcfg := bitsOf v 63 32 ||| bitsOf v 4 0 }
  | _ => h

def State.headWrite (s : State) (die h o : Nat) (v : BitVec 64) : State :=
  if 4 ≤ die ∨ 8 ≤ h then s
  else s.onDie die fun d => { d with heads := AMap.put d.heads h ((AMap.getD d.heads h Head.reset).write o v) }

/-! The stack block (R398, R399). -/

/-- The offset in a frame of the byte that lies, under the other layout of the frame, where offset o lies (R398). -/
def swapLayout (toNear : Bool) (o : Nat) : Nat :=
  if toNear then
    let g := o / 4096
    g % 6 * 2 ^ 30 + g / 6 * 4096 + o % 4096
  else
    let a := o % 2 ^ 30
    (a / 4096 * 6 + o / 2 ^ 30) * 4096 + a % 4096

/-- The bytes of a frame stay at their stack addresses when its NEAR bit changes (R398, R399); what the L2 holds dirty of
a frame that becomes near reaches DRAM and stays clean (R319). -/
def State.moveFrame (s : State) (die f : Nat) (toNear : Bool) : State :=
  let base := 0x9000000000 * die + 0x180000000 * f
  let inside (a : Nat) : Bool := decide (base ≤ a ∧ a < base + 0x180000000)
  let sector (k : Nat) : Nat := (base + swapLayout toNear (64 * k - base)) / 64
  let moved : Memory := (s.mem.filter fun e => inside e.1).foldl (fun (m : Memory) e => m.write (base + swapLayout toNear (e.1 - base)) e.2)
    (s.mem.filter fun e => !inside e.1)
  { s with
    mem := s.l2.foldl (fun (m : Memory) e => if toNear && inside e.1 && e.2.2 then m.write e.1 e.2.1 else m) moved
    l2 := s.l2.map fun e => if toNear && inside e.1 then (e.1, (e.2.1, false)) else e
    lost := (s.lost.filter fun e => inside (64 * e.1)).foldl (fun m e => AMap.put m (sector e.1) e.2)
      (s.lost.filter fun e => !inside (64 * e.1)) }

/-- A write of the NEAR bits of a die: each frame whose bit changes keeps its bytes at their stack addresses. -/
def State.nearWrite (s : State) (die : Nat) (v : BitVec 96) : State :=
  let old := (s.die die).near
  let s1 := (upTo 96).foldl (fun s f =>
    if old.getLsbD f = v.getLsbD f then s else s.moveFrame die f (v.getLsbD f)) s
  s1.onDie die fun d => { d with near := v }

/-- A write of CECNT k: write one to clear. -/
def State.cecntWrite (s : State) (die k : Nat) (v : BitVec 64) : State :=
  s.onDie die fun d => { d with cecnt := SMap.set d.cecnt k (SMap.get d.cecnt k &&& ~~~v.setWidth 32) }

/-! The fabric block (R413, R422). -/

/-- A write of FEATACC: the first is kept, ANDed with FEATOFF, and sets LOCK (R422). -/
def State.featWrite (s : State) (v : BitVec 64) : State :=
  if s.fabric.lock then s
  else { s with fabric := { s.fabric with featacc := v &&& Config.featOff.setWidth 64, lock := true } }

/-- A write of the fabric block of die 0. -/
def State.fabricWrite (s : State) (o : Nat) (v : BitVec 64) : State :=
  if o = 8 then s.featWrite v
  else if o = 0x10 then { s with fabric := { s.fabric with pkgid := v.extractLsb' 0 9 } }
  else if o = 0x18 then { s with fabric := { s.fabric with scrubint := v.extractLsb' 0 32 } }
  else if 0x100 ≤ o ∧ o < 0x300 then
    { s with fabric := { s.fabric with
        peerport := (upTo 8).foldl (fun m k =>
          SMap.set m (o - 0x100 + k) (BitVec.ofNat 8 (v.toNat / 256 ^ k) &&& 0xCF#8)) s.fabric.peerport } }
  else s

/-! Shard contexts (R416). -/

/-- A write of SHCMD: one of FETCH and VERIFY, and an index below COUNT. -/
def Shard.command (c : Shard) (v : BitVec 64) : Shard :=
  let i := v.toNat % 65536
  if natBits v.toNat 63 18 ≠ 0 ∨ v.getLsbD 16 = v.getLsbD 17 ∨ c.count.toNat ≤ i then c
  else { c with cmds := c.cmds ++ [(v.getLsbD 17, i)] }

def Shard.write (c : Shard) (o : Nat) (v : BitVec 64) : Shard :=
  match o with
  | 0x00 => { c with base := bitsOf v 56 6 }
  | 0x08 => c.command v
  | 0x10 => { c with count := bitsOf v 15 0 }
  | _ => c

def State.shardWrite (s : State) (die c o : Nat) (v : BitVec 64) : State :=
  s.onDie die fun d => { d with shards := AMap.put d.shards c ((AMap.getD d.shards c Shard.reset).write o v) }

/-- A write of a register of a die's service window (R381). -/
def State.windowWrite (s : State) (die off : Nat) (v : BitVec 64) : State :=
  let b := off / 0x10000
  let o := off % 0x10000
  if b = 0 then
    (if o = 0 then s.onDie die fun d => { d with tlbiAddr := bitsOf v 56 12 }
     else if o = 8 then s.tlbiWrite die v else s)
  else if b = 1 then (if o = 0 then s.mbdoneWrite die v else s)
  else if b = 4 then
    (if o = 0 then s.onDie die fun d => { d with qroot := bitsOf v 56 15 }
     else if o = 8 then s.qcbinvWrite die v else s)
  else if b = 5 then (if o < 0x200 then s.headWrite die (o / 0x40) (o % 0x40) v else s)
  else if b = 6 then
    let near := (s.die die).near
    if o = 0 then s.nearWrite die (near.extractLsb' 64 32 ++ v)
    else if o = 8 then s.nearWrite die (v.extractLsb' 0 32 ++ near.extractLsb' 0 64)
    else if 0x40 ≤ o ∧ o < 0x70 then s.cecntWrite die ((o - 0x40) / 8) v
    else s
  else if b = 7 then (if die = 0 then s.fabricWrite o v else s)
  else if 8 ≤ b ∧ b < 12 then s.shardWrite die ((off - 0x80000) / 0x1000) (off % 0x1000) v
  else s

end Sys2Proof.Machine
end

