-- ==== Sys2Proof/Machine/Mem.lean ====
section
/-!
DEFINITION. Memory as the cores see it: stores at their home, the L1 and its colours (R148, R149), and translation
with its caches (R188 to R190).
-/

namespace Sys2Proof.Machine

/-- Writes `n` bytes of a value at their home; an aligned 8-byte write of a service window is a register write. -/
def State.homeStore (s : State) (pa n v : Nat) : State :=
  match paClass pa with
  | .window d off => if n = 8 ∧ off % 8 = 0 then s.windowWrite d off (BitVec.ofNat 64 v) else s
  | _ => s.homeWriteBytes pa (leBytes v n)

/-- Writes bytes of an area of a context at their home. -/
def State.areaWrite (s : State) (pasid : BitVec 20) (va n v : Nat) : State :=
  match s.areaPa pasid va with
  | none => s
  | some pa => (s.useArea pasid va true).homeStore pa n v

/-- Writes a field of a context's image area. -/
def State.imageWrite (s : State) (pasid : BitVec 20) (off n v : Nat) : State :=
  match AMap.find s.contexts pasid.toNat with
  | none => s
  | some x => s.areaWrite pasid (x.desc.image.toNat + off) n v

/-- Bytes of a context's image area are used. -/
def State.useImage (s : State) (pasid : BitVec 20) (off n : Nat) (d : Bool) : State :=
  match AMap.find s.contexts pasid.toNat with
  | none => s
  | some x => s.useRange pasid (x.desc.image.toNat + off) n d

/-! The L1 of a core. -/

/-- The dirty bytes of some colours can reach their homes: no link on their way retrains (R396). -/
def State.canRelease (s : State) (core : Nat) (colours : BitVec 8) : Bool :=
  (s.core core).l1.all fun e =>
    !e.2.dirty || !colours.getLsbD e.2.colour.toNat || s.linkOpen (dieOf core) (s.dieFor e.1)


/-- The dirty bytes of an L1 that a test selects go to the L2 and stay clean (R149). -/
def State.writeBack (s : State) (core : Nat) (sel : Nat → L1Byte → Bool) : State :=
  let l1 := (s.core core).l1
  let s1 := l1.foldl (fun s e => if e.2.dirty && sel e.1 e.2 then s.homeWrite e.1 e.2.val else s) s
  s1.onCore core fun c =>
    { c with l1 := c.l1.map fun e => if e.2.dirty && sel e.1 e.2 then (e.1, { e.2 with dirty := false }) else e }

/-- The release action: the dirty bytes of the named colours are written back (R149). -/
def State.release (s : State) (core : Nat) (colours : BitVec 8) : State :=
  s.writeBack core fun _ b => colours.getLsbD b.colour.toNat

/-- The acquire action: every clean byte of the L1 goes; dirty bytes survive (R149). -/
def State.acquire (s : State) (core : Nat) : State :=
  s.onCore core fun c => { c with l1 := c.l1.filter fun e => e.2.dirty }

/-- A 64-byte line fills into an L1 where it is not held (R148). -/
def State.fillLine (s : State) (core pa : Nat) : State :=
  let base := pa / 64 * 64
  s.onCore core fun c =>
    { c with l1 := (upTo 64).foldl (fun m k =>
        match AMap.find m (base + k) with
        | some _ => m
        | none => AMap.put m (base + k) ⟨s.homeByte (base + k), false, 0⟩) c.l1 }

/-- The byte an L1 holds, else its home's. -/
def State.l1Byte (s : State) (core pa : Nat) : Byte :=
  match AMap.find (s.core core).l1 pa with
  | some b => b.val
  | none => s.homeByte pa

/-- Byte a lies in a granule of 4 bytes (R329) that [pa, pa + n) touches. -/
def inGranules (pa n a : Nat) : Bool := decide (pa / 4 ≤ a / 4 ∧ a / 4 * 4 < pa + n)

/-- The granules of [pa, pa + n) leave an L1: dirty bytes are written back first (R159, R331). -/
def State.flushRange (s : State) (core pa n : Nat) : State :=
  let s1 := s.writeBack core fun a _ => inGranules pa n a
  s1.onCore core fun c => { c with l1 := c.l1.filter fun e => !inGranules pa n e.1 }

/-- Whether an access of a scope and ordering goes to the L2 whatever CH says (R148). -/
def atL2 : Scope → Bool
  | .wave => false
  | .group => false
  | _ => true

/-- A line of 256 bytes fills into a cluster's cache banks, where one is in cache mode (R148, R267). -/
def State.fillCache (s : State) (cl pa : Nat) : State :=
  let base := pa / 256 * 256
  if !s.cachesIn cl then s
  else s.onCluster cl fun c =>
    { c with cache := (upTo 256).foldl (fun m k =>
        match AMap.find m (base + k) with
        | some _ => m
        | none => AMap.put m (base + k) (s.homeByte (base + k))) c.cache }

/-- Whether a physical address is memory that caches may hold. -/
def cacheable (pa : Nat) : Bool :=
  match paClass pa with
  | .dram => true
  | .peer _ _ => true
  | _ => false

/-- Performs a read of `n` bytes for a core (R148, R159): the value and the machine after. Only the read-only path of CH 10
takes its value from the cluster cache (log entry 124). -/
def State.readFor (s : State) (core pa n : Nat) (ordered : Bool) (ch : Chan) : Nat × State :=
  if !cacheable pa then (s.homeValue pa n, s)
  else if ordered then
    let s1 := s.flushRange core pa n
    (s1.homeValue pa n, s1)
  else
    match ch with
    | .dflt =>
      let s1 := s.fillLine core pa
      (leValue (s1.l1Byte core) pa n, s1)
    | .stream => (leValue (s.l1Byte core) pa n, s)
    | .roPath =>
      let c := (s.cluster (clusterOf core)).cache
      (leValue (fun a => match AMap.find c a with
        | some b => b
        | none => s.homeByte a) pa n, s.fillCache (clusterOf core) pa)
    | .l2Direct =>
      let s1 := s.flushRange core pa n
      (s1.homeValue pa n, s1)

/-- Performs a write of bytes for a core (R148, R149). -/
def State.writeFor (s : State) (core pa : Nat) (n v : Nat) (ordered : Bool) (ch : Chan) (col : BitVec 3) : State :=
  if !cacheable pa then s.homeStore pa n v
  else if ordered || ch == .stream || ch == .l2Direct then
    let l1 := (s.core core).l1
    let s1 := (s.flushRange core pa n).homeStore pa n v
    -- an L1 copy of the line is updated
    let kept := (l1.map fun e => e.1).filter fun a => inGranules pa n a
    if kept.isEmpty then s1
    else (s1.onCore core fun c =>
      { c with l1 := kept.foldl (fun m a => AMap.put m a ⟨s1.homeByte a, false, 0⟩) c.l1 }).notifyCore core pa
  else
    let s1 := s.fillLine core pa
    (s1.onCore core fun c =>
      { c with l1 := (upTo n).foldl (fun m k => AMap.put m (pa + k) ⟨BitVec.ofNat 8 (v / 256 ^ k), true, col⟩) c.l1
        }).notifyCore core pa

/-! Translation. -/

/-- What a lookup gives: the physical address and whether the page is RO-shared (R189). -/
structure Hit where
  pa : Nat
  ros : Bool
deriving DecidableEq, Repr

/-- The pointers of a walk enter the walk caches of its die (R190). -/
def State.keepPointers (s : State) (w : Walker) (stage2 : Bool) (a : Nat) (path : List (Nat × Nat × Nat)) : State :=
  match w.die with
  | none => s
  | some d =>
    let new := (upTo path.length).filterMap fun i => match path[i]? with
      | none => none
      | some (level, _, e) =>
        if isPointer e && (s.walkHit w stage2 level a).isNone then
          some (⟨stage2, w.pasid, w.part, level, a / 2 ^ (12 + 9 * level), e,
            (path.take (i + 1)).map fun p => p.2.1 / 4096⟩ : WalkEntry)
        else none
    s.onDie d fun x => { x with walks := new ++ x.walks }

/-- What a walk that succeeded leaves in the walk caches: its pointers of stage 1, and those of the walks of stage 2 for
its tables and its page. -/
def State.keepWalk (s : State) (w : Walker) (va pp : Nat) : State :=
  let path := walkPath (s.read1 w va) walkLevels w.root1 va
  let s1 := (path.map fun e => e.2.1).foldl (fun s a =>
    s.keepPointers w true a (walkPath (s.read2 w a) walkLevels w.root2 a)) (s.keepPointers w false va path)
  s1.keepPointers w true pp (walkPath (s1.read2 w pp) walkLevels w.root2 pp)

/-- A page walk for a context (R188 to R190), with the walk caches of a die or with none: the cached translation it
gives, and memory with A and D set. A leaf of stage 1 is used although stage 2 fails behind it. -/
def State.walk (s : State) (die : Option Nat) (pasid : BitVec 20) (va : Nat) (acc : Access) :
    Except Cause TlbEntry × State :=
  match AMap.find s.contexts pasid.toNat with
  | none => (.error .translation, s)
  | some ctx =>
    let w := s.walker die pasid ctx ((Config.freeValue s.freeCtr).toNat % 16)
    let s := { s with freeCtr := s.freeCtr + 1 }
    let path := walkPath (s.read1 w va) walkLevels w.root1 va
    let s0 := s.touchTables w va path
    match walkTable (s.read1 w va) w.k walkLevels w.root1 va with
    | .error c => (.error c, s0)
    | .ok l1 =>
      if !permits l1.entry acc then (.error .access, s0)
      else
        let pp := l1.out va
        match s.stage2 w pp acc with
        | .error c => (.error c, s0.touchVia w l1.at_ false)
        | .ok l2 =>
          let store := acc == .store
          let bits := min l1.bits l2.bits
          let d := store || (l1.entry / 64 % 2 == 1 && l2.entry / 64 % 2 == 1)
          (.ok ⟨pasid, ctx.desc.part, va / 2 ^ bits, bits, l2.out pp / 2 ^ bits,
            permits l1.entry .load && permits l2.entry .load, permits l1.entry .store && permits l2.entry .store,
            permits l1.entry .fetch && permits l2.entry .fetch, l1.entry / 16 % 2 == 1, d,
            pp / 4096 :: path.map fun e => e.2.1 / 4096⟩,
            ((s0.touch l2.at_ store).touchVia w l1.at_ store).keepWalk w va pp)

/-- A cached translation serves an access: right context and page; a store needs D set (R190). -/
def TlbEntry.serves (e : TlbEntry) (pasid : BitVec 20) (va : Nat) (acc : Access) : Bool :=
  e.pasid == pasid && e.vpage == va / 2 ^ e.bits && (acc != .store || e.d || !e.w)

def TlbEntry.allows (e : TlbEntry) : Access → Bool
  | .load => e.r
  | .store => e.w
  | .fetch => e.x

/-- The physical address a cached translation gives. -/
def TlbEntry.hit (e : TlbEntry) (va : Nat) : Hit := ⟨e.ppage * 2 ^ e.bits + va % 2 ^ e.bits, e.ros⟩

/-- A translation enters a TLB that holds `cap` of a kind; when they are all there, a free one leaves. -/
def keepTlb (cap victim : Nat) (same : TlbEntry → Bool) (e : TlbEntry) (l : List TlbEntry) : List TlbEntry :=
  let mine := l.filter same
  if mine.length < cap then e :: l
  else match mine[victim % mine.length]? with
    | some v => e :: l.erase v
    | none => e :: l

/-- A core's TLB of 128 entries, fully associative, takes a translation (R190). -/
def State.fillTlb (s : State) (core : Option Nat) (e : TlbEntry) : State :=
  match core with
  | none => s
  | some c =>
    { s with freeCtr := s.freeCtr + 1 }.onCore c fun x =>
      { x with tlb := keepTlb 128 (Config.freeValue s.freeCtr).toNat (fun _ => true) e x.tlb }

/-- A cluster's TLB takes one: 8 ways in each of 512 sets, by the number of its page (R190). -/
def State.fillClusterTlb (s : State) (cl : Nat) (e : TlbEntry) : State :=
  { s with freeCtr := s.freeCtr + 1 }.onCluster cl fun x =>
    { x with tlb := keepTlb 8 (Config.freeValue s.freeCtr).toNat (fun o => o.vpage % 512 == e.vpage % 512) e x.tlb }

/-- A lookup for a cluster's engine or core (R190): the core's TLB, then the cluster's, then a walk. -/
def State.lookup (s : State) (core : Option Nat) (cl : Nat) (pasid : BitVec 20) (va : Nat) (acc : Access) :
    Except Cause TlbEntry × State :=
  let own := match core with
    | some c => (s.core c).tlb.find? fun (e : TlbEntry) => e.serves pasid va acc
    | none => none
  match own with
  | some e => (.ok e, s)
  | none =>
    match (s.cluster cl).tlb.find? fun (e : TlbEntry) => e.serves pasid va acc with
    | some e => (.ok e, s.fillTlb core e)
    | none =>
      match s.walk (some (cl / 12)) pasid va acc with
      | (.error c, s1) => (.error c, s1)
      | (.ok e, s1) => (.ok e, (s1.fillClusterTlb cl e).fillTlb core e)

/-- A load that meets an uncorrectable error in its core's L1: no data is forwarded, and the sector is gone from the L1
(R407). -/
def State.upsetL1 (s : State) (core : Option Nat) (pa : Nat) (acc : Access) : Option State :=
  match core with
  | none => none
  | some c =>
    if acc == .load && (s.core c).upset.contains (pa / 64) then
      some (s.onCore c fun x => { x with
        upset := x.upset.filter fun k => k != pa / 64, l1 := x.l1.filter fun e => e.1 / 64 != pa / 64 })
    else none

/-- Translates one address and checks that it is backed and readable (R145, R189, R397, R407). -/
def State.translate (s : State) (core : Option Nat) (cl : Nat) (pasid : BitVec 20) (va : Nat) (acc : Access) :
    Except Cause Hit × State :=
  if 2 ^ 57 ≤ va then (.error .access, s)
  else
    match s.lookup core cl pasid va acc with
    | (.error c, s1) => (.error c, s1)
    | (.ok e, s1) =>
      if !e.allows acc then (.error .access, s1)
      else
        match s1.backed (e.hit va).pa with
        | some c => (.error c, s1)
        | none =>
          if acc != .store && s1.sectorLost (e.hit va).pa then (.error .dataLoss, s1)
          else match s1.upsetL1 core (e.hit va).pa acc with
            | some s2 => (.error .dataLoss, s2)
            | none => (.ok (e.hit va), s1)

/-- The refusal of an address's page, taken by the stream that meets it. -/
def State.takeRefusal (s : State) (pasid : BitVec 20) (va : Nat) : Option State :=
  match AMap.find s.contexts pasid.toNat with
  | some x =>
    if x.refused.contains (va / 4096) then
      some { s with contexts := AMap.put s.contexts pasid.toNat { x with refused := x.refused.erase (va / 4096) } }
    else none
  | none => none

/-- Translates for an engine's stream: a translation fault that the resident kernel refuses to serve is an access fault
(R257, R309, R310). -/
def State.streamTranslate (s : State) (core : Option Nat) (cl : Nat) (pasid : BitVec 20) (va : Nat) (acc : Access) :
    Except Cause Hit × State :=
  match s.translate core cl pasid va acc with
  | (.error .translation, s1) => match s1.takeRefusal pasid va with
    | some s2 => (.error .access, s2)
    | none => (.error .translation, s1)
  | r => r

/-- The resident kernel refuses the page of an address to a stream that stalls on it. -/
def State.refusePage (s : State) (pasid : BitVec 20) (va : Nat) : State :=
  { s with contexts := AMap.adjust s.contexts pasid.toNat fun x => { x with refused := x.refused ++ [va / 4096] } }

/-- A plain load of one byte by a core, as its engine's streams make it (R249, R265). -/
def State.loadByte (s : State) (core : Nat) (pasid : BitVec 20) (va : Nat) : Except Cause Byte × State :=
  match s.streamTranslate (some core) (clusterOf core) pasid va .load with
  | (.error c, s1) => (.error c, s1)
  | (.ok h, s1) =>
    let (v, s2) := s1.readFor core h.pa 1 false .dflt
    (.ok (BitVec.ofNat 8 v), s2)

/-- Plain loads of `n` bytes: the bytes, or the first that faults with its address. -/
def State.loadBytes (s : State) (core : Nat) (pasid : BitVec 20) (va : Nat) : Nat →
    Except (Cause × Nat) (List Byte) × State
  | 0 => (.ok [], s)
  | n + 1 =>
    match s.loadByte core pasid va with
    | (.error c, s1) => (.error (c, va), s1)
    | (.ok b, s1) =>
      match s1.loadBytes core pasid (va + 1) n with
      | (.error e, s2) => (.error e, s2)
      | (.ok bs, s2) => (.ok (b :: bs), s2)

/-- A plain store of one byte by a core in colour 0 (R249). -/
def State.storeByte (s : State) (core : Nat) (pasid : BitVec 20) (va : Nat) (b : Byte) : Option Cause × State :=
  match s.streamTranslate (some core) (clusterOf core) pasid va .store with
  | (.error c, s1) => (some c, s1)
  | (.ok h, s1) => (none, s1.writeFor core h.pa 1 b.toNat false .dflt 0)

/-- Plain stores of a list of bytes: the first that faults with its address. -/
def State.storeBytes (s : State) (core : Nat) (pasid : BitVec 20) (va : Nat) : List Byte → Option (Cause × Nat) × State
  | [] => (none, s)
  | b :: t =>
    match s.storeByte core pasid va b with
    | (some c, s1) => (some (c, va), s1)
    | (none, s1) => s1.storeBytes core pasid (va + 1) t

end Sys2Proof.Machine
end

