-- ==== Sys2Proof/Machine/Ports.lean ====
section
/-!
DEFINITION. FIFO queues and message ports (R283 to R287).
-/

namespace Sys2Proof.Machine

def Wave.port (w : Wave) (p : Nat) : PortSt := AMap.getD w.ports p PortSt.unconfigured

def State.queue (s : State) (cl qw : Nat) : FQueue := AMap.getD (s.cluster cl).queues qw FQueue.blank
def State.onQueue (s : State) (cl qw : Nat) (f : FQueue → FQueue) : State :=
  s.onCluster cl fun c => { c with queues := AMap.put c.queues qw (f (s.queue cl qw)) }

/-- Cluster (12·die + cluster) and queue number of a TARGET word (R285). -/
def targetCluster (t : Word) : Nat := 12 * natBits t.toNat 13 12 + natBits t.toNat 11 8
def targetQueue (t : Word) : Nat := t.toNat % 256

/-- The message of a header and a data word (R286). -/
def messageEntry (hdr data : Word) (w p r : Nat) : QEntry := ⟨[hdr, data, 0, 0, 0, 0, 0, 0], some (w, p, r)⟩

/-- A write to a send port (R286): it uses a credit and injects the message, or waits in the port's buffer. -/
def State.sendMessage (s : State) (w p : Nat) (x : Word) : State :=
  let q := (s.wave w).port p
  if q.mode ≠ 1 then s
  else if q.held = 0 then s.onWave w fun v => { v with ports := AMap.put v.ports p { q with full := some x } }
  else
    (s.onWave w fun v => { v with ports := AMap.put v.ports p { q with held := q.held - 1 } }).onQueue
      (targetCluster q.target) (targetQueue q.target)
      fun f => { f with pushes := f.pushes ++ [⟨messageEntry q.hdr x w p q.resv, none⟩] }

/-- Makes the writes of a completion, with the messages it sends. -/
def State.landWrites (s : State) (w : Nat) (ws : List RegWrite) : State :=
  ws.foldl (fun s r =>
    match r with
    | .send p x => s.sendMessage w p.toNat x
    | r => s.onWave w fun v => v.land r) s

/-- Messages for a port that earlier words are still to send: results in flight, and reads that sleep (R98, R286). -/
def Wave.sending (w : Wave) (p : Port) : Nat :=
  (w.sleepers.filter fun z => match z.wait with
    | .port _ _ _ d _ _ => d == .n p
    | _ => false).length +
  w.flights.foldl (fun n e =>
    match e.2.kind with
    | .fixed _ ws => n + (ws.filter fun r => match r.1 with
        | .send q _ => q == p
        | _ => false).length
    | .result ws => n + (ws.filter fun r => match r with
        | .send q _ => q == p
        | _ => false).length
    | _ => n) 0

/-- Whether a port may be read: it is in receive mode (R286). -/
def Wave.canReceive (w : Wave) (p : Port) : Bool := (w.port p.toNat).mode == 2
/-- Whether a port may be written: in send mode, with a credit or its buffer free (R286). -/
def Wave.canSend (w : Wave) (p : Port) : Bool :=
  let q := w.port p.toNat
  q.mode == 1 && q.full.isNone && decide (w.sending p < q.held + 1)

/-- The port that the port fault of a scalar word names (R98, R182, R286). Of several that one word misuses it is A, then B,
then D: the manual gives no order (DESIGN CHOICE, log entry 118). -/
def Wave.portMisuse (w : Wave) (d : SOp) (a b : SSrc) : Option Port :=
  let bad (o : SSrc) : Option Port := match o with
    | .op (.n p) => if w.canReceive p then none else some p
    | _ => none
  match bad a, bad b, d with
  | some p, _, _ => some p
  | none, some p, _ => some p
  | none, none, .n p => if w.canSend p then none else some p
  | none, none, .s _ => none

/-- The register write or message of a scalar result (R98). -/
def opWrite : SOp → Word → RegWrite
  | .s r, x => .s r x
  | .n p, x => .send p x

end Sys2Proof.Machine
end

