-- ==== Sys2Proof/Machine/Scalar.lean ====
section
/-!
DEFINITION. Scalar integer words (R97 to R99, R119, R120).
-/

namespace Sys2Proof.Machine

/-- Leading zeros of a 32-bit value, 0 to 32. -/
def clz32 (x : Word) : Nat := if x = 0 then 32 else 31 - x.toNat.log2

/-- Set bits of a number's low n bits. -/
def popcount : Nat → Nat → Nat
  | 0, _ => 0
  | n + 1, x => x % 2 + popcount n (x / 2)

/-- The signed product, bits [63:32]. -/
def mulHigh (a b : Word) : Word := (BitVec.ofInt 64 (a.toInt * b.toInt)).extractLsb' 32 32
/-- The unsigned product, bits [63:32]. -/
def mulHighU (a b : Word) : Word := (BitVec.ofNat 64 (a.toNat * b.toNat)).extractLsb' 32 32

/-- The field of a value at a position, with length len + 1, zero-extended (R120). -/
def bitField (a : Word) (len pos : BitVec 5) : Word :=
  (a >>> pos.toNat) &&& BitVec.ofNat 32 (2 ^ (len.toNat + 1) - 1)

def shl32 (a b : Word) : Word := a <<< (b.toNat % 32)
def shr32 (a b : Word) : Word := a >>> (b.toNat % 32)
def sra32 (a b : Word) : Word := a.sshiftRight (b.toNat % 32)
def smin32 (a b : Word) : Word := if a.slt b then a else b
def smax32 (a b : Word) : Word := if a.slt b then b else a
def umin32 (a b : Word) : Word := if a.ult b then a else b
def umax32 (a b : Word) : Word := if a.ult b then b else a

/-- The result of a scalar operation on a, b and the old destination (the table of scalar operations, R119, R120). -/
def SAlu.eval (f : SAlu) (a b old : Word) : Word :=
  match f with
  | .add => a + b
  | .sub => a - b
  | .mul => a * b
  | .mulh => mulHigh a b
  | .div => if b = 0 then 0xFFFFFFFF else a.sdiv b
  | .divu => if b = 0 then 0xFFFFFFFF else a / b
  | .rem => if b = 0 then a else a.srem b
  | .remu => if b = 0 then a else a % b
  | .and => a &&& b
  | .or => a ||| b
  | .xor => a ^^^ b
  | .shl => shl32 a b
  | .shr => shr32 a b
  | .sra => sra32 a b
  | .min => smin32 a b
  | .max => smax32 a b
  | .minu => umin32 a b
  | .maxu => umax32 a b
  | .mov => a
  | .lui => (a <<< 12) ||| (old &&& 0xFFF)
  | .clz => BitVec.ofNat 32 (clz32 a)
  | .popc => BitVec.ofNat 32 (popcount 32 a.toNat)
  | .bfe len pos => bitField a len pos

/-- The latency of a scalar operation (R166). -/
def SAlu.latency : SAlu → Nat
  | .div => 20
  | .divu => 20
  | .rem => 20
  | .remu => 20
  | _ => 2

/-- The value of a source that is no port. -/
def Wave.srcValue (w : Wave) : SSrc → Word
  | .op (.s r) => w.rs r
  | .op (.n _) => 0
  | .const x => x

/-- The old destination that `slui` keeps bits of; 0 for a port (R120). -/
def Wave.oldDest (w : Wave) : SOp → Word
  | .s r => w.rs r
  | .n _ => 0

/-- The port a source names. -/
def SSrc.portOf : SSrc → Option Port
  | .op (.n p) => some p
  | _ => none

/-- A message that can be taken from a queue at once: an entry that no earlier taker waits for. -/
def State.ready (s : State) (w : Wave) (p : Port) (k : Nat) : Option QEntry :=
  let t := (w.port p.toNat).target
  let q := s.queue (targetCluster t) (targetQueue t)
  if q.takers.isEmpty then q.entries[k]? else none

/-- One credit of the reservation whose message left a queue is on its way back to its port (R286). -/
def State.returnCredit (s : State) (from_ : Option (Nat × Nat × Nat)) (cl qw : Nat) : State :=
  match from_ with
  | none => s
  | some (_, _, n) =>
    s.onQueue cl qw fun f => { f with resv := f.resv.map fun (r : QResv) =>
      if r.id = n then { r with owed := r.owed + 1 } else r }

/-- A closing reservation goes once no message of its own is in the queue or on its way (R286). -/
def FQueue.settle (q : FQueue) : FQueue :=
  { q with resv := q.resv.filter fun (r : QResv) =>
      !r.closing || r.buffered.isSome ||
        (q.entries.any fun e => e.port == some (r.wave, r.port, r.id)) ||
        (q.pushes.any fun e => e.entry.port == some (r.wave, r.port, r.id)) }

/-- Removes the oldest entry of a queue and returns its credit. -/
def State.takeEntry (s : State) (cl qw : Nat) : State :=
  let q := s.queue cl qw
  match q.entries with
  | [] => s
  | e :: t =>
    ((s.onQueue cl qw fun f => { f with entries := t }).returnCredit e.port cl qw).onQueue cl qw FQueue.settle

/-- The data word of a message (R286). -/
def QEntry.data (e : QEntry) : Word := e.words.getD 1 0

/-- Takes a message for a port at once, where one is ready. -/
def State.takeNow (s : State) (w : Nat) (p : Port) : Option (Word × State) :=
  match s.ready (s.wave w) p 0 with
  | none => none
  | some e =>
    let t := ((s.wave w).port p.toNat).target
    some (e.data, s.takeEntry (targetCluster t) (targetQueue t))

/-- The result of a word whose sources are known, written with variable latency (R98). -/
def State.portResult (s : State) (x : Issue) (setf : BitVec 4) (f : SAlu) (d : SOp) (a b : Word) : State :=
  s.onWave x.w fun w =>
    (w.raiseFlag setf).addFlight ⟨.result [opWrite d (f.eval a b (w.oldDest d))], setf, x.run, []⟩

/-- Adds a sleeping read to the queue of a port. -/
def State.addReader (s : State) (w : Nat) (p : Port) (order : Nat) (second : Bool) : State :=
  let t := ((s.wave w).port p.toNat).target
  s.onQueue (targetCluster t) (targetQueue t) fun q => { q with takers := q.takers ++ [.read w order second] }

/-- The readiness of the ports among the sources: each has a message at once. -/
def State.sourcesReady (s : State) (w : Nat) (a b : SSrc) : Bool :=
  let x := s.wave w
  match a.portOf, b.portOf with
  | none, none => true
  | some p, none => (s.ready x p 0).isSome
  | none, some p => (s.ready x p 0).isSome
  | some p, some q =>
    (s.ready x p 0).isSome && (s.ready x q (if (x.port p.toNat).target = (x.port q.toNat).target then 1 else 0)).isSome

/-- The value of a source and the machine after a message is taken for it. -/
def State.takeSource (s : State) (w : Nat) (o : SSrc) : Word × State :=
  match o.portOf with
  | none => ((s.wave w).srcValue o, s)
  | some p => match s.takeNow w p with
    | some r => r
    | none => (0, s)

/-- The meaning of the single-register scalar words (R97, R98): a port source takes a message, and the run sleeps
until there is one; a port destination sends the result. -/
def scalarAlu (f : SAlu) (c : Ctl) (d : SOp) (a b : SSrc) (s : State) : Host.Outcome State Fault Refusal :=
  scalarWord c s fun x s =>
    let w := s.wave x.w
    match w.portMisuse d a b with
    | some p => s.park x.w x.run x.pc .portFault (BitVec.ofNat 64 p.toNat)
    | none =>
      if a.portOf.isNone && b.portOf.isNone then
        (s.fixed x.w c.h.setf x.run f.latency [opWrite d (f.eval (w.srcValue a) (w.srcValue b) (w.oldDest d))]).goto
          x x.run (x.pc + 1)
      else if s.sourcesReady x.w a b then
        let (va, s1) := s.takeSource x.w a
        let (vb, s2) := s1.takeSource x.w b
        (s2.portResult x c.h.setf f d va vb).goto x x.run (x.pc + 1)
      else
        let known (o : SSrc) : Option Word := if o.portOf.isNone then some (w.srcValue o) else none
        let s1 := s.onWave x.w fun w => w.raiseFlag c.h.setf
        let order := w.nextOrder
        let s2 := s1.sleepRun x.w x.run x.pc (x.pc + 1) (.port f a b d (known a) (known b)) c.h.setf
        let s3 := match a.portOf with
          | some p => s2.addReader x.w p order false
          | none => s2
        match b.portOf with
          | some p => s3.addReader x.w p order true
          | none => s3

/-- A register operand as a source. -/
def opSrc (o : SOp) : SSrc := .op o
/-- A sign-extended immediate as a source. -/
def immSrc {n : Nat} (i : BitVec n) : SSrc := .const (i.signExtend 32)
/-- A zero-extended immediate as a source. -/
def uimmSrc {n : Nat} (i : BitVec n) : SSrc := .const (i.setWidth 32)
/-- No source. -/
def noSrc : SSrc := .const 0

/-! The words. -/

/-- SADD (R97). Scalar add modulo 2^32. -/
def execSadd (c : Ctl) (d : SOp) (a : SOp) (b : SOp) (s : State) : Host.Outcome State Fault Refusal :=
  scalarAlu .add c d (opSrc a) (opSrc b) s

/-- SSUB (R97). Scalar subtract. -/
def execSsub (c : Ctl) (d : SOp) (a : SOp) (b : SOp) (s : State) : Host.Outcome State Fault Refusal :=
  scalarAlu .sub c d (opSrc a) (opSrc b) s

/-- SMUL (R97). Low 32 bits of the scalar product. -/
def execSmul (c : Ctl) (d : SOp) (a : SOp) (b : SOp) (s : State) : Host.Outcome State Fault Refusal :=
  scalarAlu .mul c d (opSrc a) (opSrc b) s

/-- SMULH (R97). High 32 bits of the signed scalar product. -/
def execSmulh (c : Ctl) (d : SOp) (a : SOp) (b : SOp) (s : State) : Host.Outcome State Fault Refusal :=
  scalarAlu .mulh c d (opSrc a) (opSrc b) s

/-- SDIV (R119). Signed scalar quotient, never trapping. -/
def execSdiv (c : Ctl) (d : SOp) (a : SOp) (b : SOp) (s : State) : Host.Outcome State Fault Refusal :=
  scalarAlu .div c d (opSrc a) (opSrc b) s

/-- SDIVU (R119). Unsigned scalar quotient, never trapping. -/
def execSdivu (c : Ctl) (d : SOp) (a : SOp) (b : SOp) (s : State) : Host.Outcome State Fault Refusal :=
  scalarAlu .divu c d (opSrc a) (opSrc b) s

/-- SREM (R119). Signed scalar remainder with the sign of the dividend. -/
def execSrem (c : Ctl) (d : SOp) (a : SOp) (b : SOp) (s : State) : Host.Outcome State Fault Refusal :=
  scalarAlu .rem c d (opSrc a) (opSrc b) s

/-- SREMU (R119). Unsigned scalar remainder. -/
def execSremu (c : Ctl) (d : SOp) (a : SOp) (b : SOp) (s : State) : Host.Outcome State Fault Refusal :=
  scalarAlu .remu c d (opSrc a) (opSrc b) s

/-- SAND (R97). Scalar bitwise and. -/
def execSand (c : Ctl) (d : SOp) (a : SOp) (b : SOp) (s : State) : Host.Outcome State Fault Refusal :=
  scalarAlu .and c d (opSrc a) (opSrc b) s

/-- SOR (R97). Scalar bitwise or. -/
def execSor (c : Ctl) (d : SOp) (a : SOp) (b : SOp) (s : State) : Host.Outcome State Fault Refusal :=
  scalarAlu .or c d (opSrc a) (opSrc b) s

/-- SXOR (R97). Scalar bitwise xor. -/
def execSxor (c : Ctl) (d : SOp) (a : SOp) (b : SOp) (s : State) : Host.Outcome State Fault Refusal :=
  scalarAlu .xor c d (opSrc a) (opSrc b) s

/-- SSHL (R97). Scalar shift left by b[4:0]. -/
def execSshl (c : Ctl) (d : SOp) (a : SOp) (b : SOp) (s : State) : Host.Outcome State Fault Refusal :=
  scalarAlu .shl c d (opSrc a) (opSrc b) s

/-- SSHR (R97). Scalar logical shift right. -/
def execSshr (c : Ctl) (d : SOp) (a : SOp) (b : SOp) (s : State) : Host.Outcome State Fault Refusal :=
  scalarAlu .shr c d (opSrc a) (opSrc b) s

/-- SSRA (R97). Scalar arithmetic shift right. -/
def execSsra (c : Ctl) (d : SOp) (a : SOp) (b : SOp) (s : State) : Host.Outcome State Fault Refusal :=
  scalarAlu .sra c d (opSrc a) (opSrc b) s

/-- SMIN (R97). Signed scalar minimum. -/
def execSmin (c : Ctl) (d : SOp) (a : SOp) (b : SOp) (s : State) : Host.Outcome State Fault Refusal :=
  scalarAlu .min c d (opSrc a) (opSrc b) s

/-- SMAX (R97). Signed scalar maximum. -/
def execSmax (c : Ctl) (d : SOp) (a : SOp) (b : SOp) (s : State) : Host.Outcome State Fault Refusal :=
  scalarAlu .max c d (opSrc a) (opSrc b) s

/-- SMINU (R97). Unsigned scalar minimum. -/
def execSminu (c : Ctl) (d : SOp) (a : SOp) (b : SOp) (s : State) : Host.Outcome State Fault Refusal :=
  scalarAlu .minu c d (opSrc a) (opSrc b) s

/-- SMAXU (R97). Unsigned scalar maximum. -/
def execSmaxu (c : Ctl) (d : SOp) (a : SOp) (b : SOp) (s : State) : Host.Outcome State Fault Refusal :=
  scalarAlu .maxu c d (opSrc a) (opSrc b) s

/-- SADDI (R97). Scalar add of a sign-extended immediate. -/
def execSaddi (c : Ctl) (d : SOp) (a : SOp) (i : BitVec 10) (s : State) : Host.Outcome State Fault Refusal :=
  scalarAlu .add c d (opSrc a) (immSrc i) s

/-- SANDI (R97). Scalar and with an immediate. -/
def execSandi (c : Ctl) (d : SOp) (a : SOp) (i : BitVec 10) (s : State) : Host.Outcome State Fault Refusal :=
  scalarAlu .and c d (opSrc a) (immSrc i) s

/-- SORI (R97). Scalar or with an immediate. -/
def execSori (c : Ctl) (d : SOp) (a : SOp) (i : BitVec 10) (s : State) : Host.Outcome State Fault Refusal :=
  scalarAlu .or c d (opSrc a) (immSrc i) s

/-- SXORI (R97). Scalar xor with an immediate. -/
def execSxori (c : Ctl) (d : SOp) (a : SOp) (i : BitVec 10) (s : State) : Host.Outcome State Fault Refusal :=
  scalarAlu .xor c d (opSrc a) (immSrc i) s

/-- SSHLI (R97). Scalar shift left by an immediate. -/
def execSshli (c : Ctl) (d : SOp) (a : SOp) (i : BitVec 5) (s : State) : Host.Outcome State Fault Refusal :=
  scalarAlu .shl c d (opSrc a) (uimmSrc i) s

/-- SSHRI (R97). Scalar logical shift right by an immediate. -/
def execSshri (c : Ctl) (d : SOp) (a : SOp) (i : BitVec 5) (s : State) : Host.Outcome State Fault Refusal :=
  scalarAlu .shr c d (opSrc a) (uimmSrc i) s

/-- SSRAI (R97). Scalar arithmetic shift right by an immediate. -/
def execSsrai (c : Ctl) (d : SOp) (a : SOp) (i : BitVec 5) (s : State) : Host.Outcome State Fault Refusal :=
  scalarAlu .sra c d (opSrc a) (uimmSrc i) s

/-- SLI (R97). Loads a sign-extended 20-bit immediate into a scalar. -/
def execSli (c : Ctl) (d : SOp) (i : BitVec 20) (s : State) : Host.Outcome State Fault Refusal :=
  scalarAlu .mov c d (immSrc i) noSrc s

/-- SLUI (R120). Replaces bits [31:12] of a scalar with the immediate and keeps bits [11:0]. -/
def execSlui (c : Ctl) (d : SOp) (i : BitVec 20) (s : State) : Host.Outcome State Fault Refusal :=
  scalarAlu .lui c d (uimmSrc i) noSrc s

/-- SMOV (R97). Copies a scalar. -/
def execSmov (c : Ctl) (d : SOp) (a : SOp) (s : State) : Host.Outcome State Fault Refusal :=
  scalarAlu .mov c d (opSrc a) noSrc s

/-- SCLZ (R97). Counts leading zeros of a scalar. -/
def execSclz (c : Ctl) (d : SOp) (a : SOp) (s : State) : Host.Outcome State Fault Refusal :=
  scalarAlu .clz c d (opSrc a) noSrc s

/-- SPOPC (R97). Counts set bits of a scalar. -/
def execSpopc (c : Ctl) (d : SOp) (a : SOp) (s : State) : Host.Outcome State Fault Refusal :=
  scalarAlu .popc c d (opSrc a) noSrc s

/-- SBFE (R120). Extracts an unsigned bit field from a scalar. -/
def execSbfe (c : Ctl) (d : SOp) (a : SOp) (len : BitVec 5) (pos : BitVec 5) (s : State) : Host.Outcome State Fault Refusal :=
  scalarAlu (.bfe len pos) c d (opSrc a) noSrc s

/-- SADDP (R120). Adds two even scalar pairs as 64-bit values. -/
def execSaddp (c : Ctl) (d a b : SReg) (s : State) : Host.Outcome State Fault Refusal :=
  fixedWord c 2 s fun _ w => pairWrites d (w.rsPair a + w.rsPair b)

end Sys2Proof.Machine
end

