-- ==== Sys2Proof/Machine/Control.lean ====
section
/-!
DEFINITION. Control words: branches, divergence, waits, traps and services (R97 to R113, R178 to R186), condition bits
(R114 to R116), special registers (R117, R118) and masks (R121).
-/

namespace Sys2Proof.Machine

/-! Branches and calls. -/

/-- A word with no result: it completes one cycle after issue (R39). -/
def State.noResult (s : State) (x : Issue) (c : Ctl) : State := s.fixed x.w c.h.setf x.run 1 []

/-- NOP (R97). -/
def execNop (c : Ctl) (s : State) : Host.Outcome State Fault Refusal :=
  scalarWord c s fun x s => (s.noResult x c).goto x x.run (x.pc + 1)

/-- BRA (R100). -/
def execBra (c : Ctl) (qc : BitVec 4) (qn : Bool) (off : BitVec 25) (s : State) : Host.Outcome State Fault Refusal :=
  scalarWord c s fun x s =>
    let taken := (s.wave x.w).rq qc != qn
    (s.noResult x c).goto x x.run (if taken then x.pc + off.signExtend 32 else x.pc + 1)

/-- CALL (R101). -/
def execCall (c : Ctl) (d : SReg) (i : BitVec 20) (s : State) : Host.Outcome State Fault Refusal :=
  scalarWord c s fun x s =>
    (s.fixed x.w c.h.setf x.run 2 [.s d (x.pc + 1)]).goto x x.run (x.pc + i.signExtend 32)

/-- JR (R101). -/
def execJr (c : Ctl) (a : SReg) (s : State) : Host.Outcome State Fault Refusal :=
  scalarWord c s fun x s => (s.noResult x c).goto x x.run ((s.wave x.w).rs a)

/-- LOOP (R102). -/
def execLoop (c : Ctl) (d : SReg) (i : BitVec 20) (s : State) : Host.Outcome State Fault Refusal :=
  scalarWord c s fun x s =>
    let n := (s.wave x.w).rs d - 1
    (s.fixed x.w c.h.setf x.run 2 [.s d n]).goto x x.run (if n ≠ 0 then x.pc + i.signExtend 32 else x.pc + 1)

/-! Divergence, re-fusion and ending. -/

/-- A word that moves threads apart: its predicate enables lanes, and its run has no common target (R103, R104). -/
def divergeWord (c : Ctl) (s : State) (body : Issue → State → State) : Host.Outcome State Fault Refusal :=
  scalarWord c s fun x s => body x (s.noResult x c)

/-- SPLIT (R103). -/
def execSplit (c : Ctl) (m : BitVec 4) (mn : Bool) (off : BitVec 25) (s : State) : Host.Outcome State Fault Refusal :=
  divergeWord c s fun x s =>
    let sel := (s.wave x.w).rm m
    let t := x.en &&& (if mn then ~~~sel else sel)
    (s.goto x (x.run &&& ~~~t) (x.pc + 1)).goto x t (x.pc + off.signExtend 32)

/-- JMPV (R104). -/
def execJmpv (c : Ctl) (a : VReg) (s : State) : Host.Outcome State Fault Refusal :=
  divergeWord c s fun x s =>
    (s.goto x (x.run &&& ~~~x.en) (x.pc + 1)).onWave x.w fun w =>
      { w with pcs := (lanesOf x.en).foldl (fun m l => SMap.set m l (w.rv a l)) w.pcs }

/-- SYNC (R105, R19). -/
def execSync (c : Ctl) (s : State) : Host.Outcome State Fault Refusal :=
  scalarWord c s fun x s => (s.noResult x c).onWave x.w fun w => (w.setThreads x.run .syncing).settle

/-- EXIT (R106): a member of the active set that exits counts as having returned. -/
def execExit (c : Ctl) (s : State) : Host.Outcome State Fault Refusal :=
  scalarWord c s fun x s =>
    (s.noResult x c).onWave x.w fun w => ((w.setThreads x.run .exited).leaveActive x.run).settle

/-- YIELD (R107). -/
def execYield (c : Ctl) (s : State) : Host.Outcome State Fault Refusal :=
  scalarWord c s fun x s =>
    ((s.noResult x c).goto x x.run (x.pc + 1)).onWave x.w fun w => { w with yielded := true, aging := 0 }

/-! Waiting, traps and services. -/

/-- SLEEP (R108). -/
def execSleep (c : Ctl) (a : SReg) (i : BitVec 10) (s : State) : Host.Outcome State Fault Refusal :=
  scalarWord c s fun x s =>
    let w := s.wave x.w
    let n := w.rs a + i.signExtend 32
    let s1 := s.noResult x c
    if n = 0 then s1.goto x x.run (x.pc + 1)
    else s1.sleepRun x.w x.run x.pc (x.pc + 1) (.sleep (s.dieCycle w + n.setWidth 64)) 15

/-- TRAP (R109). -/
def execTrap (c : Ctl) (code : BitVec 16) (s : State) : Host.Outcome State Fault Refusal :=
  scalarWord c s fun x s => s.park x.w x.run x.pc .softTrap (code.setWidth 64)

/-- BRK (R186): as TRAP, with cause breakpoint, which DBG makes a system-service set. -/
def execBrk (c : Ctl) (code : BitVec 16) (s : State) : Host.Outcome State Fault Refusal :=
  scalarWord c s fun x s => s.park x.w x.run x.pc .breakpoint (code.setWidth 64)

/-- RTE (R184): illegal on the whole run when a thread of it is no member of the active set. -/
def execRte (c : Ctl) (s : State) : Host.Outcome State Fault Refusal :=
  scalarWord c s fun x s =>
    let w := s.wave x.w
    if x.run &&& ~~~w.activeMembers ≠ 0 then s.illegal x
    else (s.noResult x c).onWave x.w fun w => w.returnFrom x.run

/-- The lowest lane of a set. -/
def lowestLane (m : Lanes) : Nat := (lanesOf m).headD 64

/-- ELECT (R112). -/
def execElect (c : Ctl) (d : MReg) (s : State) : Host.Outcome State Fault Refusal :=
  fixedWord c 2 s fun x _ => [.m d (laneBit (lowestLane x.en))]

/-- SETPRIO (R113). -/
def execSetprio (c : Ctl) (i : BitVec 8) (s : State) : Host.Outcome State Fault Refusal :=
  fixedWord c 2 s fun _ w => [.sr 0x020 (filterPrio w.ceiling (i.setWidth 32))]

/-! Condition bits. -/

/-- QANY (R114). -/
def execQany (c : Ctl) (qd : BitVec 4) (a : MReg) (s : State) : Host.Outcome State Fault Refusal :=
  fixedWord c 3 s fun x w => [.q qd (w.rm a &&& x.en != 0)]

/-- QALL (R114). -/
def execQall (c : Ctl) (qd : BitVec 4) (a : MReg) (s : State) : Host.Outcome State Fault Refusal :=
  fixedWord c 3 s fun x w => [.q qd (x.en &&& ~~~w.rm a == 0)]

/-- QNONE (R114). -/
def execQnone (c : Ctl) (qd : BitVec 4) (a : MReg) (s : State) : Host.Outcome State Fault Refusal :=
  fixedWord c 3 s fun x w => [.q qd (w.rm a &&& x.en == 0)]

/-- An integer compare (R47). -/
def intCompare (cc : IntCC) (a b : Word) : Bool :=
  match cc with
  | .eq => a == b
  | .ne => a != b
  | .lt => a.slt b
  | .le => a.sle b
  | .gt => b.slt a
  | .ge => b.sle a
  | .ltu => a.ult b
  | .leu => a.ule b
  | .gtu => b.ult a
  | .geu => b.ule a

/-- QCMP (R115). -/
def execQcmp (c : Ctl) (qd : BitVec 4) (cc : IntCC) (a b : SReg) (s : State) : Host.Outcome State Fault Refusal :=
  fixedWord c 2 s fun _ w => [.q qd (intCompare cc (w.rs a) (w.rs b))]

/-- QCMPI (R115). -/
def execQcmpi (c : Ctl) (qd : BitVec 4) (cc : IntCC) (a : SReg) (i : BitVec 10) (s : State) :
    Host.Outcome State Fault Refusal :=
  fixedWord c 2 s fun _ w => [.q qd (intCompare cc (w.rs a) (i.signExtend 32))]

/-- The boolean operations of `qop` (R48). -/
def qopEval (o : QOpc) (a b : Bool) : Bool :=
  match o with
  | .and => a && b
  | .or => a || b
  | .xor => a != b
  | .andn => a && !b

/-- QOP (R116). -/
def execQop (c : Ctl) (qd qa qb : BitVec 4) (opc : QOpc) (s : State) : Host.Outcome State Fault Refusal :=
  fixedWord c 2 s fun _ w => [.q qd (qopEval opc (w.rq qa) (w.rq qb))]

/-! Special registers. -/

/-- The value of a special register for a lane (R31 to R34). -/
def State.srValue (s : State) (w : Wave) (n : Nat) (l : Nat) : Word :=
  match n with
  | 0x000 => BitVec.ofNat 32 l
  | 0x001 => BitVec.ofNat 32 (64 * w.waveid.toNat + l)
  | 0x002 => w.waveid
  | 0x003 => w.gidx
  | 0x004 => w.ngroups
  | 0x005 => w.cidx
  | 0x006 => BitVec.ofNat 32 (coreIn w.core)
  | 0x007 => BitVec.ofNat 32 (clusterOf w.core % 12)
  | 0x008 => BitVec.ofNat 32 (dieOf w.core)
  | 0x010 => lo32 (s.dieCycle w)
  | 0x011 => hi32 (w.capture.getD (s.dieCycle w))
  | 0x018 => w.fpctl
  | 0x019 => w.fpstat
  | 0x020 => w.prio
  | 0x021 => w.age
  | 0x028 => w.trapcause
  | 0x029 => lo32 w.trapaddr
  | 0x02A => hi32 w.trapaddr
  | 0x02B => w.trappc
  | 0x02C => w.tfault
  | 0x030 => lo32 w.codebase &&& 0xFFFFF000#32
  | 0x031 => hi32 w.codebase &&& 0x01FFFFFF#32
  | 0x032 => w.localbase
  | 0x033 => w.localsize
  | 0x038 => w.late
  | 0x039 => w.waitovf
  | 0x03A => w.rngstream
  | 0x040 => lo32 s.fabric.featacc
  | 0x041 => hi32 s.fabric.featacc
  | _ => 0

/-- A read of sr.cycle.lo captures the counter into the wave (R32). -/
def State.captureFor (s : State) (w : Nat) (n : Nat) : State :=
  if n = 0x010 then s.onWave w fun x => { x with capture := some (s.dieCycle x) } else s

/-- SRD (R117). -/
def execSrd (c : Ctl) (d : SReg) (spec : BitVec 12) (s : State) : Host.Outcome State Fault Refusal :=
  scalarWord c s fun x s =>
    let v := s.srValue (s.wave x.w) spec.toNat 0
    (((s.captureFor x.w spec.toNat).fixed x.w c.h.setf x.run 4 [.s d v]).goto x x.run (x.pc + 1))

/-- VSRD (R117). -/
def execVsrd (c : Ctl) (d : VReg) (spec : BitVec 12) (s : State) : Host.Outcome State Fault Refusal :=
  scalarWord c s fun x s =>
    let w := s.wave x.w
    let ws := (lanesOf x.en).map fun l => RegWrite.v d l (s.srValue w spec.toNat l)
    (((s.captureFor x.w spec.toNat).fixed x.w c.h.setf x.run 4 ws).goto x x.run (x.pc + 1))

/-- WriteFilter of R117. -/
def State.writeFilter (s : State) (w : Wave) (n : Nat) (x : Word) : Word :=
  match n with
  | 0x018 => filterFpctl (s.fabric.featacc.getLsbD 7) x
  | 0x019 => filterFpstat x
  | 0x020 => filterPrio w.ceiling x
  | 0x021 => filterAge x
  | 0x02A => x &&& 0x01FFFFFF#32
  | _ => x

/-- SWR (R117). -/
def execSwr (c : Ctl) (a : SReg) (spec : BitVec 12) (s : State) : Host.Outcome State Fault Refusal :=
  fixedWord c 4 s fun _ w => [.sr spec (s.writeFilter w spec.toNat (w.rs a))]

/-! Masks (R121). -/

/-- MAND. -/
def execMand (c : Ctl) (d a b : MReg) (s : State) : Host.Outcome State Fault Refusal :=
  fixedWord c 2 s fun _ w => [.m d (w.rm a &&& w.rm b)]
/-- MOR. -/
def execMor (c : Ctl) (d a b : MReg) (s : State) : Host.Outcome State Fault Refusal :=
  fixedWord c 2 s fun _ w => [.m d (w.rm a ||| w.rm b)]
/-- MXOR. -/
def execMxor (c : Ctl) (d a b : MReg) (s : State) : Host.Outcome State Fault Refusal :=
  fixedWord c 2 s fun _ w => [.m d (w.rm a ^^^ w.rm b)]
/-- MANDN. -/
def execMandn (c : Ctl) (d a b : MReg) (s : State) : Host.Outcome State Fault Refusal :=
  fixedWord c 2 s fun _ w => [.m d (w.rm a &&& ~~~w.rm b)]
/-- MNOT. -/
def execMnot (c : Ctl) (d a : MReg) (s : State) : Host.Outcome State Fault Refusal :=
  fixedWord c 2 s fun _ w => [.m d (~~~w.rm a)]
/-- MFROMS. -/
def execMfroms (c : Ctl) (d : MReg) (a : SReg) (s : State) : Host.Outcome State Fault Refusal :=
  fixedWord c 2 s fun _ w => [.m d (w.rsPair a)]
/-- MTOS. -/
def execMtos (c : Ctl) (d : SReg) (a : MReg) (s : State) : Host.Outcome State Fault Refusal :=
  fixedWord c 2 s fun _ w => pairWrites d (w.rm a)
/-- MPOPC. -/
def execMpopc (c : Ctl) (d : SReg) (a : MReg) (s : State) : Host.Outcome State Fault Refusal :=
  fixedWord c 2 s fun _ w => [.s d (BitVec.ofNat 32 (popcount 64 (w.rm a).toNat))]
/-- MFFS. -/
def execMffs (c : Ctl) (d : SReg) (a : MReg) (s : State) : Host.Outcome State Fault Refusal :=
  fixedWord c 2 s fun _ w => [.s d (BitVec.ofNat 32 (lowestLane (w.rm a)))]

end Sys2Proof.Machine
end

