-- ==== Sys2Proof/Machine/Operands.lean ====
section
/-!
DEFINITION. How a vector word applies (R122 to R124): the environment a lane computes in, the results of the lanes, and
the one operation that writes them, parks the lanes that trap, and moves the run.
-/

namespace Sys2Proof.Machine

/-- What a vector word computes with: the wave as it stands at issue, the run, the enabled lanes, the selector of
`vsel`, the rounding mode, FTZ, SAT and the prefix's C (R56, R58, R123). -/
structure VEnv where
  w : Wave
  run : Lanes
  en : Lanes
  sel : Lanes
  mode : Rnd
  ftz : Bool
  sat : Bool
  c : Option VReg
  fresh : BitVec 64

/-- Where a vector word writes: `n` registers of each lane, a bit of a mask for each lane, one scalar, or nothing. -/
inductive Dest where
  | v (d : VReg) (n : Nat)
  | m (d : MReg)
  | s (d : SReg)
  | none
deriving DecidableEq, Repr

/-- The result of one lane: the values of its destinations, the exceptions raised, the draws taken, whether it raises
the illegal-format trap (R136), and whether its draws count even when it traps (R141). -/
structure LaneOut where
  outs : List Word
  flags : Flags
  draws : Nat
  bad : Bool
  keep : Bool
deriving DecidableEq, Repr

/-- The result of a word: its lanes, its scalar with the exceptions of the word, a new seed. -/
structure VOut where
  lanes : List (Nat × LaneOut)
  scalar : Option (Word × Flags)
  seed : Option (BitVec 64)
deriving DecidableEq, Repr

/-- The meaning of a vector word: its latency, destination and results. -/
structure VecSem where
  lat : Nat
  dest : Dest
  f : VEnv → VOut

/-- A plain result. -/
def LaneOut.val (x : Word) : LaneOut := ⟨[x], 0, 0, false, false⟩
def LaneOut.vals (xs : List Word) : LaneOut := ⟨xs, 0, 0, false, false⟩

/-- A word that computes lane by lane over the enabled lanes. -/
def lanewise (lat : Nat) (dest : Dest) (f : VEnv → Nat → LaneOut) : VecSem :=
  ⟨lat, dest, fun e => ⟨(lanesOf e.en).map fun l => (l, f e l), none, none⟩⟩

/-- Draw number `k` from now of a lane (R95). -/
def Wave.draw (w : Wave) (l k : Nat) : Word :=
  let d : BitVec 64 := ((SMap.get w.draws l) + BitVec.ofNat 32 k).setWidth 64
  let z0 := w.seed + (d * 64 + BitVec.ofNat 64 (l + 1)) * 0x9E3779B97F4A7C15#64
  let z1 := (z0 ^^^ (z0 >>> 30)) * 0xBF58476D1CE4E5B9#64
  let z2 := (z1 ^^^ (z1 >>> 27)) * 0x94D049BB133111EB#64
  let z3 := z2 ^^^ (z2 >>> 31)
  z3.extractLsb' 32 32

/-- The rounding mode of one rounding, with its draw (R82, R84). -/
def rmode (m : Rnd) (draw : Word) : RMode :=
  match m with
  | .rne => .rne
  | .rtz => .rtz
  | .rdn => .rdn
  | .rup => .rup
  | .rna => .rna
  | .sto => .sto draw
  | .dyn => .rne

/-- The mode a prefix's RND selects for a wave (R56, R82). -/
def Wave.resolve (w : Wave) : Rnd → Rnd
  | .dyn => w.drm
  | m => m

/-- RT(F, x): rounds the exact value of an element under the word's mode, SAT and FTZ, with the draw the lane has
reached: the value, its exceptions, and the draws it took (R83, R84). -/
def VEnv.rt (e : VEnv) (F : FloatFmt) (l k : Nat) (x : FVal) : FVal × Flags × Nat :=
  let (r, f) := roundTo F (rmode e.mode (e.w.draw l k)) e.sat e.ftz x
  (r, f, if e.mode == .sto && x.rounds then 1 else 0)

/-- An f32 operand, flushed under FTZ (R75, R86). -/
def VEnv.f (e : VEnv) (r : VReg) (l : Nat) : FVal := ftzIn e.ftz (f32 (e.w.rv r l))

/-- Rounding is toward minus infinity: the sign of an exact zero sum (R83). -/
def VEnv.rdn (e : VEnv) : Bool := e.mode == .rdn

/-- A lane's f32 result from an exact value and the exceptions of forming it. -/
def VEnv.f32Out (e : VEnv) (l : Nat) (x : FVal × Flags) : LaneOut :=
  let (r, f, n) := e.rt fmtF32 l 0 x.1
  ⟨[toF32 r], x.2 ||| f, n, false, false⟩

/-- The addend register of an instruction with a fourth operand (R123). -/
def VEnv.addend (e : VEnv) (d : VReg) : VReg := e.c.getD d

/-- A signed sum that wraps, or clamps under SAT (R125). -/
def VEnv.int (e : VEnv) (x : Int) : Word := BitVec.ofInt 32 (if e.sat then clampInt (-(2 ^ 31), 2 ^ 31 - 1) x else x)

/-- The writes of a lane's results. -/
def destWrites : Dest → Nat → List Word → List RegWrite
  | .v d _, l, xs => (upTo xs.length).map fun k => .v (BitVec.ofNat 10 (d.toNat + k)) l (xs.getD k 0)
  | .m d, l, xs => [.mBit d l (xs.getD 0 0 != 0)]
  | .s _, _, _ => []
  | .none, _, _ => []

/-- The zeros that ZERO writes in a lane the prefix disables (R58). -/
def zeroWrites : Dest → Nat → List RegWrite
  | .v d n, l => (upTo n).map fun k => .v (BitVec.ofNat 10 (d.toNat + k)) l 0
  | .m d, l => [.mBit d l false]
  | .s _, _ => []
  | .none, _ => []

/-- The exceptions a lane raises that its wave traps (R34). -/
def trapped (w : Wave) (f : Flags) : Bool := f &&& w.fpEnables != 0

/-- The union of the flags of some lanes. -/
def flagsOf (os : List (Nat × LaneOut)) : Flags := os.foldl (fun f o => f ||| o.2.flags) 0

/-- The lanes of a list of results that a test selects. -/
def lanesWhere (os : List (Nat × LaneOut)) (p : LaneOut → Bool) : Lanes :=
  os.foldl (fun m o => if p o.2 then m ||| laneBit o.1 else m) 0

/-- Advances the draw counts (R143, R96): a lane that traps before it writes takes none, unless its draw is kept. -/
def Wave.advance (w : Wave) (os : List (Nat × LaneOut)) (parked : Lanes) : Wave :=
  { w with draws := os.foldl (fun m o =>
      if o.2.draws = 0 ∨ (parked.getLsbD o.1 ∧ o.2.keep = false) then m
      else SMap.set m o.1 (SMap.get m o.1 + BitVec.ofNat 32 o.2.draws)) w.draws }

/-- Applies the results of one or two parts of a word (a dual word has two slots, R54): lanes that trap park and are
not written, the others are written and the flags accrue at the end of each part's latency (R53, R122). -/
def State.applyVec (s : State) (x : Issue) (setf : BitVec 4) (zero : Lanes) (next : Word)
    (parts : List (Dest × Nat × VOut)) : State :=
  let w := s.wave x.w
  let os := parts.flatMap fun p => p.2.2.lanes
  let scalarFlags (o : VOut) : Flags := match o.scalar with
    | some r => r.2
    | none => 0
  let scalarTrap := parts.any fun p => trapped w (scalarFlags p.2.2)
  let bad := lanesWhere os fun o => o.bad
  let fp := if scalarTrap then x.en
    else maskOf fun l => !bad.getLsbD l && os.any fun o => o.1 == l && trapped w o.2.flags
  let stop := bad ||| fp
  let ws (p : Dest × Nat × VOut) : List RegWrite :=
    let fl := flagsOf p.2.2.lanes ||| scalarFlags p.2.2
    (p.2.2.lanes.flatMap fun o => if stop.getLsbD o.1 then [] else destWrites p.1 o.1 o.2.outs) ++
    ((lanesOf zero).flatMap (zeroWrites p.1)) ++
    (match p.1, p.2.2.scalar with
      | .s d, some r => if scalarTrap then [] else [.s d r.1]
      | _, _ => []) ++
    (if fl = 0 then [] else [.flags fl])
  let fpFlags := parts.foldl (fun f p => f ||| scalarFlags p.2.2) (flagsOf (os.filter fun o => fp.getLsbD o.1))
  let s1 := s.onWave x.w fun w =>
    let w1 := w.advance os stop
    parts.foldl (fun w p => match p.2.2.seed with
      | some d => { w with seed := d, draws := [] }
      | none => w) w1
  let s2 := s1.fixedParts x.w setf x.run (parts.foldl (fun m p => max m p.2.1) 0)
    (parts.flatMap fun p => (ws p).map fun r => (r, p.2.1))
  let s3 := s2.goto x (x.run &&& ~~~stop) next
  (s3.park x.w bad x.pc .illegalFormat 0).park x.w fp x.pc .fpException (fpFlags.setWidth 64)

/-- The environment of a word without a prefix (R59). -/
def State.plainEnv (s : State) (x : Issue) (c : Ctl) : VEnv :=
  let w := s.wave x.w
  let m := w.rm (0#1 ++ c.pm)
  ⟨w, x.run, x.en, if c.neg then ~~~m else m, .rne, false, false, none, Config.freeValue s.freeCtr⟩

/-- The meaning of a vector word without a prefix (R43, R122). -/
def vecWord (c : Ctl) (v : VecSem) (s : State) : Host.Outcome State Fault Refusal :=
  scalarWord c s fun x s =>
    let e := s.plainEnv x c
    s.applyVec x c.h.setf 0 (x.pc + 1) [(v.dest, v.lat, v.f e)]

/-- The meaning of `vsel` without a prefix: its predicate selects and never disables (R127). -/
def selWord (c : Ctl) (v : VecSem) (s : State) : Host.Outcome State Fault Refusal :=
  match s.issue c with
  | none => .fault .noRun
  | some x =>
    let x := { x with en := x.run }
    let e := s.plainEnv x c
    .next (s.applyVec x c.h.setf 0 (x.pc + 1) [(v.dest, v.lat, v.f e)])

end Sys2Proof.Machine
end

