-- ==== Sys2Proof/Machine/Raster.lean ====
section
/-!
DEFINITION. The geometry of the raster unit (R375, R376) and the order of pixel writes (R379).
-/

namespace Sys2Proof.Machine

/-- A coordinate in units of 2^-149, none when it is NaN, infinite or of magnitude 2^24 or more (R375). -/
def coordOf (x : Word) : Option Int :=
  match fmtF32.decode x.toNat with
  | .fin neg n d =>
    if n < 2 ^ 24 * d then
      let k : Int := Int.ofNat (n * 2 ^ 149 / d)
      some (if neg then -k else k)
    else none
  | _ => none

/-- The corners of a triangle: x0, y0, x1, y1, x2, y2. -/
structure Tri where
  x0 : Int
  y0 : Int
  x1 : Int
  y1 : Int
  x2 : Int
  y2 : Int
deriving DecidableEq, Repr

/-- The triangle of six coordinate words, none when one is out of range (R375). -/
def triOf (pts : List Word) : Option Tri :=
  match pts.map coordOf with
  | [some a, some b, some c, some d, some e, some f] => some ⟨a, b, c, d, e, f⟩
  | _ => none

/-- The sum of the three edge functions: twice the area, signed. -/
def Tri.area (t : Tri) : Int := (t.x1 - t.x0) * (t.y2 - t.y0) - (t.x2 - t.x0) * (t.y1 - t.y0)

/-- An edge function a·x + b·y + c from one corner to another. -/
def edgeOf (xa ya xb yb : Int) : Int × Int × Int := (ya - yb, xb - xa, (yb - ya) * xa - (xb - xa) * ya)

/-- The edge functions opposite v0, v1, v2, negated together when the area is negative (R376). -/
def Tri.edges (t : Tri) : List (Int × Int × Int) :=
  let es := [edgeOf t.x1 t.y1 t.x2 t.y2, edgeOf t.x2 t.y2 t.x0 t.y0, edgeOf t.x0 t.y0 t.x1 t.y1]
  if t.area < 0 then es.map fun e => (-e.1, -e.2.1, -e.2.2) else es

/-- The sample of a pixel coordinate, in units of 2^-149 (R376). -/
def sampleAt (x : Nat) : Int := Int.ofNat ((2 * x + 1) * 2 ^ 148)

/-- An edge function at the sample of a pixel. -/
def edgeAt (e : Int × Int × Int) (x y : Nat) : Int := e.1 * sampleAt x + e.2.1 * sampleAt y + e.2.2

/-- An edge covers a sample (R376). -/
def edgeCovers (e : Int × Int × Int) (x y : Nat) : Bool :=
  let v := edgeAt e x y
  decide (0 < v) || (v == 0 && (decide (0 < e.1) || (e.1 == 0 && decide (0 < e.2.1))))

/-- A pixel is covered (R376). -/
def Tri.covers (t : Tri) (x y : Nat) : Bool := t.edges.all fun e => edgeCovers e x y

/-- The barycentric weight of edge function k at a pixel (R376). -/
def Tri.weight (t : Tri) (k x y : Nat) : Word :=
  toF32 (rneF32 (.fin false (edgeAt (t.edges.getD k (0, 0, 0)) x y).toNat t.area.natAbs)).1

/-- The lanes of an 8 × 8 block whose pixels are covered (R377). -/
def Tri.blockCover (t : Tri) (bx by_ : Nat) : Lanes :=
  maskOf fun l => t.covers (8 * bx + l % 8) (8 * by_ + l / 8)

/-- The lanes of a block that a primitive covers. -/
def Prim.cover (p : Prim) (bx by_ : Nat) : Lanes :=
  match triOf p.pts with
  | some t => t.blockCover bx by_
  | none => 0

/-- The blocks along one axis that may hold a covered pixel, within the 16-bit pixel coordinates of R377. -/
def blockRange (a b c : Int) : List Nat :=
  let unit : Int := 2 ^ 152
  let lo := (max 0 (min a (min b c) / unit)).toNat
  let hi := (max 0 (max a (max b c) / unit)).toNat
  (upTo (min hi 8191 + 1 - min lo 8192)).map fun k => lo + k

/-- The blocks of a primitive that hold a covered pixel. -/
def Prim.blocks (p : Prim) : List (Nat × Nat) :=
  match triOf p.pts with
  | none => []
  | some t =>
    ((blockRange t.y0 t.y1 t.y2).flatMap fun y => (blockRange t.x0 t.x1 t.x2).map fun x => (x, y)).filter fun b =>
      t.blockCover b.1 b.2 != 0

/-- The order of primitive keys (R375). -/
def Prim.before (p q : Prim) : Bool := decide (p.commit < q.commit ∨ (p.commit = q.commit ∧ p.seq < q.seq))

/-- A primitive has nothing left to write in a block: it does not cover it, or its pixel wave there is complete. -/
def State.blockDone (s : State) (k : Nat) (p : Prim) (bx by_ : Nat) : Bool :=
  p.cover bx by_ == 0 ||
    (p.launched.contains (bx, by_) && !s.launches.any fun l => l.2.kind == .pixel k bx by_)

/-- The turn of a pixel wave's writes: those of an ordered node come after the writes of every primitive of the node
with a lower key (R379). -/
def State.pixelTurn (s : State) (w : Nat) : Bool :=
  let x := s.wave w
  match x.pixel, (s.launch x.launch).kind with
  | some k, .pixel _ bx by_ =>
    match AMap.find s.prims k with
    | none => true
    | some p =>
      !p.ordered || s.prims.all fun e =>
        e.2.graph != p.graph || e.2.node != p.node || !e.2.before p || s.blockDone e.1 e.2 bx by_
  | _, _ => true

end Sys2Proof.Machine
end

