-- ==== Sys2Proof/Machine/Access.lean ====
section
/-!
DEFINITION. Accesses of threads: resolving the addresses of a word and parking the lanes that fault (R144 to R146,
R183), performing one access (R148 to R155), and the order among the accesses of a thread (R156, R159).
-/

namespace Sys2Proof.Machine

/-- The address space of a form (R144). -/
inductive Space where
  | global | local_
deriving DecidableEq, Repr

/-- Where an address of a wave leads, or why it faults; misalignment stands first (R145, R146, R183). A read-modify-write
asks for a store and reads the sector as well, so that a lost one is a data loss (R153, R407). -/
def State.resolve (s : State) (w : Nat) (sp : Space) (addr n : Nat) (acc : Access) (rmw : Bool) :
    Except Cause Loc × State :=
  let x := s.wave w
  if addr % n ≠ 0 then (.error .misalignment, s)
  else
    match sp with
    | .local_ =>
      let sector := (x.localbase.toNat + addr) / 64
      if 2 ^ 23 ≤ addr ∨ x.localsize.toNat < addr + n then (.error .access, s)
      else if (acc == .load || rmw) && (s.cluster (clusterOf x.core)).upset.contains sector then
        (.error .dataLoss, s.onCluster (clusterOf x.core) fun c => { c with upset := c.upset.filter fun k => k != sector })
      else (.ok (.scratch (x.localbase.toNat + addr)), s)
    | .global =>
      match s.translate (some x.core) (clusterOf x.core) x.pasid addr acc with
      | (.error c, s1) => (.error c, s1)
      | (.ok h, s1) =>
        if acc == .store && s1.aliasHit w addr n then (.error .aliased, s1)
        else if rmw && s1.sectorLost h.pa then (.error .dataLoss, s1)
        else (.ok (.mem h.pa), if h.ros && acc == .load then s1.fillCache (clusterOf x.core) h.pa else s1)

/-- An access still to be performed. -/
def LaneAcc.of (lane : Nat) (loc : Loc) (data : BitVec 128) (data2 : BitVec 64) : LaneAcc :=
  ⟨lane, loc, data, data2, none, 0, 0⟩

/-- A lane's address after resolution. -/
structure Resolved where
  lane : Nat
  addr : Nat
  loc : Except Cause Loc
deriving Repr

/-- Resolves the addresses of some lanes in ascending order. -/
def State.resolveAll (s : State) (w : Nat) (sp : Space) (n : Nat) (acc : Access) (rmw : Bool) : List (Nat × Nat) →
    List Resolved × State
  | [] => ([], s)
  | (l, a) :: t =>
    let (r, s1) := s.resolve w sp a n acc rmw
    let (rs, s2) := s1.resolveAll w sp n acc rmw t
    (⟨l, a, r⟩ :: rs, s2)

/-- The lane causes of a memory word in the order of R183. -/
def laneCauses : List Cause := [.misalignment, .translation, .access, .aliased, .dataLoss]

/-- The lanes a cause stopped, and the address of the lowest. -/
def stoppedBy (rs : List Resolved) (c : Cause) : Lanes × Nat :=
  let hit := rs.filter fun r => match r.loc with
    | .error d => d == c
    | .ok _ => false
  (hit.foldl (fun m r => m ||| laneBit r.lane) 0, match hit with
    | r :: _ => r.addr
    | [] => 0)

/-- The accesses of the lanes that resolved. -/
def goodLanes (rs : List Resolved) (pc : Word) (mk : Nat → Loc → LaneAcc) : List LaneAcc :=
  rs.filterMap fun r => match r.loc with
    | .ok l => some { mk r.lane l with va := r.addr, pc := pc }
    | .error _ => none

/-- Parks the lanes that faulted, one set for each cause in order (R183). -/
def State.parkFaults (s : State) (x : Issue) (rs : List Resolved) : State :=
  laneCauses.foldl (fun s c => let (ls, a) := stoppedBy rs c; s.park x.w ls x.pc c (BitVec.ofNat 64 a)) s

/-- All lanes that faulted. -/
def faultLanes (rs : List Resolved) : Lanes :=
  laneCauses.foldl (fun m c => m ||| (stoppedBy rs c).1) 0

/-- The size of the accesses of an operation; a cache word covers a line. -/
def FlightKind.size : FlightKind → Nat
  | .load n .. => n
  | .store n .. => n
  | .rmw n .. => n
  | .cache .. => 64
  | .pxout => 4
  | _ => 0

/-- A store that touches source views stays in dispatch until they are captured (R263). -/
def State.holdCapture (s : State) (x : Issue) (views : List Nat) : State :=
  (s.hold x).onWave x.w fun w => { w with captures := views }

/-- The addresses of the lanes that the alias filter stops. -/
def aliasedAddrs (rs : List Resolved) : List Nat :=
  rs.filterMap fun r => match r.loc with
    | .error .aliased => some r.addr
    | _ => none

/-- Issues a per-lane memory word: the lanes that resolved get their accesses, the others park (R150, R153); a store
whose source views can be captured is held for it (R263). -/
def State.issueLanes (s : State) (x : Issue) (setf : BitVec 4) (kind : FlightKind) (rs : List Resolved)
    (mk : Nat → Loc → LaneAcc) (extra : List LaneAcc) (next : Word) : State :=
  let views := s.toCapture x.w kind.size (aliasedAddrs rs)
  if views ≠ [] then s.holdCapture x views
  else
  let stop := faultLanes rs
  let accs := goodLanes rs x.pc mk
  let s1 := s.onWave x.w fun w => (w.raiseFlag setf).addFlight ⟨kind, setf, x.en &&& ~~~stop, accs ++ extra⟩
  (s1.goto x (x.run &&& ~~~stop) next).parkFaults x rs

/-- Issues a uniform memory word: one access of the whole run, which a fault parks (R152). -/
def State.issueUniform (s : State) (x : Issue) (setf : BitVec 4) (kind : FlightKind) (addr : Nat)
    (r : Except Cause Loc) (mk : Loc → LaneAcc) : State :=
  let views := s.toCapture x.w kind.size (match r with
    | .error .aliased => [addr]
    | _ => [])
  if views ≠ [] then s.holdCapture x views
  else
  match r with
  | .error c => s.park x.w x.run x.pc c (BitVec.ofNat 64 addr)
  | .ok l =>
    (s.onWave x.w fun w => (w.raiseFlag setf).addFlight ⟨kind, setf, x.run, [{ mk l with va := addr, pc := x.pc }]⟩).goto x x.run (x.pc + 1)

/-! Order among the accesses of a thread. -/

/-- Two accesses touch a common granule of 4 bytes (R159, R331). -/
def Loc.overlaps (a : Loc) (n : Nat) (b : Loc) (m : Nat) : Bool :=
  let meet (p q : Nat) : Bool := decide (p / 4 * 4 < q + m ∧ q / 4 * 4 < p + n)
  match a, b with
  | .mem p, .mem q => meet p q
  | .scratch p, .scratch q => meet p q
  | _, _ => false

/-- Two accesses belong to a common thread: the same lane, or a uniform access of a run that holds the lane (R152). -/
def shareThread (a : Nat) (ta : Lanes) (b : Nat) (tb : Lanes) : Bool :=
  if a < 64 ∧ b < 64 then a == b
  else if a < 64 then tb.getLsbD a
  else if b < 64 then ta.getLsbD b
  else ta &&& tb != 0

/-- An operation has an acquire side (R332). -/
def FlightKind.acquires : FlightKind → Bool
  | .load _ _ _ .acquire _ _ => true
  | .rmw _ _ _ .acquire _ _ => true
  | .rmw _ _ _ .acqRel _ _ => true
  | _ => false

/-- An acquire that takes R149's action: no load of its wave reads the L1 before it. -/
def FlightKind.acquiresL2 : FlightKind → Bool
  | .load _ _ _ .acquire sco _ => atL2 sco
  | .rmw _ _ _ .acquire sco _ => atL2 sco
  | .rmw _ _ _ .acqRel sco _ => atL2 sco
  | _ => false

/-- A load that reads the L1 (R148). -/
def FlightKind.readsL1 (k : FlightKind) (l : Loc) : Bool :=
  match k, l with
  | .load _ _ _ ord sco ch, .mem _ => (ord == .plain || !atL2 sco) && (ch == .dflt || ch == .stream)
  | _, _ => false

/-- An operation has a release side, covering a colour (R332). -/
def FlightKind.releases : FlightKind → Option (BitVec 3)
  | .store _ .release _ _ c => some c
  | .rmw _ _ _ .release _ c => some c
  | .rmw _ _ _ .acqRel _ c => some c
  | _ => none

/-- A store that is published at itself, so that a release after it covers it whatever its colour (R335). -/
def publishes (ord : StOrd) (sco : Scope) : Bool := ord != .plain && atL2 sco

/-- An access of an operation still to be performed holds back a later access of its thread: they overlap (R159), the
earlier one acquires, or the later one releases what the earlier one is part of (R332 to R335). -/
def FlightKind.covered (k : FlightKind) (rel : Option (BitVec 3)) : Bool :=
  match k, rel with
  | .load .., some _ => true
  | .rmw .., some _ => true
  | .store _ ord sco _ c, some d => c == d || publishes ord sco
  | .pxout, some d => d == 0
  | _, _ => false

/-- Whether an access may be performed now, against the earlier operations of its wave: those of its own threads, and
every acquire of the wave for a load that reads the L1 (R149). -/
def Wave.mayPerform (w : Wave) (op : Nat) (f : Flight) (a : LaneAcc) : Bool :=
  w.flights.all fun e =>
    decide (op ≤ e.1) ||
      e.2.accs.all fun b =>
        b.got.isSome ||
          !(e.2.kind.acquiresL2 && f.kind.readsL1 a.loc) &&
            (!shareThread b.lane e.2.threads a.lane f.threads ||
              !(b.loc.overlaps e.2.kind.size a.loc f.kind.size || e.2.kind.acquires || e.2.kind.covered f.kind.releases))

/-! Performing an access. -/

/-- The cluster's scratch bytes. -/
def State.scratchValue (s : State) (cl off n : Nat) : Nat := leValue (SMap.get (s.cluster cl).scratch) off n
def State.scratchWrite (s : State) (cl off : Nat) (bs : List Byte) : State :=
  s.onCluster cl fun c =>
    { c with scratch := ((upTo bs.length).foldl (fun m k => SMap.set m (off + k) (bs.getD k 0)) c.scratch) }

/-- The operation of an atomic on `n` bytes (R153). -/
def atomEval (o : AtomOp) (n old x : Nat) : Nat :=
  let m := 2 ^ (8 * n)
  let lt := intOf (8 * n) true old < intOf (8 * n) true x
  match o with
  | .add => (old + x) % m
  | .min => if lt then old else x
  | .max => if lt then x else old
  | .minu => min old x
  | .maxu => max old x
  | .and => old &&& x
  | .or => old ||| x
  | .xor => old ^^^ x
  | .xchg => x

/-- FAdd of R155 in a format: RNE, no exception. -/
def atomFAdd (F : FloatFmt) (a b : Nat) : Nat :=
  F.encode (roundTo F .rne false false (fAdd false (F.decode a) (F.decode b)).1).1

/-- What a read-modify-write stores, none when it writes nothing (R153). -/
def RmwFn.eval (f : RmwFn) (n old x x2 : Nat) : Option Nat :=
  match f with
  | .op o => some (atomEval o n old x)
  | .cas => if old = x then some x2 else none
  | .addF32 => some (atomFAdd fmtF32 old x)
  | .addBf16x2 => some (atomFAdd fmtBf16 (old % 65536) (x % 65536) + 65536 * atomFAdd fmtBf16 (old / 65536) (x / 65536))

/-- The release action of an operation at cohort scope or wider (R149). -/
def State.releaseFor (s : State) (core : Nat) (k : FlightKind) (sco : Scope) : State :=
  match k.releases with
  | some c => if atL2 sco then s.release core (BitVec.ofNat 8 (2 ^ c.toNat)) else s
  | none => s

/-- The acquire action of an operation at cohort scope or wider (R149). -/
def State.acquireFor (s : State) (core : Nat) (k : FlightKind) (sco : Scope) : State :=
  if k.acquires && atL2 sco then s.acquire core else s

/-- Performs one access of an operation: the value it read (0 for a store), and the machine after (R150, R153). -/
def State.performAcc (s : State) (core : Nat) (k : FlightKind) (a : LaneAcc) : Nat × State :=
  let cl := clusterOf core
  match k with
  | .load n _ _ ord sco ch =>
    let (v, s1) := match a.loc with
      | .scratch o => (s.scratchValue cl o n, s)
      | .mem pa => s.readFor core pa n (ord != LdOrd.plain && atL2 sco) ch
    (v, s1.acquireFor core k sco)
  | .store n ord sco ch col =>
    let s1 := s.releaseFor core k sco
    (0, match a.loc with
      | .scratch o => s1.scratchWrite cl o (leBytes a.data.toNat n)
      | .mem pa => s1.writeFor core pa n (a.data.toNat % 2 ^ (8 * n)) (ord != StOrd.plain && atL2 sco) ch col)
  | .rmw n f _ _ sco _ =>
    let s1 := s.releaseFor core k sco
    let x := a.data.toNat % 2 ^ (8 * n)
    let x2 := a.data2.toNat % 2 ^ (8 * n)
    let (old, s2) := match a.loc with
      | .scratch o =>
        let old := s1.scratchValue cl o n
        (old, match f.eval n old x x2 with
          | some v => s1.scratchWrite cl o (leBytes v n)
          | none => s1)
      | .mem pa =>
        let s2 := s1.flushRange core pa n
        let old := s2.homeValue pa n
        (old, match f.eval n old x x2 with
          | some v => s2.homeStore pa n v
          | none => s2)
    (old, s2.acquireFor core k sco)
  | .pxout =>
    (0, match a.loc with
      | .scratch _ => s
      | .mem pa => s.writeFor core pa 4 (a.data.toNat % 2 ^ 32) false .l2Direct 0)
  | .cache write inval cluster _ _ =>
    match a.loc with
    | .scratch _ => (0, s)
    | .mem pa =>
      let base := pa / 64 * 64
      let s1 := if write then s.writeBack core fun b _ => decide (base ≤ b ∧ b < base + 64) else s
      let s2 := if inval then s1.onCore core fun c =>
        { c with l1 := c.l1.filter fun e => !decide (base ≤ e.1 ∧ e.1 < base + 64) } else s1
      (0, if cluster then s2.onCluster cl fun c =>
        { c with cache := c.cache.filter fun e => e.1 / 256 != pa / 256 } else s2)
  | _ => (0, s)

/-- Records the value an access read. -/
def Wave.recordAcc (w : Wave) (op lane v : Nat) : Wave :=
  { w with flights := AMap.adjust w.flights op fun f =>
      { f with accs := f.accs.map fun a =>
          if a.lane = lane ∧ a.got.isNone then { a with got := some (BitVec.ofNat 128 v) } else a } }

/-- An access must wait for a lower lane of its own word: every one for a read-modify-write, one that overlaps for a
store (R151, R153). -/
def Flight.laneTurn (f : Flight) (a : LaneAcc) : Bool :=
  f.accs.all fun b =>
    b.got.isSome || decide (a.lane ≤ b.lane) ||
      match f.kind with
      | .rmw .. => false
      | .store n .. => !b.loc.overlaps n a.loc n
      | .pxout => !b.loc.overlaps 4 a.loc 4
      | _ => true

/-- An access to a peer that can be reached, or to no peer; one to a peer that is lost completes with its fault (R412). -/
def State.peerOpen (s : State) (pa : Nat) : Bool :=
  match paClass pa with
  | .peer id _ => (s.peer id).reachable
  | _ => true

/-- No retraining link holds back an access or the release that it makes (R396). -/
def State.pathOpen (s : State) (core : Nat) (k : FlightKind) (l : Loc) : Bool :=
  (match l with
    | .scratch _ => true
    | .mem pa => s.linkOpen (dieOf core) (s.dieFor pa) && s.peerOpen pa) &&
  match k.releases with
  | some c => s.canRelease core (BitVec.ofNat 8 (2 ^ c.toNat))
  | none => true

/-- Performs the access of a lane when its turn has come. -/
def State.performLane (s : State) (w op lane : Nat) : State :=
  let x := s.wave w
  match AMap.find x.flights op with
  | none => s
  | some f =>
    match f.accs.find? fun a => a.lane == lane && a.got.isNone with
    | none => s
    | some a =>
      if f.laneTurn a && x.mayPerform op f a && (f.kind != .pxout || s.pixelTurn w) && s.pathOpen x.core f.kind a.loc then
        let (v, s1) := s.performAcc x.core f.kind a
        s1.onWave w fun y => y.recordAcc op lane v
      else s

/-- Performs the remaining accesses of an operation, in ascending lane order. -/
def State.performAll (s : State) (w op : Nat) : State :=
  match AMap.find (s.wave w).flights op with
  | none => s
  | some f => f.accs.foldl (fun s a => s.performLane w op a.lane) s

/-- The registers a loaded value goes to (R150): word k in register D + k, bytes and halves extended. -/
def destOf (d : MemDest) (lane n : Nat) (ext : Extend) (v : Nat) : List RegWrite :=
  let words : List Word :=
    if n < 4 then
      [match ext with
        | .zero => BitVec.ofNat 32 v
        | .sign => BitVec.ofInt 32 (intOf (8 * n) true v)]
    else (upTo (n / 4)).map fun k => BitVec.ofNat 32 (v / 2 ^ (32 * k))
  match d with
  | .v r => (upTo words.length).map fun k => .v (BitVec.ofNat 10 (r.toNat + k)) lane (words.getD k 0)
  | .s r => scalarWrites r words

/-- The writes of a completed load or read-modify-write. -/
def Flight.results (f : Flight) : List RegWrite :=
  let go (d : MemDest) (n : Nat) (ext : Extend) : List RegWrite :=
    f.accs.flatMap fun a => match a.got with
      | some v => destOf d a.lane n ext v.toNat
      | none => []
  match f.kind with
  | .load n ext d _ _ _ => go d n ext
  | .rmw n _ d _ _ _ => go d n .zero
  | .fixed _ ws => ws.map fun r => r.1
  | .result ws => ws
  | _ => []

/-- What an early read may find of an operation in flight (R41): its results that are known, the special registers apart,
which R118 governs. -/
def Flight.early (f : Flight) : List RegWrite :=
  f.results.filter fun r => match r with
    | .sr _ _ => false
    | .flags _ => false
    | .send _ _ => false
    | _ => true

/-- The special registers that an early `srd` may find (R118). -/
def Flight.earlySr (f : Flight) : List RegWrite :=
  f.results.filter fun r => match r with
    | .sr _ _ => true
    | _ => false

/-- The port fields of the control page (R287). -/
def portFields (k : Nat) (p : PortSt) : List PageField :=
  let o := 0x680 + 16 * k
  [(o, 4, (if p.full.isSome then 2 ^ 14 else 0) + 256 * p.held + 4 * p.cred + p.mode.toNat),
   (o + 4, 4, p.target.toNat), (o + 8, 4, p.hdr.toNat), (o + 12, 4, (p.full.getD 0).toNat)]

/-- The fields of a control page that a register write changes (R172). -/
def Wave.changed (w : Wave) : RegWrite → List PageField
  | .v .. => []
  | .s r x => [(0x200 + 4 * r.toNat, 4, x.toNat)]
  | .m r _ => if r = 0 then [] else [(0x600 + 8 * r.toNat, 8, (w.rm r).toNat)]
  | .mBit r _ _ => if r = 0 then [] else [(0x600 + 8 * r.toNat, 8, (w.rm r).toNat)]
  | .q .. => [(0x148, 4, (w.q ||| 1).toNat)]
  | .sr _ _ =>
    [(0x158, 4, w.fpctl.toNat), (0x15C, 4, w.fpstat.toNat), (0x160, 4, w.prio.toNat), (0x164, 4, w.age.toNat),
     (0x16C, 4, w.late.toNat), (0x170, 4, w.waitovf.toNat), (0x174, 4, w.trapcause.toNat),
     (0x178, 8, w.trapaddr.toNat % 2 ^ 57), (0x180, 4, w.trappc.toNat)]
  | .flags _ => [(0x15C, 4, w.fpstat.toNat)]
  | .send p _ => portFields p.toNat (w.port p.toNat)

/-- A halted wave's control page is in its image, and not in a shadow store any more (R197). -/
def State.pageInImage (s : State) (w : Nat) : Bool :=
  let x := s.wave w
  x.slot.isNone && (AMap.find s.waves w).isSome && !(s.core x.core).draining.contains w

/-- Fields of a halted wave's control page are written in its image as well (R196). -/
def State.mirror (s : State) (w : Nat) (fs : List PageField) : State :=
  if s.pageInImage w then
    let x := s.wave w
    fs.foldl (fun s f => s.imageWrite x.pasid (waveImageOff x.image + controlOff + f.1) f.2.1 f.2.2) s
  else s

/-- A vector result whose register line is not in the register cache is written in the image (R175). -/
def State.mirrorLine (s : State) (w : Nat) : RegWrite → State
  | .v r l x =>
    let y := s.wave w
    let line := 4 * r.toNat + l / 16
    if (s.core y.core).missing.contains (w, line) then
      s.imageWrite y.pasid (waveImageOff y.image + lineOff line + 4 * (l % 16)) 4 x.toNat
    else s
  | _ => s

/-- The completion of an operation reaches a halted wave's state wherever it lies (R196). -/
def State.mirrorWrites (s : State) (w : Nat) (f : Flight) (ws : List RegWrite) : State :=
  let x := s.wave w
  let s1 := ws.foldl (fun s r => s.mirrorLine w r) s
  s1.mirror w (ws.flatMap (fun r => x.changed r) ++
    (if 11 < f.flag.toNat then [] else [(0x14C + f.flag.toNat, 1, (x.flag f.flag.toNat).toNat)]) ++
    match f.kind with
    | .fence .. => [(0x198, 4, (x.flights.filter fun e => match e.2.kind with
        | .fence .. => true
        | _ => false).length)]
    | _ => [])

/-- An operation completes: its writes land, its flag falls, and it is in flight no longer (R39, R196). -/
def State.complete (s : State) (w op : Nat) : State :=
  match AMap.find (s.wave w).flights op with
  | none => s
  | some f =>
    let s1 := s.landWrites w f.results
    (s1.onWave w fun x => { x.lowerFlag f.flag with flights := AMap.del x.flights op }).mirrorWrites w f f.results

/-- Every access of an operation has been performed. -/
def Flight.performed (f : Flight) : Bool := f.accs.all fun a => a.got.isSome

/-- Performs what is left of an operation and completes it once all of it is performed. -/
def State.performComplete (s : State) (w op : Nat) : State :=
  let s1 := s.performAll w op
  match AMap.find (s1.wave w).flights op with
  | some f => if f.performed then s1.complete w op else s1
  | none => s1

/-- The accesses of a wave's earlier operations are performed, as its release needs (R332). -/
def State.performEarlier (s : State) (w : Nat) : State :=
  (s.wave w).flights.foldl (fun s e => s.performAll w e.1) s

/-- Nothing holds back a release of all colours for a wave: each of its earlier accesses can be performed, and no
retraining link keeps a dirty byte (R332, R374, R396). -/
def State.mayRelease (s : State) (w : Nat) (sco : Scope) : Bool :=
  let s1 := s.performEarlier w
  ((s1.wave w).flights.all fun e => e.2.accs.all fun a => a.got.isSome) &&
    (!atL2 sco || s1.canRelease (s1.wave w).core 0xFF)

/-- A release of all colours for a wave: its earlier accesses are performed, and at cohort scope or wider its core's
dirty bytes are written back (R149, R332). -/
def State.releaseAll (s : State) (w : Nat) (sco : Scope) : State :=
  let s1 := s.performEarlier w
  if atL2 sco then s1.release (s1.wave w).core 0xFF else s1

/-- Whether a fence's ordering is satisfied: the earlier operations it orders are complete (R156). -/
def Wave.fenceMet (w : Wave) (op : Nat) (k : FenceKind) (colours : BitVec 8) : Bool :=
  w.flights.all fun e =>
    decide (op ≤ e.1) ||
      match e.2.kind with
      | .load .. => false
      | .rmw _ _ _ _ sco c => k == .release && !colours.getLsbD c.toNat && !atL2 sco
      | .store _ ord sco _ c => k == .acquire || (!colours.getLsbD c.toNat && !publishes ord sco)
      | .pxout => k == .acquire || !colours.getLsbD 0
      | _ => true

/-- A fence is complete: the release and acquire actions of its scope (R149, R156). -/
def State.fenceActions (s : State) (core : Nat) (k : FenceKind) (sco : Scope) (colours : BitVec 8) : State :=
  if atL2 sco then
    let s1 := if k = .acquire then s else s.release core colours
    if k = .release then s1 else s1.acquire core
  else s

/-- Whether the wave has an incomplete fence (R156). -/
def Wave.fenced (w : Wave) : Bool :=
  w.flights.any fun e => match e.2.kind with
    | .fence .. => true
    | _ => false

end Sys2Proof.Machine
end

