-- ==== Sys2Proof/Machine/Memory.lean ====
section
/-!
DEFINITION. Memory words: loads, stores, read-modify-writes, fences, waits on memory, cache control (R144 to R159).
-/

namespace Sys2Proof.Machine

/-- The addresses of the enabled lanes: a pair of vector registers, or a local offset (R144). -/
def Wave.laneAddrs (w : Wave) (sp : Space) (a : VReg) (en : Lanes) : List (Nat × Nat) :=
  (lanesOf en).map fun l => (l, match sp with
    | .global => (w.rvPair a l).toNat
    | .local_ => (w.rv a l).toNat)

/-- The data of `n` bytes from consecutive vector registers of a lane, or scalars (R150). -/
def Wave.laneData (w : Wave) (d : VReg) (k l : Nat) : BitVec 128 :=
  w.rvk d (k + 3) l ++ w.rvk d (k + 2) l ++ w.rvk d (k + 1) l ++ w.rvk d k l
def Wave.scalarData (w : Wave) (d : SReg) (k : Nat) : BitVec 128 :=
  w.rsk d (k + 3) ++ w.rsk d (k + 2) ++ w.rsk d (k + 1) ++ w.rsk d k

/-- The access that asks for a page permission: read-modify-writes count as stores (R189). -/
def FlightKind.access : FlightKind → Access
  | .load .. => .load
  | .cache .. => .load
  | _ => .store

/-- A per-lane memory word under a predicate or the mask of a pair, with lanes that receive zeros (R58, R150, R153). -/
def State.laneMem (s : State) (x : Issue) (setf : BitVec 4) (sp : Space) (k : FlightKind) (a : VReg) (d : VReg)
    (d2 : Nat) (zero : Lanes) (next : Word) : State :=
  let w := s.wave x.w
  let (rs, s1) := s.resolveAll x.w sp k.size k.access false (w.laneAddrs sp a x.en)
  s1.issueLanes x setf k rs (fun l loc => LaneAcc.of l loc (w.laneData d 0 l) ((w.laneData d d2 l).setWidth 64))
    ((lanesOf zero).map fun l => ⟨l, .mem 0, 0, 0, some 0, 0, 0⟩) next

/-- The meaning of a per-lane memory word without a prefix. -/
def laneMemWord (c : Ctl) (sp : Space) (k : FlightKind) (a d : VReg) (d2 : Nat) (s : State) :
    Host.Outcome State Fault Refusal :=
  scalarWord c s fun x s => s.laneMem x c.h.setf sp k a d d2 0 (x.pc + 1)

/-- The meaning of a uniform memory word (R152). -/
def uniformMemWord (c : Ctl) (k : FlightKind) (a d : SReg) (d2 : Nat) (s : State) :
    Host.Outcome State Fault Refusal :=
  scalarWord c s fun x s =>
    let w := s.wave x.w
    let addr := (w.rsPair a).toNat
    let (r, s1) := s.resolve x.w .global addr k.size k.access false
    s1.issueUniform x c.h.setf k addr r fun loc => LaneAcc.of 64 loc (w.scalarData d 0) ((w.scalarData d d2).setWidth 64)

/-- A read-modify-write that PCI Express carries (R412). -/
def RmwFn.overPcie : RmwFn → Bool
  | .op .add => true
  | .op .xchg => true
  | .cas => true
  | _ => false

/-- A peer reached over PCI Express (R413). -/
def State.peerPcie (s : State) : Loc → Bool
  | .mem pa => match paClass pa with
    | .peer id _ => (SMap.get s.fabric.peerport id).getLsbD 6
    | _ => false
  | .scratch _ => false

/-- Read-modify-writes that PCI Express does not carry raise an access fault on their lanes (R412). -/
def State.pcieFilter (s : State) (f : RmwFn) (rs : List Resolved) : List Resolved :=
  rs.map fun r => match r.loc with
    | .ok l => if s.peerPcie l && !f.overPcie then { r with loc := .error .access } else r
    | .error _ => r

/-- The meaning of a per-lane read-modify-write (R153, R154). -/
def laneRmwWord (c : Ctl) (sp : Space) (n : Nat) (f : RmwFn) (ord : RmwOrd) (sco : Scope) (col : BitVec 3)
    (a d : VReg) (d2 : Nat) (s : State) : Host.Outcome State Fault Refusal :=
  scalarWord c s fun x s =>
    let w := s.wave x.w
    let (rs, s1) := s.resolveAll x.w sp n .store true (w.laneAddrs sp a x.en)
    s1.issueLanes x c.h.setf (.rmw n f (.v d) ord sco col) (s1.pcieFilter f rs)
      (fun l loc => LaneAcc.of l loc (w.laneData d 0 l) ((w.laneData d d2 l).setWidth 64)) [] (x.pc + 1)

/-- The meaning of a uniform read-modify-write (R153, R154). -/
def uniformRmwWord (c : Ctl) (f : RmwFn) (ord : RmwOrd) (sco : Scope) (col : BitVec 3) (a d : SReg) (s : State) :
    Host.Outcome State Fault Refusal :=
  scalarWord c s fun x s =>
    let w := s.wave x.w
    let addr := (w.rsPair a).toNat
    let (r, s1) := s.resolve x.w .global addr 4 .store true
    let r' := match r with
      | .ok l => if s1.peerPcie l && !f.overPcie then .error .access else .ok l
      | .error e => .error e
    s1.issueUniform x c.h.setf (.rmw 4 f (.s d) ord sco col) addr r'
      fun loc => LaneAcc.of 64 loc (w.scalarData d 0) ((w.scalarData d 1).setWidth 64)

/-- FENCE (R156). -/
def execFence (c : Ctl) (colmask : BitVec 8) (fkind : FenceKind) (sco : Scope) (s : State) :
    Host.Outcome State Fault Refusal :=
  scalarWord c s fun x s =>
    (s.onWave x.w fun w =>
      (w.raiseFlag c.h.setf).addFlight ⟨.fence fkind sco colmask, c.h.setf, w.launched, []⟩).goto x x.run (x.pc + 1)

/-- The home slice of an address, over all dies (R315). -/
def sliceOf (pa : Nat) : Nat := 48 * homeDie pa + pa / 256 % 48

/-- Whether a slice has a watch entry free for a wave, not counting the one it holds (R320). -/
def State.watchFree (s : State) (w slice : Nat) : Bool :=
  decide ((s.waves.filter fun e => e.1 != w && match e.2.watch with
    | some u => u.held && sliceOf u.pa == slice
    | none => false).length < 256)

/-- Arms the wave's watch on a word's sector and clears the written bit (R157, R320). A wave that already holds an
entry of the same slice takes the new one first. -/
def State.arm (s : State) (w va pa : Nat) : State :=
  let x := s.wave w
  let mine := match x.watch with
    | some u => u.held && sliceOf u.pa == sliceOf pa && u.pa / 64 != pa / 64
    | none => false
  let count := (s.waves.filter fun e => match e.2.watch with
    | some u => u.held && sliceOf u.pa == sliceOf pa
    | none => false).length
  let held := if mine then decide (count < 256) else s.watchFree w (sliceOf pa)
  s.onWave w fun x => { x with watch := some ⟨va, pa, false, held⟩ }

/-- MONITOR (R157). -/
def execMonitor (c : Ctl) (a : SReg) (_col : BitVec 3) (_sco : Scope) (_ch : Chan) (s : State) :
    Host.Outcome State Fault Refusal :=
  scalarWord c s fun x s =>
    let addr := ((s.wave x.w).rsPair a).toNat
    match s.resolve x.w .global addr 4 .load false with
    | (.ok (.mem pa), s1) => ((s1.arm x.w addr pa).noResult x c).goto x x.run (x.pc + 1)
    | (.ok (.scratch _), s1) => s1.goto x x.run (x.pc + 1)
    | (.error e, s1) => s1.park x.w x.run x.pc e (BitVec.ofNat 64 addr)

/-- The read of `mwait`: the word under its ORD and SCO, the written bit cleared in the same action (R157). -/
def State.mwaitRead (s : State) (w pa : Nat) (ord : LdOrd) (sco : Scope) (ch : Chan) : Word × State :=
  let core := (s.wave w).core
  let (v, s1) := s.readFor core pa 4 (ord != LdOrd.plain && atL2 sco) ch
  let s2 := if ord == LdOrd.acquire && atL2 sco then s1.acquire core else s1
  (BitVec.ofNat 32 v, s2.onWave w fun x => { x with watch := x.watch.map fun u => { u with written := false } })

/-- The read of an `mwait` may be performed: the run's earlier accesses to the word have been (R159). -/
def Wave.mayRead (w : Wave) (op : Nat) (run : Lanes) (pa : Nat) (d : SReg) (ord : LdOrd) (sco : Scope) (ch : Chan) : Bool :=
  w.mayPerform op ⟨.load 4 .zero (.s d) ord sco ch, 15, run, []⟩ (LaneAcc.of 64 (.mem pa) 0 0)

/-- The written bit of the wave's watch. -/
def Wave.watchWritten (w : Wave) : Bool :=
  match w.watch with
  | some u => u.written
  | none => false

/-- MWAIT (R157): completes at once when the watched sector was written or the word differs from S[D], else sleeps. Where an
earlier access of the run to the word is still to be performed, its read waits for that (R159). -/
def execMwait (c : Ctl) (d a : SReg) (_col : BitVec 3) (sco : Scope) (ord : LdOrd) (ch : Chan) (s : State) :
    Host.Outcome State Fault Refusal :=
  scalarWord c s fun x s =>
    let w := s.wave x.w
    let addr := (w.rsPair a).toNat
    match s.resolve x.w .global addr 4 .load false with
    | (.error e, s1) => s1.park x.w x.run x.pc e (BitVec.ofNat 64 addr)
    | (.ok (.scratch _), s1) => s1.goto x x.run (x.pc + 1)
    | (.ok (.mem pa), s1) =>
      let armed := match w.watch with
        | some u => u.pa / 64 == pa / 64
        | none => false
      let s2 := if armed then s1 else s1.arm x.w addr pa
      let old := w.rs d
      let sleep (s : State) (untested : Option Nat) : State :=
        (s.onWave x.w fun w => w.raiseFlag c.h.setf).sleepRun x.w x.run x.pc (x.pc + 1)
          (.mwait addr pa old d ord sco ch untested) c.h.setf
      if !w.mayRead w.nextOp x.run pa d ord sco ch then sleep s2 (some w.nextOp)
      else
      let (v, s3) := s2.mwaitRead x.w pa ord sco ch
      if (s2.wave x.w).watchWritten || v != old then
        (s3.onWave x.w fun w =>
          (w.raiseFlag c.h.setf).addFlight ⟨.result [.s d v], c.h.setf, x.run, []⟩).goto x x.run (x.pc + 1)
      else sleep s3 none

/-- The line addresses of a cache word: the low six bits are ignored (R158). -/
def Wave.lineAddrs (w : Wave) (a : VReg) (en : Lanes) : List (Nat × Nat) :=
  (w.laneAddrs .global a en).map fun p => (p.1, p.2 / 64 * 64)

/-- A line fills into the L2 from DRAM (R316, R158). -/
def State.fillL2 (s : State) (pa : Nat) : State :=
  match paClass pa with
  | .dram => if s.sectorLost pa then s else
    { s with l2 := (upTo 64).foldl (fun m k =>
        match AMap.find m (pa / 64 * 64 + k) with
        | some _ => m
        | none => AMap.put m (pa / 64 * 64 + k) (s.mem.read (pa / 64 * 64 + k), false)) s.l2 }
  | _ => s

/-- One lane's prefetch (R158): a line that would fault is not fetched. -/
def State.prefetchLine (s : State) (w : Nat) (ch : Chan) (addr : Nat) : State :=
  let core := (s.wave w).core
  match s.resolve w .global addr 64 .load false with
  | (.ok (.mem pa), s1) =>
    if !cacheable pa then s1
    else
      match ch with
      | .dflt => s1.fillLine core pa
      | .roPath => s1.fillCache (clusterOf core) pa
      | _ => s1.fillL2 pa
  | (_, s1) => s1

/-- PF (R158). Completes one cycle after issue. -/
def execPf (c : Ctl) (a : VReg) (_col : BitVec 3) (_sco : Scope) (ch : Chan) (s : State) :
    Host.Outcome State Fault Refusal :=
  scalarWord c s fun x s =>
    let as := (s.wave x.w).lineAddrs a x.en
    ((as.foldl (fun s p => s.prefetchLine x.w ch p.2) s).noResult x c).goto x x.run (x.pc + 1)

/-- A cache-control word (R158). -/
def cacheWord (c : Ctl) (a : VReg) (write inval cluster : Bool) (s : State) : Host.Outcome State Fault Refusal :=
  scalarWord c s fun x s =>
    let (rs, s1) := s.resolveAll x.w .global 64 .load false ((s.wave x.w).lineAddrs a x.en)
    s1.issueLanes x c.h.setf (.cache write inval cluster false false) rs (fun l loc => LaneAcc.of l loc 0 0) []
      (x.pc + 1)

/-- CWB (R158). -/
def execCwb (c : Ctl) (a : VReg) (_col : BitVec 3) (_sco : Scope) (_ch : Chan) (s : State) :
    Host.Outcome State Fault Refusal :=
  cacheWord c a true false false s

/-- CINV (R158). -/
def execCinv (c : Ctl) (a : VReg) (_col : BitVec 3) (_sco : Scope) (ch : Chan) (s : State) :
    Host.Outcome State Fault Refusal :=
  if ch = .roPath then cacheWord c a false false true s else cacheWord c a true true false s

/-- LDV_B8Z (R150). Per-lane load of a byte, zero-extended. -/
def execLdvB8z (c : Ctl) (d : VReg) (a : VReg) (_col : BitVec 3) (sco : Scope) (ord : LdOrd) (ch : Chan) (s : State) :
    Host.Outcome State Fault Refusal :=
  laneMemWord c .global (.load 1 .zero (.v d) ord sco ch) a d 0 s

/-- LDV_B8S (R150). Per-lane load of a byte, sign-extended. -/
def execLdvB8s (c : Ctl) (d : VReg) (a : VReg) (_col : BitVec 3) (sco : Scope) (ord : LdOrd) (ch : Chan) (s : State) :
    Host.Outcome State Fault Refusal :=
  laneMemWord c .global (.load 1 .sign (.v d) ord sco ch) a d 0 s

/-- LDV_B16Z (R150). Per-lane load of a half-word, zero-extended. -/
def execLdvB16z (c : Ctl) (d : VReg) (a : VReg) (_col : BitVec 3) (sco : Scope) (ord : LdOrd) (ch : Chan) (s : State) :
    Host.Outcome State Fault Refusal :=
  laneMemWord c .global (.load 2 .zero (.v d) ord sco ch) a d 0 s

/-- LDV_B16S (R150). Per-lane load of a half-word, sign-extended. -/
def execLdvB16s (c : Ctl) (d : VReg) (a : VReg) (_col : BitVec 3) (sco : Scope) (ord : LdOrd) (ch : Chan) (s : State) :
    Host.Outcome State Fault Refusal :=
  laneMemWord c .global (.load 2 .sign (.v d) ord sco ch) a d 0 s

/-- LDV_B32 (R150). Per-lane load of a word. -/
def execLdvB32 (c : Ctl) (d : VReg) (a : VReg) (_col : BitVec 3) (sco : Scope) (ord : LdOrd) (ch : Chan) (s : State) :
    Host.Outcome State Fault Refusal :=
  laneMemWord c .global (.load 4 .zero (.v d) ord sco ch) a d 0 s

/-- LDV_B64 (R150). Per-lane load of 8 bytes into a pair. -/
def execLdvB64 (c : Ctl) (d : VReg) (a : VReg) (_col : BitVec 3) (sco : Scope) (ord : LdOrd) (ch : Chan) (s : State) :
    Host.Outcome State Fault Refusal :=
  laneMemWord c .global (.load 8 .zero (.v d) ord sco ch) a d 0 s

/-- LDV_B128 (R150). Per-lane load of 16 bytes into a quad. -/
def execLdvB128 (c : Ctl) (d : VReg) (a : VReg) (_col : BitVec 3) (sco : Scope) (ord : LdOrd) (ch : Chan) (s : State) :
    Host.Outcome State Fault Refusal :=
  laneMemWord c .global (.load 16 .zero (.v d) ord sco ch) a d 0 s

/-- STV_B8 (R150). Per-lane store of a byte. -/
def execStvB8 (c : Ctl) (d : VReg) (a : VReg) (col : BitVec 3) (sco : Scope) (ord : StOrd) (ch : Chan) (s : State) :
    Host.Outcome State Fault Refusal :=
  laneMemWord c .global (.store 1 ord sco ch col) a d 0 s

/-- STV_B16 (R150). Per-lane store of a half-word. -/
def execStvB16 (c : Ctl) (d : VReg) (a : VReg) (col : BitVec 3) (sco : Scope) (ord : StOrd) (ch : Chan) (s : State) :
    Host.Outcome State Fault Refusal :=
  laneMemWord c .global (.store 2 ord sco ch col) a d 0 s

/-- STV_B32 (R150). Per-lane store of a word. -/
def execStvB32 (c : Ctl) (d : VReg) (a : VReg) (col : BitVec 3) (sco : Scope) (ord : StOrd) (ch : Chan) (s : State) :
    Host.Outcome State Fault Refusal :=
  laneMemWord c .global (.store 4 ord sco ch col) a d 0 s

/-- STV_B64 (R150). Per-lane store of 8 bytes. -/
def execStvB64 (c : Ctl) (d : VReg) (a : VReg) (col : BitVec 3) (sco : Scope) (ord : StOrd) (ch : Chan) (s : State) :
    Host.Outcome State Fault Refusal :=
  laneMemWord c .global (.store 8 ord sco ch col) a d 0 s

/-- STV_B128 (R150). Per-lane store of 16 bytes. -/
def execStvB128 (c : Ctl) (d : VReg) (a : VReg) (col : BitVec 3) (sco : Scope) (ord : StOrd) (ch : Chan) (s : State) :
    Host.Outcome State Fault Refusal :=
  laneMemWord c .global (.store 16 ord sco ch col) a d 0 s

/-- LDS_B32 (R152). Uniform load of a word into a scalar. -/
def execLdsB32 (c : Ctl) (d : SReg) (a : SReg) (_col : BitVec 3) (sco : Scope) (ord : LdOrd) (ch : Chan) (s : State) :
    Host.Outcome State Fault Refusal :=
  uniformMemWord c (.load 4 .zero (.s d) ord sco ch) a d 0 s

/-- LDS_B64 (R152). Uniform load of 8 bytes into a scalar pair. -/
def execLdsB64 (c : Ctl) (d : SReg) (a : SReg) (_col : BitVec 3) (sco : Scope) (ord : LdOrd) (ch : Chan) (s : State) :
    Host.Outcome State Fault Refusal :=
  uniformMemWord c (.load 8 .zero (.s d) ord sco ch) a d 0 s

/-- LDS_B128 (R152). Uniform load of 16 bytes into a scalar quad. -/
def execLdsB128 (c : Ctl) (d : SReg) (a : SReg) (_col : BitVec 3) (sco : Scope) (ord : LdOrd) (ch : Chan) (s : State) :
    Host.Outcome State Fault Refusal :=
  uniformMemWord c (.load 16 .zero (.s d) ord sco ch) a d 0 s

/-- STS_B32 (R152). Uniform store of a scalar. -/
def execStsB32 (c : Ctl) (d : SReg) (a : SReg) (col : BitVec 3) (sco : Scope) (ord : StOrd) (ch : Chan) (s : State) :
    Host.Outcome State Fault Refusal :=
  uniformMemWord c (.store 4 ord sco ch col) a d 0 s

/-- STS_B64 (R152). Uniform store of a scalar pair. -/
def execStsB64 (c : Ctl) (d : SReg) (a : SReg) (col : BitVec 3) (sco : Scope) (ord : StOrd) (ch : Chan) (s : State) :
    Host.Outcome State Fault Refusal :=
  uniformMemWord c (.store 8 ord sco ch col) a d 0 s

/-- LDL_B32 (R150). Per-lane local load of a word. -/
def execLdlB32 (c : Ctl) (d : VReg) (a : VReg) (_col : BitVec 3) (sco : Scope) (ord : LdOrd) (ch : Chan) (s : State) :
    Host.Outcome State Fault Refusal :=
  laneMemWord c .local_ (.load 4 .zero (.v d) ord sco ch) a d 0 s

/-- LDL_B128 (R150). Per-lane local load of 16 bytes. -/
def execLdlB128 (c : Ctl) (d : VReg) (a : VReg) (_col : BitVec 3) (sco : Scope) (ord : LdOrd) (ch : Chan) (s : State) :
    Host.Outcome State Fault Refusal :=
  laneMemWord c .local_ (.load 16 .zero (.v d) ord sco ch) a d 0 s

/-- STL_B32 (R150). Per-lane local store of a word. -/
def execStlB32 (c : Ctl) (d : VReg) (a : VReg) (col : BitVec 3) (sco : Scope) (ord : StOrd) (ch : Chan) (s : State) :
    Host.Outcome State Fault Refusal :=
  laneMemWord c .local_ (.store 4 ord sco ch col) a d 0 s

/-- STL_B128 (R150). Per-lane local store of 16 bytes. -/
def execStlB128 (c : Ctl) (d : VReg) (a : VReg) (col : BitVec 3) (sco : Scope) (ord : StOrd) (ch : Chan) (s : State) :
    Host.Outcome State Fault Refusal :=
  laneMemWord c .local_ (.store 16 ord sco ch col) a d 0 s

/-- ATOM_ADD_B32 (R153). Per-lane 32-bit atomic add at the home slice. -/
def execAtomAddB32 (c : Ctl) (d : VReg) (a : VReg) (col : BitVec 3) (sco : Scope) (ord : RmwOrd) (_ch : Chan) (s : State) :
    Host.Outcome State Fault Refusal :=
  laneRmwWord c .global 4 (.op .add) ord sco col a d 0 s

/-- ATOM_MIN_B32 (R153). Per-lane 32-bit atomic signed minimum. -/
def execAtomMinB32 (c : Ctl) (d : VReg) (a : VReg) (col : BitVec 3) (sco : Scope) (ord : RmwOrd) (_ch : Chan) (s : State) :
    Host.Outcome State Fault Refusal :=
  laneRmwWord c .global 4 (.op .min) ord sco col a d 0 s

/-- ATOM_MAX_B32 (R153). Per-lane 32-bit atomic signed maximum. -/
def execAtomMaxB32 (c : Ctl) (d : VReg) (a : VReg) (col : BitVec 3) (sco : Scope) (ord : RmwOrd) (_ch : Chan) (s : State) :
    Host.Outcome State Fault Refusal :=
  laneRmwWord c .global 4 (.op .max) ord sco col a d 0 s

/-- ATOM_MINU_B32 (R153). Per-lane 32-bit atomic unsigned minimum. -/
def execAtomMinuB32 (c : Ctl) (d : VReg) (a : VReg) (col : BitVec 3) (sco : Scope) (ord : RmwOrd) (_ch : Chan) (s : State) :
    Host.Outcome State Fault Refusal :=
  laneRmwWord c .global 4 (.op .minu) ord sco col a d 0 s

/-- ATOM_MAXU_B32 (R153). Per-lane 32-bit atomic unsigned maximum. -/
def execAtomMaxuB32 (c : Ctl) (d : VReg) (a : VReg) (col : BitVec 3) (sco : Scope) (ord : RmwOrd) (_ch : Chan) (s : State) :
    Host.Outcome State Fault Refusal :=
  laneRmwWord c .global 4 (.op .maxu) ord sco col a d 0 s

/-- ATOM_AND_B32 (R153). Per-lane 32-bit atomic and. -/
def execAtomAndB32 (c : Ctl) (d : VReg) (a : VReg) (col : BitVec 3) (sco : Scope) (ord : RmwOrd) (_ch : Chan) (s : State) :
    Host.Outcome State Fault Refusal :=
  laneRmwWord c .global 4 (.op .and) ord sco col a d 0 s

/-- ATOM_OR_B32 (R153). Per-lane 32-bit atomic or. -/
def execAtomOrB32 (c : Ctl) (d : VReg) (a : VReg) (col : BitVec 3) (sco : Scope) (ord : RmwOrd) (_ch : Chan) (s : State) :
    Host.Outcome State Fault Refusal :=
  laneRmwWord c .global 4 (.op .or) ord sco col a d 0 s

/-- ATOM_XOR_B32 (R153). Per-lane 32-bit atomic xor. -/
def execAtomXorB32 (c : Ctl) (d : VReg) (a : VReg) (col : BitVec 3) (sco : Scope) (ord : RmwOrd) (_ch : Chan) (s : State) :
    Host.Outcome State Fault Refusal :=
  laneRmwWord c .global 4 (.op .xor) ord sco col a d 0 s

/-- ATOM_XCHG_B32 (R153). Per-lane 32-bit atomic exchange. -/
def execAtomXchgB32 (c : Ctl) (d : VReg) (a : VReg) (col : BitVec 3) (sco : Scope) (ord : RmwOrd) (_ch : Chan) (s : State) :
    Host.Outcome State Fault Refusal :=
  laneRmwWord c .global 4 (.op .xchg) ord sco col a d 0 s

/-- CAS_B32 (R153). Per-lane 32-bit compare-and-swap. -/
def execCasB32 (c : Ctl) (d : VReg) (a : VReg) (col : BitVec 3) (sco : Scope) (ord : RmwOrd) (_ch : Chan) (s : State) :
    Host.Outcome State Fault Refusal :=
  laneRmwWord c .global 4 .cas ord sco col a d 1 s

/-- ATOMF_ADD_F32 (R155). Per-lane atomic f32 add rounded to nearest, raising nothing. -/
def execAtomfAddF32 (c : Ctl) (d : VReg) (a : VReg) (col : BitVec 3) (sco : Scope) (ord : RmwOrd) (_ch : Chan) (s : State) :
    Host.Outcome State Fault Refusal :=
  laneRmwWord c .global 4 .addF32 ord sco col a d 0 s

/-- ATOMF_ADD_BF16X2 (R155). Per-lane atomic add of two bf16 elements. -/
def execAtomfAddBf16x2 (c : Ctl) (d : VReg) (a : VReg) (col : BitVec 3) (sco : Scope) (ord : RmwOrd) (_ch : Chan) (s : State) :
    Host.Outcome State Fault Refusal :=
  laneRmwWord c .global 4 .addBf16x2 ord sco col a d 0 s

/-- ATOM_ADD_B64 (R153). Per-lane 64-bit atomic add. -/
def execAtomAddB64 (c : Ctl) (d : VReg) (a : VReg) (col : BitVec 3) (sco : Scope) (ord : RmwOrd) (_ch : Chan) (s : State) :
    Host.Outcome State Fault Refusal :=
  laneRmwWord c .global 8 (.op .add) ord sco col a d 0 s

/-- ATOM_MIN_B64 (R153). Per-lane 64-bit atomic signed minimum. -/
def execAtomMinB64 (c : Ctl) (d : VReg) (a : VReg) (col : BitVec 3) (sco : Scope) (ord : RmwOrd) (_ch : Chan) (s : State) :
    Host.Outcome State Fault Refusal :=
  laneRmwWord c .global 8 (.op .min) ord sco col a d 0 s

/-- ATOM_MAX_B64 (R153). Per-lane 64-bit atomic signed maximum. -/
def execAtomMaxB64 (c : Ctl) (d : VReg) (a : VReg) (col : BitVec 3) (sco : Scope) (ord : RmwOrd) (_ch : Chan) (s : State) :
    Host.Outcome State Fault Refusal :=
  laneRmwWord c .global 8 (.op .max) ord sco col a d 0 s

/-- ATOM_MINU_B64 (R153). Per-lane 64-bit atomic unsigned minimum. -/
def execAtomMinuB64 (c : Ctl) (d : VReg) (a : VReg) (col : BitVec 3) (sco : Scope) (ord : RmwOrd) (_ch : Chan) (s : State) :
    Host.Outcome State Fault Refusal :=
  laneRmwWord c .global 8 (.op .minu) ord sco col a d 0 s

/-- ATOM_MAXU_B64 (R153). Per-lane 64-bit atomic unsigned maximum. -/
def execAtomMaxuB64 (c : Ctl) (d : VReg) (a : VReg) (col : BitVec 3) (sco : Scope) (ord : RmwOrd) (_ch : Chan) (s : State) :
    Host.Outcome State Fault Refusal :=
  laneRmwWord c .global 8 (.op .maxu) ord sco col a d 0 s

/-- ATOM_AND_B64 (R153). Per-lane 64-bit atomic and. -/
def execAtomAndB64 (c : Ctl) (d : VReg) (a : VReg) (col : BitVec 3) (sco : Scope) (ord : RmwOrd) (_ch : Chan) (s : State) :
    Host.Outcome State Fault Refusal :=
  laneRmwWord c .global 8 (.op .and) ord sco col a d 0 s

/-- ATOM_OR_B64 (R153). Per-lane 64-bit atomic or. -/
def execAtomOrB64 (c : Ctl) (d : VReg) (a : VReg) (col : BitVec 3) (sco : Scope) (ord : RmwOrd) (_ch : Chan) (s : State) :
    Host.Outcome State Fault Refusal :=
  laneRmwWord c .global 8 (.op .or) ord sco col a d 0 s

/-- ATOM_XOR_B64 (R153). Per-lane 64-bit atomic xor. -/
def execAtomXorB64 (c : Ctl) (d : VReg) (a : VReg) (col : BitVec 3) (sco : Scope) (ord : RmwOrd) (_ch : Chan) (s : State) :
    Host.Outcome State Fault Refusal :=
  laneRmwWord c .global 8 (.op .xor) ord sco col a d 0 s

/-- ATOM_XCHG_B64 (R153). Per-lane 64-bit atomic exchange. -/
def execAtomXchgB64 (c : Ctl) (d : VReg) (a : VReg) (col : BitVec 3) (sco : Scope) (ord : RmwOrd) (_ch : Chan) (s : State) :
    Host.Outcome State Fault Refusal :=
  laneRmwWord c .global 8 (.op .xchg) ord sco col a d 0 s

/-- CAS_B64 (R153). Per-lane 64-bit compare-and-swap. -/
def execCasB64 (c : Ctl) (d : VReg) (a : VReg) (col : BitVec 3) (sco : Scope) (ord : RmwOrd) (_ch : Chan) (s : State) :
    Host.Outcome State Fault Refusal :=
  laneRmwWord c .global 8 .cas ord sco col a d 2 s

/-- ATOMS_ADD_B32 (R154). Uniform 32-bit atomic add. -/
def execAtomsAddB32 (c : Ctl) (d : SReg) (a : SReg) (col : BitVec 3) (sco : Scope) (ord : RmwOrd) (_ch : Chan) (s : State) :
    Host.Outcome State Fault Refusal :=
  uniformRmwWord c (.op .add) ord sco col a d s

/-- ATOMS_MIN_B32 (R154). Uniform 32-bit atomic signed minimum. -/
def execAtomsMinB32 (c : Ctl) (d : SReg) (a : SReg) (col : BitVec 3) (sco : Scope) (ord : RmwOrd) (_ch : Chan) (s : State) :
    Host.Outcome State Fault Refusal :=
  uniformRmwWord c (.op .min) ord sco col a d s

/-- ATOMS_MAX_B32 (R154). Uniform 32-bit atomic signed maximum. -/
def execAtomsMaxB32 (c : Ctl) (d : SReg) (a : SReg) (col : BitVec 3) (sco : Scope) (ord : RmwOrd) (_ch : Chan) (s : State) :
    Host.Outcome State Fault Refusal :=
  uniformRmwWord c (.op .max) ord sco col a d s

/-- ATOMS_MINU_B32 (R154). Uniform 32-bit atomic unsigned minimum. -/
def execAtomsMinuB32 (c : Ctl) (d : SReg) (a : SReg) (col : BitVec 3) (sco : Scope) (ord : RmwOrd) (_ch : Chan) (s : State) :
    Host.Outcome State Fault Refusal :=
  uniformRmwWord c (.op .minu) ord sco col a d s

/-- ATOMS_MAXU_B32 (R154). Uniform 32-bit atomic unsigned maximum. -/
def execAtomsMaxuB32 (c : Ctl) (d : SReg) (a : SReg) (col : BitVec 3) (sco : Scope) (ord : RmwOrd) (_ch : Chan) (s : State) :
    Host.Outcome State Fault Refusal :=
  uniformRmwWord c (.op .maxu) ord sco col a d s

/-- ATOMS_AND_B32 (R154). Uniform 32-bit atomic and. -/
def execAtomsAndB32 (c : Ctl) (d : SReg) (a : SReg) (col : BitVec 3) (sco : Scope) (ord : RmwOrd) (_ch : Chan) (s : State) :
    Host.Outcome State Fault Refusal :=
  uniformRmwWord c (.op .and) ord sco col a d s

/-- ATOMS_OR_B32 (R154). Uniform 32-bit atomic or. -/
def execAtomsOrB32 (c : Ctl) (d : SReg) (a : SReg) (col : BitVec 3) (sco : Scope) (ord : RmwOrd) (_ch : Chan) (s : State) :
    Host.Outcome State Fault Refusal :=
  uniformRmwWord c (.op .or) ord sco col a d s

/-- ATOMS_XOR_B32 (R154). Uniform 32-bit atomic xor. -/
def execAtomsXorB32 (c : Ctl) (d : SReg) (a : SReg) (col : BitVec 3) (sco : Scope) (ord : RmwOrd) (_ch : Chan) (s : State) :
    Host.Outcome State Fault Refusal :=
  uniformRmwWord c (.op .xor) ord sco col a d s

/-- ATOMS_XCHG_B32 (R154). Uniform 32-bit atomic exchange. -/
def execAtomsXchgB32 (c : Ctl) (d : SReg) (a : SReg) (col : BitVec 3) (sco : Scope) (ord : RmwOrd) (_ch : Chan) (s : State) :
    Host.Outcome State Fault Refusal :=
  uniformRmwWord c (.op .xchg) ord sco col a d s

/-- CASS_B32 (R154). Uniform 32-bit compare-and-swap. -/
def execCassB32 (c : Ctl) (d : SReg) (a : SReg) (col : BitVec 3) (sco : Scope) (ord : RmwOrd) (_ch : Chan) (s : State) :
    Host.Outcome State Fault Refusal :=
  uniformRmwWord c .cas ord sco col a d s

/-- ATOML_ADD_B32 (R154). Per-lane local atomic add at the scratch bank. -/
def execAtomlAddB32 (c : Ctl) (d : VReg) (a : VReg) (col : BitVec 3) (sco : Scope) (ord : RmwOrd) (_ch : Chan) (s : State) :
    Host.Outcome State Fault Refusal :=
  laneRmwWord c .local_ 4 (.op .add) ord sco col a d 0 s

/-- ATOML_MIN_B32 (R154). Per-lane local atomic signed minimum. -/
def execAtomlMinB32 (c : Ctl) (d : VReg) (a : VReg) (col : BitVec 3) (sco : Scope) (ord : RmwOrd) (_ch : Chan) (s : State) :
    Host.Outcome State Fault Refusal :=
  laneRmwWord c .local_ 4 (.op .min) ord sco col a d 0 s

/-- ATOML_MAX_B32 (R154). Per-lane local atomic signed maximum. -/
def execAtomlMaxB32 (c : Ctl) (d : VReg) (a : VReg) (col : BitVec 3) (sco : Scope) (ord : RmwOrd) (_ch : Chan) (s : State) :
    Host.Outcome State Fault Refusal :=
  laneRmwWord c .local_ 4 (.op .max) ord sco col a d 0 s

/-- ATOML_MINU_B32 (R154). Per-lane local atomic unsigned minimum. -/
def execAtomlMinuB32 (c : Ctl) (d : VReg) (a : VReg) (col : BitVec 3) (sco : Scope) (ord : RmwOrd) (_ch : Chan) (s : State) :
    Host.Outcome State Fault Refusal :=
  laneRmwWord c .local_ 4 (.op .minu) ord sco col a d 0 s

/-- ATOML_MAXU_B32 (R154). Per-lane local atomic unsigned maximum. -/
def execAtomlMaxuB32 (c : Ctl) (d : VReg) (a : VReg) (col : BitVec 3) (sco : Scope) (ord : RmwOrd) (_ch : Chan) (s : State) :
    Host.Outcome State Fault Refusal :=
  laneRmwWord c .local_ 4 (.op .maxu) ord sco col a d 0 s

/-- ATOML_AND_B32 (R154). Per-lane local atomic and. -/
def execAtomlAndB32 (c : Ctl) (d : VReg) (a : VReg) (col : BitVec 3) (sco : Scope) (ord : RmwOrd) (_ch : Chan) (s : State) :
    Host.Outcome State Fault Refusal :=
  laneRmwWord c .local_ 4 (.op .and) ord sco col a d 0 s

/-- ATOML_OR_B32 (R154). Per-lane local atomic or. -/
def execAtomlOrB32 (c : Ctl) (d : VReg) (a : VReg) (col : BitVec 3) (sco : Scope) (ord : RmwOrd) (_ch : Chan) (s : State) :
    Host.Outcome State Fault Refusal :=
  laneRmwWord c .local_ 4 (.op .or) ord sco col a d 0 s

/-- ATOML_XOR_B32 (R154). Per-lane local atomic xor. -/
def execAtomlXorB32 (c : Ctl) (d : VReg) (a : VReg) (col : BitVec 3) (sco : Scope) (ord : RmwOrd) (_ch : Chan) (s : State) :
    Host.Outcome State Fault Refusal :=
  laneRmwWord c .local_ 4 (.op .xor) ord sco col a d 0 s

/-- ATOML_XCHG_B32 (R154). Per-lane local atomic exchange. -/
def execAtomlXchgB32 (c : Ctl) (d : VReg) (a : VReg) (col : BitVec 3) (sco : Scope) (ord : RmwOrd) (_ch : Chan) (s : State) :
    Host.Outcome State Fault Refusal :=
  laneRmwWord c .local_ 4 (.op .xchg) ord sco col a d 0 s

/-- CASL_B32 (R154). Per-lane local compare-and-swap. -/
def execCaslB32 (c : Ctl) (d : VReg) (a : VReg) (col : BitVec 3) (sco : Scope) (ord : RmwOrd) (_ch : Chan) (s : State) :
    Host.Outcome State Fault Refusal :=
  laneRmwWord c .local_ 4 .cas ord sco col a d 1 s

end Sys2Proof.Machine
end

