-- ==== Sys2Proof/Machine/Barriers.lean ====
section
/-!
DEFINITION. Group barriers (R178, R179) and `upcall` (R110).
-/

namespace Sys2Proof.Machine

def Group.bar (g : Group) (b : BitVec 4) : Barrier := AMap.getD g.bars b.toNat Barrier.fresh
def Group.putBar (g : Group) (b : BitVec 4) (x : Barrier) : Group := { g with bars := AMap.put g.bars b.toNat x }

/-- The waves of a group that have not ended (R178). -/
def Group.live (g : Group) : Nat := g.waves - popcount 16 g.ended.toNat

/-- The waves a generation waits for (R178). -/
def Group.expected (g : Group) (b : Barrier) : Nat := if b.count = 0 then g.live else b.count

/-- The sleeping runs of a wave that a barrier's generation held go to the next word (R13, R178). -/
def Wave.leaveBar (w : Wave) (b : BitVec 4) (gen : Bool) : Wave :=
  w.sleepers.foldl (fun w z =>
    match z.wait with
    | .bar b' g' => if b' = b ∧ g' = gen then (w.wake z []).next z.members (z.pc + 1) else w
    | _ => w) w

/-- A generation completes when its expected waves have arrived: its bit flips, its counts return to 0, and every run
it held becomes ready (R178). -/
def State.settleBar (s : State) (g : Nat) (b : BitVec 4) : State :=
  let gr := s.group g
  let x := gr.bar b
  if x.arrived ≠ 0 ∧ gr.expected x ≤ popcount 16 x.arrived.toNat then
    let s1 := s.onGroup g fun gr => gr.putBar b ⟨0, 0, !x.gen⟩
    { s1 with waves := s1.waves.map fun e => if e.2.group = g then (e.1, e.2.leaveBar b x.gen) else e }
  else s

/-- A wave arrives at a barrier, once in a generation, with a release of all colours at group scope (R179); the first
arrival fixes the COUNT that governs (R178). -/
def State.arriveBar (s : State) (w : Nat) (b : BitVec 4) (count : Nat) : State :=
  let x := s.wave w
  (s.releaseAll w .group).onGroup x.group fun g =>
    let y := g.bar b
    g.putBar b { y with
      arrived := y.arrived ||| BitVec.ofNat 16 (2 ^ x.waveid.toNat),
      count := if y.arrived = 0 then count else y.count }

/-- Whether COUNT is above the group's wave count (R179). -/
def State.countBad (s : State) (w : Nat) (count : BitVec 5) : Bool :=
  decide ((s.group (s.wave w).group).waves < count.toNat)

/-- UPCALL (R110): the arguments are captured, the run parks at the next word, and every colour is released at device
scope (R332). The mailbox entry is posted by MAILBOX_POST. -/
def execUpcall (c : Ctl) (d a : SReg) (chan : BitVec 6) (s : State) : Host.Outcome State Fault Refusal :=
  scalarWord c s fun x s =>
    let s1 := s.releaseAll x.w .device
    let w := s1.wave x.w
    let full := decide (32 ≤ s1.waitEntries w.core)
    let p := { Parked.make x.run (x.pc + 1) .upcall true (chan.setWidth 64) w.nextOrder with
      seq := s.parkSeq
      args := w.block a 4, replyTo := d, flag := c.h.setf,
      polling := if full then some (s1.coreCycle w + 1024) else none }
    s1.onWave x.w fun w =>
      (((w.raiseFlag c.h.setf).addParked p).next x.run (x.pc + 1) : Wave)
        |> fun w => { w with waitovf := if full then satAdd w.waitovf 1 else w.waitovf }

/-- A word with a COUNT: one above the group's wave count is illegal whatever the predicate enables (R60, R61, R179). -/
def countedWord (c : Ctl) (count : BitVec 5) (s : State) (body : Issue → State → State) :
    Host.Outcome State Fault Refusal :=
  match s.issue c with
  | none => .fault .noRun
  | some x => if s.countBad x.w count then .next (s.illegal x) else scalarWord c s body

/-- BAR_SYNC (R178). The run arrives and sleeps at the word until the generation completes. -/
def execBarSync (c : Ctl) (count : BitVec 5) (bar : BitVec 4) (s : State) : Host.Outcome State Fault Refusal :=
  countedWord c count s fun x s =>
      let s1 := s.arriveBar x.w bar count.toNat
      let g := (s1.wave x.w).group
      let gen := ((s1.group g).bar bar).gen
      let s2 := (s1.onWave x.w fun w => w.raiseFlag c.h.setf).sleepRun x.w x.run x.pc x.pc (.bar bar gen) c.h.setf
      s2.settleBar g bar

/-- BAR_ARRIVE (R178). The run arrives and goes on. -/
def execBarArrive (c : Ctl) (count : BitVec 5) (bar : BitVec 4) (s : State) : Host.Outcome State Fault Refusal :=
  countedWord c count s fun x s =>
      let s1 := ((s.arriveBar x.w bar count.toNat).noResult x c).goto x x.run (x.pc + 1)
      s1.settleBar (s1.wave x.w).group bar

/-- BAR_WAIT (R178). The run sleeps until the generation in which its wave last arrived completes. -/
def execBarWait (c : Ctl) (_count : BitVec 5) (bar : BitVec 4) (s : State) : Host.Outcome State Fault Refusal :=
  scalarWord c s fun x s =>
    let w := s.wave x.w
    let b := (s.group w.group).bar bar
    if b.arrived.getLsbD w.waveid.toNat then
      (s.onWave x.w fun w => w.raiseFlag c.h.setf).sleepRun x.w x.run x.pc x.pc (.bar bar b.gen) c.h.setf
    else (s.noResult x c).goto x x.run (x.pc + 1)

end Sys2Proof.Machine
end

