-- ==== Sys2Proof/Machine/Blocks.lean ====
section
/-!
DEFINITION. Arrays of the matrix formats: row lengths and elements (R71, R80, R217), dot products (R89 to R91), and
the encoding of blocks (R223).
-/

namespace Sys2Proof.Machine

/-- The format of a matrix code (R71); i8 and i32 stand for the matrix operand and the accumulate code. -/
def fmtOfMatrix : Nat → Option Fmt
  | 0x0 => some .f32
  | 0x1 => some .bf16
  | 0x2 => some .f16
  | 0x3 => some .e4m3
  | 0x4 => some .e5m2
  | 0x5 => some .i8
  | 0x7 => some .blk4
  | 0x9 => some .blk8
  | 0xA => some .i32
  | _ => none

/-- Bytes of one element of a format that is not a block format. -/
def elemBytes : Fmt → Nat
  | .f32 => 4
  | .i32 => 4
  | .n32 => 4
  | .bf16 => 2
  | .f16 => 2
  | .i16 => 2
  | .n16 => 2
  | _ => 1

/-- RowBytes(F, n) (R217, R237). -/
def rowBytes (F : Fmt) (n : Nat) : Nat :=
  match F with
  | .blk4 => 18 * n / 32
  | .blk8 => 34 * n / 32
  | F => elemBytes F * n

def isBlockFmt : Fmt → Bool
  | .blk4 => true
  | .blk8 => true
  | _ => false

/-- Bytes of a packed block (R80). -/
def blockBytes (F : Fmt) : Nat := if F = .blk4 then 18 else 34

/-- The offset of the header of element k's block in a packed row. -/
def headerOff (F : Fmt) (k : Nat) : Nat := blockBytes F * (k / 32)

/-- The code of element k of a packed block at an address (R80). -/
def blockCode (rd : Nat → Byte) (F : Fmt) (blk k : Nat) : Nat :=
  if F = .blk4 then
    let b := (rd (blk + 2 + k / 2)).toNat
    if k % 2 = 0 then b % 16 else b / 16
  else (rd (blk + 2 + k)).toNat

/-- Element k of a row at an address, and whether its block header is bad (R217, R227). -/
def rowElem (rd : Nat → Byte) (F : Fmt) (row k : Nat) : FVal × Bool :=
  if isBlockFmt F then
    let blk := row + headerOff F k
    let h := leValue rd blk 2
    if badHeader (F == .blk8) h then (.nan, true)
    else (blockElem (F == .blk8) h (blockCode rd F blk (k % 32)), false)
  else
    match fmtFloat F with
    | some G => (G.decode (leValue rd (row + elemBytes F * k) (elemBytes F)), false)
    | none => (.nan, false)

/-- An i8 element of a row. -/
def rowInt (rd : Nat → Byte) (row k : Nat) : Int := intOf 8 true (rd (row + k)).toNat

/-- One product of a dot product, with a zero A contributing +0 (R90), and IV for an infinite A against a zero B
(R219). -/
def dotTerm (neg : Bool) (a b : FVal) : FVal × Flags :=
  if a.isZero then (FVal.zero, 0)
  else
    let (p, f) := fMul a b
    (if neg then p.neg else p, f)

/-- BlockSum over the products of a block (R89), with the exceptions that R219 names. -/
def blockSum (ps : List (FVal × Flags)) : FVal × Flags :=
  let fl := ps.foldl (fun f p => f ||| p.2) 0
  let pos := ps.any fun p => p.1.isInf && !p.1.sign
  let neg := ps.any fun p => p.1.isInf && p.1.sign
  let fl := if pos && neg then fl ||| flagIV else fl
  if ps.any fun p => p.1.isNaN then (.nan, fl)
  else if pos && neg then (.nan, fl)
  else if pos then (.inf false, fl)
  else if neg then (.inf true, fl)
  else
    let s := ps.foldl (fun a p => (fAdd false a p.1).1) FVal.zero
    (if s.isZero then FVal.zero else s, fl)

/-- One block added into a running f32 value with one rounding (R89). -/
def dotStep (acc : FVal) (ps : List (FVal × Flags)) : FVal × Flags :=
  let (s, f) := blockSum ps
  let (v, g) := fAdd false acc s
  let (r, h) := rneF32 v
  (r, f ||| g ||| h)

/-- A sum of blocks in ascending order (R89, R93). -/
def dotBlocks (acc : FVal) (bs : List (List (FVal × Flags))) : FVal × Flags :=
  bs.foldl (fun r b =>
    let (v, f) := dotStep r.1 b
    (v, r.2 ||| f)) (acc, 0)

/-! Encoding of blocks (R223). -/

/-- T(type), and 448 for blk8. -/
def blockTop (blk8 : Bool) (type : Nat) : Nat :=
  if blk8 then 448 else match type with
    | 0 => 7
    | 1 => 6
    | 2 => 8
    | _ => 16

/-- The magnitude of a finite value as a fraction. -/
def magOf : FVal → Nat × Nat
  | .fin _ n d => (n, d)
  | _ => (0, 1)

/-- The greater of two fractions. -/
def fracMax (a b : Nat × Nat) : Nat × Nat := if a.1 * b.2 < b.1 * a.2 then b else a

/-- The code of the least scale s with s · T at least m; the largest scale when there is none (R223). -/
def scaleFor (top : Nat) (m : Nat × Nat) : Nat :=
  match (upTo 255).find? fun c => c != 0 && match scaleValue c with
    | some (n, d) => decide (m.1 * d ≤ n * top * m.2)
    | none => false with
  | some c => c
  | none => 0xFE

/-- Whether a value between two neighbours rounds to the upper one; `tie` compares it with the middle, `even` says
that the lower is the even one (R223). -/
def roundsUp (m : RMode) (neg : Bool) (tie : Ordering) (even : Bool) : Bool :=
  match m with
  | .rtz => false
  | .rdn => neg
  | .rup => !neg
  | .rna => tie != .lt
  | _ => tie == .gt || (tie == .eq && !even)

/-- Nearest for a blk4 code (R223): the code and its exceptions, of a quotient of the given sign and magnitude n/d.
A quotient beyond T takes the largest magnitude of its type, −8 for a negative one of type 00 (log entry 24). -/
def nearestCode (type : Nat) (m : RMode) (neg : Bool) (n d : Nat) : Nat × Flags :=
  if type = 0 then
    if 7 * d < n then (if neg then 8 else 7, flagOF ||| flagNX)
    else
      let (k, inx) := roundWhole m neg n d
      let fl := if inx then (if k = 0 then flagUF ||| flagNX else flagNX) else 0
      (if neg then (16 - k) % 16 else k, fl)
  else
    let mag (i : Nat) : Nat := blk4Mag type i
    let sgn := if neg then 8 else 0
    if mag 7 * d < 8 * n then (sgn + 7, flagOF ||| flagNX)
    else
      let lo := ((upTo 8).filter fun i => decide (mag i * d ≤ 8 * n)).length - 1
      if mag lo * d = 8 * n then (sgn + lo, 0)
      else
        let mid := (mag lo + mag (lo + 1)) * d
        let tie := compare (16 * n) mid
        let k := if roundsUp m neg tie (lo % 2 == 0) then lo + 1 else lo
        (sgn + k, if k = 0 then flagUF ||| flagNX else flagNX)

/-- An encoded block: header, codes, the exceptions of each element, and whether it holds a NaN or an infinity. -/
structure EncBlock where
  hdr : Nat
  codes : List Nat
  flags : List Flags
  bad : Bool
deriving DecidableEq, Repr

/-- EncodeBlock (R223) under a type. -/
def encodeBlock (blk8 : Bool) (type : Nat) (m : RMode) (sat : Bool) (xs : List FVal) : EncBlock :=
  if xs.any fun x => x.isNaN || x.isInf then ⟨256 * type + 0xFF, xs.map fun _ => 0, xs.map fun _ => 0, true⟩
  else
    let top := xs.foldl (fun a x => fracMax a (magOf x)) (0, 1)
    if top.1 = 0 then ⟨256 * type, xs.map fun _ => 0, xs.map fun _ => 0, false⟩
    else
      let c := scaleFor (blockTop blk8 type) top
      let (sn, sd) := (scaleValue c).getD (1, 1)
      let rs := xs.map fun x =>
        let (n, d) := magOf x
        if blk8 then
          let (r, f) := roundTo fmtE4m3 m sat false (.fin x.sign (n * sd) (d * sn))
          (fmtE4m3.encode r, f)
        else nearestCode type m x.sign (n * sd) (d * sn)
      ⟨256 * type + c, rs.map fun r => r.1, rs.map fun r => r.2, false⟩

/-- The exact sum of squared differences between a block and its decoded values, as a fraction (R223). -/
def blockError (e : EncBlock) (xs : List FVal) : Nat × Nat :=
  (xs.zip e.codes).foldl (fun acc p =>
    let (dn, dd) := magOf ((fAdd false (blockElem false e.hdr p.2) p.1.neg).1)
    (acc.1 * (dd * dd) + dn * dn * acc.2, acc.2 * (dd * dd))) (0, 1)

/-- EncodeBlock with AUTO: the type of the least error, the lowest on a tie, and 00 for a block that holds a NaN or an
infinity (R223). -/
def encodeAuto (m : RMode) (sat : Bool) (xs : List FVal) : EncBlock :=
  let e0 := encodeBlock false 0 m sat xs
  if e0.bad then e0
  else
    ([1, 2, 3].foldl (fun best t =>
      let e := encodeBlock false t m sat xs
      let er := blockError e xs
      if er.1 * best.2.2 < best.2.1 * er.2 then (e, er) else best) (e0, blockError e0 xs)).1

/-- The bytes of a packed block (R80). -/
def packBlock (blk8 : Bool) (e : EncBlock) : List Byte :=
  leBytes e.hdr 2 ++
    (if blk8 then e.codes.map fun c => BitVec.ofNat 8 c
     else (upTo 16).map fun k => BitVec.ofNat 8 (e.codes.getD (2 * k) 0 + 16 * e.codes.getD (2 * k + 1) 0))

/-- The rounding mode of an RND code 000 to 100 (R82). -/
def rndOf : Nat → RMode
  | 1 => .rtz
  | 2 => .rdn
  | 3 => .rup
  | 4 => .rna
  | _ => .rne

end Sys2Proof.Machine
end

