-- ==== Sys2Proof/Machine/VCross.lean ====
section
/-!
DEFINITION. Cross-lane words (R139 to R141) and random numbers (R142, R143).
-/

namespace Sys2Proof.Machine

/-- The source lane of `vshfl` (R139). -/
def shflLane (mode : BitVec 2) (k l : Nat) : Nat :=
  match mode.toNat with
  | 0 => l ^^^ k
  | 1 => if l < k then l else l - k
  | 2 => if 63 < l + k then l else l + k
  | _ => (l + k) % 64

/-- The f32 value (draw >> 8)·2^-24 (R96). -/
def randFloat (x : Word) : Word := toF32 (.fin false (x.toNat / 256) (2 ^ 24))

/-- Whether a reduction works on f32 values. -/
def redFloat : RedOp → Bool
  | .fadd => true
  | .fmin => true
  | .fmax => true
  | _ => false

/-- The identity of a reduction (R141). -/
def redIdentity : RedOp → Word
  | .add => 0
  | .min => 0x7FFFFFFF
  | .max => 0x80000000
  | .minu => 0xFFFFFFFF
  | .maxu => 0
  | .and => 0xFFFFFFFF
  | .or => 0
  | .xor => 0
  | .fadd => 0
  | .fmin => 0x7F800000
  | .fmax => 0xFF800000

/-- One integer step of a reduction (R140); `sat` clamps a sum. -/
def redInt (op : RedOp) (sat : Bool) (a b : Word) : Word :=
  match op with
  | .add => if sat then BitVec.ofInt 32 (clampInt (-(2 ^ 31), 2 ^ 31 - 1) (a.toInt + b.toInt)) else a + b
  | .min => smin32 a b
  | .max => smax32 a b
  | .minu => umin32 a b
  | .maxu => umax32 a b
  | .and => a &&& b
  | .or => a ||| b
  | .xor => a ^^^ b
  | _ => b

/-- The exact sum of f32 values (R140): NaN, opposite infinities and zeros as that rule says. -/
def exactSum (rdn : Bool) (xs : List FVal) : FVal × Flags :=
  let pos := xs.any fun t => t.isInf && !t.sign
  let neg := xs.any fun t => t.isInf && t.sign
  if pos && neg then (.nan, flagIV)
  else if xs.any FVal.isNaN then (.nan, 0)
  else if pos then (.inf false, 0)
  else if neg then (.inf true, 0)
  else
    match xs.foldl (fun acc x => (fAdd rdn acc x).1) FVal.zero with
    | .fin _ 0 _ =>
      (.fin (rdn || xs.all fun t => t.isZero && t.sign) 0 1, 0)
    | v => (v, 0)

/-- First(mode, x) for f32 extremes: flushed, NaN canonical (R141). -/
def firstFloat (ftz : Bool) (x : Word) : Word := toF32 (ftzIn ftz (f32 x))

/-- The reduction of `vred` (R140). The lane whose draw a stochastic `fadd` takes is not stated: the draw is a free
value, and the lowest enabled lane's count advances (log entry 3). -/
def reduce (op : RedOp) (e : VEnv) (xs : List Word) : Word × Flags × Nat :=
  match op with
  | .add =>
    if e.sat then (BitVec.ofInt 32 (clampInt (-(2 ^ 31), 2 ^ 31 - 1) (xs.foldl (fun n x => n + x.toInt) 0)), 0, 0)
    else (xs.foldl (fun a b => a + b) 0, 0, 0)
  | .fadd =>
    let (v, f) := exactSum e.rdn (xs.map fun x => ftzIn e.ftz (f32 x))
    let (r, g) := roundTo fmtF32 (rmode e.mode (lo32 e.fresh)) false e.ftz v
    (toF32 r, f ||| g, if e.mode == .sto && v.rounds then 1 else 0)
  | .fmin => (toF32 ((xs.map fun x => ftzIn e.ftz (f32 x)).foldl fMin .nan), 0, 0)
  | .fmax => (toF32 ((xs.map fun x => ftzIn e.ftz (f32 x)).foldl fMax .nan), 0, 0)
  | op =>
    match xs with
    | [] => (0, 0, 0)
    | x :: t => (t.foldl (redInt op false) x, 0, 0)

/-- What VRED computes (R140). -/
def semVred (d : SReg) (a : VReg) (op : RedOp) : VecSem :=
  ⟨12, .s d, fun e =>
    let (r, f, n) := reduce op e ((lanesOf e.en).map fun l => e.w.rv a l)
    ⟨if n = 0 then [] else [(lowestLane e.en, ⟨[], 0, n, false, false⟩)], some (r, f), none⟩⟩

/-- The state of a scan between lanes: the running value once a lane has been taken, and the results so far. -/
structure ScanSt where
  acc : Option Word
  out : List (Nat × LaneOut)

/-- One lane of `vscan` (R141). Every fadd step draws, whatever its value (log entry 40). -/
def scanLane (op : RedOp) (excl : Bool) (e : VEnv) (a : VReg) (z : ScanSt) (l : Nat) : ScanSt :=
  let x := e.w.rv a l
  let prev := z.acc.getD (redIdentity op)
  let (new, f, n) : Word × Flags × Nat :=
    match op with
    | .fadd =>
      let (v, g) := match z.acc with
        | none => (e.f a l, (0 : Flags))
        | some p => fAdd e.rdn (f32 p) (e.f a l)
      let (r, h) := roundTo fmtF32 (rmode e.mode (e.w.draw l 0)) false e.ftz v
      (toF32 r, g ||| h, if e.mode == .sto then 1 else 0)
    | .fmin => (match z.acc with
        | none => firstFloat e.ftz x
        | some p => toF32 (fMin (f32 p) (e.f a l)), 0, 0)
    | .fmax => (match z.acc with
        | none => firstFloat e.ftz x
        | some p => toF32 (fMax (f32 p) (e.f a l)), 0, 0)
    | op => (match z.acc with
        | none => x
        | some p => redInt op e.sat p x, 0, 0)
  ⟨some new, z.out ++ [(l, ⟨[if excl then prev else new], f, n, false, true⟩)]⟩

/-- What VSCAN computes (R141). -/
def semVscan (d a : VReg) (excl : Bool) (op : RedOp) : VecSem :=
  ⟨12, .v d 1, fun e => ⟨((lanesOf e.en).foldl (scanLane op excl e a) ⟨none, []⟩).out, none, none⟩⟩

/-- What VRSEED does (R142): the seed of the wave, and every draw count 0. -/
def semVrseed (a : SReg) : VecSem := ⟨4, .none, fun e => ⟨[], none, some (e.w.rsPair a)⟩⟩

/-- VRED (R140). Reduces a vector register over the enabled lanes into a scalar. -/
def execVred (c : Ctl) (d : SReg) (a : VReg) (op : RedOp) (s : State) : Host.Outcome State Fault Refusal :=
  vecWord c (semVred d a op) s

/-- VSCAN (R141). Forms running results in ascending lane order. -/
def execVscan (c : Ctl) (d a : VReg) (excl : Bool) (op : RedOp) (s : State) : Host.Outcome State Fault Refusal :=
  vecWord c (semVscan d a excl op) s

/-- VRSEED (R142). Sets the wave's seed and clears the draw counts. -/
def execVrseed (c : Ctl) (a : SReg) (s : State) : Host.Outcome State Fault Refusal :=
  vecWord c (semVrseed a) s

/-- What VPERM computes (R139). -/
def semVperm (d : VReg) (a : VReg) (b : VReg) : VecSem :=
  lanewise 8 (.v d 1) fun e l => .val (e.w.rv a ((e.w.rv b l).toNat % 64))

/-- VPERM (R139). Each enabled lane reads the source lane named in its own register. -/
def execVperm (c : Ctl) (d : VReg) (a : VReg) (b : VReg) (s : State) : Host.Outcome State Fault Refusal :=
  vecWord c (semVperm d a b) s

/-- What VSHFL computes (R139). -/
def semVshfl (d : VReg) (a : VReg) (mode : BitVec 2) (k : BitVec 6) : VecSem :=
  lanewise 8 (.v d 1) fun e l => .val (e.w.rv a (shflLane mode k.toNat l))

/-- VSHFL (R139). Lane shuffle by xor, up, down or rotate. -/
def execVshfl (c : Ctl) (d : VReg) (a : VReg) (mode : BitVec 2) (k : BitVec 6) (s : State) : Host.Outcome State Fault Refusal :=
  vecWord c (semVshfl d a mode k) s

/-- What VBCAST computes (R139). -/
def semVbcast (d : VReg) (a : VReg) (n : BitVec 6) : VecSem :=
  lanewise 8 (.v d 1) fun e _ => .val (e.w.rv a n.toNat)

/-- VBCAST (R139). Broadcasts one lane's value to the enabled lanes. -/
def execVbcast (c : Ctl) (d : VReg) (a : VReg) (n : BitVec 6) (s : State) : Host.Outcome State Fault Refusal :=
  vecWord c (semVbcast d a n) s

/-- What VHPERM computes (R139). -/
def semVhperm (d : VReg) (a : VReg) (pat : BitVec 8) : VecSem :=
  lanewise 8 (.v d 1) fun e l => .val (e.w.rv a (4 * (l / 4) + natBits pat.toNat (2 * (l % 4) + 1) (2 * (l % 4))))

/-- VHPERM (R139). Permutes values within each hand by an immediate pattern. -/
def execVhperm (c : Ctl) (d : VReg) (a : VReg) (pat : BitVec 8) (s : State) : Host.Outcome State Fault Refusal :=
  vecWord c (semVhperm d a pat) s

/-- What VRAND computes (R142). -/
def semVrand (d : VReg) : VecSem :=
  lanewise 8 (.v d 1) fun e l => ⟨[e.w.draw l 0], 0, 1, false, false⟩

/-- VRAND (R142). Writes one 32-bit random draw per enabled lane. -/
def execVrand (c : Ctl) (d : VReg) (s : State) : Host.Outcome State Fault Refusal :=
  vecWord c (semVrand d) s

/-- What VRANDF computes (R142). -/
def semVrandf (d : VReg) : VecSem :=
  lanewise 8 (.v d 1) fun e l => ⟨[randFloat (e.w.draw l 0)], 0, 1, false, false⟩

/-- VRANDF (R142). Writes a random f32 in [0,1) per enabled lane. -/
def execVrandf (c : Ctl) (d : VReg) (s : State) : Host.Outcome State Fault Refusal :=
  vecWord c (semVrandf d) s

end Sys2Proof.Machine
end

