-- ==== Sys2Proof/Machine/VFloat.lean ====
section
/-!
DEFINITION. Floating vector words: f32 (R129 to R132), packed 16-bit (R133, R134), conversion and packing (R135 to
R137), special functions (R138).
-/

namespace Sys2Proof.Machine

/-- The magnitude of a with bit 31 of b as its sign; a NaN a is canonical (R131). -/
def copySign (a : FVal) (b : Word) : Word :=
  if a.isNaN then 0x7FC00000 else (toF32 a.abs &&& 0x7FFFFFFF) ||| (b &&& 0x80000000)

/-- `frnd` (R131): a rounded to a whole f32 value; one draw for every finite non-zero operand in stochastic mode. -/
def VEnv.roundToWhole (e : VEnv) (l : Nat) (a : FVal) : LaneOut :=
  match a with
  | .nan => .val 0x7FC00000
  | .inf s => .val (toF32 (.inf s))
  | .fin s n d =>
    if n = 0 then .val (toF32 (.fin s 0 1))
    else
      let (k, inx) := roundWhole (rmode e.mode (e.w.draw l 0)) s n d
      ⟨[toF32 (.fin s k 1)], if inx then flagNX else 0, if e.mode == .sto then 1 else 0, false, false⟩

/-- A float compare (R47, R132): the ordered inequalities raise IV on a NaN. -/
def floatCompare (cc : FloatCC) (a b : FVal) : LaneOut :=
  let un := a.isNaN || b.isNaN
  let eq := fOrd a b == some .eq
  let out (r sig : Bool) : LaneOut :=
    ⟨[if r then 1 else 0], if sig && un then flagIV else 0, 0, false, false⟩
  match cc with
  | .oeq => out eq false
  | .une => out (!eq) false
  | .olt => out (fLt a b) true
  | .ole => out (fLe a b) true
  | .ogt => out (fLt b a) true
  | .oge => out (fLe b a) true
  | .ord => out (!un) false
  | .uno => out un false

/-- Element k of a register that holds two 16-bit values (R73, R133), flushed under FTZ. -/
def VEnv.half (e : VEnv) (F : FloatFmt) (r : VReg) (l k : Nat) : FVal :=
  ftzIn e.ftz (F.decode ((e.w.rv r l).toNat / 65536 ^ k % 65536))

/-- Two 16-bit elements, element 0 rounded before element 1 (R133, R137). -/
def VEnv.packed (e : VEnv) (F : FloatFmt) (l : Nat) (f : Nat → FVal × Flags) : LaneOut :=
  let (x0, g0) := f 0
  let (r0, f0, n0) := e.rt F l 0 x0
  let (x1, g1) := f 1
  let (r1, f1, n1) := e.rt F l n0 x1
  ⟨[BitVec.ofNat 32 (F.encode r0 + 65536 * F.encode r1)], g0 ||| f0 ||| g1 ||| f1, n0 + n1, false, false⟩

/-- c + a.0·b.0 + a.1·b.1, exact (R134): infinities of both signs and 0 × ∞ give NaN and IV; an exact zero sum keeps
the common sign of its terms, else takes the sign rule of R83. -/
def VEnv.dot2 (e : VEnv) (F : FloatFmt) (a b : VReg) (c : FVal) (l : Nat) : FVal × Flags :=
  let (p0, g0) := fMul (e.half F a l 0) (e.half F b l 0)
  let (p1, g1) := fMul (e.half F a l 1) (e.half F b l 1)
  let ts := [c, p0, p1]
  let g := g0 ||| g1
  let pos := ts.any fun t => t.isInf && !t.sign
  let neg := ts.any fun t => t.isInf && t.sign
  if pos && neg then (.nan, g ||| flagIV)
  else if ts.any FVal.isNaN then (.nan, g)
  else if pos then (.inf false, g)
  else if neg then (.inf true, g)
  else
    let (s1, h1) := fAdd e.rdn p0 p1
    let (s2, h2) := fAdd e.rdn c s1
    -- the sum is exact; a zero sum of zeros of one sign keeps it
    let zeroSign := if ts.all (fun t => t.isZero && t.sign) then true
      else if ts.all (fun t => t.isZero && !t.sign) then false else e.rdn
    match s2 with
    | .fin _ 0 _ => (.fin zeroSign 0 1, g ||| h1 ||| h2)
    | v => (v, g ||| h1 ||| h2)

/-- `cvt` in one lane (R135, R136). -/
def VEnv.convertLane (e : VEnv) (dst src : Fmt) (l : Nat) (a : Word) : LaneOut :=
  match convert dst src (rmode e.mode (e.w.draw l 0)) e.sat e.ftz a with
  | none => ⟨[], 0, 0, true, false⟩
  | some (r, f) => ⟨[r], f, if e.mode == .sto && cvtDraws dst src e.ftz a then 1 else 0, false, false⟩

/-- A special function (R138). -/
def VEnv.special (e : VEnv) (f : SFun) (_l : Nat) (a : Word) : LaneOut :=
  let (r, g) := f.apply e.sat e.ftz (f32 a)
  ⟨[toF32 r], g, 0, false, false⟩

/-- What FADD computes (R129). -/
def semFadd (d : VReg) (a : VReg) (b : VReg) : VecSem :=
  lanewise 6 (.v d 1) fun e l => e.f32Out l (fAdd e.rdn (e.f a l) (e.f b l))

/-- FADD (R129). Per-lane f32 add, rounded once. -/
def execFadd (c : Ctl) (d : VReg) (a : VReg) (b : VReg) (s : State) : Host.Outcome State Fault Refusal :=
  vecWord c (semFadd d a b) s

/-- What FSUB computes (R129). -/
def semFsub (d : VReg) (a : VReg) (b : VReg) : VecSem :=
  lanewise 6 (.v d 1) fun e l => e.f32Out l (fAdd e.rdn (e.f a l) (e.f b l).neg)

/-- FSUB (R129). Per-lane f32 subtract. -/
def execFsub (c : Ctl) (d : VReg) (a : VReg) (b : VReg) (s : State) : Host.Outcome State Fault Refusal :=
  vecWord c (semFsub d a b) s

/-- What FMUL computes (R129). -/
def semFmul (d : VReg) (a : VReg) (b : VReg) : VecSem :=
  lanewise 6 (.v d 1) fun e l => e.f32Out l (fMul (e.f a l) (e.f b l))

/-- FMUL (R129). Per-lane f32 multiply. -/
def execFmul (c : Ctl) (d : VReg) (a : VReg) (b : VReg) (s : State) : Host.Outcome State Fault Refusal :=
  vecWord c (semFmul d a b) s

/-- What FFMA computes (R129). -/
def semFfma (d : VReg) (a : VReg) (b : VReg) : VecSem :=
  lanewise 6 (.v d 1) fun e l => e.f32Out l (fFma e.rdn (e.f a l) (e.f b l) (e.f (e.addend d) l))

/-- FFMA (R129). Per-lane fused f32 multiply-add with one rounding. -/
def execFfma (c : Ctl) (d : VReg) (a : VReg) (b : VReg) (s : State) : Host.Outcome State Fault Refusal :=
  vecWord c (semFfma d a b) s

/-- What FMIN computes (R130). -/
def semFmin (d : VReg) (a : VReg) (b : VReg) : VecSem :=
  lanewise 6 (.v d 1) fun e l => .val (toF32 (fMin (e.f a l) (e.f b l)))

/-- FMIN (R130). Per-lane f32 minimum with NaN and signed-zero rules. -/
def execFmin (c : Ctl) (d : VReg) (a : VReg) (b : VReg) (s : State) : Host.Outcome State Fault Refusal :=
  vecWord c (semFmin d a b) s

/-- What FMAX computes (R130). -/
def semFmax (d : VReg) (a : VReg) (b : VReg) : VecSem :=
  lanewise 6 (.v d 1) fun e l => .val (toF32 (fMax (e.f a l) (e.f b l)))

/-- FMAX (R130). Per-lane f32 maximum. -/
def execFmax (c : Ctl) (d : VReg) (a : VReg) (b : VReg) (s : State) : Host.Outcome State Fault Refusal :=
  vecWord c (semFmax d a b) s

/-- What FABS computes (R131). -/
def semFabs (d : VReg) (a : VReg) : VecSem :=
  lanewise 6 (.v d 1) fun e l => .val (toF32 (e.f a l).abs)

/-- FABS (R131). Per-lane absolute value. -/
def execFabs (c : Ctl) (d : VReg) (a : VReg) (s : State) : Host.Outcome State Fault Refusal :=
  vecWord c (semFabs d a) s

/-- What FNEG computes (R131). -/
def semFneg (d : VReg) (a : VReg) : VecSem :=
  lanewise 6 (.v d 1) fun e l => .val (toF32 (e.f a l).neg)

/-- FNEG (R131). Per-lane negation. -/
def execFneg (c : Ctl) (d : VReg) (a : VReg) (s : State) : Host.Outcome State Fault Refusal :=
  vecWord c (semFneg d a) s

/-- What FCPSGN computes (R131). -/
def semFcpsgn (d : VReg) (a : VReg) (b : VReg) : VecSem :=
  lanewise 6 (.v d 1) fun e l => .val (copySign (e.f a l) (e.w.rv b l))

/-- FCPSGN (R131). Per-lane magnitude of a with the sign bit of b. -/
def execFcpsgn (c : Ctl) (d : VReg) (a : VReg) (b : VReg) (s : State) : Host.Outcome State Fault Refusal :=
  vecWord c (semFcpsgn d a b) s

/-- What FRND computes (R131). -/
def semFrnd (d : VReg) (a : VReg) : VecSem :=
  lanewise 6 (.v d 1) fun e l => e.roundToWhole l (e.f a l)

/-- FRND (R131). Rounds each lane to an integral f32 in the word's mode. -/
def execFrnd (c : Ctl) (d : VReg) (a : VReg) (s : State) : Host.Outcome State Fault Refusal :=
  vecWord c (semFrnd d a) s

/-- What FCMP computes (R132). -/
def semFcmp (md : BitVec 4) (cc : FloatCC) (a : VReg) (b : VReg) : VecSem :=
  lanewise 6 (.m md) fun e l => floatCompare cc (e.f a l) (e.f b l)

/-- FCMP (R132). Per-lane float compare into a mask. -/
def execFcmp (c : Ctl) (md : BitVec 4) (cc : FloatCC) (a : VReg) (b : VReg) (s : State) : Host.Outcome State Fault Refusal :=
  vecWord c (semFcmp md cc a b) s

/-- What HADD computes (R133). -/
def semHadd (d : VReg) (a : VReg) (b : VReg) : VecSem :=
  lanewise 6 (.v d 1) fun e l => e.packed fmtF16 l fun k => fAdd e.rdn (e.half fmtF16 a l k) (e.half fmtF16 b l k)

/-- HADD (R133). Packed f16 add. -/
def execHadd (c : Ctl) (d : VReg) (a : VReg) (b : VReg) (s : State) : Host.Outcome State Fault Refusal :=
  vecWord c (semHadd d a b) s

/-- What HMUL computes (R133). -/
def semHmul (d : VReg) (a : VReg) (b : VReg) : VecSem :=
  lanewise 6 (.v d 1) fun e l => e.packed fmtF16 l fun k => fMul (e.half fmtF16 a l k) (e.half fmtF16 b l k)

/-- HMUL (R133). Packed f16 multiply. -/
def execHmul (c : Ctl) (d : VReg) (a : VReg) (b : VReg) (s : State) : Host.Outcome State Fault Refusal :=
  vecWord c (semHmul d a b) s

/-- What HFMA computes (R133). -/
def semHfma (d : VReg) (a : VReg) (b : VReg) : VecSem :=
  lanewise 6 (.v d 1) fun e l => e.packed fmtF16 l fun k =>
    fFma e.rdn (e.half fmtF16 a l k) (e.half fmtF16 b l k) (e.half fmtF16 (e.addend d) l k)

/-- HFMA (R133). Packed f16 fused multiply-add. -/
def execHfma (c : Ctl) (d : VReg) (a : VReg) (b : VReg) (s : State) : Host.Outcome State Fault Refusal :=
  vecWord c (semHfma d a b) s

/-- What BADD computes (R133). -/
def semBadd (d : VReg) (a : VReg) (b : VReg) : VecSem :=
  lanewise 6 (.v d 1) fun e l => e.packed fmtBf16 l fun k => fAdd e.rdn (e.half fmtBf16 a l k) (e.half fmtBf16 b l k)

/-- BADD (R133). Packed bf16 add. -/
def execBadd (c : Ctl) (d : VReg) (a : VReg) (b : VReg) (s : State) : Host.Outcome State Fault Refusal :=
  vecWord c (semBadd d a b) s

/-- What BMUL computes (R133). -/
def semBmul (d : VReg) (a : VReg) (b : VReg) : VecSem :=
  lanewise 6 (.v d 1) fun e l => e.packed fmtBf16 l fun k => fMul (e.half fmtBf16 a l k) (e.half fmtBf16 b l k)

/-- BMUL (R133). Packed bf16 multiply. -/
def execBmul (c : Ctl) (d : VReg) (a : VReg) (b : VReg) (s : State) : Host.Outcome State Fault Refusal :=
  vecWord c (semBmul d a b) s

/-- What BFMA computes (R133). -/
def semBfma (d : VReg) (a : VReg) (b : VReg) : VecSem :=
  lanewise 6 (.v d 1) fun e l => e.packed fmtBf16 l fun k =>
    fFma e.rdn (e.half fmtBf16 a l k) (e.half fmtBf16 b l k) (e.half fmtBf16 (e.addend d) l k)

/-- BFMA (R133). Packed bf16 fused multiply-add. -/
def execBfma (c : Ctl) (d : VReg) (a : VReg) (b : VReg) (s : State) : Host.Outcome State Fault Refusal :=
  vecWord c (semBfma d a b) s

/-- What FDOT2H computes (R134). -/
def semFdot2h (d : VReg) (a : VReg) (b : VReg) : VecSem :=
  lanewise 6 (.v d 1) fun e l => e.f32Out l (e.dot2 fmtF16 a b (e.f (e.addend d) l) l)

/-- FDOT2H (R134). Two-element f16 dot product accumulated exactly into f32. -/
def execFdot2h (c : Ctl) (d : VReg) (a : VReg) (b : VReg) (s : State) : Host.Outcome State Fault Refusal :=
  vecWord c (semFdot2h d a b) s

/-- What FDOT2B computes (R134). -/
def semFdot2b (d : VReg) (a : VReg) (b : VReg) : VecSem :=
  lanewise 6 (.v d 1) fun e l => e.f32Out l (e.dot2 fmtBf16 a b (e.f (e.addend d) l) l)

/-- FDOT2B (R134). Two-element bf16 dot product accumulated exactly into f32. -/
def execFdot2b (c : Ctl) (d : VReg) (a : VReg) (b : VReg) (s : State) : Host.Outcome State Fault Refusal :=
  vecWord c (semFdot2b d a b) s

/-- What CVT computes (R135). -/
def semCvt (d : VReg) (a : VReg) (dst : Fmt) (src : Fmt) : VecSem :=
  lanewise 6 (.v d 1) fun e l => e.convertLane dst src l (e.w.rv a l)

/-- CVT (R135). Converts each lane between the formats named by the cvt codes. -/
def execCvt (c : Ctl) (d : VReg) (a : VReg) (dst : Fmt) (src : Fmt) (s : State) : Host.Outcome State Fault Refusal :=
  vecWord c (semCvt d a dst src) s

/-- What PACKH computes (R137). -/
def semPackh (d : VReg) (a : VReg) (b : VReg) : VecSem :=
  lanewise 6 (.v d 1) fun e l => e.packed fmtF16 l fun k => (if k = 0 then (e.f a l) else (e.f b l), 0)

/-- PACKH (R137). Rounds two f32 values into a packed f16 pair. -/
def execPackh (c : Ctl) (d : VReg) (a : VReg) (b : VReg) (s : State) : Host.Outcome State Fault Refusal :=
  vecWord c (semPackh d a b) s

/-- What PACKB computes (R137). -/
def semPackb (d : VReg) (a : VReg) (b : VReg) : VecSem :=
  lanewise 6 (.v d 1) fun e l => e.packed fmtBf16 l fun k => (if k = 0 then (e.f a l) else (e.f b l), 0)

/-- PACKB (R137). Rounds two f32 values into a packed bf16 pair. -/
def execPackb (c : Ctl) (d : VReg) (a : VReg) (b : VReg) (s : State) : Host.Outcome State Fault Refusal :=
  vecWord c (semPackb d a b) s

/-- What FRCP computes (R138). -/
def semFrcp (d : VReg) (a : VReg) : VecSem :=
  lanewise 14 (.v d 1) fun e l => e.special .rcp l (e.w.rv a l)

/-- FRCP (R138). Correctly rounded reciprocal. -/
def execFrcp (c : Ctl) (d : VReg) (a : VReg) (s : State) : Host.Outcome State Fault Refusal :=
  vecWord c (semFrcp d a) s

/-- What FRSQ computes (R138). -/
def semFrsq (d : VReg) (a : VReg) : VecSem :=
  lanewise 14 (.v d 1) fun e l => e.special .rsq l (e.w.rv a l)

/-- FRSQ (R138). Correctly rounded reciprocal square root. -/
def execFrsq (c : Ctl) (d : VReg) (a : VReg) (s : State) : Host.Outcome State Fault Refusal :=
  vecWord c (semFrsq d a) s

/-- What FSQRT computes (R138). -/
def semFsqrt (d : VReg) (a : VReg) : VecSem :=
  lanewise 14 (.v d 1) fun e l => e.special .sqrt l (e.w.rv a l)

/-- FSQRT (R138). Correctly rounded square root. -/
def execFsqrt (c : Ctl) (d : VReg) (a : VReg) (s : State) : Host.Outcome State Fault Refusal :=
  vecWord c (semFsqrt d a) s

/-- What FEX2 computes (R138). -/
def semFex2 (d : VReg) (a : VReg) : VecSem :=
  lanewise 14 (.v d 1) fun e l => e.special .ex2 l (e.w.rv a l)

/-- FEX2 (R138). Correctly rounded 2^a. -/
def execFex2 (c : Ctl) (d : VReg) (a : VReg) (s : State) : Host.Outcome State Fault Refusal :=
  vecWord c (semFex2 d a) s

/-- What FLG2 computes (R138). -/
def semFlg2 (d : VReg) (a : VReg) : VecSem :=
  lanewise 14 (.v d 1) fun e l => e.special .lg2 l (e.w.rv a l)

/-- FLG2 (R138). Correctly rounded log2 a. -/
def execFlg2 (c : Ctl) (d : VReg) (a : VReg) (s : State) : Host.Outcome State Fault Refusal :=
  vecWord c (semFlg2 d a) s

/-- What FSINP computes (R138). -/
def semFsinp (d : VReg) (a : VReg) : VecSem :=
  lanewise 14 (.v d 1) fun e l => e.special .sinp l (e.w.rv a l)

/-- FSINP (R138). Correctly rounded sin(pi a). -/
def execFsinp (c : Ctl) (d : VReg) (a : VReg) (s : State) : Host.Outcome State Fault Refusal :=
  vecWord c (semFsinp d a) s

/-- What FCOSP computes (R138). -/
def semFcosp (d : VReg) (a : VReg) : VecSem :=
  lanewise 14 (.v d 1) fun e l => e.special .cosp l (e.w.rv a l)

/-- FCOSP (R138). Correctly rounded cos(pi a). -/
def execFcosp (c : Ctl) (d : VReg) (a : VReg) (s : State) : Host.Outcome State Fault Refusal :=
  vecWord c (semFcosp d a) s

/-- What FTANH computes (R138). -/
def semFtanh (d : VReg) (a : VReg) : VecSem :=
  lanewise 14 (.v d 1) fun e l => e.special .tanh l (e.w.rv a l)

/-- FTANH (R138). Correctly rounded tanh a. -/
def execFtanh (c : Ctl) (d : VReg) (a : VReg) (s : State) : Host.Outcome State Fault Refusal :=
  vecWord c (semFtanh d a) s

end Sys2Proof.Machine
end

