-- ==== Sys2Proof/Machine/VInt.lean ====
section
/-!
DEFINITION. Integer vector words (R125 to R128).
-/

namespace Sys2Proof.Machine

/-- The signed byte k of a word. -/
def sbyte (x : Word) (k : Nat) : Int := intOf 8 true (x.toNat / 256 ^ k)

/-- The sum of the four signed byte products (R125, vdot4). -/
def dot4 (a b : Word) : Int :=
  sbyte a 0 * sbyte b 0 + sbyte a 1 * sbyte b 1 + sbyte a 2 * sbyte b 2 + sbyte a 3 * sbyte b 3

/-- What VADD computes (R125). -/
def semVadd (d : VReg) (a : VReg) (b : VReg) : VecSem :=
  lanewise 4 (.v d 1) fun e l => .val (e.int ((e.w.rv a l).toInt + (e.w.rv b l).toInt))

/-- VADD (R125). Per-lane integer add, saturating under SAT. -/
def execVadd (c : Ctl) (d : VReg) (a : VReg) (b : VReg) (s : State) : Host.Outcome State Fault Refusal :=
  vecWord c (semVadd d a b) s

/-- What VSUB computes (R125). -/
def semVsub (d : VReg) (a : VReg) (b : VReg) : VecSem :=
  lanewise 4 (.v d 1) fun e l => .val (e.int ((e.w.rv a l).toInt - (e.w.rv b l).toInt))

/-- VSUB (R125). Per-lane integer subtract. -/
def execVsub (c : Ctl) (d : VReg) (a : VReg) (b : VReg) (s : State) : Host.Outcome State Fault Refusal :=
  vecWord c (semVsub d a b) s

/-- What VMUL computes (R125). -/
def semVmul (d : VReg) (a : VReg) (b : VReg) : VecSem :=
  lanewise 6 (.v d 1) fun e l => .val (e.int ((e.w.rv a l).toInt * (e.w.rv b l).toInt))

/-- VMUL (R125). Per-lane low 32 bits of the product. -/
def execVmul (c : Ctl) (d : VReg) (a : VReg) (b : VReg) (s : State) : Host.Outcome State Fault Refusal :=
  vecWord c (semVmul d a b) s

/-- What VMULH computes (R125). -/
def semVmulh (d : VReg) (a : VReg) (b : VReg) : VecSem :=
  lanewise 6 (.v d 1) fun e l => .val (mulHigh (e.w.rv a l) (e.w.rv b l))

/-- VMULH (R125). Per-lane high half of the signed product. -/
def execVmulh (c : Ctl) (d : VReg) (a : VReg) (b : VReg) (s : State) : Host.Outcome State Fault Refusal :=
  vecWord c (semVmulh d a b) s

/-- What VMULHU computes (R125). -/
def semVmulhu (d : VReg) (a : VReg) (b : VReg) : VecSem :=
  lanewise 6 (.v d 1) fun e l => .val (mulHighU (e.w.rv a l) (e.w.rv b l))

/-- VMULHU (R125). Per-lane high half of the unsigned product. -/
def execVmulhu (c : Ctl) (d : VReg) (a : VReg) (b : VReg) (s : State) : Host.Outcome State Fault Refusal :=
  vecWord c (semVmulhu d a b) s

/-- What VMAD computes (R125). -/
def semVmad (d : VReg) (a : VReg) (b : VReg) : VecSem :=
  lanewise 6 (.v d 1) fun e l => .val (e.int ((e.w.rv a l).toInt * (e.w.rv b l).toInt + (e.w.rv (e.addend d) l).toInt))

/-- VMAD (R125). Per-lane multiply-add with the addend c. -/
def execVmad (c : Ctl) (d : VReg) (a : VReg) (b : VReg) (s : State) : Host.Outcome State Fault Refusal :=
  vecWord c (semVmad d a b) s

/-- What VAND computes (R125). -/
def semVand (d : VReg) (a : VReg) (b : VReg) : VecSem :=
  lanewise 4 (.v d 1) fun e l => .val ((e.w.rv a l) &&& (e.w.rv b l))

/-- VAND (R125). Per-lane bitwise and. -/
def execVand (c : Ctl) (d : VReg) (a : VReg) (b : VReg) (s : State) : Host.Outcome State Fault Refusal :=
  vecWord c (semVand d a b) s

/-- What VOR computes (R125). -/
def semVor (d : VReg) (a : VReg) (b : VReg) : VecSem :=
  lanewise 4 (.v d 1) fun e l => .val ((e.w.rv a l) ||| (e.w.rv b l))

/-- VOR (R125). Per-lane bitwise or. -/
def execVor (c : Ctl) (d : VReg) (a : VReg) (b : VReg) (s : State) : Host.Outcome State Fault Refusal :=
  vecWord c (semVor d a b) s

/-- What VXOR computes (R125). -/
def semVxor (d : VReg) (a : VReg) (b : VReg) : VecSem :=
  lanewise 4 (.v d 1) fun e l => .val ((e.w.rv a l) ^^^ (e.w.rv b l))

/-- VXOR (R125). Per-lane bitwise xor. -/
def execVxor (c : Ctl) (d : VReg) (a : VReg) (b : VReg) (s : State) : Host.Outcome State Fault Refusal :=
  vecWord c (semVxor d a b) s

/-- What VSHL computes (R125). -/
def semVshl (d : VReg) (a : VReg) (b : VReg) : VecSem :=
  lanewise 4 (.v d 1) fun e l => .val (shl32 (e.w.rv a l) (e.w.rv b l))

/-- VSHL (R125). Per-lane shift left. -/
def execVshl (c : Ctl) (d : VReg) (a : VReg) (b : VReg) (s : State) : Host.Outcome State Fault Refusal :=
  vecWord c (semVshl d a b) s

/-- What VSHR computes (R125). -/
def semVshr (d : VReg) (a : VReg) (b : VReg) : VecSem :=
  lanewise 4 (.v d 1) fun e l => .val (shr32 (e.w.rv a l) (e.w.rv b l))

/-- VSHR (R125). Per-lane logical shift right. -/
def execVshr (c : Ctl) (d : VReg) (a : VReg) (b : VReg) (s : State) : Host.Outcome State Fault Refusal :=
  vecWord c (semVshr d a b) s

/-- What VSRA computes (R125). -/
def semVsra (d : VReg) (a : VReg) (b : VReg) : VecSem :=
  lanewise 4 (.v d 1) fun e l => .val (sra32 (e.w.rv a l) (e.w.rv b l))

/-- VSRA (R125). Per-lane arithmetic shift right. -/
def execVsra (c : Ctl) (d : VReg) (a : VReg) (b : VReg) (s : State) : Host.Outcome State Fault Refusal :=
  vecWord c (semVsra d a b) s

/-- What VMIN computes (R125). -/
def semVmin (d : VReg) (a : VReg) (b : VReg) : VecSem :=
  lanewise 4 (.v d 1) fun e l => .val (smin32 (e.w.rv a l) (e.w.rv b l))

/-- VMIN (R125). Per-lane signed minimum. -/
def execVmin (c : Ctl) (d : VReg) (a : VReg) (b : VReg) (s : State) : Host.Outcome State Fault Refusal :=
  vecWord c (semVmin d a b) s

/-- What VMAX computes (R125). -/
def semVmax (d : VReg) (a : VReg) (b : VReg) : VecSem :=
  lanewise 4 (.v d 1) fun e l => .val (smax32 (e.w.rv a l) (e.w.rv b l))

/-- VMAX (R125). Per-lane signed maximum. -/
def execVmax (c : Ctl) (d : VReg) (a : VReg) (b : VReg) (s : State) : Host.Outcome State Fault Refusal :=
  vecWord c (semVmax d a b) s

/-- What VMINU computes (R125). -/
def semVminu (d : VReg) (a : VReg) (b : VReg) : VecSem :=
  lanewise 4 (.v d 1) fun e l => .val (umin32 (e.w.rv a l) (e.w.rv b l))

/-- VMINU (R125). Per-lane unsigned minimum. -/
def execVminu (c : Ctl) (d : VReg) (a : VReg) (b : VReg) (s : State) : Host.Outcome State Fault Refusal :=
  vecWord c (semVminu d a b) s

/-- What VMAXU computes (R125). -/
def semVmaxu (d : VReg) (a : VReg) (b : VReg) : VecSem :=
  lanewise 4 (.v d 1) fun e l => .val (umax32 (e.w.rv a l) (e.w.rv b l))

/-- VMAXU (R125). Per-lane unsigned maximum. -/
def execVmaxu (c : Ctl) (d : VReg) (a : VReg) (b : VReg) (s : State) : Host.Outcome State Fault Refusal :=
  vecWord c (semVmaxu d a b) s

/-- What VADDI computes (R125). -/
def semVaddi (d : VReg) (a : VReg) (i : BitVec 10) : VecSem :=
  lanewise 4 (.v d 1) fun e l => .val (e.int ((e.w.rv a l).toInt + i.toInt))

/-- VADDI (R125). Per-lane add of an immediate. -/
def execVaddi (c : Ctl) (d : VReg) (a : VReg) (i : BitVec 10) (s : State) : Host.Outcome State Fault Refusal :=
  vecWord c (semVaddi d a i) s

/-- What VANDI computes (R125). -/
def semVandi (d : VReg) (a : VReg) (i : BitVec 10) : VecSem :=
  lanewise 4 (.v d 1) fun e l => .val ((e.w.rv a l) &&& (i.signExtend 32))

/-- VANDI (R125). Per-lane and with an immediate. -/
def execVandi (c : Ctl) (d : VReg) (a : VReg) (i : BitVec 10) (s : State) : Host.Outcome State Fault Refusal :=
  vecWord c (semVandi d a i) s

/-- What VORI computes (R125). -/
def semVori (d : VReg) (a : VReg) (i : BitVec 10) : VecSem :=
  lanewise 4 (.v d 1) fun e l => .val ((e.w.rv a l) ||| (i.signExtend 32))

/-- VORI (R125). Per-lane or with an immediate. -/
def execVori (c : Ctl) (d : VReg) (a : VReg) (i : BitVec 10) (s : State) : Host.Outcome State Fault Refusal :=
  vecWord c (semVori d a i) s

/-- What VXORI computes (R125). -/
def semVxori (d : VReg) (a : VReg) (i : BitVec 10) : VecSem :=
  lanewise 4 (.v d 1) fun e l => .val ((e.w.rv a l) ^^^ (i.signExtend 32))

/-- VXORI (R125). Per-lane xor with an immediate. -/
def execVxori (c : Ctl) (d : VReg) (a : VReg) (i : BitVec 10) (s : State) : Host.Outcome State Fault Refusal :=
  vecWord c (semVxori d a i) s

/-- What VSHLI computes (R125). -/
def semVshli (d : VReg) (a : VReg) (i : BitVec 5) : VecSem :=
  lanewise 4 (.v d 1) fun e l => .val (shl32 (e.w.rv a l) (i.setWidth 32))

/-- VSHLI (R125). Per-lane shift left by an immediate. -/
def execVshli (c : Ctl) (d : VReg) (a : VReg) (i : BitVec 5) (s : State) : Host.Outcome State Fault Refusal :=
  vecWord c (semVshli d a i) s

/-- What VSHRI computes (R125). -/
def semVshri (d : VReg) (a : VReg) (i : BitVec 5) : VecSem :=
  lanewise 4 (.v d 1) fun e l => .val (shr32 (e.w.rv a l) (i.setWidth 32))

/-- VSHRI (R125). Per-lane logical shift right by an immediate. -/
def execVshri (c : Ctl) (d : VReg) (a : VReg) (i : BitVec 5) (s : State) : Host.Outcome State Fault Refusal :=
  vecWord c (semVshri d a i) s

/-- What VSRAI computes (R125). -/
def semVsrai (d : VReg) (a : VReg) (i : BitVec 5) : VecSem :=
  lanewise 4 (.v d 1) fun e l => .val (sra32 (e.w.rv a l) (i.setWidth 32))

/-- VSRAI (R125). Per-lane arithmetic shift right by an immediate. -/
def execVsrai (c : Ctl) (d : VReg) (a : VReg) (i : BitVec 5) (s : State) : Host.Outcome State Fault Refusal :=
  vecWord c (semVsrai d a i) s

/-- What VLI computes (R125). -/
def semVli (d : VReg) (i : BitVec 20) : VecSem :=
  lanewise 4 (.v d 1) fun _ _ => .val (i.signExtend 32)

/-- VLI (R125). Loads a sign-extended immediate into each enabled lane. -/
def execVli (c : Ctl) (d : VReg) (i : BitVec 20) (s : State) : Host.Outcome State Fault Refusal :=
  vecWord c (semVli d i) s

/-- What VMOV computes (R125). -/
def semVmov (d : VReg) (a : VReg) : VecSem :=
  lanewise 4 (.v d 1) fun e l => .val (e.w.rv a l)

/-- VMOV (R125). Per-lane register copy. -/
def execVmov (c : Ctl) (d : VReg) (a : VReg) (s : State) : Host.Outcome State Fault Refusal :=
  vecWord c (semVmov d a) s

/-- What VMOVS computes (R126). -/
def semVmovs (d : VReg) (a : SReg) : VecSem :=
  lanewise 4 (.v d 1) fun e _ => .val (e.w.rs a)

/-- VMOVS (R126). Copies a scalar into every enabled lane. -/
def execVmovs (c : Ctl) (d : VReg) (a : SReg) (s : State) : Host.Outcome State Fault Refusal :=
  vecWord c (semVmovs d a) s

/-- What VADDP computes (R126). -/
def semVaddp (d : VReg) (a : VReg) (b : VReg) : VecSem :=
  lanewise 4 (.v d 2) fun e l => let x := e.w.rvPair a l + e.w.rvPair b l
    .vals [lo32 x, hi32 x]

/-- VADDP (R126). Per-lane 64-bit add of even register pairs. -/
def execVaddp (c : Ctl) (d : VReg) (a : VReg) (b : VReg) (s : State) : Host.Outcome State Fault Refusal :=
  vecWord c (semVaddp d a b) s

/-- What VCLZ computes (R125). -/
def semVclz (d : VReg) (a : VReg) : VecSem :=
  lanewise 4 (.v d 1) fun e l => .val (BitVec.ofNat 32 (clz32 (e.w.rv a l)))

/-- VCLZ (R125). Per-lane count of leading zeros. -/
def execVclz (c : Ctl) (d : VReg) (a : VReg) (s : State) : Host.Outcome State Fault Refusal :=
  vecWord c (semVclz d a) s

/-- What VPOPC computes (R125). -/
def semVpopc (d : VReg) (a : VReg) : VecSem :=
  lanewise 4 (.v d 1) fun e l => .val (BitVec.ofNat 32 (popcount 32 (e.w.rv a l).toNat))

/-- VPOPC (R125). Per-lane count of set bits. -/
def execVpopc (c : Ctl) (d : VReg) (a : VReg) (s : State) : Host.Outcome State Fault Refusal :=
  vecWord c (semVpopc d a) s

/-- What VBFE computes (R126). -/
def semVbfe (d : VReg) (a : VReg) (len : BitVec 5) (pos : BitVec 5) : VecSem :=
  lanewise 4 (.v d 1) fun e l => .val (bitField (e.w.rv a l) len pos)

/-- VBFE (R126). Per-lane unsigned bit-field extract. -/
def execVbfe (c : Ctl) (d : VReg) (a : VReg) (len : BitVec 5) (pos : BitVec 5) (s : State) : Host.Outcome State Fault Refusal :=
  vecWord c (semVbfe d a len pos) s

/-- What VSEL computes (R127). -/
def semVsel (d : VReg) (a : VReg) (b : VReg) : VecSem :=
  lanewise 4 (.v d 1) fun e l => .val (if e.sel.getLsbD l then (e.w.rv a l) else (e.w.rv b l))

/-- VSEL (R127). Writes every run lane with a or b as the predicate mask selects. -/
def execVsel (c : Ctl) (d : VReg) (a : VReg) (b : VReg) (s : State) : Host.Outcome State Fault Refusal :=
  selWord c (semVsel d a b) s

/-- What VCMP computes (R128). -/
def semVcmp (md : BitVec 4) (cc : IntCC) (a : VReg) (b : VReg) : VecSem :=
  lanewise 6 (.m md) fun e l => .val (if intCompare cc (e.w.rv a l) (e.w.rv b l) then 1 else 0)

/-- VCMP (R128). Per-lane integer compare of two registers into a mask. -/
def execVcmp (c : Ctl) (md : BitVec 4) (cc : IntCC) (a : VReg) (b : VReg) (s : State) : Host.Outcome State Fault Refusal :=
  vecWord c (semVcmp md cc a b) s

/-- What VCMPI computes (R128). -/
def semVcmpi (md : BitVec 4) (cc : IntCC) (a : VReg) (i : BitVec 10) : VecSem :=
  lanewise 6 (.m md) fun e l => .val (if intCompare cc (e.w.rv a l) (i.signExtend 32) then 1 else 0)

/-- VCMPI (R128). Per-lane integer compare with an immediate into a mask. -/
def execVcmpi (c : Ctl) (md : BitVec 4) (cc : IntCC) (a : VReg) (i : BitVec 10) (s : State) : Host.Outcome State Fault Refusal :=
  vecWord c (semVcmpi md cc a i) s

/-- What VDOT4 computes (R125). -/
def semVdot4 (d : VReg) (a : VReg) (b : VReg) : VecSem :=
  lanewise 6 (.v d 1) fun e l => .val (e.int ((e.w.rv (e.addend d) l).toInt + dot4 (e.w.rv a l) (e.w.rv b l)))

/-- VDOT4 (R125). Per-lane dot product of four signed bytes plus the addend. -/
def execVdot4 (c : Ctl) (d : VReg) (a : VReg) (b : VReg) (s : State) : Host.Outcome State Fault Refusal :=
  vecWord c (semVdot4 d a b) s

end Sys2Proof.Machine
end

