-- ==== Sys2Proof/Machine/Pair.lean ====
section
/-!
DEFINITION. The dual word (R52 to R55) and the prefixed pair (R56 to R58).
-/

namespace Sys2Proof.Machine

/-- A register of a dual word, v0 to v255 (R52). -/
def slotReg (r : BitVec 8) : VReg := 0#2 ++ r

/-- The full equivalent of a slot (R53). -/
def slotSem (o : Slot) (d a : VReg) : VecSem :=
  match o with
  | .vmov => semVmov d a
  | .vadd => semVadd d d a
  | .vsub => semVsub d d a
  | .vand => semVand d d a
  | .vor => semVor d d a
  | .vxor => semVxor d d a
  | .vmin => semVmin d d a
  | .vmax => semVmax d d a
  | .vminu => semVminu d d a
  | .vmaxu => semVmaxu d d a
  | .vmul => semVmul d d a
  | .vshl => semVshl d d a
  | .vshr => semVshr d d a
  | .vsra => semVsra d d a
  | .fadd => semFadd d d a
  | .fsub => semFsub d d a
  | .fmul => semFmul d d a
  | .fmin => semFmin d d a
  | .fmax => semFmax d d a
  | .hadd => semHadd d d a
  | .hmul => semHmul d d a
  | .badd => semBadd d d a
  | .bmul => semBmul d d a
  | .fabs => semFabs d a
  | .fneg => semFneg d a
  | .vnot => semVxori d a 0x3FF
  | .cvtF32I32 => semCvt d a .f32 .i32
  | .cvtI32F32 => semCvt d a .i32 .f32

/-- The environment of a slot: RNE without saturation, but for the conversion whose mode R53 fixes. -/
def slotEnv (o : Slot) (e : VEnv) : VEnv :=
  match o with
  | .cvtI32F32 => { e with mode := .rtz, sat := true }
  | _ => e

/-- DUAL_WORD (R52 to R55). Both slots read before either writes; each slot has its own latency, and the word completes
with the later one (R53). -/
def execDualWord (h : Hdr) (opH : Slot) (dH aH : BitVec 8) (opL : Slot) (dL aL : BitVec 8) (p : Bool) (s : State) :
    Host.Outcome State Fault Refusal :=
  let c : Ctl := ⟨h, false, if p then 1#3 else 0#3⟩
  scalarWord c s fun x s =>
    let e := s.plainEnv x c
    let vH := slotSem opH (slotReg dH) (slotReg aH)
    let vL := slotSem opL (slotReg dL) (slotReg aL)
    s.applyVec x h.setf 0 (x.pc + 1)
      [(vH.dest, vH.lat, vH.f (slotEnv opH e)), (vL.dest, vL.lat, vL.f (slotEnv opL e))]

/-- The vector meaning of a word that may follow a prefix, with its header. -/
def pairSem : Instr → Option (Hdr × VecSem)
  | .vadd c d a b => some (c.h, semVadd d a b)
  | .vsub c d a b => some (c.h, semVsub d a b)
  | .vmul c d a b => some (c.h, semVmul d a b)
  | .vmulh c d a b => some (c.h, semVmulh d a b)
  | .vmulhu c d a b => some (c.h, semVmulhu d a b)
  | .vmad c d a b => some (c.h, semVmad d a b)
  | .vand c d a b => some (c.h, semVand d a b)
  | .vor c d a b => some (c.h, semVor d a b)
  | .vxor c d a b => some (c.h, semVxor d a b)
  | .vshl c d a b => some (c.h, semVshl d a b)
  | .vshr c d a b => some (c.h, semVshr d a b)
  | .vsra c d a b => some (c.h, semVsra d a b)
  | .vmin c d a b => some (c.h, semVmin d a b)
  | .vmax c d a b => some (c.h, semVmax d a b)
  | .vminu c d a b => some (c.h, semVminu d a b)
  | .vmaxu c d a b => some (c.h, semVmaxu d a b)
  | .vaddi c d a i => some (c.h, semVaddi d a i)
  | .vandi c d a i => some (c.h, semVandi d a i)
  | .vori c d a i => some (c.h, semVori d a i)
  | .vxori c d a i => some (c.h, semVxori d a i)
  | .vshli c d a i => some (c.h, semVshli d a i)
  | .vshri c d a i => some (c.h, semVshri d a i)
  | .vsrai c d a i => some (c.h, semVsrai d a i)
  | .vli c d i => some (c.h, semVli d i)
  | .vmov c d a => some (c.h, semVmov d a)
  | .vmovs c d a => some (c.h, semVmovs d a)
  | .vaddp c d a b => some (c.h, semVaddp d a b)
  | .vclz c d a => some (c.h, semVclz d a)
  | .vpopc c d a => some (c.h, semVpopc d a)
  | .vbfe c d a len pos => some (c.h, semVbfe d a len pos)
  | .vsel c d a b => some (c.h, semVsel d a b)
  | .vcmp c md cc a b => some (c.h, semVcmp md cc a b)
  | .vcmpi c md cc a i => some (c.h, semVcmpi md cc a i)
  | .vdot4 c d a b => some (c.h, semVdot4 d a b)
  | .fadd c d a b => some (c.h, semFadd d a b)
  | .fsub c d a b => some (c.h, semFsub d a b)
  | .fmul c d a b => some (c.h, semFmul d a b)
  | .ffma c d a b => some (c.h, semFfma d a b)
  | .fmin c d a b => some (c.h, semFmin d a b)
  | .fmax c d a b => some (c.h, semFmax d a b)
  | .fabs c d a => some (c.h, semFabs d a)
  | .fneg c d a => some (c.h, semFneg d a)
  | .fcpsgn c d a b => some (c.h, semFcpsgn d a b)
  | .frnd c d a => some (c.h, semFrnd d a)
  | .fcmp c md cc a b => some (c.h, semFcmp md cc a b)
  | .hadd c d a b => some (c.h, semHadd d a b)
  | .hmul c d a b => some (c.h, semHmul d a b)
  | .hfma c d a b => some (c.h, semHfma d a b)
  | .badd c d a b => some (c.h, semBadd d a b)
  | .bmul c d a b => some (c.h, semBmul d a b)
  | .bfma c d a b => some (c.h, semBfma d a b)
  | .fdot2h c d a b => some (c.h, semFdot2h d a b)
  | .fdot2b c d a b => some (c.h, semFdot2b d a b)
  | .cvt c d a dst src => some (c.h, semCvt d a dst src)
  | .packh c d a b => some (c.h, semPackh d a b)
  | .packb c d a b => some (c.h, semPackb d a b)
  | .frcp c d a => some (c.h, semFrcp d a)
  | .frsq c d a => some (c.h, semFrsq d a)
  | .fsqrt c d a => some (c.h, semFsqrt d a)
  | .fex2 c d a => some (c.h, semFex2 d a)
  | .flg2 c d a => some (c.h, semFlg2 d a)
  | .fsinp c d a => some (c.h, semFsinp d a)
  | .fcosp c d a => some (c.h, semFcosp d a)
  | .ftanh c d a => some (c.h, semFtanh d a)
  | .vperm c d a b => some (c.h, semVperm d a b)
  | .vshfl c d a mode k => some (c.h, semVshfl d a mode k)
  | .vbcast c d a n => some (c.h, semVbcast d a n)
  | .vred c d a op => some (c.h, semVred d a op)
  | .vscan c d a excl op => some (c.h, semVscan d a excl op)
  | .vhperm c d a pat => some (c.h, semVhperm d a pat)
  | .vrand c d => some (c.h, semVrand d)
  | .vrandf c d => some (c.h, semVrandf d)
  | .vrseed c a => some (c.h, semVrseed a)
  | .wnop => none
  | .ldn => none
  | .tbox => none
  | .wSort => none
  | .pushc => none
  | .wNext => none
  | .ttri => none
  | .wHit => none
  | .wPop => none
  | .brc _ _ _ => none
  | .callout _ => none
  | .wDone => none
  | .xform _ _ _ => none
  | .ipop => none
  | .cull => none
  | .sett _ _ => none
  | .dualWord _ _ _ _ _ _ _ _ => none
  | .prefixedPair _ _ => none
  | .nop _ => none
  | .bra _ _ _ _ => none
  | .call _ _ _ => none
  | .jr _ _ => none
  | .loop _ _ _ => none
  | .split _ _ _ _ => none
  | .jmpv _ _ => none
  | .sync _ => none
  | .exit _ => none
  | .yield _ => none
  | .sleep _ _ _ => none
  | .trap _ _ => none
  | .upcall _ _ _ _ => none
  | .elect _ _ => none
  | .setprio _ _ => none
  | .qany _ _ _ => none
  | .qall _ _ _ => none
  | .qnone _ _ _ => none
  | .qcmp _ _ _ _ _ => none
  | .qcmpi _ _ _ _ _ => none
  | .qop _ _ _ _ _ => none
  | .srd _ _ _ => none
  | .swr _ _ _ => none
  | .vsrd _ _ _ => none
  | .sadd _ _ _ _ => none
  | .ssub _ _ _ _ => none
  | .smul _ _ _ _ => none
  | .smulh _ _ _ _ => none
  | .sdiv _ _ _ _ => none
  | .sdivu _ _ _ _ => none
  | .srem _ _ _ _ => none
  | .sremu _ _ _ _ => none
  | .sand _ _ _ _ => none
  | .sor _ _ _ _ => none
  | .sxor _ _ _ _ => none
  | .sshl _ _ _ _ => none
  | .sshr _ _ _ _ => none
  | .ssra _ _ _ _ => none
  | .smin _ _ _ _ => none
  | .smax _ _ _ _ => none
  | .sminu _ _ _ _ => none
  | .smaxu _ _ _ _ => none
  | .saddi _ _ _ _ => none
  | .sandi _ _ _ _ => none
  | .sori _ _ _ _ => none
  | .sxori _ _ _ _ => none
  | .sshli _ _ _ _ => none
  | .sshri _ _ _ _ => none
  | .ssrai _ _ _ _ => none
  | .sli _ _ _ => none
  | .slui _ _ _ => none
  | .smov _ _ _ => none
  | .saddp _ _ _ _ => none
  | .sclz _ _ _ => none
  | .spopc _ _ _ => none
  | .sbfe _ _ _ _ _ => none
  | .mand _ _ _ _ => none
  | .mor _ _ _ _ => none
  | .mxor _ _ _ _ => none
  | .mandn _ _ _ _ => none
  | .mnot _ _ _ => none
  | .mfroms _ _ _ => none
  | .mtos _ _ _ => none
  | .mpopc _ _ _ => none
  | .mffs _ _ _ => none
  | .ldvB8z _ _ _ _ _ _ _ => none
  | .ldvB8s _ _ _ _ _ _ _ => none
  | .ldvB16z _ _ _ _ _ _ _ => none
  | .ldvB16s _ _ _ _ _ _ _ => none
  | .ldvB32 _ _ _ _ _ _ _ => none
  | .ldvB64 _ _ _ _ _ _ _ => none
  | .ldvB128 _ _ _ _ _ _ _ => none
  | .stvB8 _ _ _ _ _ _ _ => none
  | .stvB16 _ _ _ _ _ _ _ => none
  | .stvB32 _ _ _ _ _ _ _ => none
  | .stvB64 _ _ _ _ _ _ _ => none
  | .stvB128 _ _ _ _ _ _ _ => none
  | .ldsB32 _ _ _ _ _ _ _ => none
  | .ldsB64 _ _ _ _ _ _ _ => none
  | .ldsB128 _ _ _ _ _ _ _ => none
  | .stsB32 _ _ _ _ _ _ _ => none
  | .stsB64 _ _ _ _ _ _ _ => none
  | .ldlB32 _ _ _ _ _ _ _ => none
  | .ldlB128 _ _ _ _ _ _ _ => none
  | .stlB32 _ _ _ _ _ _ _ => none
  | .stlB128 _ _ _ _ _ _ _ => none
  | .atomAddB32 _ _ _ _ _ _ _ => none
  | .atomMinB32 _ _ _ _ _ _ _ => none
  | .atomMaxB32 _ _ _ _ _ _ _ => none
  | .atomMinuB32 _ _ _ _ _ _ _ => none
  | .atomMaxuB32 _ _ _ _ _ _ _ => none
  | .atomAndB32 _ _ _ _ _ _ _ => none
  | .atomOrB32 _ _ _ _ _ _ _ => none
  | .atomXorB32 _ _ _ _ _ _ _ => none
  | .atomXchgB32 _ _ _ _ _ _ _ => none
  | .casB32 _ _ _ _ _ _ _ => none
  | .atomfAddF32 _ _ _ _ _ _ _ => none
  | .atomfAddBf16x2 _ _ _ _ _ _ _ => none
  | .atomAddB64 _ _ _ _ _ _ _ => none
  | .atomMinB64 _ _ _ _ _ _ _ => none
  | .atomMaxB64 _ _ _ _ _ _ _ => none
  | .atomMinuB64 _ _ _ _ _ _ _ => none
  | .atomMaxuB64 _ _ _ _ _ _ _ => none
  | .atomAndB64 _ _ _ _ _ _ _ => none
  | .atomOrB64 _ _ _ _ _ _ _ => none
  | .atomXorB64 _ _ _ _ _ _ _ => none
  | .atomXchgB64 _ _ _ _ _ _ _ => none
  | .casB64 _ _ _ _ _ _ _ => none
  | .atomsAddB32 _ _ _ _ _ _ _ => none
  | .atomsMinB32 _ _ _ _ _ _ _ => none
  | .atomsMaxB32 _ _ _ _ _ _ _ => none
  | .atomsMinuB32 _ _ _ _ _ _ _ => none
  | .atomsMaxuB32 _ _ _ _ _ _ _ => none
  | .atomsAndB32 _ _ _ _ _ _ _ => none
  | .atomsOrB32 _ _ _ _ _ _ _ => none
  | .atomsXorB32 _ _ _ _ _ _ _ => none
  | .atomsXchgB32 _ _ _ _ _ _ _ => none
  | .cassB32 _ _ _ _ _ _ _ => none
  | .atomlAddB32 _ _ _ _ _ _ _ => none
  | .atomlMinB32 _ _ _ _ _ _ _ => none
  | .atomlMaxB32 _ _ _ _ _ _ _ => none
  | .atomlMinuB32 _ _ _ _ _ _ _ => none
  | .atomlMaxuB32 _ _ _ _ _ _ _ => none
  | .atomlAndB32 _ _ _ _ _ _ _ => none
  | .atomlOrB32 _ _ _ _ _ _ _ => none
  | .atomlXorB32 _ _ _ _ _ _ _ => none
  | .atomlXchgB32 _ _ _ _ _ _ _ => none
  | .caslB32 _ _ _ _ _ _ _ => none
  | .fence _ _ _ _ => none
  | .monitor _ _ _ _ _ => none
  | .mwait _ _ _ _ _ _ _ => none
  | .pf _ _ _ _ _ => none
  | .cwb _ _ _ _ _ => none
  | .cinv _ _ _ _ _ => none
  | .barSync _ _ _ => none
  | .barArrive _ _ _ => none
  | .barWait _ _ _ => none
  | .rte _ => none
  | .brk _ _ => none
  | .mma _ _ _ _ => none
  | .mmas _ _ _ _ => none
  | .macz _ _ => none
  | .macld _ _ _ _ => none
  | .macst _ _ _ _ => none
  | .mepiScale _ _ _ _ => none
  | .mepiBiasRow _ _ _ _ => none
  | .mepiBiasCol _ _ _ _ => none
  | .mepiRelu _ _ _ _ => none
  | .mepiClamp _ _ _ _ => none
  | .mepiAdd _ _ _ _ => none
  | .mepiDeq _ _ _ _ => none
  | .batonTake _ _ => none
  | .batonPass _ _ => none
  | .mquery _ _ _ => none
  | .mqueryFlagsc _ _ => none
  | .tld _ _ _ => none
  | .tconst _ _ _ => none
  | .tiota _ _ _ => none
  | .tmapTr _ _ _ => none
  | .tmapSlice _ _ _ _ => none
  | .tmapBcr _ _ _ _ => none
  | .tmapBcc _ _ _ _ => none
  | .tmapRevr _ _ _ => none
  | .tmapRevc _ _ _ => none
  | .tmapShift _ _ _ _ => none
  | .tadd _ _ _ _ => none
  | .tsub _ _ _ _ => none
  | .tmul _ _ _ _ => none
  | .tmax _ _ _ _ => none
  | .tmin _ _ _ _ => none
  | .texp _ _ _ => none
  | .tlog _ _ _ => none
  | .trcp _ _ _ => none
  | .tsig _ _ _ => none
  | .tselm _ _ _ _ _ => none
  | .tscan _ _ _ _ => none
  | .tred _ _ _ _ => none
  | .tmma _ _ _ _ _ => none
  | .tcvt _ _ _ _ => none
  | .tst _ _ _ => none
  | .tforce _ _ _ => none
  | .tdrop _ _ => none
  | .tcfg _ _ => none
  | .tstatCounts _ _ => none
  | .tstatCap _ _ => none
  | .tstatNode _ _ _ => none
  | .tstatFault _ _ => none
  | .cpy _ _ _ => none
  | .cpym _ _ _ => none
  | .cpyx _ _ _ => none
  | .tlwait _ _ _ => none
  | .tlrd _ _ _ => none
  | .waitp _ _ _ => none
  | .bankcfg _ _ => none
  | .fpush _ _ => none
  | .fpop _ _ _ => none
  | .portcfg _ _ _ => none
  | .cbarArrive _ _ => none
  | .cbarWait _ _ => none
  | .rbind _ _ _ _ => none
  | .rtrace _ _ _ => none
  | .rsave _ => none
  | .rresume _ _ _ => none
  | .rquery _ _ _ => none
  | .launch _ _ => none
  | .tenq _ _ => none
  | .rnext _ _ _ => none
  | .recalloc _ _ _ => none
  | .recsend _ _ => none
  | .gate _ => none
  | .release _ => none
  | .qclaim _ _ _ => none
  | .pemit _ _ => none
  | .pxout _ _ _ => none
  | .nmv _ _ _ => none
  | .sleepExpire _ => none
  | .batonTransfer _ => none
  | .matrixCommandStart _ => none
  | .accumulatorTileFill _ _ => none
  | .matrixCommandComplete _ => none
  | .demandOutputStep _ => none
  | .demandComplete _ => none
  | .viewCapture _ => none
  | .bankModeChangeDone _ _ => none
  | .fifoPushJoin _ _ => none
  | .fifoPopServe _ _ => none
  | .creditReturn _ _ => none
  | .portReadServe _ _ => none
  | .copyRequestComplete _ => none
  | .followOnEnqueue _ => none
  | .promisedTimeReached _ => none
  | .rbindApply _ => none
  | .rayStart _ => none
  | .nodeFetchReturn _ => none
  | .rayWriteback _ => none
  | .traversalRequestComplete _ => none
  | .nmvRequestComplete _ => none
  | .pixelWaveLaunch _ _ _ => none
  | .aggregatorWindowClose _ _ => none
  | .taskStart _ => none
  | .rangeTaskSplit _ => none
  | .batchTimeout _ _ => none
  | .batchGroupEnd _ => none
  | .cohortPlacement _ _ => none
  | .waveEnd _ => none
  | .registerLineFill _ _ => none
  | .wavePromotion _ _ => none
  | .fixedLatencyComplete _ _ => none
  | .loadComplete _ _ => none
  | .storePerformed _ _ => none
  | .rmwPerformed _ _ => none
  | .fenceComplete _ _ => none
  | .mwaitWake _ => none
  | .waitPoll _ => none
  | .trapDelivery _ => none
  | .pageWalk _ _ _ _ => none
  | .tlbiGo _ _ => none
  | .tlbiComplete _ => none
  | .preempt _ _ => none
  | .contextHalt _ _ => none
  | .controlStateSwap _ _ _ => none
  | .shadowStoreDrain _ => none
  | .restore _ _ _ => none
  | .waveEvict _ => none
  | .l2LineFill _ => none
  | .packetPromotion _ _ _ _ => none
  | .tailFilterReport _ => none
  | .launchPacket _ => none
  | .launchStart _ => none
  | .launchComplete _ => none
  | .graphDispatch _ => none
  | .drawGraph _ => none
  | .dependency _ => none
  | .dependencySatisfied _ _ => none
  | .timelineSignal _ => none
  | .timelineWait _ => none
  | .timelineWaitSatisfied _ _ => none
  | .handleDeclaration _ => none
  | .noOp _ => none
  | .firmwareDefinedPacket _ => none
  | .queueRestart _ => none
  | .qcbinv _ _ => none
  | .mbdone _ _ => none
  | .mailboxPost _ => none
  | .mailboxActionApply _ _ => none
  | .contextCreate _ => none
  | .windowDerive _ _ _ _ _ _ => none
  | .windowInvalidate _ _ => none
  | .capabilityAccess _ _ _ _ _ => none
  | .doorbellWrite _ => none
  | .queueTableFault _ => none
  | .queueErrorNotice _ => none
  | .partitionCreate _ _ => none
  | .partitionResize _ _ _ => none
  | .surfWrite _ _ _ => none
  | .verticalBlank _ _ => none
  | .sliceEncodeComplete _ _ => none
  | .flitCrcRetry _ _ => none
  | .linkRetrain _ _ => none
  | .linkRecover _ _ => none
  | .linkDown _ _ => none
  | .cecntClear _ _ _ => none
  | .dramPatrol _ => none
  | .governorTick _ => none
  | .coolantLimit _ => none
  | .coolantShutdown => none
  | .peerRequest _ => none
  | .peerUnreachable _ => none
  | .hostWrite _ _ _ => none
  | .hostRead _ _ => none
  | .feataccWrite _ => none
  | .shardFetch _ _ _ => none
  | .shardVerify _ _ _ => none
  | .shardFetchComplete _ _ => none
  | .shardScrub _ => none
  | .boot _ => none
  | .getVersion _ _ => none
  | .getCapabilities _ _ => none
  | .negotiateAlgorithms _ _ => none
  | .getDigests _ _ => none
  | .getCertificate _ _ => none
  | .challenge _ _ => none
  | .getMeasurements _ _ => none
  | .registerWrite _ _ _ => none
  | .eflerAccess _ _ => none
  | .hostAtomic _ _ _ => none
  | .peerPortDown _ => none
  | .recoveryImage _ => none

/-- What a memory word that may follow a prefix does: its header, access, address pair and data (R57, R58). -/
def pairMem : Instr → Option (Hdr × FlightKind × VReg × VReg)
  | .ldvB8z c d a _ sco ord ch => some (c.h, .load 1 .zero (.v d) ord sco ch, a, d)
  | .ldvB8s c d a _ sco ord ch => some (c.h, .load 1 .sign (.v d) ord sco ch, a, d)
  | .ldvB16z c d a _ sco ord ch => some (c.h, .load 2 .zero (.v d) ord sco ch, a, d)
  | .ldvB16s c d a _ sco ord ch => some (c.h, .load 2 .sign (.v d) ord sco ch, a, d)
  | .ldvB32 c d a _ sco ord ch => some (c.h, .load 4 .zero (.v d) ord sco ch, a, d)
  | .ldvB64 c d a _ sco ord ch => some (c.h, .load 8 .zero (.v d) ord sco ch, a, d)
  | .ldvB128 c d a _ sco ord ch => some (c.h, .load 16 .zero (.v d) ord sco ch, a, d)
  | .stvB8 c d a col sco ord ch => some (c.h, .store 1 ord sco ch col, a, d)
  | .stvB16 c d a col sco ord ch => some (c.h, .store 2 ord sco ch col, a, d)
  | .stvB32 c d a col sco ord ch => some (c.h, .store 4 ord sco ch col, a, d)
  | .stvB64 c d a col sco ord ch => some (c.h, .store 8 ord sco ch col, a, d)
  | .stvB128 c d a col sco ord ch => some (c.h, .store 16 ord sco ch col, a, d)
  | _ => none

/-- Whether a word is `vsel`, which a prefix mask never disables (R127). -/
def isVsel : Instr → Bool
  | .vsel _ _ _ _ => true
  | _ => false

/-- A prefixed pair issues to the lanes its mask enables; with none enabled it does nothing, `vsel` apart (R43, R58,
R127). -/
def pairWord (x : Pfx) (h : Hdr) (always : Bool) (s : State) (body : Issue → State → State) :
    Host.Outcome State Fault Refusal :=
  match s.issue ⟨h, false, 0#3⟩ with
  | none => .fault .noRun
  | some y =>
    let m := (s.wave y.w).rm x.mask
    let z := { y with en := y.run &&& (if x.neg then ~~~m else m) }
    if z.en = 0 ∧ always = false then .next (s.goto y y.run (y.pc + 2)) else .next (body z s)

/-- The environment of a prefixed pair (R58). -/
def State.pairEnv (s : State) (y : Issue) (x : Pfx) : VEnv :=
  let w := s.wave y.w
  ⟨w, y.run, y.en, BitVec.allOnes 64, w.resolve x.rnd, x.ftz, x.sat, some x.c, Config.freeValue s.freeCtr⟩

/-- A vector word under a prefix. -/
def State.pairVec (s : State) (y : Issue) (x : Pfx) (h : Hdr) (v : VecSem) : State :=
  let e := s.pairEnv y x
  let s1 := if e.mode = .sto then { s with freeCtr := s.freeCtr + 1 } else s
  s1.applyVec y h.setf (if x.zero then y.run &&& ~~~y.en else 0) (y.pc + 2) [(v.dest, v.lat, v.f e)]

/-- PREFIXED_PAIR (R56 to R58): issues as one word under the full word's header, with the prefix's mask, zeroing,
rounding and fourth operand, and goes on to PC + 2. A word that may not follow a prefix traps (R61). -/
def execPrefixedPair (x : Pfx) (i : Instr) (s : State) : Host.Outcome State Fault Refusal :=
  match pairSem i with
  | some (h, v) => pairWord x h (isVsel i) s fun y s => s.pairVec y x h v
  | none =>
    match pairMem i with
    | some (h, k, a, d) =>
      pairWord x h false s fun y s =>
        s.laneMem y h.setf .global k a d 0 (if x.zero then y.run &&& ~~~y.en else 0) (y.pc + 2)
    | none => pairWord x ⟨0, 0, 15⟩ true s fun y s => s.illegal y

end Sys2Proof.Machine
end

