-- ==== Sys2Proof/Machine/Image.lean ====
section
/-!
DEFINITION. The images of waves in memory (R170 to R173): the control page and the register lines, written at a halt
and read at a restore.
-/

namespace Sys2Proof.Machine

/-- The wait kind, condition selector and AUX of a sleeping run (R173, R289). The kind of `mwait` is not stated and is
`mw`. `now` is subtracted from a wake time. -/
def Wait.record (wt : Wait) (mw : Nat) (now : BitVec 64) : Nat × Nat × Nat × Nat :=
  match wt with
  | .mwait va .. => (4, mw, 0, va)
  | .timeline sel v => (4, 0x41, (Timeline.code sel).toNat, v.toNat)
  | .promise sel v t _ _ => (4, 0x42, (Timeline.code sel).toNat, v.toNat + 2 ^ 32 * t.toNat)
  | .port _ a b _ va _ =>
    -- the port whose message is awaited: A's until it is served
    (4, 0x43, match a, va, b with
      | .op (.n p), none, _ => p.toNat
      | _, _, .op (.n p) => p.toNat
      | _, _, _ => 0, 0)
  | .cbar b g => (4, 0x44, b.toNat, g)
  | .tenq ws => (4, 0x45, (ws.getD 0 0).toNat % 2 ^ 16, 0)
  | .recalloc a _ => (4, 0x46, a.toNat % 2 ^ 16, 0)
  | .qclaim a _ => (4, 0x47, a.toNat % 256, a.toNat / 256)
  | .gate => (4, 0x48, 0, 0)
  | .bar b g => (5, b.toNat, 0, if g then 1 else 0)
  | .sleep t => (6, 0, 0, (t - now).toNat)

/-- The 24 bytes of a suspension record (R173), as fields at an index. -/
def recordFields (k members pc state cause order aux : Nat) : List PageField :=
  let o := 0xA00 + 24 * k
  [(o, 8, members), (o + 8, 4, pc), (o + 12, 1, state), (o + 13, 1, cause), (o + 14, 2, order), (o + 16, 8, aux)]

/-- How many pending user-handled sets were raised before one (R173). -/
def Wave.raisedBefore (w : Wave) (p : Parked) : Nat :=
  (w.parked.filter fun (q : Parked) => !q.system && !q.active && decide (q.order < p.order)).length

/-- The suspension records of a wave: parked sets, then sleeping runs. -/
def Wave.recordList (w : Wave) (mw : Nat) (now : BitVec 64) : List PageField :=
  let ps := (upTo w.parked.length).flatMap fun k =>
    match w.parked[k]? with
    | none => []
    | some p => recordFields k p.members.toNat p.pc.toNat
        (if p.system then 1 else if p.active then 3 else 2) p.cause.code.toNat
        (if p.system || p.active then 0 else w.raisedBefore p) p.addr.toNat
  let n := w.parked.length
  let zs := (upTo w.sleepers.length).flatMap fun k =>
    match w.sleepers[k]? with
    | none => []
    | some z =>
      let (st, cause, order, aux) := z.wait.record mw now
      recordFields (n + k) z.members.toNat z.pc.toNat st cause order aux
  ps ++ zs

/-- The index of the active set's record, 0xFF for none (R172). -/
def Wave.activeIndex (w : Wave) : Nat :=
  match (upTo w.parked.length).find? fun k => match w.parked[k]? with
    | some p => p.active
    | none => false with
  | some k => k
  | none => 0xFF

/-- The fields of the control page (R172). -/
def Wave.pageFields (w : Wave) (lref : BitVec 64) (gimage mw : Nat) (now : BitVec 64) : List PageField :=
  (laneList.map fun l => (4 * l, 4, (w.pcOf l).toNat)) ++
  (laneList.map fun l => (0x100 + l, 1, (w.stateOf l).code.toNat)) ++
  [(0x140, 8, w.seed.toNat), (0x148, 4, (w.q ||| 1).toNat)] ++
  ((upTo 12).map fun i => (0x14C + i, 1, (w.flag i).toNat)) ++
  [(0x158, 4, w.fpctl.toNat), (0x15C, 4, w.fpstat.toNat), (0x160, 4, w.prio.toNat), (0x164, 4, w.age.toNat),
   (0x168, 4, w.aging), (0x16C, 4, w.late.toNat), (0x170, 4, w.waitovf.toNat), (0x174, 4, w.trapcause.toNat),
   (0x178, 8, w.trapaddr.toNat % 2 ^ 57), (0x180, 4, w.trappc.toNat), (0x184, 4, w.delivered.toNat),
   (0x188, 4, w.activeIndex), (0x18C, 4, w.tfault.toNat),
   (0x190, 8, match w.watch with
     | some u => u.va / 4 * 4 + (if u.written then 2 else 0) + 1
     | none => 0),
   (0x198, 4, (w.flights.filter fun e => match e.2.kind with
     | .fence .. => true
     | _ => false).length),
   (0x19C, 4, w.arrivals.toNat), (0x1A0, 4, w.waveid.toNat), (0x1A4, 4, w.gidx.toNat), (0x1A8, 4, w.ngroups.toNat),
   (0x1AC, 4, w.cidx.toNat), (0x1B0, 4, w.rngstream.toNat), (0x1B4, 4, gimage), (0x1B8, 8, w.codebase.toNat),
   (0x1C0, 4, w.localbase.toNat), (0x1C4, 4, w.localsize.toNat), (0x1C8, 8, lref.toNat)] ++
  ((upTo 256).map fun i => (0x200 + 4 * i, 4, (SMap.get w.s i).toNat)) ++
  ((upTo 16).map fun i => (0x600 + 8 * i, 8, (w.rm (BitVec.ofNat 4 i)).toNat)) ++
  ((upTo 8).flatMap fun k => portFields k (AMap.getD w.ports k PortSt.unconfigured)) ++
  (laneList.map fun l => (0x700 + 4 * l, 4, (SMap.get w.draws l).toNat)) ++
  (laneList.map fun l => (0x800 + 4 * l, 4, (SMap.get w.save l).toNat)) ++
  w.recordList mw now

/-- Writes a control page: reserved bytes 0, then the fields. -/
def State.writePage (s : State) (pasid : BitVec 20) (off : Nat) (fs : List PageField) : State :=
  let s1 := (upTo 512).foldl (fun s k => s.imageWrite pasid (off + 8 * k) 8 0) s
  fs.foldl (fun s f => s.imageWrite pasid (off + f.1) f.2.1 f.2.2) s1

/-- Writes a wave's control page to its image (R172, R197). Its sleeping runs hold their remaining counts (R108). -/
def State.savePage (s : State) (w : Nat) : State :=
  let (f, s1) := s.free
  let x := s1.wave w
  s1.writePage x.pasid (waveImageOff x.image + controlOff)
    (x.pageFields (s1.launch x.launch).lref (s1.group x.group).image (f.toNat % 256) 0)

/-- Reads a thread state; other codes make the image corrupt (R12). -/
def threadStateOf (b : Nat) : Option ThreadState :=
  match b with
  | 0 => some .unlaunched
  | 1 => some .ready
  | 2 => some .sleeping
  | 3 => some .parked
  | 4 => some .syncing
  | 5 => some .exited
  | _ => none

/-- A suspension record (R173). -/
structure Suspended where
  members : Lanes
  pc : Word
  state : Nat
  cause : Nat
  order : Nat
  aux : BitVec 64
deriving DecidableEq, Repr

/-- Reads suspension record k. -/
def recordAt (rd : Nat → Nat → Nat) (k : Nat) : Suspended :=
  let o := 0xA00 + 24 * k
  ⟨BitVec.ofNat 64 (rd o 8), BitVec.ofNat 32 (rd (o + 8) 4), rd (o + 12) 1, rd (o + 13) 1, rd (o + 14) 2,
    BitVec.ofNat 64 (rd (o + 16) 8)⟩

/-- The lanes that some records hold, none when one lane stands in two of them. The record of the active set names threads
that run the handler, and so may be in any state (R25); what R173 says of the lanes of records is taken to mean the others
(DESIGN CHOICE, log entry 114). -/
def recordLanes (rd : Nat → Nat → Nat) : List Nat → Lanes → Option Lanes
  | [], m => some m
  | k :: t, m =>
    let r := recordAt rd k
    if r.state = 0 ∨ r.state = 3 then recordLanes rd t m
    else if 6 < r.state then none
    else if m &&& r.members ≠ 0 then none
    else recordLanes rd t (m ||| r.members)

/-- The image is consistent (R12, R173, R287): legal states, every sleeping or parked lane in one record and no other,
no port of mode 11. -/
def pageOk (rd : Nat → Nat → Nat) : Bool :=
  (laneList.all fun l => (threadStateOf (rd (0x100 + l) 1)).isSome) &&
  ((upTo 8).all fun k => rd (0x680 + 16 * k) 4 % 4 != 3) &&
  match recordLanes rd (upTo 64) 0 with
  | none => false
  | some m => m == maskOf fun l => rd (0x100 + l) 1 == 2 || rd (0x100 + l) 1 == 3

/-- The cause that a code names (R182). -/
def Cause.ofCode (c : Nat) : Option Cause :=
  [.illegal, .illegalFormat, .formatDivergence, .stallUndersized, .baton, .chrysalisFull, .aliased, .tileFault,
   .breakpoint, .softTrap, .misalignment, .fpException, .latePromise, .portFault, .fetchFault, .translation, .access,
   .upcall, .dataLoss, .doubleTrap].find? fun k => k.code.toNat == c

/-- The order of raising of pending set number k (R173): sets keep the numbers the model gave them. -/
def Wave.orderAt (w : Wave) (k : Nat) (own : Nat) : Nat :=
  let ps := (w.parked.filter fun p => !p.system && !p.active).map fun p => p.order
  (ps.find? fun o => (ps.filter fun q => decide (q < o)).length == k).getD own

/-- A parked set as its record gives it, over what the model keeps of it: the mailbox entry that stands for it, the
arguments and scalars of an upcall, the timeline (log entry 44). Index `active` is that of the active set. -/
def Parked.ofRecord (p : Parked) (w : Wave) (r : Suspended) (k active : Nat) : Parked :=
  { p with
    members := r.members, pc := r.pc, cause := (Cause.ofCode r.cause).getD p.cause, system := r.state == 1,
    active := r.state == 3 && k == active, addr := r.aux,
    order := if r.state = 2 then w.orderAt r.order p.order else p.order }

/-- The watch that a control page gives (R172): armed, its word's address and written bit. Its physical address and its
slice's entry come with the restore (R198, R320). -/
def watchOf (rd : Nat → Nat → Nat) : Option Watch :=
  let v := rd 0x190 8
  if natBits v 0 0 = 1 then some ⟨natBits v 56 2 * 4, 0, natBits v 1 1 == 1, false⟩ else none

/-- The fences that the page still counts as incomplete (R156, R172): the youngest stay. -/
def fencesLeft (fs : AMap Flight) (n : Nat) : AMap Flight :=
  let fence (e : Nat × Flight) : Bool := match e.2.kind with
    | .fence .. => true
    | _ => false
  let all := (fs.filter fence).length
  fs.filter fun e => !fence e || decide (all ≤ n + (fs.filter fun u => fence u && decide (u.1 < e.1)).length)

/-- A wave as its control page gives it back (R172, R198): the fields of the page over the record the wave had. The
`sr.cycle` capture is discarded, and its first word issues without STALL (R37). The page holds no last issue and no
producers that STALL has still to cover: the wave counts as one that has never issued (R163; log entry 115), and no
read after the restore is early on account of a word before the halt (R167; log entry 116). -/
def Wave.ofPage (w : Wave) (rd : Nat → Nat → Nat) : Wave :=
  let word (o : Nat) : Word := BitVec.ofNat 32 (rd o 4)
  let table (o : Nat) : SMap 32 := laneList.foldl (fun m l => SMap.set m l (word (o + 4 * l))) []
  { w with
    pcs := table 0,
    threads := laneList.filterMap fun l =>
      match threadStateOf (rd (0x100 + l) 1) with
      | some .unlaunched => none
      | some t => some (l, t)
      | none => none,
    seed := BitVec.ofNat 64 (rd 0x140 8),
    q := BitVec.ofNat 16 (rd 0x148 4),
    f := (upTo 12).foldl (fun m i => SMap.set m i (BitVec.ofNat 6 (rd (0x14C + i) 1))) [],
    fpctl := word 0x158, fpstat := word 0x15C, prio := word 0x160, selPrio := word 0x160, age := word 0x164,
    aging := rd 0x168 4,
    late := word 0x16C, waitovf := word 0x170, trapcause := word 0x174, trapaddr := BitVec.ofNat 64 (rd 0x178 8),
    trappc := word 0x180, delivered := word 0x184, tfault := word 0x18C,
    watch := watchOf rd, flights := fencesLeft w.flights (rd 0x198 4),
    arrivals := BitVec.ofNat 16 (rd 0x19C 4), waveid := word 0x1A0, gidx := word 0x1A4, ngroups := word 0x1A8,
    cidx := word 0x1AC, rngstream := word 0x1B0, codebase := BitVec.ofNat 64 (rd 0x1B8 8), localbase := word 0x1C0,
    localsize := word 0x1C4,
    s := (upTo 256).foldl (fun m i => SMap.set m i (word (0x200 + 4 * i))) [],
    m := (upTo 16).foldl (fun m i => if i = 0 then m else SMap.set m i (BitVec.ofNat 64 (rd (0x600 + 8 * i) 8))) [],
    ports := (upTo 8).filterMap fun k =>
      let o := 0x680 + 16 * k
      let c := rd o 4
      if c % 4 = 0 ∧ AMap.find w.ports k = none then none
      else some (k, ⟨BitVec.ofNat 2 c, natBits c 7 2, natBits c 13 8,
        if natBits c 14 14 = 1 then some (word (o + 12)) else none, word (o + 4), word (o + 8), (w.port k).resv⟩),
    draws := table 0x700, save := table 0x800,
    parked := (upTo 64).filterMap fun k =>
      let r := recordAt rd k
      if r.state = 0 ∨ 3 < r.state then none
      else some (((w.parked[k]?).getD (Parked.make 0 0 .illegal false 0 (w.nextOrder + k))).ofRecord w r k
        (rd 0x188 4 % 256)),
    nextOrder := w.nextOrder + 64,
    capture := none, lastIssue := none, owed := [], yielded := false, promoted := none }

/-- What a sleeping run waits for, as its record gives it (R173, R289): the selector and the operand of the word it sleeps
in. The record holds neither the word's destination nor what it has taken so far, which the model keeps (log entry 44).
Die cycle `now` is that of the restore. -/
def Wait.ofRecord (wt : Wait) (r : Suspended) (now : BitVec 64) : Wait :=
  let aux := r.aux.toNat
  let sel (t : Timeline) : Timeline := (Timeline.ofCode (BitVec.ofNat 10 r.order)).getD t
  match wt with
  | .sleep _ => .sleep (now + r.aux)
  | .bar _ _ => .bar (BitVec.ofNat 4 r.cause) (aux == 1)
  | .cbar _ _ => .cbar (BitVec.ofNat 4 r.order) aux
  | .mwait _ pa old d ord sco ch n => .mwait aux pa old d ord sco ch n
  | .timeline t _ => .timeline (sel t) (BitVec.ofNat 32 aux)
  | .promise t _ _ c die => .promise (sel t) (BitVec.ofNat 32 aux) (BitVec.ofNat 32 (aux / 2 ^ 32)) c die
  | .port f a b d va vb =>
    let p : SSrc := .op (.n (BitVec.ofNat 3 r.order))
    match a, va with
    | .op (.n _), none => .port f p b d va vb
    | _, _ => .port f a p d va vb
  | .recalloc a d => .recalloc (BitVec.ofNat 32 (a.toNat / 2 ^ 16 * 2 ^ 16 + r.order)) d
  | .tenq ws => .tenq (match ws with
    | [] => []
    | x :: t => BitVec.ofNat 32 (x.toNat / 2 ^ 16 * 2 ^ 16 + r.order) :: t)
  | .qclaim _ d => .qclaim (BitVec.ofNat 32 (r.order % 256 + 256 * aux)) d
  | .gate => .gate

/-- Writes a register line to the wave's image (R175). -/
def State.spillLine (s : State) (w line : Nat) : State :=
  let x := s.wave w
  (upTo 16).foldl (fun s k =>
    s.imageWrite x.pasid (waveImageOff x.image + lineOff line + 4 * k) 4
      (x.rv (BitVec.ofNat 10 (line / 4)) (16 * (line % 4) + k)).toNat) s

/-- Reads a register line back from the wave's image (R175). -/
def State.reloadLine (s : State) (w line : Nat) : State :=
  let x := s.wave w
  (s.useImage x.pasid (waveImageOff x.image + lineOff line) 64 false).onWave w fun y => (upTo 16).foldl (fun y k =>
    y.wv (BitVec.ofNat 10 (line / 4)) (16 * (line % 4) + k)
      (BitVec.ofNat 32 (s.imageRead x.pasid (waveImageOff x.image + lineOff line + 4 * k) 4))) y

end Sys2Proof.Machine
end

