-- ==== Sys2Proof/Machine/Waits.lean ====
section
/-!
DEFINITION. Timelines of engine requests and the waits on them (R272 to R276, R281, R282, R187).
-/

namespace Sys2Proof.Machine

/-- The completions of one more request on a timeline (R273). -/
def Tl.advance : Nat → Tl → Tl
  | 0, t => t
  | k + 1, t =>
    if t.done.contains (t.value + 1) then
      Tl.advance k { t with value := t.value + 1, done := t.done.filter fun n => n != t.value + 1 }
    else t

/-- Request n of a timeline completes (R273). -/
def Tl.finish (t : Tl) (n : Nat) : Tl :=
  let t1 := { t with done := t.done ++ [n] }
  Tl.advance t1.done.length t1

/-- The timeline that a selector names (R272). -/
def Cohort.tl (c : Cohort) : Timeline → Tl
  | .copy => c.copy
  | .trav => c.trav
  | .nmv k => AMap.getD c.nmv k.toNat Tl.fresh

def Cohort.putTl (c : Cohort) (sel : Timeline) (t : Tl) : Cohort :=
  match sel with
  | .copy => { c with copy := t }
  | .trav => { c with trav := t }
  | .nmv k => { c with nmv := AMap.put c.nmv k.toNat t }

/-- The first check that fails, by the number it carries, least first. -/
def firstFail (cs : List (Nat × Bool)) : Option Nat :=
  (cs.filter fun c => !c.2).foldl (fun b c => match b with
    | none => some c.1
    | some k => some (min k c.1)) none

/-- Whether a 64-bit value reaches a 32-bit awaited value (R274). -/
def reached (v : Nat) (m : Word) : Bool := decide ((v + 2 ^ 32 - m.toNat) % 2 ^ 32 < 2 ^ 31)

/-- The cohort of a wave. -/
def State.cohortOf (s : State) (w : Nat) : Nat := (s.group (s.wave w).group).cohort

/-- The timeline a wave names. -/
def State.tlOf (s : State) (w : Nat) (sel : Timeline) : Tl := (s.cohort (s.cohortOf w)).tl sel

/-- The failure record that covers an awaited value (R276). -/
def Tl.covers (t : Tl) (m : Word) : Option (Cause × Nat) :=
  match t.fail with
  | some (n, c, a) => if reached m.toNat (BitVec.ofNat 32 n) then some (c, a) else none
  | none => none

/-- A run parks on a timeline's failure record, with its PC at the wait: a system-service set, whatever the cause
(R276). -/
def State.parkOn (s : State) (w : Nat) (run : Lanes) (pc : Word) (sel : Timeline) (c : Cause) (a : Nat) : State :=
  if run = 0 then s
  else s.onWave w fun x =>
    x.addParked { Parked.make run pc c true (BitVec.ofNat 64 a) x.nextOrder with onTl := some sel, seq := s.parkSeq }

/-- A sleeping run leaves its wait without completing its word: its flag falls and its PC is the word's again. -/
def Wave.unsleep (w : Wave) (z : Sleeper) : Wave :=
  { ((w.lowerFlag z.flag).next z.members z.pc) with sleepers := w.sleepers.filter fun y => y.order != z.order }

/-- The lateness of a promised time at a die count, low 32 bits (R187). -/
def latenessOf (now : BitVec 64) (q : Word) : Nat := (now.setWidth 32 - q).toNat

/-- The end of a wait on a timeline that has reached its value: the acquire of R281, or the park of R276. -/
def State.endTimeline (s : State) (w : Nat) (z : Sleeper) (sel : Timeline) (m : Word) (late : Nat) : State :=
  match (s.tlOf w sel).covers m with
  | some (c, a) => (s.onWave w fun x => x.unsleep z).parkOn w z.members z.pc sel c a
  | none =>
    (s.acquire (s.wave w).core).onWave w fun x => { x.wake z [] with late := satAdd x.late late }

/-- A `waitp` whose promised time has come (R282): it ends, or it is a late promise (R187). -/
def State.promiseDue (s : State) (w : Nat) (z : Sleeper) (sel : Timeline) (m q : Word) (die : Nat) : State :=
  let x := s.wave w
  if reached (s.tlOf w sel).value m then s.endTimeline w z sel m 0
  else if (s.ctlw x.pasid).getLsbD 1 then
    (s.onWave w fun x => x.unsleep z).park w z.members z.pc .latePromise (BitVec.ofNat 64 (latenessOf (s.dieCycle x) q))
  else s.onWave w fun x =>
    { x with sleepers := x.sleepers.map fun (y : Sleeper) =>
        if y.order = z.order then { y with wait := .promise sel m q false die } else y }

/-- Tests the wait of a sleeping run on a timeline; on another die than that of its promise it waits for the timeline
alone (R198). -/
def State.testTimeline (s : State) (w : Nat) (z : Sleeper) : State :=
  match z.wait with
  | .timeline sel m => if reached (s.tlOf w sel).value m then s.endTimeline w z sel m 0 else s
  | .promise sel m q coming die =>
    if die ≠ dieOf (s.wave w).core then
      if reached (s.tlOf w sel).value m then s.endTimeline w z sel m 0 else s
    else if coming then
      if reached (s.dieCycle (s.wave w)).toNat q then s.promiseDue w z sel m q die else s
    else if reached (s.tlOf w sel).value m then
      s.endTimeline w z sel m (latenessOf (s.dieCycle (s.wave w)) q)
    else s
  | _ => s

/-- The resident waves of a cohort whose runs hold wait-table entries see its timelines (R176); a run that polls sees
them at its next poll (R177). -/
def State.settleTimelines (s : State) (c : Nat) : State :=
  s.waves.foldl (fun s e =>
    if e.2.slot.isSome ∧ s.cohortOf e.1 = c then
      e.2.sleepers.foldl (fun s z => if z.entry then
        match z.wait with
        | .promise _ _ _ true die => if die = dieOf e.2.core then s else s.testTimeline e.1 z
        | _ => s.testTimeline e.1 z else s) s
    else s) s

/-- The fields of a context in a cohort record (R383): its timeline at one offset, its failure record at another. -/
def Tl.fields (t : Tl) (o fo : Nat) : List PageField :=
  let (n, c) := match t.fail with
    | some (n, c, a) => (n, a % 2 ^ 57 + 2 ^ 57 * c.code.toNat)
    | none => (0, 0)
  [(o, 8, t.value), (o + 8, 8, t.accepted), (fo, 8, n), (fo + 8, 8, c)]

/-- The contexts in a cohort record (R383). -/
def Cohort.tlFields (c : Cohort) : List PageField :=
  c.copy.fields 0x000 0x020 ++ c.trav.fields 0x010 0x030 ++
    (upTo 24).flatMap fun k => (AMap.getD c.nmv k Tl.fresh).fields (0x040 + 16 * k) (0x1C0 + 16 * k)

/-- Writes fields of a cohort's record (R383). -/
def State.writeCohort (s : State) (c : Nat) (fs : List PageField) : State :=
  let h := s.cohort c
  match AMap.find s.contexts h.pasid.toNat with
  | none => s
  | some x => fs.foldl (fun s f => s.areaWrite h.pasid (x.desc.cohrec.toNat + 1024 * h.record + f.1) f.2.1 f.2.2) s

/-- A cohort is halted: it has groups, and none of them is resident. -/
def State.cohortHalted (s : State) (c : Nat) : Bool :=
  let gs := (s.cohort c).groups
  !gs.isEmpty && gs.all fun g => (s.group g).slot.isNone

/-- The advances and failures of a halted cohort's requests reach its record (R196). -/
def State.mirrorCohort (s : State) (c : Nat) : State :=
  if s.cohortHalted c then s.writeCohort c (s.cohort c).tlFields else s

/-- An engine request is complete: its timeline advances, and the waits it reaches end (R273). -/
def State.finishReq (s : State) (r : Nat) : State :=
  match AMap.find s.reqs r with
  | none => s
  | some q =>
    let s1 := { s with reqs := AMap.del s.reqs r }
    if (AMap.find s.cohorts q.cohort).isSome then
      ((s1.onCohort q.cohort fun c => c.putTl q.sel ((c.tl q.sel).finish q.n)).settleTimelines q.cohort).mirrorCohort q.cohort
    else s1

/-- A request meets a fault: its context records the lowest failed number (R276). -/
def State.failReq (s : State) (r : Nat) (c : Cause) (a : Nat) : State :=
  match AMap.find s.reqs r with
  | none => s
  | some q =>
    let s1 := { s with reqs := AMap.put s.reqs r { q with failed := true } }
    if (AMap.find s.cohorts q.cohort).isSome then
      (s1.onCohort q.cohort fun h =>
        let t := h.tl q.sel
        h.putTl q.sel { t with fail := match t.fail with
          | some (n, c', a') => if n ≤ q.n then some (n, c', a') else some (q.n, c, a)
          | none => some (q.n, c, a) }).mirrorCohort q.cohort
    else s1

/-- Requests of a context that have not completed (R274). -/
def State.outstanding (s : State) (cohort : Nat) (sel : Timeline) : Nat :=
  (s.reqs.filter fun e => decide (e.2.cohort = cohort ∧ e.2.sel = sel)).length

/-- A request word is accepted (R273 to R275, R278): every colour is released at device scope, the request takes the
next number, and its number and promised time are on their way to S[D] and S[D + 1] (log entry 12). -/
def State.acceptReq (s : State) (x : Issue) (setf : BitVec 4) (d : SReg) (sel : Timeline) (kind : ReqKind)
    (desc : List Word) : State :=
  let s1 := s.releaseAll x.w .device
  let w := s1.wave x.w
  let c := s1.cohortOf x.w
  let n := (s1.tlOf x.w sel).accepted + 1
  let (f, s2) := s1.free
  let p := (s2.dieCycle w).toNat + 1 + f.toNat
  let q : Req :=
    { kind := kind, desc := desc, cohort := c, cluster := clusterOf w.core, wave := x.w,
      wid := w.waveid.setWidth 4, group := w.group, pasid := w.pasid, flag := setf, sel := sel, n := n, pc := x.pc,
      read := [], written := [], started := false, stall := none, weights := none, failed := false, queued := false, next := 0, counts := [0, 0, 0, 0, 0, 0], savers := [] }
  let s3 := { s2 with reqs := AMap.put s2.reqs s2.nextId q, nextId := s2.nextId + 1 }
  let s4 := s3.onCohort c fun h => h.putTl sel { h.tl sel with accepted := n }
  let ws : List RegWrite := [.s d (BitVec.ofNat 32 n), .s (d + 1) (BitVec.ofNat 32 p)]
  (s4.onWave x.w fun w => (w.raiseFlag setf).addFlight ⟨.result ws, setf, x.run, []⟩).goto x x.run (x.pc + 1)

/-- A checked request word: with 256 requests outstanding it stays in dispatch (R274). -/
def State.requestWord (s : State) (x : Issue) (setf : BitVec 4) (d : SReg) (sel : Timeline) (kind : ReqKind)
    (desc : List Word) : State :=
  if 256 ≤ s.outstanding (s.cohortOf x.w) sel then s.hold x else s.acceptReq x setf d sel kind desc

/-- A wait word whose timeline has reached its value: the acquire, or the park of R276. -/
def State.passTimeline (s : State) (x : Issue) (c : Ctl) (sel : Timeline) (m : Word) : State :=
  match (s.tlOf x.w sel).covers m with
  | some (k, a) => s.parkOn x.w x.run x.pc sel k a
  | none => ((s.acquire (s.wave x.w).core).noResult x c).goto x x.run (x.pc + 1)

/-- TLWAIT (R282). -/
def execTlwait (c : Ctl) (a : SReg) (sel : Timeline) (s : State) : Host.Outcome State Fault Refusal :=
  scalarWord c s fun x s =>
    let m := (s.wave x.w).rs a
    if reached (s.tlOf x.w sel).value m then s.passTimeline x c sel m
    else
      (s.onWave x.w fun w => w.raiseFlag c.h.setf).sleepRun x.w x.run x.pc (x.pc + 1) (.timeline sel m) c.h.setf

/-- TLRD (R282): the value at issue. -/
def execTlrd (c : Ctl) (d : SReg) (sel : Timeline) (s : State) : Host.Outcome State Fault Refusal :=
  scalarWord c s fun x s =>
    let v := BitVec.ofNat 64 (s.tlOf x.w sel).value
    (s.onWave x.w fun w =>
      (w.raiseFlag c.h.setf).addFlight ⟨.result (pairWrites d v), c.h.setf, x.run, []⟩).goto x x.run (x.pc + 1)

/-- WAITP (R282, R187). -/
def execWaitp (c : Ctl) (a : SReg) (sel : Timeline) (s : State) : Host.Outcome State Fault Refusal :=
  scalarWord c s fun x s =>
    let w := s.wave x.w
    let m := w.rs a
    let q := w.rsk a 1
    let now := s.dieCycle w
    let sleep (coming : Bool) : State :=
      (s.onWave x.w fun w => w.raiseFlag c.h.setf).sleepRun x.w x.run x.pc (x.pc + 1) (.promise sel m q coming (dieOf w.core)) c.h.setf
    if !reached now.toNat q then sleep true
    else if reached (s.tlOf x.w sel).value m then s.passTimeline x c sel m
    else if (s.ctlw w.pasid).getLsbD 1 then
      s.park x.w x.run x.pc .latePromise (BitVec.ofNat 64 (latenessOf now q))
    else sleep false

/-- PROMISED_TIME_REACHED (R282): the waits of a wave whose promised time has come. -/
def execPromisedTimeReached (w : Nat) (s : State) : Host.Outcome State Fault Refusal :=
  .next ((s.wave w).sleepers.foldl (fun s z =>
    match z.wait with
    | .promise _ _ _ true _ => if (s.wave w).slot.isSome ∧ z.entry then s.testTimeline w z else s
    | _ => s) s)

end Sys2Proof.Machine
end

