-- ==== Sys2Proof/Machine/Matrix.lean ====
section
/-!
DEFINITION. The matrix engine: command words and their checks (R204 to R226), commands as they compute (R219 to R224),
the baton (R210 to R213), and the engine's events.
-/

namespace Sys2Proof.Machine

/-! Format words and descriptors. -/

/-- Fields of a format word (R214). -/
def fwAF (f : Word) : Nat := natBits f.toNat 3 0
def fwBF (f : Word) : Nat := natBits f.toNat 7 4
def fwACCF (f : Word) : Nat := natBits f.toNat 11 8
def fwSparse (f : Word) : Bool := f.getLsbD 12
def fwNeg (f : Word) : Bool := f.getLsbD 13

/-- The block step T of a legal (A, B, accumulate) combination (R216). -/
def blockStep (af bf accf : Nat) : Option Nat :=
  let narrow (x : Nat) : Bool := x == 3 || x == 4
  if accf = 0xA then (if af = 5 ∧ bf = 5 then some 64 else none)
  else if accf ≠ 0 then none
  else if af = 7 ∧ bf = 7 then some 32
  else if (af = 7 ∨ af = 9) ∧ (bf = 7 ∨ bf = 9) then some 64
  else if narrow af && narrow bf then some 64
  else if (af = 1 ∧ bf = 1) ∨ (af = 2 ∧ bf = 2) then some 128
  else none

/-- The (ACCF, AF) pairs of `macld` and `macst` (R221). -/
def loadPair (accf af : Nat) : Bool :=
  if accf = 0 then [0, 1, 2, 3, 4, 7, 9].contains af else accf == 0xA && [5, 0xA].contains af
def storePair (accf af : Nat) : Bool :=
  if accf = 0 then [0, 1, 2, 3, 4, 7, 9].contains af else accf == 0xA && [0xA, 5, 0].contains af

/-- The codes that a feature governs are accepted (R422). -/
def codeOk (feat : BitVec 64) (c : Nat) : Bool := !(c == 7 || c == 9) || feat.getLsbD 8

/-- Whether a format word is legal for an operation and SUB (R214 to R216, R221, R224). -/
def formatOk (feat : BitVec 64) (op : Nat) (sub : Nat) (f : Word) : Bool :=
  let af := fwAF f
  let bf := fwBF f
  let accf := fwACCF f
  natBits f.toNat 31 14 == 0 && codeOk feat af && codeOk feat bf &&
    match op with
    | 0x180 => !fwSparse f && (blockStep af bf accf).isSome
    | 0x181 => fwSparse f && feat.getLsbD 3 && (blockStep af bf accf).isSome
    | 0x183 => !fwSparse f && !fwNeg f && bf == 0 && loadPair accf af
    | 0x184 => !fwSparse f && !fwNeg f && bf == 0 && storePair accf af
    | 0x185 => !fwSparse f && !fwNeg f && bf == 0 && af == 0 && accf == (if sub = 6 then 0xA else 0)
    | _ => f == 0

/-- RowBytes of a matrix code. -/
def codeRow (c n : Nat) : Nat := rowBytes ((fmtOfMatrix c).getD .i8) n

/-- A local region of `n` bytes from an offset that must be a multiple of `al` lies in [0, size) (R217, R221). -/
def regionOk (size : Nat) (al : Nat) (off : Word) (n : Nat) : Bool :=
  off.toNat % al == 0 && decide (off.toNat < 2 ^ 23 ∧ off.toNat + n ≤ size)

/-- The first bad descriptor word of a command, as k + 1 (R215, R217, R221, R224). -/
def descBad (op sub size : Nat) (f : Word) (d : List Word) : Option Nat :=
  let w (k : Nat) : Word := d.getD k 0
  let first (cs : List (Nat × Bool)) : Option Nat := (cs.find? fun c => !c.2).map fun c => c.1 + 1
  let kOk := if op = 0x180 then decide (32 ≤ (w 2).toNat ∧ (w 2).toNat ≤ 65536 ∧ (w 2).toNat % 32 = 0)
    else decide (64 ≤ (w 2).toNat ∧ (w 2).toNat ≤ 65536 ∧ (w 2).toNat % 64 = 0)
  let k := (w 2).toNat
  match op with
  | 0x180 => first [
      (0, if kOk then regionOk size 16 (w 0) (128 * codeRow (fwAF f) k) else regionOk size 16 (w 0) 0),
      (1, if kOk then regionOk size 16 (w 1) (128 * codeRow (fwBF f) k) else regionOk size 16 (w 1) 0),
      (2, kOk), (3, natBits (w 3).toNat 31 1 == 0)]
  | 0x181 => first [
      (0, if kOk then regionOk size 16 (w 0) (128 * codeRow (fwAF f) (k / 2)) else regionOk size 16 (w 0) 0),
      (1, if kOk then regionOk size 16 (w 1) (128 * codeRow (fwBF f) k) else regionOk size 16 (w 1) 0),
      (2, kOk), (3, natBits (w 3).toNat 31 1 == 0),
      (4, if kOk then regionOk size 16 (w 4) (128 * (k / 8)) else regionOk size 16 (w 4) 0)]
  | 0x185 => if sub = 1 ∨ sub = 2 then first [(0, regionOk size 16 (w 0) 512)] else none
  | 0x182 => none
  | _ =>
    let rb := codeRow (fwAF f) 128
    let flagsOk := if op = 0x183 then natBits (w 2).toNat 31 1 == 0
      else natBits (w 2).toNat 31 7 == 0 && decide (natBits (w 2).toNat 2 0 ≤ 4) &&
        (fwAF f == 7 || natBits (w 2).toNat 6 4 == 0)
    first [(0, regionOk size 16 (w 0) (127 * (w 1).toNat + rb)),
      (1, (w 1).toNat % 4 == 0 && decide (rb ≤ (w 1).toNat)), (2, flagsOk)]

/-- Descriptor words of a command (R211). -/
def descLen (op : Nat) : Nat :=
  match op with
  | 0x180 => 4
  | 0x181 => 5
  | 0x183 => 3
  | 0x184 => 3
  | 0x185 => 2
  | _ => 0

/-! Acceptance. -/

/-- The group to which a `cpyx` request gives its follow-on: the one of that index in its cohort (R280). -/
def State.followTarget (s : State) (q : Req) : Option Nat :=
  (s.cohort q.cohort).groups.find? fun g => (s.group g).index == natBits (q.desc.getD 8 0).toNat 15 12

/-- Follow-ons of a group's `cpyx` words that have not completed and are not in its own queue (R210). -/
def State.followOns (s : State) (g : Nat) : Nat :=
  (s.reqs.filter fun e => e.2.kind == .follow && e.2.group == g && !(e.2.queued && s.followTarget e.2 == some g)).length

/-- The holder's outstanding operations (R210). -/
def State.outstandingOps (s : State) (g : Nat) : Nat := (s.group g).queue.length + s.followOns g

/-- The wave holds the baton and no pass is pending (R210). -/
def State.commands (s : State) (w : Nat) : Bool :=
  let g := s.group (s.wave w).group
  g.baton == some ((s.wave w).waveid.setWidth 4) && g.pass.isNone

/-- A context is being halted on a core (R194). -/
def State.halting (s : State) (core : Nat) (pasid : BitVec 20) : Bool :=
  (AMap.find (s.core core).halting pasid.toNat).isSome

/-- The queue takes another command: it holds at most 6, or 7 when a halt falls on the held word (R206). -/
def State.queueRoom (s : State) (w : Nat) : Bool :=
  let x := s.wave w
  let n := (s.group x.group).queue.length
  decide (n ≤ 6) || (n == 7 && s.halting x.core x.pasid)

/-- Puts a command of a wave's run into its group's queue: the flag rises, every colour is released at group scope
(R206, R332), and the run goes on. -/
def State.enqueue (s : State) (x : Issue) (setf : BitVec 4) (mk : Nat → Cmd) : State :=
  let w := s.wave x.w
  let op := w.nextOp
  let s1 := (s.onWave x.w fun w => (w.raiseFlag setf).addFlight ⟨.command, setf, x.run, []⟩).onGroup w.group
    fun g => { g with queue := g.queue ++ [mk op] }
  s1.goto x x.run (x.pc + 1)

/-- The lowest enabled lane's format word, and whether every enabled lane agrees (R215). -/
def Wave.voted (w : Wave) (en : Lanes) (d : VReg) : Word × Bool :=
  match lanesOf en with
  | [] => (0, true)
  | l :: t => (w.rv d l, t.all fun k => w.rv d k == w.rv d l)

/-- The meaning of a command word (R206, R207, R210, R215): formats and descriptor, the baton, the vote, then the
queue. -/
def commandWord (c : Ctl) (op : BitVec 9) (d : Option VReg) (a : SReg) (acc : BitVec 3) (sub : BitVec 7) (s : State) :
    Host.Outcome State Fault Refusal :=
  scalarWord c s fun x s =>
    let w := s.wave x.w
    let (f, agree) := match d with
      | some v => w.voted x.en v
      | none => (0, true)
    let ds := w.block a (descLen op.toNat)
    let bad := if !formatOk s.fabric.featacc op.toNat sub.toNat f then some 0
      else descBad op.toNat sub.toNat (s.group w.group).localsize.toNat f ds
    match bad with
    | some k => s.park x.w x.run x.pc .illegalFormat (BitVec.ofNat 64 k)
    | none =>
      if !s.commands x.w then s.park x.w x.run x.pc .baton 0
      else if !agree then s.park x.w x.run x.pc .formatDivergence 0
      else if !s.queueRoom x.w then s.hold x
      else s.enqueue x c.h.setf fun n =>
        ⟨op, acc, sub, false, x.w, w.waveid.setWidth 4, f, c.h.setf, ds, some n, x.pc, [(x.w, n)], none, none, 0, none⟩

/-- MMA (R219). -/
def execMma (c : Ctl) (d : VReg) (a : SReg) (acc : BitVec 3) (s : State) : Host.Outcome State Fault Refusal :=
  commandWord c 0x180 (some d) a acc 0 s
/-- MMAS (R219). -/
def execMmas (c : Ctl) (d : VReg) (a : SReg) (acc : BitVec 3) (s : State) : Host.Outcome State Fault Refusal :=
  commandWord c 0x181 (some d) a acc 0 s
/-- MACZ (R220). -/
def execMacz (c : Ctl) (acc : BitVec 3) (s : State) : Host.Outcome State Fault Refusal :=
  commandWord c 0x182 none 0 acc 0 s
/-- MACLD (R222). -/
def execMacld (c : Ctl) (d : VReg) (a : SReg) (acc : BitVec 3) (s : State) : Host.Outcome State Fault Refusal :=
  commandWord c 0x183 (some d) a acc 0 s
/-- MACST (R223). -/
def execMacst (c : Ctl) (d : VReg) (a : SReg) (acc : BitVec 3) (s : State) : Host.Outcome State Fault Refusal :=
  commandWord c 0x184 (some d) a acc 0 s
/-- MEPI_SCALE (R224). -/
def execMepiScale (c : Ctl) (d : VReg) (a : SReg) (acc : BitVec 3) (s : State) : Host.Outcome State Fault Refusal :=
  commandWord c 0x185 (some d) a acc 0 s
/-- MEPI_BIAS_ROW (R224). -/
def execMepiBiasRow (c : Ctl) (d : VReg) (a : SReg) (acc : BitVec 3) (s : State) : Host.Outcome State Fault Refusal :=
  commandWord c 0x185 (some d) a acc 1 s
/-- MEPI_BIAS_COL (R224). -/
def execMepiBiasCol (c : Ctl) (d : VReg) (a : SReg) (acc : BitVec 3) (s : State) : Host.Outcome State Fault Refusal :=
  commandWord c 0x185 (some d) a acc 2 s
/-- MEPI_RELU (R224). -/
def execMepiRelu (c : Ctl) (d : VReg) (a : SReg) (acc : BitVec 3) (s : State) : Host.Outcome State Fault Refusal :=
  commandWord c 0x185 (some d) a acc 3 s
/-- MEPI_CLAMP (R224). -/
def execMepiClamp (c : Ctl) (d : VReg) (a : SReg) (acc : BitVec 3) (s : State) : Host.Outcome State Fault Refusal :=
  commandWord c 0x185 (some d) a acc 4 s
/-- MEPI_ADD (R224). -/
def execMepiAdd (c : Ctl) (d : VReg) (a : SReg) (acc : BitVec 3) (s : State) : Host.Outcome State Fault Refusal :=
  commandWord c 0x185 (some d) a acc 5 s
/-- MEPI_DEQ (R224). -/
def execMepiDeq (c : Ctl) (d : VReg) (a : SReg) (acc : BitVec 3) (s : State) : Host.Outcome State Fault Refusal :=
  commandWord c 0x185 (some d) a acc 6 s

/-! The baton and status. -/

/-- BATON_TAKE (R212). -/
def execBatonTake (c : Ctl) (d : SReg) (s : State) : Host.Outcome State Fault Refusal :=
  scalarWord c s fun x s =>
    let w := s.wave x.w
    let me : BitVec 4 := w.waveid.setWidth 4
    let s1 := s.onGroup w.group fun g => if g.baton.isNone then { g with baton := some me } else g
    let held : Word := if (s1.group w.group).baton = some me then 1 else 0
    (s1.fixed x.w c.h.setf x.run 4 [.s d held]).goto x x.run (x.pc + 1)

/-- BATON_PASS (R213): the word completes at the transfer. -/
def execBatonPass (c : Ctl) (target : PassTarget) (s : State) : Host.Outcome State Fault Refusal :=
  scalarWord c s fun x s =>
    let w := s.wave x.w
    let bad := match target with
      | .free => false
      | .wave n => decide ((s.group w.group).waves ≤ n.toNat)
    if bad then s.illegal x
    else if !s.commands x.w then s.park x.w x.run x.pc .baton 0
    else
      let op := w.nextOp
      let s1 := s.onWave x.w fun w => (w.raiseFlag c.h.setf).addFlight ⟨.command, c.h.setf, x.run, []⟩
      (s1.onGroup w.group fun g => { g with pass := some target, passOp := some (x.w, op) }).goto x x.run (x.pc + 1)

/-- What `mquery` reads (R225). -/
def State.mqueryValue (s : State) (g : Nat) (sub : MQuery) : Word :=
  let x := s.group g
  match sub with
  | .baton => BitVec.ofNat 32 ((match x.baton with
      | some w => w.toNat
      | none => 0xFF) + if x.pass.isSome then 256 else 0)
  | .outstanding => BitVec.ofNat 32 (s.outstandingOps g)
  | .queued => BitVec.ofNat 32 x.queue.length
  | .flags => x.sticky.setWidth 32

/-- The issue of an `mquery`: it reads at the end of its cycle, when every completion of that cycle is applied, and
completes 4 cycles after issue (R225). -/
def State.query (s : State) (x : Issue) (setf : BitVec 4) (d : SReg) (sub : MQuery) (clear : Bool) : State :=
  (s.onWave x.w fun w =>
    (w.raiseFlag setf).addFlight ⟨.query (s.coreCycle w + 4) d sub clear, setf, x.run, []⟩).goto x x.run (x.pc + 1)

/-- MQUERY (R225). -/
def execMquery (c : Ctl) (d : SReg) (sub : MQuery) (s : State) : Host.Outcome State Fault Refusal :=
  scalarWord c s fun x s => s.query x c.h.setf d sub false

/-- MQUERY_FLAGSC (R225): the flags are read and cleared in one action. -/
def execMqueryFlagsc (c : Ctl) (d : SReg) (s : State) : Host.Outcome State Fault Refusal :=
  scalarWord c s fun x s => s.query x c.h.setf d .flags true

/-- An `mquery` of the cycle that ends reads (R225). -/
def State.readQuery (s : State) (w : Nat) (op : Nat) : State :=
  match AMap.find (s.wave w).flights op with
  | some ⟨.query due d sub clear, setf, run, accs⟩ =>
    let g := (s.wave w).group
    let v := s.mqueryValue g sub
    let s1 := s.onWave w fun x => { x with flights := AMap.put x.flights op ⟨.fixed due [(.s d v, due)], setf, run, accs⟩ }
    if clear then s1.onGroup g fun y => { y with sticky := 0 } else s1
  | _ => s

/-- The `mquery` words that a core's waves issued in the cycle that ends read. -/
def State.readQueries (s : State) (core : Nat) : State :=
  s.waves.foldl (fun s e =>
    if e.2.core = core then e.2.flights.foldl (fun s f => s.readQuery e.1 f.1) s else s) s

/-! What a command computes. -/

/-- `tst` and `tforce`. -/
def Cmd.isDemand (c : Cmd) : Bool := c.op == 0x1A2 || c.op == 0x1A3

/-- The operand regions of a command in the cluster's scratch space (R217, R221, R224). -/
def Cmd.regions (c : Cmd) (base : Nat) : List (Nat × Nat) :=
  let w (k : Nat) : Nat := (c.desc.getD k 0).toNat
  let k := w 2
  match c.op.toNat with
  | 0x180 => [(base + w 0, 128 * codeRow (fwAF c.format) k), (base + w 1, 128 * codeRow (fwBF c.format) k)]
  | 0x181 => [(base + w 0, 128 * codeRow (fwAF c.format) (k / 2)), (base + w 1, 128 * codeRow (fwBF c.format) k),
      (base + w 4, 128 * (k / 8))]
  | 0x183 => (upTo 128).map fun i => (base + w 0 + i * w 1, codeRow (fwAF c.format) 128)
  | 0x185 => if c.sub = 1 ∨ c.sub = 2 then [(base + w 0, 512)] else []
  | _ => []

/-- The kept regions of a group's nodes in the scratch space (R250). -/
def Group.keptRegions (g : Group) : List (Nat × Nat) :=
  g.nodes.filterMap fun e =>
    let w (k : Nat) : Word := e.2.keep.getD k 0
    if e.2.kept then some (g.localbase.toNat + (w 0).toNat, (w 2).toNat % 2 ^ 16 * (w 3).toNat) else none

/-- What a command samples from its start (R207, R250): a demand, the kept regions. -/
def Cmd.sampled (c : Cmd) (g : Group) : List (Nat × Nat) :=
  if c.isDemand then g.keptRegions else c.regions g.localbase.toNat

/-- The bytes of some regions of a scratch space. -/
def regionBytes (scratch : SMap 8) (rs : List (Nat × Nat)) : SMap 8 :=
  scratch.filter fun e => rs.any fun r => decide (r.1 ≤ e.1 ∧ e.1 < r.1 + r.2)

/-- Replaces one aligned 4-byte granule of a sample. -/
def takeGranule (old new : SMap 8) (g : Nat) : SMap 8 :=
  (upTo 4).foldl (fun m k => SMap.set m (4 * g + k) (SMap.get new (4 * g + k))) old

/-- The granules in which two samples differ. -/
def differing (a b : SMap 8) : List Nat :=
  (((a ++ b).filter fun e => SMap.get a e.1 != SMap.get b e.1).map fun e => e.1 / 4).eraseDups

/-- A granule lies in none of some ranges. -/
def outside (used : List (Nat × Nat)) (g : Nat) : Bool :=
  used.all fun r => decide (4 * g + 4 ≤ r.1 ∨ r.1 + r.2 ≤ 4 * g)

/-- Samples again: each granule that has changed and has not been used keeps its value or takes the new one, by a free
bit (R207). -/
def State.resample (s : State) (old new : SMap 8) (used : List (Nat × Nat)) : SMap 8 × State :=
  ((differing old new).filter fun g => outside used g).foldl (fun r g =>
    let (v, s1) := r.2.free
    (if v.getLsbD 0 then takeGranule r.1 new g else r.1, s1)) (old, s)

/-- Expand of a sparse row (R218): the stored index that position k takes, none for a zero. -/
def expandIndex (rd : Nat → Byte) (meta_ k : Nat) : Option Nat :=
  let g := k / 4
  let b := (rd (meta_ + g / 2)).toNat
  let nib := if g % 2 = 0 then b % 16 else b / 16
  if k % 4 = nib / 4 then some (2 * g + 1) else if k % 4 = nib % 4 then some (2 * g) else none

/-- The A element of a product: row i, position k (R217, R218). -/
def Cmd.aIndex (c : Cmd) (rd : Nat → Byte) (base i k : Nat) : Option Nat :=
  if c.op = 0x181 then expandIndex rd (base + (c.desc.getD 4 0).toNat + i * ((c.desc.getD 2 0).toNat / 8)) k else some k

def Cmd.aRow (c : Cmd) (base i : Nat) : Nat :=
  let k := (c.desc.getD 2 0).toNat
  base + (c.desc.getD 0 0).toNat + i * codeRow (fwAF c.format) (if c.op = 0x181 then k / 2 else k)

def Cmd.bRow (c : Cmd) (base j : Nat) : Nat :=
  base + (c.desc.getD 1 0).toNat + j * codeRow (fwBF c.format) (c.desc.getD 2 0).toNat

/-- The operand bytes that the steps a product has done have used (R207). -/
def Cmd.used (c : Cmd) (base : Nat) : List (Nat × Nat) :=
  if c.step = 0 then []
  else
    let k := 32 * c.step
    (upTo 128).flatMap fun i =>
      [(c.aRow base i, codeRow (fwAF c.format) (if c.op = 0x181 then k / 2 else k)),
       (c.bRow base i, codeRow (fwBF c.format) k)] ++
      if c.op = 0x181 then
        [(base + (c.desc.getD 4 0).toNat + i * ((c.desc.getD 2 0).toNat / 8), k / 8)]
      else []

/-- One block step of a product for element (i, j) (R219): block b is positions 32b to 32b + 31. -/
def Cmd.mmaStep (c : Cmd) (rd : Nat → Byte) (base i j b : Nat) (x : Word) : Word × Flags :=
  let ks := (upTo 32).map fun k => 32 * b + k
  if fwACCF c.format = 0xA then
    let s : Int := ks.foldl (fun a k =>
      let av := match c.aIndex rd base i k with
        | some n => rowInt rd (c.aRow base i) n
        | none => 0
      let p := av * rowInt rd (c.bRow base j) k
      a + if fwNeg c.format then -p else p) 0
    (BitVec.ofInt 32 (x.toInt + s), 0)
  else
    let af := (fmtOfMatrix (fwAF c.format)).getD .f32
    let bf := (fmtOfMatrix (fwBF c.format)).getD .f32
    let ps := ks.map fun k =>
      let a := match c.aIndex rd base i k with
        | some n => (rowElem rd af (c.aRow base i) n).1
        | none => FVal.zero
      dotTerm (fwNeg c.format) a (rowElem rd bf (c.bRow base j) k).1
    let (r, f) := dotStep (f32 x) ps
    (toF32 r, f)

/-- Block steps [from_, to_) of a product for element (i, j): INIT takes the tile as zero before the first (R217). -/
def Cmd.mmaCell (c : Cmd) (rd : Nat → Byte) (base from_ to_ i j : Nat) (x : Word) : Word × Flags :=
  let x0 : Word := if from_ = 0 ∧ (c.desc.getD 3 0).getLsbD 0 then 0 else x
  ((upTo (to_ - from_)).map fun b => from_ + b).foldl (fun r b =>
    let (v, f) := c.mmaStep rd base i j b r.1
    (v, r.2 ||| f)) (x0, 0)

/-- The local offset of the first bad header that block steps [from_, to_) read: in step order, rows of A before
columns of B (R227; log entry 25). -/
def Cmd.badBlock (c : Cmd) (rd : Nat → Byte) (base from_ to_ : Nat) : Option Nat :=
  let af := (fmtOfMatrix (fwAF c.format)).getD .f32
  let bf := (fmtOfMatrix (fwBF c.format)).getD .f32
  let k0 (b : Nat) : Nat := if c.op = 0x181 then 16 * b else 32 * b
  let at_ (row : Nat) (F : Fmt) (k : Nat) : Option Nat :=
    let a := row + headerOff F k
    if isBlockFmt F && badHeader (F == .blk8) (leValue rd a 2) then some (a - base) else none
  ((upTo (to_ - from_)).flatMap fun n =>
    ((upTo 128).filterMap fun i => at_ (c.aRow base i) af (k0 (from_ + n))) ++
      (upTo 128).filterMap fun j => at_ (c.bRow base j) bf (32 * (from_ + n))).head?

/-- Replaces the elements of tile t by a function of row, column and old element. -/
def tileMap (acc : SMap 32) (t : Nat) (f : Nat → Nat → Word → Word × Flags) : SMap 32 × Flags :=
  let cells := (upTo 16384).map fun k => (16384 * t + k, f (k / 128) (k % 128) (SMap.get acc (16384 * t + k)))
  ((acc.filter fun e => decide (e.1 < 16384 * t)) ++
      (cells.filter fun e => e.2.1 != 0).map (fun e => (e.1, e.2.1)) ++
      (acc.filter fun e => decide (16384 * (t + 1) ≤ e.1)),
    cells.foldl (fun fl e => fl ||| e.2.2) 0)

/-- An element of a local array as `macld` decodes it (R222). -/
def Cmd.loadElem (c : Cmd) (rd : Nat → Byte) (base i j : Nat) : FVal :=
  (rowElem rd ((fmtOfMatrix (fwAF c.format)).getD .f32) (base + (c.desc.getD 0 0).toNat + i * (c.desc.getD 1 0).toNat) j).1

def Cmd.loadInt (c : Cmd) (rd : Nat → Byte) (base i j : Nat) : Int :=
  let row := base + (c.desc.getD 0 0).toNat + i * (c.desc.getD 1 0).toNat
  if fwAF c.format = 5 then rowInt rd row j else intOf 32 true (leValue rd (row + 4 * j) 4)

/-- `macld` of one element (R222). -/
def Cmd.loadCell (c : Cmd) (rd : Nat → Byte) (base i j : Nat) (x : Word) : Word × Flags :=
  let add := (c.desc.getD 2 0).getLsbD 0
  if fwACCF c.format = 0xA then (BitVec.ofInt 32 ((if add then x.toInt else 0) + c.loadInt rd base i j), 0)
  else
    let v := c.loadElem rd base i j
    if add then
      let (r, f) := fAdd false (f32 x) v
      let (q, g) := rneF32 r
      (toF32 q, f ||| g)
    else (toF32 v, 0)

/-- The first bad header that `macld` reads. -/
def Cmd.badLoad (c : Cmd) (rd : Nat → Byte) (base : Nat) : Option Nat :=
  let F := (fmtOfMatrix (fwAF c.format)).getD .f32
  ((upTo 128).flatMap fun i => (upTo 4).filterMap fun b =>
    let a := base + (c.desc.getD 0 0).toNat + i * (c.desc.getD 1 0).toNat + headerOff F (32 * b)
    if isBlockFmt F && badHeader (F == .blk8) (leValue rd a 2) then some (a - base) else none).head?

/-- `mepi` of one element (R224). -/
def Cmd.epiCell (c : Cmd) (rd : Nat → Byte) (acc : SMap 32) (base i j : Nat) (x : Word) : Word × Flags :=
  let d0 := c.desc.getD 0 0
  let d1 := c.desc.getD 1 0
  let round (r : FVal × Flags) : Word × Flags :=
    let (q, g) := rneF32 r.1
    (toF32 q, r.2 ||| g)
  let bias (k : Nat) : FVal := f32 (BitVec.ofNat 32 (leValue rd (base + d0.toNat + 4 * k) 4))
  match c.sub.toNat with
  | 0 => round (fMul (f32 x) (f32 d0))
  | 1 => round (fAdd false (f32 x) (bias j))
  | 2 => round (fAdd false (f32 x) (bias i))
  | 3 => (toF32 (fMax (f32 x) FVal.zero), 0)
  | 4 => (toF32 (fMin (fMax (f32 x) (f32 d0)) (f32 d1)), 0)
  | 5 => round (fAdd false (f32 x) (f32 (SMap.get acc (16384 * (d0.toNat % 8) + 128 * i + j))))
  | _ => round (fMul (.fin (decide (x.toInt < 0)) x.toInt.natAbs 1) (f32 d0))

/-- `macst` of one row (R223): its bytes, the exceptions, whether a block held a NaN or an infinity. -/
def Cmd.storeRow (c : Cmd) (acc : SMap 32) (i : Nat) : List Byte × Flags :=
  let fl := (c.desc.getD 2 0).toNat
  let m := rndOf (natBits fl 2 0)
  let sat := natBits fl 3 3 == 1
  let x (j : Nat) : Word := SMap.get acc (16384 * c.acc.toNat + 128 * i + j)
  let F := (fmtOfMatrix (fwAF c.format)).getD .f32
  if isBlockFmt F then
    let bs := (upTo 4).map fun b =>
      let xs := (upTo 32).map fun k => f32 (x (32 * b + k))
      if natBits fl 6 6 = 1 then encodeAuto m sat xs else encodeBlock (F == .blk8) (natBits fl 5 4) m sat xs
    (bs.flatMap fun e => packBlock (F == .blk8) e,
      bs.foldl (fun f e => e.flags.foldl (fun f g => f ||| g) (if e.bad then f ||| flagIV else f)) 0)
  else
    let src : Fmt := if fwACCF c.format = 0xA then .i32 else .f32
    let rs := (upTo 128).map fun j => (convert F src m sat false (x j)).getD (0, 0)
    (rs.flatMap fun r => leBytes r.1.toNat (elemBytes F), rs.foldl (fun f r => f ||| r.2) 0)

/-- Steps of a command (R209). -/
def Cmd.steps (c : Cmd) : Nat :=
  if c.op = 0x180 ∨ c.op = 0x181 then (c.desc.getD 2 0).toNat / 32 else 1

/-- Cycles of a command on an idle engine (R209). -/
def Cmd.cycles (c : Cmd) : Nat :=
  let t := (blockStep (fwAF c.format) (fwBF c.format) (fwACCF c.format)).getD 0
  match c.op.toNat with
  | 0x180 => 8 + (c.steps - c.step) * t + 16
  | 0x181 => 8 + (c.steps - c.step) * t / 2 + 16
  | 0x182 => 40
  | _ => 152

/-- Runs block steps of a product on the group's tile (R219, R226): tile and exceptions; the first bad header stays with
the command (R227). -/
def Cmd.runSteps (c : Cmd) (g : Group) (rd : Nat → Byte) (to_ : Nat) : Group × Cmd :=
  let base := g.localbase.toNat
  let (acc, fl) := tileMap g.acc c.acc.toNat fun i j x => c.mmaCell rd base c.step to_ i j x
  let bad := c.badBlock rd base c.step to_
  ({ g with acc := acc, sticky := g.sticky ||| fl ||| (if bad.isSome then flagIV else 0) },
    { c with step := to_, bad := match c.bad with
      | some o => some o
      | none => bad.map fun o => BitVec.ofNat 23 o })

/-- The group's header report once a command with a bad header completes: a pending one stays (R227). -/
def Cmd.reportOf (c : Cmd) (r : Option (BitVec 23 × Nat × BitVec 4)) (bad : Option (BitVec 23)) :
    Option (BitVec 23 × Nat × BitVec 4) :=
  match r, bad with
  | none, some o => some (o, c.wave, c.wid)
  | r, _ => r

/-- Runs a command to its end (R219 to R224): the group after, and bytes for the scratch space. -/
def Cmd.run (c : Cmd) (g : Group) (rd : Nat → Byte) : Group × List (Nat × List Byte) :=
  let base := g.localbase.toNat
  match c.op.toNat with
  | 0x182 => ({ g with acc := (tileMap g.acc c.acc.toNat fun _ _ _ => (0, 0)).1 }, [])
  | 0x183 =>
    let (acc, fl) := tileMap g.acc c.acc.toNat fun i j x => c.loadCell rd base i j x
    let bad := c.badLoad rd base
    ({ g with
      acc := acc,
      sticky := g.sticky ||| fl ||| (if bad.isSome then flagIV else 0),
      report := c.reportOf g.report (bad.map fun o => BitVec.ofNat 23 o) }, [])
  | 0x184 =>
    let rows := (upTo 128).map fun i => (i, c.storeRow g.acc i)
    ({ g with sticky := rows.foldl (fun f r => f ||| r.2.2) g.sticky },
      rows.map fun r => (base + (c.desc.getD 0 0).toNat + r.1 * (c.desc.getD 1 0).toNat, r.2.1))
  | 0x185 =>
    let (acc, fl) := tileMap g.acc c.acc.toNat fun i j x => c.epiCell rd g.acc base i j x
    ({ g with acc := acc, sticky := g.sticky ||| fl }, [])
  | _ =>
    let (x, d) := c.runSteps g rd c.steps
    ({ x with report := c.reportOf x.report d.bad }, [])

/-- The tiles a command uses. -/
def Cmd.tiles (c : Cmd) : List Nat :=
  if c.op = 0x185 ∧ c.sub = 5 then [c.acc.toNat, (c.desc.getD 0 0).toNat % 8]
  else if c.op.toNat < 0x190 then [c.acc.toNat] else []


/-! Events of the engine. -/

/-- The earlier accesses that a command comes after are performed: all of them for a matrix command (R207), stores and
read-modify-writes for a demand (R248). -/
def State.marksMet (s : State) (c : Cmd) : Bool :=
  c.marks.all fun m => (s.wave m.1).flights.all fun e =>
    decide (m.2 ≤ e.1) || e.2.performed || match e.2.kind with
      | .store .. => false
      | .rmw .. => false
      | .pxout => false
      | _ => true

/-- Resident groups of a core that have a command, in the order in which the engine serves them (R205). -/
def State.engineOrder (s : State) (core : Nat) : List Nat :=
  let last := (s.core core).lastSlot
  ((upTo 8).map fun k => (last + 1 + k) % 8).filterMap fun slot =>
    (s.groups.find? fun e => e.2.core == core && e.2.slot == some (BitVec.ofNat 3 slot) && !e.2.queue.isEmpty &&
      !s.halting core e.2.pasid).map fun e => e.1

/-- The header report that waits for a wave: in its own group, or in the group of a follow-on that it issued (R227,
R280). -/
def State.reportFor (s : State) (w : Nat) : Option (Nat × BitVec 23) :=
  let mine (g : Group) : Option (BitVec 23) := match g.report with
    | some (o, v, _) => if v = w then some o else none
    | none => none
  match mine (s.group (s.wave w).group) with
  | some o => some ((s.wave w).group, o)
  | none => s.groups.findSome? fun e => (mine e.2).map fun o => (e.1, o)

/-- Lines or tiles that are used are the latest used (R175). -/
def useLast (used now : List (Nat × Nat)) : List (Nat × Nat) :=
  if now.isEmpty then used else (used.filter fun e => !now.contains e) ++ now.eraseDups

/-- A header report to a wave that has ended ends its launch (R227). -/
def State.reportGone (s : State) (g : Nat) (c : Cmd) : State :=
  match (s.group g).report with
  | some (o, w, wid) =>
    if (AMap.find s.waves w).isSome then s
    else (s.onGroup g fun x => { x with report := none }).endWith (s.group g).launch
      ⟨Cause.illegalFormat.code, c.pc, o.setWidth 64, (s.launch (s.group g).launch).lref,
        BitVec.ofNat 32 (16777216 * wid.toNat), 0, 0⟩
  | none => s

/-- MATRIX_COMMAND_START (R205): the engine, when idle, takes the head command of the next group; it waits until the
command's tiles are resident and the accesses before it are performed. -/
def execMatrixCommandStart (core : Nat) (s : State) : Host.Outcome State Fault Refusal :=
  .next <|
    if (s.core core).engine.isSome then s
    else match s.engineOrder core with
      | [] => s
      | g :: _ =>
        let x := s.group g
        match x.queue with
        | [] => s
        | c :: t =>
          if (c.tiles.all fun k => !x.away.getLsbD k) && s.marksMet c then
            let snap := regionBytes (s.cluster (clusterOf core)).scratch (c.sampled x)
            let old := c.snap.getD snap
            let s1 := s.onGroup g fun y => { y with queue := { c with snap := some old } :: t }
            s1.onCore core fun y =>
              { y with engine := some (g, y.cycle + if c.isDemand then 0 else c.cycles),
                       tileUse := useLast y.tileUse (c.tiles.map fun k => (g, k)) }
          else s

/-- The engine samples the operands of its command again (R207). -/
def State.sampleEngine (s : State) (core : Nat) : State :=
  match (s.core core).engine with
  | none => s
  | some (g, _) =>
    let x := s.group g
    match x.queue with
    | [] => s
    | c :: t =>
      let (snap, s1) := s.resample (c.snap.getD [])
        (regionBytes (s.cluster (clusterOf core)).scratch (c.sampled x)) (c.used x.localbase.toNat)
      s1.onGroup g fun y => { y with queue := { c with snap := some snap } :: t }

/-- The engine is free again, having served a group slot. -/
def State.engineIdle (s : State) (core g : Nat) : State :=
  s.onCore core fun y => { y with
    engine := none,
    lastSlot := match (s.group g).slot with
      | some k => k.toNat
      | none => y.lastSlot }

/-- The head command of a group's queue is done: its place frees, its flag falls, and a follow-on's request completes
(R208, R280). -/
def State.retireCmd (s : State) (g : Nat) (c : Cmd) : State :=
  let s1 := s.onGroup g fun x => { x with queue := x.queue.drop 1 }
  let s2 := match c.opId with
    | some op => s1.complete c.wave op
    | none => s1
  match c.req with
  | some r => s2.finishReq r
  | none => s2

/-- Writes lists of bytes into a cluster's scratch space. -/
def State.scratchWrites (s : State) (cl : Nat) (ws : List (Nat × List Byte)) : State :=
  ws.foldl (fun s w => s.scratchWrite cl w.1 w.2) s

/-- Block steps of a product that the engine has begun when `left` cycles remain of its time (R209). -/
def Cmd.begun (c : Cmd) (left : Nat) : Nat :=
  let t := (blockStep (fwAF c.format) (fwBF c.format) (fwACCF c.format)).getD 1
  let t := if c.op = 0x181 then t / 2 else t
  c.steps - (left - 16) / max t 1

/-- The engine finishes the next block step of its product, once it has begun it (R209, R226). -/
def State.engineStep (s : State) (core : Nat) : State :=
  match (s.core core).engine with
  | none => s
  | some (g, due) =>
    let s1 := s.sampleEngine core
    match (s1.group g).queue with
    | [] => s
    | c :: t =>
      if (c.op = 0x180 ∨ c.op = 0x181) ∧ c.step + 1 < c.steps ∧ c.step < c.begun (due - (s.core core).cycle) then
        let (x, d) := c.runSteps (s1.group g) (SMap.get (c.snap.getD [])) (c.step + 1)
        s1.onGroup g fun _ => { x with queue := d :: t }
      else s

/-- MATRIX_COMMAND_COMPLETE (R208). -/
def execMatrixCommandComplete (core : Nat) (s : State) : Host.Outcome State Fault Refusal :=
  .next <|
    match (s.core core).engine with
    | none => s
    | some (g, due) =>
      let s1 := s.sampleEngine core
      match (s1.group g).queue with
      | [] => s
      | c :: _ =>
        if c.isDemand || decide ((s.core core).cycle < due) then s
        else
          let rd := SMap.get (c.snap.getD [])
          let (x, ws) := c.run (s1.group g) rd
          let s2 := (s1.onGroup g fun _ => x).scratchWrites (clusterOf core) ws
          ((s2.retireCmd g c).engineIdle core g).reportGone g c

/-- Reads an accumulator tile from the group image (R174). -/
def State.tileFromImage (s : State) (g t : Nat) : State :=
  let x := s.group g
  let (acc, _) := tileMap x.acc t fun i j _ =>
    (BitVec.ofNat 32 (s.imageRead x.pasid (groupImageOff x.image + 65536 * t + 512 * i + 4 * j) 4), 0)
  s.onGroup g fun y => { y with acc := acc, away := y.away &&& ~~~BitVec.ofNat 8 (2 ^ t) }

/-- Writes an accumulator tile to the group image and leaves it there (R175). -/
def State.tileToImage (s : State) (g t : Nat) : State :=
  let x := s.group g
  if x.away.getLsbD t then s
  else
    let s1 := (upTo 16384).foldl (fun s k =>
      s.imageWrite x.pasid (groupImageOff x.image + 65536 * t + 4 * k) 4 (SMap.get x.acc (16384 * t + k)).toNat) s
    s1.onGroup g fun y => { y with
      acc := (tileMap y.acc t fun _ _ _ => (0, 0)).1, away := y.away ||| BitVec.ofNat 8 (2 ^ t) }

/-- The first byte of a tile's image that lies in a lost sector (R407), as an address of the context. -/
def State.lostTile (s : State) (g t : Nat) : Option Nat :=
  let x := s.group g
  match AMap.find s.contexts x.pasid.toNat with
  | none => none
  | some c =>
    let at_ (k : Nat) : Nat := c.desc.image.toNat + groupImageOff x.image + 65536 * t + 64 * k
    ((upTo 1024).find? fun k => match s.areaPa x.pasid (at_ k) with
      | some pa => s.sectorLost pa
      | none => false).map at_

/-- ACCUMULATOR_TILE_FILL (R203): for the head command of a group. Data loss in the tile's image ends the launch of the
command that consumes it, with the line's address (R407; log entry 120). -/
def execAccumulatorTileFill (g : Nat) (t : BitVec 3) (s : State) : Host.Outcome State Fault Refusal :=
  .next <|
    let x := s.group g
    match x.queue with
    | [] => s
    | c :: _ =>
      if x.away.getLsbD t.toNat && c.tiles.contains t.toNat then
        match s.lostTile g t.toNat with
        | some a => s.endWith x.launch ⟨Cause.dataLoss.code, c.pc, BitVec.ofNat 64 a, (s.launch x.launch).lref,
            BitVec.ofNat 32 (16777216 * c.wid.toNat), 0, 0⟩
        | none =>
          ((s.useImage x.pasid (groupImageOff x.image + 65536 * t.toNat) 65536 false).tileFromImage g t.toNat).onCore x.core
            fun y => { y with tileUse := useLast y.tileUse [(g, t.toNat)] }
      else s

/-- BATON_TRANSFER (R213): the outstanding operations have reached 0, and the pending pass hands the baton over; a named
wave that has ended leaves it free. -/
def execBatonTransfer (g : Nat) (s : State) : Host.Outcome State Fault Refusal :=
  .next <|
    let x := s.group g
    match x.pass with
    | none => s
    | some t =>
      if s.outstandingOps g ≠ 0 then s
      else
        let to_ : Option (BitVec 4) := match t with
          | .free => none
          | .wave w => if x.ended.getLsbD w.toNat then none else some w
        let s1 := s.onGroup g fun y => { y with baton := to_, pass := none, passOp := none }
        match x.passOp with
        | some (w, op) => s1.complete w op
        | none => s1

end Sys2Proof.Machine
end

