-- ==== Sys2Proof/Machine/Cluster.lean ====
section
/-!
DEFINITION. The cluster: the copy engine (R277 to R280), bank modes (R271), FIFO queues and ports (R283 to R287), and
cohort barriers (R288).
-/

namespace Sys2Proof.Machine

/-! The copy engine. -/

/-- Fields of a copy descriptor (R277). -/
def cpSrc (d : List Word) : Nat := (d.getD 0 0).toNat + 2 ^ 32 * natBits (d.getD 1 0).toNat 24 0
def cpDst (d : List Word) : Nat := (d.getD 2 0).toNat + 2 ^ 32 * natBits (d.getD 3 0).toNat 24 0
def cpRowb (d : List Word) : Nat := natBits (d.getD 4 0).toNat 23 0
def cpRows (d : List Word) : Nat := natBits (d.getD 5 0).toNat 15 0
def cpSsp (d : List Word) : Bool := (d.getD 5 0).getLsbD 21
def cpDsp (d : List Word) : Bool := (d.getD 5 0).getLsbD 22
def cpSstr (d : List Word) : Nat := (d.getD 6 0).toNat
def cpDstr (d : List Word) : Nat := (d.getD 7 0).toNat

/-- The end of the rows from an offset. -/
def cpEnd (d : List Word) (start stride : Nat) : Nat := start + (cpRows d - 1) * stride + cpRowb d

/-- The checks of a copy descriptor's words 0 to 7 (R277): word and whether it is right. `local_` is the end of the
destination space, `must` whether the destination is local by kind. -/
def copyChecks (d : List Word) (size dsize : Nat) (must : Bool) : List (Nat × Bool) :=
  let w (k : Nat) : Nat := (d.getD k 0).toNat
  [(0, !cpSsp d || decide (cpEnd d (w 0) (cpSstr d) ≤ size)),
   (1, natBits (w 1) 31 25 == 0 && (!cpSsp d || natBits (w 1) 24 0 == 0)),
   (2, !cpDsp d || decide (cpEnd d (w 2) (cpDstr d) ≤ dsize)),
   (3, natBits (w 3) 31 25 == 0 && (!(cpDsp d || must) || natBits (w 3) 24 0 == 0)),
   (4, natBits (w 4) 31 24 == 0 && cpRowb d != 0),
   (5, natBits (w 5) 31 23 == 0 && natBits (w 5) 20 19 == 0 && cpRows d != 0 && (!must || cpDsp d))]

/-- The illegal-format trap of a descriptor word (R270). -/
def State.badWord (s : State) (x : Issue) (k : Nat) : State :=
  s.park x.w x.run x.pc .illegalFormat (BitVec.ofNat 64 (k + 1))

/-- The access fault of a word that is refused (R270). -/
def State.refuse (s : State) (x : Issue) (a : Nat) : State := s.park x.w x.run x.pc .access (BitVec.ofNat 64 a)

/-- CPY (R277, R278). -/
def execCpy (c : Ctl) (d a : SReg) (s : State) : Host.Outcome State Fault Refusal :=
  scalarWord c s fun x s =>
    let w := s.wave x.w
    let ds := w.block a 8
    match firstFail (copyChecks ds w.localsize.toNat w.localsize.toNat false) with
    | some k => s.badWord x k
    | none => s.requestWord x c.h.setf d .copy .copy ds

/-- The clusters of the partition of a context, as 12·die + cluster (R389). -/
def State.clustersOf (s : State) (pasid : BitVec 20) : List Nat :=
  match AMap.find s.contexts pasid.toNat with
  | none => []
  | some x => match AMap.find s.parts x.desc.part.toNat with
    | some p => p.spec.clusters
    | none => []

/-- The clusters a mask names, ascending. -/
def maskClusters (m : BitVec 48) : List Nat := (upTo 48).filter fun k => m.getLsbD k

/-- CPYM (R279). -/
def execCpym (c : Ctl) (d a : SReg) (s : State) : Host.Outcome State Fault Refusal :=
  scalarWord c s fun x s =>
    let w := s.wave x.w
    let ds := w.block a 10
    let mask : BitVec 48 := (ds.getD 9 0).setWidth 16 ++ ds.getD 8 0
    match firstFail (copyChecks ds w.localsize.toNat 0x600000 true ++
        [(9, natBits (ds.getD 9 0).toNat 31 16 == 0)]) with
    | some k => s.badWord x k
    | none =>
      match (maskClusters mask).find? fun k => !(s.clustersOf w.pasid).contains k with
      | some k => s.refuse x k
      | none =>
        let s1 := s.requestWord x c.h.setf d .copy (.multi mask) ds
        -- with nowhere to write, an accepted request is complete
        if mask = 0 ∧ s.nextId < s1.nextId then s1.finishReq s.nextId else s1

/-- CPYX (R280): formats and descriptors, then the baton. -/
def execCpyx (c : Ctl) (d a : SReg) (s : State) : Host.Outcome State Fault Refusal :=
  scalarWord c s fun x s =>
    let w := s.wave x.w
    let ds := w.block a 16
    let fop := natBits (ds.getD 8 0).toNat 8 0
    let grp := natBits (ds.getD 8 0).toNat 15 12
    let opOk := fop == 0x180 || fop == 0x181 || fop == 0x183
    let fd := (upTo (descLen fop)).map fun k => ds.getD (10 + k) 0
    let size := w.localsize.toNat
    let fmtOk := formatOk s.fabric.featacc fop 0 (ds.getD 9 0)
    let checks : List (Nat × Bool) := copyChecks ds size size true ++
      [(8, natBits (ds.getD 8 0).toNat 31 16 == 0 && opOk && decide (grp < (s.cohort (s.cohortOf x.w)).count)),
       (9, !opOk || fmtOk)] ++
      (if opOk && fmtOk then
        match descBad fop 0 size (ds.getD 9 0) fd with
        | some k => [(9 + k, false)]
        | none => []
      else []) ++
      ((upTo 5).filter fun k => decide (descLen fop ≤ k)).map (fun k => (10 + k, !opOk || ds.getD (10 + k) 0 == 0)) ++
      [(15, ds.getD 15 0 == 0)]
    match firstFail checks with
    | some k => s.badWord x k
    | none =>
      if !s.commands x.w then s.park x.w x.run x.pc .baton 0
      else s.requestWord x c.h.setf d .copy .follow ds

/-- Bytes of a copy. -/
def cpBytes (d : List Word) : Nat := cpRows d * cpRowb d

/-- The source and destination address of byte i of a copy. -/
def cpFrom (d : List Word) (i : Nat) : Nat := cpSrc d + i / cpRowb d * cpSstr d + i % cpRowb d
def cpTo (d : List Word) (i : Nat) : Nat := cpDst d + i / cpRowb d * cpDstr d + i % cpRowb d

/-- The clusters to which a request writes local bytes. -/
def Req.targets (q : Req) : List Nat :=
  match q.kind with
  | .multi m => maskClusters m
  | _ => [q.cluster]

def State.onReq (s : State) (r : Nat) (f : Req → Req) : State := { s with reqs := AMap.adjust s.reqs r f }

/-- Where an engine of a cluster finds a global byte: none while a translation fault or a
retraining link stalls its stream (R276, R396). -/
def State.engineByte (s : State) (cl : Nat) (pasid : BitVec 20) (va : Nat) (acc : Access) :
    Option (Except Cause Nat) × State :=
  match s.streamTranslate none cl pasid va acc with
  | (.error .translation, s1) => (none, s1)
  | (.error c, s1) => (some (.error c), s1)
  | (.ok h, s1) => (if s1.linkOpen (cl / 12) (s1.dieFor h.pa) then some (.ok h.pa) else none, s1)

/-- The stream of a copy (R277). -/
def cpStream (d : List Word) : Nat := natBits (d.getD 5 0).toNat 18 16

/-- Two requests are of one stream of one context. -/
def Req.sameStream (p q : Req) : Bool :=
  p.cohort == q.cohort && p.sel == q.sel && cpStream p.desc == cpStream q.desc

/-- A request may move bytes: the earlier requests of its stream have started, and no translation fault stalls the stream
but at the address that it tries again (R276, R278). -/
def State.streamOpen (s : State) (r : Nat) (q : Req) (va : Option Nat) : Bool :=
  s.reqs.all fun e => !e.2.sameStream q ||
    ((q.started || decide (q.n ≤ e.2.n) || e.2.started) &&
      match e.2.stall with
      | none => true
      | some a => e.1 == r && va == some a)

/-- The byte that an engine finds for a request's stream. A translation fault stalls the stream until the access succeeds
or fails (R276). -/
def State.streamByte (s : State) (r : Nat) (q : Req) (va : Nat) (acc : Access) : Option (Except Cause Nat) × State :=
  let (b, s1) := s.engineByte q.cluster q.pasid va acc
  (b, s1.onReq r fun q => { q with stall := match b with
    | none => some va
    | some _ => none })

/-- The fault of byte i of a copy is that of the lowest faulting byte of its row (R188). -/
def State.failRow (s : State) (r : Nat) (q : Req) (at_ : Nat → Nat) (acc : Access) (i : Nat) (c : Cause) : State :=
  let first := i / cpRowb q.desc * cpRowb q.desc
  let fault (j : Nat) : Option (Cause × Nat) :=
    match (s.engineByte q.cluster q.pasid (at_ (first + j)) acc).1 with
    | some (.error c) => some (c, at_ (first + j))
    | _ => none
  let (c, a) := ((upTo (i - first)).findSome? fault).getD (c, at_ i)
  s.failReq r c a

/-- Reads byte i of a copy's source, once (R278). -/
def State.copyRead (s : State) (r i : Nat) : State :=
  match AMap.find s.reqs r with
  | none => s
  | some q =>
    let va := if cpSsp q.desc then none else some (cpFrom q.desc i)
    if decide (cpBytes q.desc ≤ i) || (AMap.find q.read i).isSome || !s.streamOpen r q va then s
    else
      let s := s.onReq r fun q => { q with started := true }
      if cpSsp q.desc then
        let b := SMap.get (s.cluster q.cluster).scratch ((s.cohort q.cohort).base + cpFrom q.desc i)
        s.onReq r fun q => { q with read := AMap.put q.read i b }
      else
        match s.streamByte r q (cpFrom q.desc i) .load with
        | (none, s1) => s1
        | (some (.error c), s1) => s1.failRow r q (cpFrom q.desc) .load i c
        | (some (.ok pa), s1) => s1.onReq r fun q => { q with read := AMap.put q.read i (s1.homeByte pa) }

/-- Writes byte i of a copy to its d-th destination, once, after it has been read (R278, R279). -/
def State.copyWrite (s : State) (r d i : Nat) : State :=
  match AMap.find s.reqs r with
  | none => s
  | some q =>
    let key := d * cpBytes q.desc + i
    let va := if cpDsp q.desc then none else some (cpTo q.desc i)
    match AMap.find q.read i, q.targets[d]? with
    | some b, some cl =>
      if q.written.contains key || !s.streamOpen r q va || !s.linkOpen (q.cluster / 12) (cl / 12) then s
      else
        let done (s : State) : State := s.onReq r fun q => { q with written := key :: q.written }
        if cpDsp q.desc then
          match q.kind with
          | .multi _ =>
            let off := cpTo q.desc i
            if s.bankMode cl (off / 0x60000) = 1 then done (s.scratchWrite cl off [b])
            else (done s).failReq r .access off
          | _ => done (s.scratchWrite cl ((s.cohort q.cohort).base + cpTo q.desc i) [b])
        else
          match s.streamByte r q (cpTo q.desc i) .store with
          | (none, s1) => s1
          | (some (.error c), s1) => (done s1).failRow r q (cpTo q.desc) .store i c
          | (some (.ok pa), s1) => done (s1.homeWrite pa b)
    | _, _ => s

/-- Whether byte i of a copy's source faults other than by translation. -/
def State.copySkips (s : State) (q : Req) (i : Nat) : Bool :=
  !cpSsp q.desc && match (s.engineByte q.cluster q.pasid (cpFrom q.desc i) .load).1 with
    | some (.error _) => true
    | _ => false

/-- Performs all that is left of a copy, and whether nothing of it is left (R278). A byte whose source faults is
written nowhere. -/
def State.copyRest (s : State) (r : Nat) : Bool × State :=
  match AMap.find s.reqs r with
  | none => (false, s)
  | some q =>
    let n := cpBytes q.desc
    let s1 := (upTo n).foldl (fun s i => (upTo q.targets.length).foldl (fun s d => s.copyWrite r d i) (s.copyRead r i)) s
    match AMap.find s1.reqs r with
    | none => (false, s1)
    | some q1 =>
      ((upTo n).all fun i => (upTo q.targets.length).all fun d =>
        q1.written.contains (d * n + i) || s1.copySkips q1 i, s1)

/-- COPY_REQUEST_COMPLETE (R278, R280): the bytes are performed; the request completes unless it has a follow-on to
give. -/
def execCopyRequestComplete (req : Nat) (s : State) : Host.Outcome State Fault Refusal :=
  .next <|
    match AMap.find s.reqs req with
    | none => s
    | some q =>
      match q.kind with
      | .copy | .multi _ | .follow =>
        if q.queued then s
        else
          let (all, s1) := s.copyRest req
          match AMap.find s1.reqs req with
          | some q1 => if all && (q1.failed || q1.kind != .follow) then s1.finishReq req else s1
          | none => s1
      | _ => s

/-- FOLLOW_ON_ENQUEUE (R280): once the copy is performed without a failure, its follow-on enters the target group's
queue when that group is resident and its queue holds fewer than 7 commands. -/
def execFollowOnEnqueue (req : Nat) (s : State) : Host.Outcome State Fault Refusal :=
  .next <|
    match AMap.find s.reqs req with
    | none => s
    | some q =>
      if q.kind != .follow || q.queued then s
      else
        let (all, s1) := s.copyRest req
        match AMap.find s1.reqs req, (AMap.find s1.reqs req).bind fun q => s1.followTarget q with
        | some q1, some g =>
          let y := s1.group g
          if !all || q1.failed || y.slot.isNone || decide (7 ≤ y.queue.length) then s1
          else
            let w8 := (q1.desc.getD 8 0).toNat
            let cmd : Cmd := ⟨BitVec.ofNat 9 w8, BitVec.ofNat 3 (natBits w8 11 9), 0, true, q1.wave, q1.wid,
              q1.desc.getD 9 0, 15, (upTo 5).map (fun k => q1.desc.getD (10 + k) 0), none, q1.pc, [], some req, none, 0, none⟩
            (s1.onGroup g fun y => { y with queue := y.queue ++ [cmd] }).onReq req fun q => { q with queued := true }
        | _, _ => s1

/-! Bank modes (R271). -/

/-- A live allocation overlaps a bank (R268). -/
def State.bankAllocated (s : State) (cl b : Nat) : Bool :=
  s.cohorts.any fun e => e.2.cluster == cl && !e.2.groups.isEmpty && decide (0 < e.2.size) &&
    decide (e.2.base < (b + 1) * 0x60000 ∧ b * 0x60000 < e.2.base + e.2.size)

/-- A queue of a FIFO bank is in use: an entry, a pending push or pop, or a port bound to it (R271). -/
def State.bankQueued (s : State) (cl b : Nat) : Bool :=
  ((s.cluster cl).queues.any fun e => e.1 / 16 == b &&
    !(e.2.entries.isEmpty && e.2.pushes.isEmpty && e.2.takers.isEmpty && e.2.resv.isEmpty)) ||
  s.waves.any fun e => e.2.ports.any fun p =>
    p.2.mode != 0 && targetCluster p.2.target == cl && targetQueue p.2.target / 16 == b

/-- A bank's lines of the read-only cache go (R271). Which lines a bank held is not stated: with another bank in
cache mode each line may still be held there (log entry 27). -/
def State.dropBankLines (s : State) (cl b : Nat) : State :=
  let others := (upTo 16).any fun k => k != b && s.bankMode cl k == 0
  let lines := ((s.cluster cl).cache.map fun e => e.1 / 256).eraseDups
  lines.foldl (fun s n =>
    let (f, s1) := s.free
    if others && f.getLsbD 0 then s1
    else s1.onCluster cl fun c => { c with cache := c.cache.filter fun e => e.1 / 256 != n }) s

/-- A bank's new mode comes into effect: its scratch bytes read 0, and its queues are empty (R271). -/
def State.finishBank (s : State) (cl b : Nat) : State :=
  match AMap.find (s.cluster cl).changing b with
  | none => s
  | some (m, w, op) =>
    (s.onCluster cl fun c => { c with
      changing := AMap.del c.changing b, modes := SMap.set c.modes b m,
      scratch := c.scratch.filter fun e => e.1 / 0x60000 != b,
      queues := c.queues.filter fun e => e.1 / 16 != b }).complete w op

/-- BANK_MODE_CHANGE_DONE (R271). -/
def execBankModeChangeDone (cl : Nat) (bank : BitVec 4) (s : State) : Host.Outcome State Fault Refusal :=
  .next (s.finishBank cl bank.toNat)

/-- BANKCFG (R271). -/
def execBankcfg (c : Ctl) (a : SReg) (s : State) : Host.Outcome State Fault Refusal :=
  scalarWord c s fun x s =>
    let w := s.wave x.w
    let v := w.rs a
    let cl := clusterOf w.core
    let b := v.toNat % 16
    let m : BitVec 2 := v.extractLsb' 4 2
    if m = 3 ∨ natBits v.toNat 31 6 ≠ 0 then s.badWord x 0
    else
      let s1 := s.finishBank cl b
      let old := s1.bankMode cl b
      if m.toNat = old then (s1.noResult x c).goto x x.run (x.pc + 1)
      else if (old == 1 && s1.bankAllocated cl b) || (old == 2 && s1.bankQueued cl b) then s1.refuse x (b * 0x60000)
      else
        let s2 := if old = 0 then s1.dropBankLines cl b else s1
        let op := (s2.wave x.w).nextOp
        let s3 := s2.onWave x.w fun w => (w.raiseFlag c.h.setf).addFlight ⟨.command, c.h.setf, x.run, []⟩
        (s3.onCluster cl fun k => { k with changing := AMap.put k.changing b (m, x.w, op) }).goto x x.run (x.pc + 1)

/-! FIFO queues (R283, R284). -/

/-- A queue word names a bank in FIFO mode (R283). -/
def State.isFifo (s : State) (cl qw : Nat) : Bool :=
  s.bankMode cl (qw / 16) == 2 && (AMap.find (s.cluster cl).changing (qw / 16)).isNone

/-- FPUSH (R284). -/
def execFpush (c : Ctl) (a : SReg) (s : State) : Host.Outcome State Fault Refusal :=
  scalarWord c s fun x s =>
    let w := s.wave x.w
    let cl := clusterOf w.core
    let v := w.rs a
    if natBits v.toNat 31 8 ≠ 0 then s.badWord x 0
    else if !s.isFifo cl v.toNat then s.refuse x v.toNat
    else
      let op := w.nextOp
      let s1 := s.onWave x.w fun w => (w.raiseFlag c.h.setf).addFlight ⟨.command, c.h.setf, x.run, []⟩
      (s1.onQueue cl v.toNat fun q =>
        { q with pushes := q.pushes ++ [⟨⟨w.block (a + 1) 8, none⟩, some (x.w, op)⟩] }).goto x x.run (x.pc + 1)

/-- FPOP (R284). -/
def execFpop (c : Ctl) (d a : SReg) (s : State) : Host.Outcome State Fault Refusal :=
  scalarWord c s fun x s =>
    let w := s.wave x.w
    let cl := clusterOf w.core
    let v := w.rs a
    if natBits v.toNat 31 8 ≠ 0 then s.badWord x 0
    else if !s.isFifo cl v.toNat then s.refuse x v.toNat
    else
      let op := w.nextOp
      let s1 := s.onWave x.w fun w => (w.raiseFlag c.h.setf).addFlight ⟨.command, c.h.setf, x.run, []⟩
      (s1.onQueue cl v.toNat fun q => { q with takers := q.takers ++ [.pop x.w op d] }).goto x x.run (x.pc + 1)

/-- Entries of a queue that reservations hold (R285). -/
def FQueue.reserved (q : FQueue) : Nat := q.resv.foldl (fun n r => n + r.cred) 0

/-- An `fpush` has a place: an entry that no reservation holds (R286). -/
def FQueue.place (q : FQueue) : Bool :=
  decide ((q.entries.filter fun e => e.port.isNone).length + q.reserved < 768)

/-- The next push that joins: the first, but a message passes pushes that have no place, since its own is reserved
(R284, R286). -/
def FQueue.nextPush (q : FQueue) : Option QPush :=
  if q.place then q.pushes.head? else q.pushes.find? fun p => p.entry.port.isSome

/-- A push has reached its queue: a message whose way a retraining link closes has not (R396). -/
def State.arrived (s : State) (cl : Nat) (p : QPush) : Bool :=
  match p.entry.port with
  | some (w, _) => s.linkOpen (dieOf (s.wave w).core) (cl / 12)
  | none => true

/-- A message reaches a sleeping port read: the operand it waits for, then the result when both are there (R98). -/
def State.feedRead (s : State) (w order : Nat) (second : Bool) (v : Word) : State :=
  let x := s.wave w
  match x.sleepers.find? fun z => z.order == order with
  | none => s
  | some z =>
    match z.wait with
    | .port f a b d va vb =>
      let va1 := if second then va else some v
      let vb1 := if second then some v else vb
      match va1, vb1 with
      | some p, some q =>
        let ws := [opWrite d (f.eval p q (x.oldDest d))]
        let s1 := s.landWrites w ws
        let s2 := s1.onWave w fun y => y.wake z []
        s2.mirrorWrites w ⟨.result ws, z.flag, z.members, []⟩ ws
      | _, _ => s.onWave w fun y => { y with sleepers := y.sleepers.map fun (u : Sleeper) =>
          if u.order = order then { u with wait := .port f a b d va1 vb1 } else u }
    | _ => s

/-- The oldest taker of a queue, when it is a read that may go, takes the oldest message (R286). -/
def State.serveRead (s : State) (cl qw : Nat) (may : Nat → Nat → Bool) : State :=
  let q := s.queue cl qw
  match q.takers, q.entries with
  | .read w order second :: t, e :: _ =>
    if may w order then ((s.takeEntry cl qw).onQueue cl qw fun q => { q with takers := t }).feedRead w order second e.data
    else s
  | _, _ => s

/-- FIFO_PUSH_JOIN (R284): a pending push joins its queue and completes. -/
def execFifoPushJoin (cl : Nat) (qw : BitVec 8) (s : State) : Host.Outcome State Fault Refusal :=
  .next <|
    let q := s.queue cl qw.toNat
    match FQueue.nextPush { q with pushes := q.pushes.filter fun p => s.arrived cl p } with
    | none => s
    | some p =>
      let s1 := s.onQueue cl qw.toNat fun q => { q with entries := q.entries ++ [p.entry], pushes := q.pushes.erase p }
      match p.op with
      | some (w, op) => s1.complete w op
      | none => s1

/-- FIFO_POP_SERVE (R284): the oldest pop gets the oldest entry. -/
def execFifoPopServe (cl : Nat) (qw : BitVec 8) (s : State) : Host.Outcome State Fault Refusal :=
  .next <|
    let q := s.queue cl qw.toNat
    match q.takers, q.entries with
    | .pop w op d :: t, e :: _ =>
      let s1 := (s.takeEntry cl qw.toNat).onQueue cl qw.toNat fun q => { q with takers := t }
      (s1.onWave w fun x => { x with flights := AMap.adjust x.flights op fun f =>
        { f with kind := .result (scalarWrites d e.words) } }).complete w op
    | _, _ => s

/-- PORT_READ_SERVE (R286): the oldest waiting read takes the oldest message. A read that polls takes it at its poll
(R177). -/
def execPortReadServe (cl : Nat) (qw : BitVec 8) (s : State) : Host.Outcome State Fault Refusal :=
  .next <| s.serveRead cl qw.toNat fun w order =>
    (s.wave w).slot.isSome && (s.wave w).sleepers.any fun z => z.order == order && z.entry

/-! Message ports (R285 to R287). -/

/-- The queue with a credit on its way to a port: cluster and queue number. -/
def State.owing (s : State) (w p : Nat) : Option (Nat × Nat) :=
  (s.clusters.flatMap fun c => c.2.queues.map fun q => (c.1, q.1, q.2)).findSome? fun (e : Nat × Nat × FQueue) =>
    if e.2.2.resv.any fun (r : QResv) => r.wave == w && r.port == p && decide (0 < r.owed) then some (e.1, e.2.1) else none

/-- CREDIT_RETURN (R286): a credit reaches its port; a buffered message is injected with it. A released port's
reservation is freed when its buffer and its messages are gone. -/
def execCreditReturn (w : Nat) (port : BitVec 3) (s : State) : Host.Outcome State Fault Refusal :=
  .next <|
    let p := port.toNat
    match s.owing w p with
    | none => s
    | some (cl, qw) =>
      if !s.linkOpen (cl / 12) (dieOf (s.wave w).core) then s
      else
      match (s.queue cl qw).resv.find? fun (r : QResv) => r.wave == w && r.port == p && decide (0 < r.owed) with
      | none => s
      | some r =>
        let s1 := s.onQueue cl qw fun q => { q with resv := q.resv.map fun (y : QResv) =>
          if y = r then { y with owed := y.owed - 1, buffered := none } else y }
        if r.closing then
          s1.onQueue cl qw fun q => FQueue.settle { q with pushes := match r.buffered with
            | some e => q.pushes ++ [⟨e, none⟩]
            | none => q.pushes }
        else
          let ps := (s1.wave w).port p
          match ps.full with
          | some v =>
            let ps1 := { ps with full := none }
            ((s1.onWave w fun x => { x with ports := AMap.put x.ports p ps1 }).onQueue cl qw fun q =>
              { q with pushes := q.pushes ++ [⟨messageEntry ps.hdr v w p ps.resv, none⟩] }).mirror w (portFields p ps1)
          | none =>
            let ps1 := { ps with held := ps.held + 1 }
            (s1.onWave w fun x => { x with ports := AMap.put x.ports p ps1 }).mirror w (portFields p ps1)

/-- Release of a port (R286): a send port's reservation goes once its messages have been removed. -/
def State.releasePort (s : State) (w p : Nat) : State :=
  let q := (s.wave w).port p
  let s1 := s.onWave w fun x => { x with ports := AMap.del x.ports p }
  if q.mode = 1 then
    s1.onQueue (targetCluster q.target) (targetQueue q.target) fun f => FQueue.settle { f with
      resv := f.resv.map fun (r : QResv) =>
        if r.id = q.resv ∧ r.wave = w ∧ r.port = p ∧ !r.closing then
          { r with closing := true, buffered := q.full.map fun v => messageEntry q.hdr v w p q.resv }
        else r }
  else s1

/-- PORTCFG (R285). -/
def execPortcfg (c : Ctl) (d : Port) (a : SReg) (s : State) : Host.Outcome State Fault Refusal :=
  scalarWord c s fun x s =>
    let w := s.wave x.w
    let v := w.rs a
    let t := w.rsk a 1
    let hdr := w.rsk a 2
    let mode : BitVec 2 := v.extractLsb' 0 2
    let cred := natBits v.toNat 7 2
    let cl := targetCluster t
    let qw := targetQueue t
    match firstFail [(0, natBits v.toNat 31 8 == 0 && mode != 3 && (if mode = 1 then cred != 0 else cred == 0)),
        (1, natBits t.toNat 31 14 == 0 && decide (natBits t.toNat 11 8 ≤ 11)), (2, mode == 1 || hdr == 0)] with
    | some k => s.badWord x k
    | none =>
      let binds := mode != 0
      if binds && (!(s.clustersOf w.pasid).contains cl || !s.isFifo cl qw) then s.refuse x t.toNat
      else
        let s1 := s.releasePort x.w d.toNat
        if mode == 1 && decide (768 < (s1.queue cl qw).reserved + cred) then s.refuse x t.toNat
        else
          let s2 := match mode.toNat with
            | 1 => ({ s1 with nextId := s1.nextId + 1 }.onWave x.w fun w =>
                { w with ports := AMap.put w.ports d.toNat (⟨1, cred, cred, none, t, hdr, s1.nextId⟩ : PortSt) }).onQueue
                cl qw fun f => { f with resv := f.resv ++ ([⟨s1.nextId, x.w, d.toNat, cred, 0, false, none⟩] : List QResv) }
            | 2 => s1.onWave x.w fun w => { w with ports := AMap.put w.ports d.toNat (⟨2, 0, 0, none, t, 0, 0⟩ : PortSt) }
            | _ => s1
          (s2.fixed x.w c.h.setf x.run 4 []).goto x x.run (x.pc + 1)

/-! Cohort barriers (R288). -/

/-- The live waves of a cohort. -/
def State.cohortWaves (s : State) (c : Nat) : List (Nat × Wave) :=
  s.waves.filter fun e => s.cohortOf e.1 == c && !(s.group e.2.group).ended.getLsbD e.2.waveid.toNat

/-- The runs of a wave that a cohort barrier's generation held go on, with the acquire of R288. -/
def State.leaveCbar (s : State) (w : Nat) (b : BitVec 4) : State :=
  (s.wave w).sleepers.foldl (fun s z =>
    match z.wait with
    | .cbar b' _ =>
      if b' = b ∧ (s.wave w).slot.isSome then (s.acquire (s.wave w).core).onWave w fun x => x.wake z [] else s
    | _ => s) s

/-- A generation completes when every live wave of the cohort has arrived (R288). -/
def State.settleCbar (s : State) (c : Nat) (b : BitVec 4) : State :=
  let ws := s.cohortWaves c
  if !ws.isEmpty && ws.all fun e => e.2.arrivals.getLsbD b.toNat then
    let bit : BitVec 16 := BitVec.ofNat 16 (2 ^ b.toNat)
    let s1 := s.onCohort c fun h => { h with bars := h.bars ^^^ bit }
    ws.foldl (fun s e =>
      let s1 := (s.onWave e.1 fun x => { x with arrivals := x.arrivals &&& ~~~bit }).leaveCbar e.1 b
      s1.mirror e.1 [(0x19C, 4, (s1.wave e.1).arrivals.toNat)]) s1
  else s

/-- CBAR_ARRIVE (R288): a release of all colours at cohort scope. -/
def execCbarArrive (c : Ctl) (bar : BitVec 4) (s : State) : Host.Outcome State Fault Refusal :=
  scalarWord c s fun x s =>
    let s1 := (s.releaseAll x.w .cohort).onWave x.w fun w =>
      { w with arrivals := w.arrivals ||| BitVec.ofNat 16 (2 ^ bar.toNat) }
    ((s1.noResult x c).goto x x.run (x.pc + 1)).settleCbar (s1.cohortOf x.w) bar

/-- CBAR_WAIT (R288). -/
def execCbarWait (c : Ctl) (bar : BitVec 4) (s : State) : Host.Outcome State Fault Refusal :=
  scalarWord c s fun x s =>
    let w := s.wave x.w
    if w.arrivals.getLsbD bar.toNat then
      let gen := if (s.cohort (s.cohortOf x.w)).bars.getLsbD bar.toNat then 1 else 0
      (s.onWave x.w fun w => w.raiseFlag c.h.setf).sleepRun x.w x.run x.pc (x.pc + 1) (.cbar bar gen) c.h.setf
    else ((s.acquire w.core).noResult x c).goto x x.run (x.pc + 1)

end Sys2Proof.Machine
end

