-- ==== Sys2Proof/Machine/Digest.lean ====
section
/-!
DEFINITION. SHA-512 (FIPS 180-4), and the verification of an RSASSA-PSS signature with SHA-512, MGF1 with SHA-512 and a
64-byte salt (R416, R420).
-/

namespace Sys2Proof.Machine

/-! SHA-512. -/

/-- Round constants 0 to 19 (FIPS 180-4). -/
def shaK0 : List (BitVec 64) :=
  [0x428A2F98D728AE22, 0x7137449123EF65CD, 0xB5C0FBCFEC4D3B2F, 0xE9B5DBA58189DBBC, 0x3956C25BF348B538,
   0x59F111F1B605D019, 0x923F82A4AF194F9B, 0xAB1C5ED5DA6D8118, 0xD807AA98A3030242, 0x12835B0145706FBE,
   0x243185BE4EE4B28C, 0x550C7DC3D5FFB4E2, 0x72BE5D74F27B896F, 0x80DEB1FE3B1696B1, 0x9BDC06A725C71235,
   0xC19BF174CF692694, 0xE49B69C19EF14AD2, 0xEFBE4786384F25E3, 0x0FC19DC68B8CD5B5, 0x240CA1CC77AC9C65]

/-- Round constants 20 to 39 (FIPS 180-4). -/
def shaK1 : List (BitVec 64) :=
  [0x2DE92C6F592B0275, 0x4A7484AA6EA6E483, 0x5CB0A9DCBD41FBD4, 0x76F988DA831153B5, 0x983E5152EE66DFAB,
   0xA831C66D2DB43210, 0xB00327C898FB213F, 0xBF597FC7BEEF0EE4, 0xC6E00BF33DA88FC2, 0xD5A79147930AA725,
   0x06CA6351E003826F, 0x142929670A0E6E70, 0x27B70A8546D22FFC, 0x2E1B21385C26C926, 0x4D2C6DFC5AC42AED,
   0x53380D139D95B3DF, 0x650A73548BAF63DE, 0x766A0ABB3C77B2A8, 0x81C2C92E47EDAEE6, 0x92722C851482353B]

/-- Round constants 40 to 59 (FIPS 180-4). -/
def shaK2 : List (BitVec 64) :=
  [0xA2BFE8A14CF10364, 0xA81A664BBC423001, 0xC24B8B70D0F89791, 0xC76C51A30654BE30, 0xD192E819D6EF5218,
   0xD69906245565A910, 0xF40E35855771202A, 0x106AA07032BBD1B8, 0x19A4C116B8D2D0C8, 0x1E376C085141AB53,
   0x2748774CDF8EEB99, 0x34B0BCB5E19B48A8, 0x391C0CB3C5C95A63, 0x4ED8AA4AE3418ACB, 0x5B9CCA4F7763E373,
   0x682E6FF3D6B2B8A3, 0x748F82EE5DEFB2FC, 0x78A5636F43172F60, 0x84C87814A1F0AB72, 0x8CC702081A6439EC]

/-- Round constants 60 to 79 (FIPS 180-4). -/
def shaK3 : List (BitVec 64) :=
  [0x90BEFFFA23631E28, 0xA4506CEBDE82BDE9, 0xBEF9A3F7B2C67915, 0xC67178F2E372532B, 0xCA273ECEEA26619C,
   0xD186B8C721C0C207, 0xEADA7DD6CDE0EB1E, 0xF57D4F7FEE6ED178, 0x06F067AA72176FBA, 0x0A637DC5A2C898A6,
   0x113F9804BEF90DAE, 0x1B710B35131C471B, 0x28DB77F523047D84, 0x32CAAB7B40C72493, 0x3C9EBE0A15C9BEBC,
   0x431D67C49C100D4C, 0x4CC5D4BECB3E42B6, 0x597F299CFC657E2A, 0x5FCB6FAB3AD6FAEC, 0x6C44198C4A475817]

/-- The eighty round constants. -/
def shaK : List (BitVec 64) := shaK0 ++ shaK1 ++ shaK2 ++ shaK3

/-- The initial hash value (FIPS 180-4). -/
def shaInit : List (BitVec 64) :=
  [0x6A09E667F3BCC908, 0xBB67AE8584CAA73B, 0x3C6EF372FE94F82B, 0xA54FF53A5F1D36F1, 0x510E527FADE682D1,
   0x9B05688C2B3E6C1F, 0x1F83D9ABFB41BD6B, 0x5BE0CD19137E2179]

/-- Rotates right. -/
def rotr64 (x : BitVec 64) (n : Nat) : BitVec 64 := x >>> n ||| x <<< (64 - n)

/-- The big-endian value of some bytes. -/
def beValue (bs : List Byte) : Nat := bs.foldl (fun v b => 256 * v + b.toNat) 0

/-- The `n` bytes of a value, most significant first. -/
def beBytes (v n : Nat) : List Byte := (leBytes v n).reverse

/-- The message schedule, newest word first: `n` more words after the sixteen of the block. -/
def shaExtend : Nat → List (BitVec 64) → List (BitVec 64)
  | 0, ws => ws
  | n + 1, ws =>
    let a := ws.getD 1 0
    let b := ws.getD 14 0
    let s1 := rotr64 a 19 ^^^ rotr64 a 61 ^^^ a >>> 6
    let s0 := rotr64 b 1 ^^^ rotr64 b 8 ^^^ b >>> 7
    shaExtend n ((s1 + ws.getD 6 0 + s0 + ws.getD 15 0) :: ws)

/-- The eight working words. -/
structure Sha where
  a : BitVec 64
  b : BitVec 64
  c : BitVec 64
  d : BitVec 64
  e : BitVec 64
  f : BitVec 64
  g : BitVec 64
  h : BitVec 64
deriving DecidableEq, Repr

def Sha.ofWords (w : List (BitVec 64)) : Sha :=
  ⟨w.getD 0 0, w.getD 1 0, w.getD 2 0, w.getD 3 0, w.getD 4 0, w.getD 5 0, w.getD 6 0, w.getD 7 0⟩

/-- One round with a constant and a word of the schedule. -/
def Sha.round (x : Sha) (k w : BitVec 64) : Sha :=
  let t1 := x.h + (rotr64 x.e 14 ^^^ rotr64 x.e 18 ^^^ rotr64 x.e 41) + (x.e &&& x.f ^^^ ~~~x.e &&& x.g) + k + w
  let t2 := (rotr64 x.a 28 ^^^ rotr64 x.a 34 ^^^ rotr64 x.a 39) + (x.a &&& x.b ^^^ x.a &&& x.c ^^^ x.b &&& x.c)
  ⟨t1 + t2, x.a, x.b, x.c, x.d + t1, x.e, x.f, x.g⟩

def Sha.add (x y : Sha) : Sha :=
  ⟨x.a + y.a, x.b + y.b, x.c + y.c, x.d + y.d, x.e + y.e, x.f + y.f, x.g + y.g, x.h + y.h⟩

/-- The sixteen words of a block of 128 bytes. -/
def blockWords (b : List Byte) : List (BitVec 64) :=
  (upTo 16).map fun k => BitVec.ofNat 64 (beValue ((b.drop (8 * k)).take 8))

/-- One block. -/
def Sha.block (x : Sha) (b : List Byte) : Sha :=
  let ws := (shaExtend 64 (blockWords b).reverse).reverse
  x.add ((shaK.zip ws).foldl (fun y (e : BitVec 64 × BitVec 64) => y.round e.1 e.2) x)

/-- The blocks of a padded message. -/
def Sha.blocks : Nat → Sha → List Byte → Sha
  | 0, x, _ => x
  | n + 1, x, m => Sha.blocks n (x.block (m.take 128)) (m.drop 128)

/-- The padding of a message of `n` bytes. -/
def shaPad (n : Nat) : List Byte :=
  0x80 :: (List.replicate ((239 - n % 128) % 128) 0 ++ beBytes (8 * n) 16)

/-- SHA-512 of some bytes, as a number of 64 bytes, most significant first. -/
def sha512 (m : List Byte) : BitVec 512 :=
  let p := m ++ shaPad m.length
  let x := Sha.blocks (p.length / 128) (Sha.ofWords shaInit) p
  x.a ++ x.b ++ x.c ++ x.d ++ x.e ++ x.f ++ x.g ++ x.h

/-- The 64 bytes of a digest. -/
def digestBytes (d : BitVec 512) : List Byte := beBytes d.toNat 64

/-! RSASSA-PSS (R420). -/

/-- MGF1 with SHA-512: the first `n` bytes of the mask of a seed. -/
def mgf1 (seed : List Byte) (n : Nat) : List Byte :=
  ((upTo ((n + 63) / 64)).flatMap fun k => digestBytes (sha512 (seed ++ beBytes k 4))).take n

/-- A power modulo a number, by the bits of the exponent. -/
def powMod (m : Nat) : Nat → Nat → Nat → Nat
  | 0, _, _ => 1 % m
  | n + 1, b, e =>
    let h := powMod m n (b * b % m) (e / 2)
    if e % 2 = 1 then b * h % m else h

/-- Verification of an encoded message of 512 bytes, of which 4,095 bits count, against a digest. -/
def pssEncoded (em : List Byte) (digest : BitVec 512) : Bool :=
  let masked := em.take 447
  let h := (em.drop 447).take 64
  let db := ((masked.zip (mgf1 h 447)).map fun (e : Byte × Byte) => e.1 ^^^ e.2)
  let db := (db.headD 0 &&& 0x7F#8) :: db.drop 1
  let salt := db.drop 383
  decide (em.length = 512) && em.getD 511 0 == 0xBC#8 && !(masked.headD 0).getLsbD 7 &&
    (db.take 382).all (fun b => b == 0) && db.getD 382 0 == 1#8 &&
    digestBytes (sha512 (List.replicate 8 0 ++ digestBytes digest ++ salt)) == h

/-- Verification of a signature of a digest under a 4,096-bit key. -/
def pssVerify (modulus exponent signature : Nat) (digest : BitVec 512) : Bool :=
  decide (2 ^ 4095 ≤ modulus ∧ modulus < 2 ^ 4096 ∧ signature < modulus ∧ exponent < modulus) &&
    pssEncoded (beBytes (powMod modulus 4096 signature exponent) 512) digest

end Sys2Proof.Machine
end

