-- ==== Sys2Proof/Machine/Traversal.lean ====
section
/-!
DEFINITION. The traversal engine: walk micro-operations (R296 to R303), rays (R304 to R310), its words (R308 to R312)
and its events.
-/

namespace Sys2Proof.Machine

/-! Layouts (R292, R293). -/

def Layout.nsize (l : Layout) : Nat := 16 * natBits l.geom 5 0
def Layout.nslot (l : Layout) : Nat := natBits l.geom 9 6
def Layout.q8 (l : Layout) : Bool := natBits l.geom 11 10 == 1
def Layout.ptrf (l : Layout) : Nat := natBits l.geom 13 12
def Layout.leafBit (l : Layout) : Nat := natBits l.geom 27 16
def Layout.frameOff (l : Layout) : Nat := natBits l.leaf 8 0
def Layout.triOff (l : Layout) : Nat := natBits l.leaf 17 9
def Layout.countOff (l : Layout) : Nat := natBits l.leaf 26 18
def Layout.boxOff (l : Layout) (k : Nat) : Nat := natBits (l.slots.getD k 0) 8 0
def Layout.ptrOff (l : Layout) (k : Nat) : Nat := natBits (l.slots.getD k 0) 17 9
def Layout.boxBytes (l : Layout) : Nat := if l.q8 then 6 else 24
def Layout.ptrBytes (l : Layout) : Nat := if l.ptrf = 0 then 8 else 4

/-- The value of `n` bytes of a list from an offset. -/
def listValue (bs : List Byte) (off n : Nat) : Nat := leValue (fun a => bs.getD a 0) off n

/-- The layout that 64 bytes hold (R292). -/
def Layout.ofBytes (bs : List Byte) : Layout :=
  ⟨listValue bs 0 4, listValue bs 4 4, listValue bs 8 4, listValue bs 16 8,
    (upTo 8).map fun k => listValue bs (0x20 + 4 * k) 4⟩

/-- The offset of the first byte of a layout descriptor that breaks a condition of R292. -/
def layoutBad (bs : List Byte) : Option Nat :=
  let l := Layout.ofBytes bs
  let n := l.nsize
  let zero (k : Nat) : Nat × Bool := (k, bs.getD k 0 == 0)
  let slot (k : Nat) : List (Nat × Bool) :=
    let o := 0x20 + 4 * k
    let w := l.slots.getD k 0
    if k < l.nslot then
      [(o, decide (l.boxOff k + l.boxBytes ≤ n)), (o + 1, decide (l.ptrOff k + l.ptrBytes ≤ n)),
       (o + 2, natBits w 23 18 == 0), (o + 3, natBits w 31 24 == 0)]
    else (upTo 4).map fun j => zero (o + j)
  firstFail ([(0, decide (1 ≤ natBits l.geom 5 0 ∧ natBits l.geom 5 0 ≤ 32 ∧ l.nslot ≤ 8)),
    (1, decide (natBits l.geom 11 10 ≤ 1 ∧ l.ptrf ≠ 3) && natBits l.geom 15 14 == 0),
    (2, decide (l.leafBit < 8 * n)), (3, natBits l.geom 31 28 == 0),
    (4, if l.q8 then decide (l.frameOff + 15 ≤ n) else l.frameOff == 0),
    (5, decide (l.triOff + 40 ≤ n)), (6, decide (l.countOff < n)), (7, natBits l.leaf 31 27 == 0)] ++
    ([0x0C, 0x0D, 0x0E, 0x0F, 0x18, 0x19, 0x1A, 0x1B, 0x1C, 0x1D, 0x1E, 0x1F].map zero) ++
    [(0x17, natBits l.idxBase 63 57 == 0)] ++ (upTo 8).flatMap slot)

/-- Bits [hi:lo] of a micro-word must be 0: a check for each of its bytes that they reach. -/
def zeroBytes (w : Word) (hi lo : Nat) : List (Nat × Bool) :=
  ((upTo 4).filter fun k => decide (lo ≤ 8 * k + 7 ∧ 8 * k ≤ hi)).map fun k =>
    (k, natBits w.toNat (min hi (8 * k + 7)) (max lo (8 * k)) == 0)

/-- The first byte of a micro-word that offends (R298, R309): that of the least bit of a field outside its limits (log
entry 126). -/
def walkWordBad (l : Layout) (len : Nat) (w : Word) : Nat :=
  let v := w.toNat
  let op := natBits v 31 27
  let checks : List (Nat × Bool) :=
    if op = 9 then zeroBytes w 21 6 ++ [(0, decide (natBits v 5 0 < len)), (2, decide (natBits v 26 23 ≤ 4))]
    else if op = 10 then zeroBytes w 18 0
    else if op = 12 then
      [(0, decide (natBits v 8 0 + 8 ≤ l.nsize)), (1, decide (natBits v 17 9 + 2 ≤ l.nsize)),
       (2, decide (natBits v 26 18 + 48 ≤ l.nsize))]
    else if op = 15 then zeroBytes w 23 0 ++ [(3, decide (natBits v 26 25 ≤ 1))]
    else if 15 < op then [(3, false)]
    else zeroBytes w 26 0
  (firstFail checks).getD 0

/-- A micro-word that a program of a length may hold under a layout (R298, R299). -/
def walkWordOk (l : Layout) (len : Nat) (w : Word) : Bool :=
  match decodeWalk w with
  | none => false
  | some (.brc _ _ t) => decide (t.toNat < len)
  | some (.xform m i c) =>
    decide (m.toNat + 48 ≤ l.nsize ∧ i.toNat + 2 ≤ l.nsize ∧ c.toNat + 8 ≤ l.nsize)
  | some _ => true

/-- An address of 57 bits. -/
def addr57 (a : Nat) : Nat := a % 2 ^ 57

/-- The child address in a slot's pointer field; none when the slot is empty (R293). -/
def Layout.child (l : Layout) (node : Nat) (buf : List Byte) (k : Nat) : Option Nat :=
  let v := listValue buf (l.ptrOff k) l.ptrBytes
  if v = 2 ^ (8 * l.ptrBytes) - 1 then none
  else some (match l.ptrf with
    | 0 => addr57 v
    | 1 => (((node : Int) + 16 * intOf 32 true v) % (2 ^ 57 : Int)).toNat
    | _ => addr57 (l.idxBase + v * l.idxStr))

/-- Component a of a slot's box: low and high (R293). -/
def Layout.box (l : Layout) (buf : List Byte) (k a : Nat) : FVal × FVal :=
  let o := l.boxOff k
  if l.q8 then
    let f := f32 (BitVec.ofNat 32 (listValue buf (l.frameOff + 4 * a) 4))
    let e := intOf 8 true (listValue buf (l.frameOff + 12 + a) 1)
    let at_ (b : Nat) (m : RMode) : FVal :=
      (roundTo fmtF32 m false false (fAdd false f (FVal.dyadic false (listValue buf b 1) e)).1).1
    (at_ (o + a) .rdn, at_ (o + 3 + a) .rup)
  else
    (f32 (BitVec.ofNat 32 (listValue buf (o + 4 * a) 4)), f32 (BitVec.ofNat 32 (listValue buf (o + 12 + 4 * a) 4)))

/-! The tests (R301, R302). -/

/-- A quotient of extended reals; NaN where it has no value. The divisor is not 0. -/
def xDiv (a b : FVal) : FVal :=
  match a, b with
  | .nan, _ => .nan
  | _, .nan => .nan
  | .inf _, .inf _ => .nan
  | .inf s, .fin t _ _ => .inf (s != t)
  | .fin s _ _, .inf t => .fin (s != t) 0 1
  | .fin s n d, .fin t m e => if m = 0 then .nan else fracDiv s n d t m e

/-- The limit T of a ray (R296). -/
def Ray.limit (r : Ray) : FVal := fMin (f32 r.tmax) (f32 r.hitt)

/-- BoxTest (R301): the entry distance, none for a miss. -/
def Ray.boxTest (r : Ray) (box : Nat → FVal × FVal) : Option FVal :=
  let ro (a : Nat) : FVal := f32 (r.org.getD a 0)
  let rd (a : Nat) : FVal := f32 (r.dir.getD a 0)
  let axes := [0, 1, 2]
  if (axes.any fun a => (box a).1.isNaN || (box a).2.isNaN || (ro a).isNaN || (rd a).isNaN) ||
      (f32 r.tmin).isNaN || r.limit.isNaN then none
  else
    let go (acc : Option (FVal × FVal)) (a : Nat) : Option (FVal × FVal) :=
      match acc with
      | none => none
      | some (tn, tf) =>
        let lo := (box a).1
        let hi := (box a).2
        if fLt hi lo then none
        else if (rd a).isZero then
          if fLt (ro a) lo || fLt hi (ro a) then none else some (tn, tf)
        else
          let t1 := xDiv (fAdd false lo (ro a).neg).1 (rd a)
          let t2 := xDiv (fAdd false hi (ro a).neg).1 (rd a)
          if t1.isNaN || t2.isNaN then some (tn, tf)
          else some (fMax tn (roundTo fmtF32 .rdn false false (fMin t1 t2)).1,
            fMin tf (roundTo fmtF32 .rup false false (fMax t1 t2)).1)
    match axes.foldl go (some (f32 r.tmin, r.limit)) with
    | some (tn, tf) => if fLe tn tf then some tn else none
    | none => none

/-- One rounding to f32. -/
def rnd (x : FVal) : FVal := (rneF32 x).1
/-- Exact sum, difference and product. -/
def xAdd (a b : FVal) : FVal := (fAdd false a b).1
def xSub (a b : FVal) : FVal := (fAdd false a b.neg).1
def xMul (a b : FVal) : FVal := (fMul a b).1

/-- Strictly below and above 0. -/
def below0 (x : FVal) : Bool := fLt x FVal.zero
def above0 (x : FVal) : Bool := fLt FVal.zero x

/-- The axis of the largest component, the lowest on a tie (R302). -/
def mainAxis (x y z : FVal) : Nat :=
  if fLt x.abs y.abs then (if fLt y.abs z.abs then 2 else 1) else if fLt x.abs z.abs then 2 else 0

/-- TriTest (R302) on vertex components: distance and the weights of v1 and v2, none for a miss. -/
def Ray.triTest (r : Ray) (v : Nat → Nat → FVal) : Option (FVal × FVal × FVal) :=
  let ro (a : Nat) : FVal := f32 (r.org.getD a 0)
  let rd (a : Nat) : FVal := f32 (r.dir.getD a 0)
  let bad (x : FVal) : Bool := x.isNaN || x.isInf
  if ([0, 1, 2].any fun a => bad (ro a) || bad (rd a)) || [0, 1, 2].all fun a => (rd a).isZero then none
  else
    let kz := mainAxis (rd 0) (rd 1) (rd 2)
    let x0 := (kz + 1) % 3
    let y0 := (x0 + 1) % 3
    let swap := below0 (rd kz)
    let kx := if swap then y0 else x0
    let ky := if swap then x0 else y0
    let sx := rnd (xDiv (rd kx) (rd kz))
    let sy := rnd (xDiv (rd ky) (rd kz))
    let sz := rnd (xDiv (f32 0x3F800000) (rd kz))
    let d (i a : Nat) : FVal := rnd (xSub (v i a) (ro a))
    let px (i : Nat) : FVal := rnd (xSub (d i kx) (xMul sx (d i kz)))
    let py (i : Nat) : FVal := rnd (xSub (d i ky) (xMul sy (d i kz)))
    let pz (i : Nat) : FVal := rnd (xMul sz (d i kz))
    let cross (i j : Nat) : FVal := rnd (xSub (xMul (px i) (py j)) (xMul (py i) (px j)))
    let u := cross 2 1
    let w1 := cross 0 2
    let w2 := cross 1 0
    let all := [u, w1, w2]
    if (all.any FVal.isNaN) || [0, 1, 2].any fun i => (px i).isNaN || (py i).isNaN || (pz i).isNaN then none
    else if all.any below0 && all.any above0 then none
    else
      let det := xAdd (xAdd u w1) w2
      if det.isZero then none
      else if (r.flags.getLsbD 1 && below0 det) || (r.flags.getLsbD 2 && above0 det) then none
      else
        let t := rnd (xDiv (xAdd (xAdd (xMul u (pz 0)) (xMul w1 (pz 1))) (xMul w2 (pz 2))) det)
        if fLe (f32 r.tmin) t && fLe t (f32 r.tmax) && fLt t (f32 r.hitt) then
          some (t, rnd (xDiv w1 det), rnd (xDiv w2 det))
        else none

/-- The node is a leaf (R293). -/
def Layout.isLeaf (l : Layout) (buf : List Byte) : Bool :=
  (buf.getD (l.leafBit / 8) 0).getLsbD (l.leafBit % 8)

/-- The nearest triangle hit of a leaf: distance, primitive word, weights (R299, R302). -/
def Ray.leafHit (r : Ray) (l : Layout) (buf : List Byte) : Option (FVal × Word × FVal × FVal) :=
  let n := min (buf.getD l.countOff 0).toNat ((l.nsize - l.triOff) / 40)
  (upTo n).foldl (fun b i =>
    let o := l.triOff + 40 * i
    let v (j a : Nat) : FVal := f32 (BitVec.ofNat 32 (listValue buf (o + 12 * j + 4 * a) 4))
    match r.triTest v with
    | none => b
    | some (t, x, y) =>
      let c := (t, BitVec.ofNat 32 (listValue buf (o + 36) 4), x, y)
      match b with
      | none => some c
      | some p => if fLt t p.1 then some c else some p) none

/-! Micro-operations. -/

/-- What a micro-operation makes of its ray (R299, R304). -/
inductive Walked where
  | next (r : Ray)
  | jump (r : Ray) (to_ : Nat)
  | fail (cause : BitVec 8)
  | stop (r : Ray) (status cause : BitVec 8) (upc : Nat)
  | fetch (r : Ray)

/-- Clears the transient state (R297). -/
def Ray.clear (r : Ray) : Ray :=
  { r with buf := none, kids := [], cand := none, z := false, h := false, m := false }

/-- A ray suspends (R304). -/
def Ray.suspend (r : Ray) (status cause : BitVec 8) (upc : Nat) : Ray :=
  { r with status := status, cause := cause, upc := upc, fetching := false, out := true, depth := r.stack.length }

/-- Advances UPC; running past the program undoes the micro-operation, with error 0x06 (R299). -/
def Ray.advance (old new : Ray) (len : Nat) : Ray :=
  if len ≤ old.upc + 1 then old.suspend 6 6 old.upc else { new with upc := old.upc + 1 }

/-- The effect of a micro-operation's outcome. -/
def Ray.walked (r : Ray) (len : Nat) : Walked → Ray
  | .next n => r.advance n len
  | .jump n t => { n with upc := t }
  | .fail c => r.suspend 6 c r.upc
  | .stop n st c u => n.suspend st c u
  | .fetch n => { n with fetching := true }

/-- Program length and layout of a ray's class. -/
def Ray.len (r : Ray) : Nat := match r.binding with
  | some b => b.prog.length
  | none => 0

def Ray.layout (r : Ray) : Layout := match r.binding with
  | some b => b.layout
  | none => ⟨0, 0, 0, 0, []⟩

/-- The meaning of a micro-operation: the current ray, walking in the engine, takes its effect. -/
def walkOp (s : State) (f : Ray → Walked) : Host.Outcome State Fault Refusal :=
  match AMap.find s.rays s.curRay with
  | none => .fault .noRay
  | some r =>
    if r.out || r.fetching then .fault .noRay
    else .next { s with rays := AMap.put s.rays s.curRay (r.walked r.len (f r)) }

/-- A micro-operation that reads the node buffer (R299). -/
def withNode (r : Ray) (f : List Byte → Walked) : Walked :=
  match r.buf with
  | none => .fail 5
  | some b => f b

/-- Pushes entries, first first; none above 24 (R299). -/
def Ray.push (r : Ray) (es : List (BitVec 64)) : Option Ray :=
  if 24 < r.stack.length + es.length then none else some { r with stack := r.stack ++ es }

/-- The addresses of children from last to first, as node entries. -/
def kidEntries (ks : List (Word × Nat × Nat)) : List (BitVec 64) := ks.reverse.map fun k => BitVec.ofNat 64 k.2.2

/-- WNOP (R299). -/
def execWnop (s : State) : Host.Outcome State Fault Refusal := walkOp s fun r => .next r

/-- LDN (R299): an `rsave` takes effect before the fetch (R304). -/
def execLdn (s : State) : Host.Outcome State Fault Refusal :=
  walkOp s fun r => if r.savers.isEmpty then .fetch r.clear else .stop r 5 0 r.upc

/-- TBOX (R301). -/
def execTbox (s : State) : Host.Outcome State Fault Refusal :=
  walkOp s fun r => withNode r fun buf =>
    let l := r.layout
    let ks := (upTo l.nslot).filterMap fun k =>
      match l.child r.node buf k with
      | none => none
      | some a => (r.boxTest (l.box buf k)).map fun t => (toF32 t, k, a)
    .next { r with kids := ks, z := ks.isEmpty }

/-- Inserts a child behind those whose distance is not greater. -/
def insertKid (k : Word × Nat × Nat) : List (Word × Nat × Nat) → List (Word × Nat × Nat)
  | [] => [k]
  | x :: t => if fLt (f32 k.1) (f32 x.1) then k :: x :: t else x :: insertKid k t

/-- SORT (R299): ascending entry distance, equal ones in slot order. -/
def execWSort (s : State) : Host.Outcome State Fault Refusal :=
  walkOp s fun r => .next { r with kids := r.kids.foldl (fun l k => insertKid k l) [] }

/-- PUSHC (R299). -/
def execPushc (s : State) : Host.Outcome State Fault Refusal :=
  walkOp s fun r =>
    match r.push (kidEntries r.kids) with
    | none => .fail 3
    | some n => .next { n with kids := [], z := true }

/-- NEXT (R299). -/
def execWNext (s : State) : Host.Outcome State Fault Refusal :=
  walkOp s fun r =>
    match r.kids with
    | [] => .next { r with z := true }
    | k :: t =>
      match r.push (kidEntries t) with
      | none => .fail 3
      | some n => .next { n with node := k.2.2, kids := [], z := false, buf := none }

/-- TTRI (R299, R302). -/
def execTtri (s : State) : Host.Outcome State Fault Refusal :=
  walkOp s fun r => withNode r fun buf =>
    let c := if r.layout.isLeaf buf then r.leafHit r.layout buf else none
    .next { r with cand := c.map fun x => (toF32 x.1, x.2.1, toF32 x.2.2.1, toF32 x.2.2.2), h := c.isSome }

/-- HIT (R299): under TERM the walk is done. -/
def execWHit (s : State) : Host.Outcome State Fault Refusal :=
  walkOp s fun r =>
    match r.h, r.cand with
    | true, some (t, p, u, v) =>
      let n := { r with hitt := t, prim := p, hitu := u, hitv := v, h := false }
      if r.flags.getLsbD 0 then .stop n 2 0 r.upc else .next n
    | _, _ => .next r

/-- A marker (R294). -/
def isMarker (e : BitVec 64) : Bool := e.extractLsb' 62 2 == 2#2

/-- POP (R299). -/
def execWPop (s : State) : Host.Outcome State Fault Refusal :=
  walkOp s fun r =>
    match r.stack.getLast? with
    | none => .next { r with z := true, m := false }
    | some e =>
      if isMarker e then .next { r with m := true, z := false }
      else .next { r with node := addr57 e.toNat, stack := r.stack.dropLast, z := false, m := false, buf := none }

/-- A condition of `brc` (R299). -/
def Ray.holds (r : Ray) : WalkCond → Bool
  | .al => true
  | .z => r.z
  | .h => r.h
  | .m => r.m
  | .l => match r.buf with
    | some b => r.layout.isLeaf b
    | none => false

/-- BRC (R299): a taken backward branch clears, or saves the ray at its target (R297, R304). -/
def execBrc (cond : WalkCond) (neg : Bool) (target : BitVec 6) (s : State) : Host.Outcome State Fault Refusal :=
  walkOp s fun r =>
    if r.holds cond != neg then
      if r.upc < target.toNat then .jump r target.toNat
      else if r.savers.isEmpty then .jump r.clear target.toNat
      else .stop r 5 0 target.toNat
    else .next r

/-- CALLOUT (R299). -/
def execCallout (code : BitVec 8) (s : State) : Host.Outcome State Fault Refusal :=
  walkOp s fun r => .stop r.clear 4 code (r.upc + 1)

/-- DONE (R299). -/
def execWDone (s : State) : Host.Outcome State Fault Refusal := walkOp s fun r => .stop r 2 0 r.upc

/-- XFORM (R303). -/
def execXform (mat ident child : BitVec 9) (s : State) : Host.Outcome State Fault Refusal :=
  walkOp s fun r => withNode r fun buf =>
    let o (a : Nat) : Word := r.org.getD a 0
    let d (a : Nat) : Word := r.dir.getD a 0
    match r.push [o 1 ++ o 0, d 0 ++ o 2, d 2 ++ d 1, 2#2 ++ 0#46 ++ r.inst] with
    | none => .fail 3
    | some n =>
      let m (i j : Nat) : FVal := f32 (BitVec.ofNat 32 (listValue buf (mat.toNat + 16 * i + 4 * j) 4))
      let dot (i : Nat) (v : Nat → Word) : FVal :=
        xAdd (xAdd (xMul (m i 0) (f32 (v 0))) (xMul (m i 1) (f32 (v 1)))) (xMul (m i 2) (f32 (v 2)))
      .next { n with
        org := (upTo 3).map fun (i : Nat) => toF32 (rnd (xAdd (dot i o) (m i 3)))
        dir := (upTo 3).map fun (i : Nat) => toF32 (rnd (dot i d))
        inst := BitVec.ofNat 16 (listValue buf ident.toNat 2)
        node := addr57 (listValue buf child.toNat 8)
        buf := none }

/-- IPOP (R303). -/
def execIpop (s : State) : Host.Outcome State Fault Refusal :=
  walkOp s fun r =>
    let n := r.stack.length
    match r.stack.getLast? with
    | some e =>
      if isMarker e && decide (4 ≤ n) then
        let x (k : Nat) : BitVec 64 := r.stack.getD (n - 4 + k) 0
        .next { r with
          org := [lo32 (x 0), hi32 (x 0), lo32 (x 1)], dir := [hi32 (x 1), lo32 (x 2), hi32 (x 2)],
          inst := e.setWidth 16, m := false, stack := r.stack.take (n - 4) }
      else .fail 4
    | none => .fail 4

/-- CULL (R299). -/
def execCull (s : State) : Host.Outcome State Fault Refusal :=
  walkOp s fun r =>
    let ks := r.kids.filter fun k => !fLt r.limit (f32 k.1)
    .next { r with kids := ks, z := ks.isEmpty }

/-- SETT (R299). -/
def execSett (sel : SetSel) (value : Bool) (s : State) : Host.Outcome State Fault Refusal :=
  walkOp s fun r => .next (match sel with
    | .tmax => { r with tmax := toF32 r.limit }
    | .term => { r with flags := (r.flags &&& 0xFE) ||| (if value then 1 else 0) })

/-! Ray records (R294). -/

/-- The bytes of a ray's record; entries at or above DEPTH are 0 (R305). -/
def Ray.bytes (r : Ray) : List Byte :=
  let w (x : Word) : List Byte := leBytes x.toNat 4
  r.org.flatMap w ++ w r.tmin ++ r.dir.flatMap w ++ w r.tmax ++
    [r.flags, r.cls, BitVec.ofNat 8 r.upc, BitVec.ofNat 8 r.depth, r.status, r.cause] ++ leBytes r.inst.toNat 2 ++
    leBytes r.node 8 ++ w r.hitt ++ w r.prim ++ w r.hitu ++ w r.hitv ++
    (upTo 24).flatMap fun k => leBytes (r.stack.getD k 0).toNat 8

/-- The ray that a record holds. -/
def Ray.ofBytes (q : Nat) (x : Req) (at_ : Nat) (binding : Nat → Option Binding) (bs : List Byte) : Ray :=
  let w (o : Nat) : Word := BitVec.ofNat 32 (listValue bs o 4)
  let b (o : Nat) : BitVec 8 := bs.getD o 0
  { req := q, cohort := x.cohort, cluster := x.cluster, pasid := x.pasid, at_ := at_,
    binding := binding ((b 0x21).toNat % 8), org := [w 0, w 4, w 8], tmin := w 0x0C, dir := [w 0x10, w 0x14, w 0x18],
    tmax := w 0x1C, flags := b 0x20, cls := b 0x21, upc := (b 0x22).toNat, status := b 0x24, cause := b 0x25,
    inst := BitVec.ofNat 16 (listValue bs 0x26 2), node := listValue bs 0x28 8, hitt := w 0x30, prim := w 0x34,
    hitu := w 0x38, hitv := w 0x3C,
    stack := (upTo (min (b 0x23).toNat 24)).map fun (k : Nat) => BitVec.ofNat 64 (listValue bs (0x40 + 8 * k) 8),
    buf := none, kids := [], cand := none, z := false, h := false, m := false, savers := x.savers,
    fetching := false, out := false, depth := (b 0x23).toNat }

/-- An error found when a record is read: it is written back as it was, with STATUS 6 (R310). -/
def Ray.reject (r : Ray) (c : BitVec 8) : Ray := { r with status := 6, cause := c, out := true }

/-- The ray as it starts (R310, R311): `none` for a record that `rresume` skips. -/
def Ray.start (r : Ray) (resume : Bool) : Option Ray :=
  if resume && !(r.status == 3 || r.status == 4 || r.status == 5) then none
  else if natBits r.cls.toNat 7 3 ≠ 0 ∨ natBits r.flags.toNat 7 3 ≠ 0 ∨ natBits r.upc 7 6 ≠ 0 ∨ natBits r.node 63 57 ≠ 0 then
    some (r.reject 2)
  else if r.binding.isNone then some (r.reject 1)
  else if resume && decide (24 < r.depth ∨ r.len ≤ r.upc) then some (r.reject 2)
  else
    let n := if resume then r
      else { r with upc := 0, stack := [], depth := 0, inst := 0, hitt := 0x7F800000, prim := 0xFFFFFFFF,
                    hitu := 0, hitv := 0 }
    if n.savers.isEmpty then some { n with status := 1, cause := 0 } else some (n.suspend 5 0 n.upc)

/-- The bytes an engine finds at some virtual addresses: none while a translation is missing; else the bytes, or the
first that faults. -/
def State.engineBytes (s : State) (cl : Nat) (pasid : BitVec 20) (va : Nat) : Nat →
    Option (Except (Cause × Nat) (List Byte)) × State
  | 0 => (some (.ok []), s)
  | n + 1 =>
    match s.engineByte cl pasid va .load with
    | (none, s1) => (none, s1)
    | (some (.error c), s1) => (some (.error (c, va)), s1)
    | (some (.ok pa), s1) =>
      match s1.engineBytes cl pasid (va + 1) n with
      | (some (.ok bs), s2) => (some (.ok (s1.homeByte pa :: bs)), s2)
      | r => r

/-- Whether every byte of a range has a translation for stores. -/
def State.engineMapped (s : State) (cl : Nat) (pasid : BitVec 20) (va n : Nat) : Bool × State :=
  (upTo n).foldl (fun r k =>
    match r.2.engineByte cl pasid (va + k) .store with
    | (none, s1) => (false, s1)
    | (_, s1) => (r.1, s1)) (true, s)

/-- Plain stores of an engine in order, up to the first byte that faults. -/
def State.engineStore (s : State) (cl : Nat) (pasid : BitVec 20) (va : Nat) : List Byte → Option (Cause × Nat) × State
  | [] => (none, s)
  | b :: t =>
    match s.engineByte cl pasid va .store with
    | (none, s1) => (some (.translation, va), s1)
    | (some (.error c), s1) => (some (c, va), s1)
    | (some (.ok pa), s1) => (s1.homeWrite pa b).engineStore cl pasid (va + 1) t

/-! The events of the engine. -/

/-- Requests of a context before one. -/
def State.before (s : State) (q : Req) : List Req :=
  (s.reqs.filter fun e => decide (e.2.cohort = q.cohort ∧ e.2.sel = q.sel ∧ e.2.n < q.n)).map fun e => e.2

/-- Record count of a trace request. -/
def Req.count (q : Req) : Nat := natBits (q.desc.getD 2 0).toNat 15 0

/-- Rays of a cluster that occupy a context (R290). -/
def State.raysIn (s : State) (cl : Nat) : Nat := (s.rays.filter fun e => e.2.cluster == cl).length

/-- An `rsave` whose rays are all written back completes (R308, R311). -/
def State.settleSave (s : State) (sv : Nat × Nat) : State :=
  if (s.rays.any fun e => e.2.savers.contains sv) ||
      s.reqs.any fun e => e.2.savers.contains sv && decide (e.2.next < e.2.count) then s
  else s.complete sv.1 sv.2

def State.settleSaves (s : State) (svs : List (Nat × Nat)) : State := svs.foldl (fun s v => s.settleSave v) s

/-- A request may start rays: no earlier `rbind` is outstanding, and every earlier request has started (R308). -/
def State.mayStart (s : State) (q : Req) : Bool :=
  (s.before q).all fun p => match p.kind with
    | .trace _ => decide (0 < p.next)
    | _ => false

/-- RAY_START (R290, R310): the next record of a request is read and its ray starts. -/
def execRayStart (req : Nat) (s : State) : Host.Outcome State Fault Refusal :=
  .next <|
    match AMap.find s.reqs req with
    | none => s
    | some q =>
      match q.kind with
      | .trace resume =>
        if decide (q.count ≤ q.next) || decide (256 ≤ s.raysIn q.cluster) || !s.mayStart q then s
        else
          let at_ := (q.desc.getD 0 0).toNat + 2 ^ 32 * natBits (q.desc.getD 1 0).toNat 24 0 + 256 * q.next
          match s.engineBytes q.cluster q.pasid at_ 256 with
          | (none, s1) => s1
          | (some (.error (c, _)), s1) =>
            ((s1.onReq req fun x => { x with next := x.next + 1 }).failReq req c at_).settleSaves q.savers
          | (some (.ok bs), s1) =>
            let bind (k : Nat) : Option Binding := AMap.find (s1.cohort q.cohort).classes (8 * q.cluster + k)
            let s2 := s1.onReq req fun x => { x with next := x.next + 1 }
            match (Ray.ofBytes req q at_ bind bs).start resume with
            | none =>
              (s2.onReq req fun x => { x with counts := x.counts.set 5 (x.counts.getD 5 0 + 1) }).settleSaves q.savers
            | some r => { s2 with rays := AMap.put s2.rays s2.nextId r, nextId := s2.nextId + 1 }
      | _ => s

/-- A byte of a node as it stands now. A line of an RO-shared page goes through the cluster's cache banks, whose byte
serves when it is the one that its home holds: a fetch gives no value that the granule held only before its request
(R313). -/
def State.nodeByte (s : State) (cl : Nat) (pasid : BitVec 20) (va : Nat) : Except Cause Byte × State :=
  match s.translate none cl pasid va .load with
  | (.error c, s1) => (.error c, s1)
  | (.ok h, s1) => (.ok (s1.homeByte h.pa), if h.ros then s1.fillCache cl h.pa else s1)

/-- The engine takes the granule of a node at an address early, for a request in flight (R313). -/
def State.sampleNode (s : State) (req va : Nat) : State :=
  match AMap.find s.reqs req with
  | none => s
  | some q => match q.kind with
    | .trace _ => (upTo 4).foldl (fun s k =>
        match s.nodeByte q.cluster q.pasid (va / 4 * 4 + k) with
        | (.ok b, s1) => { s1 with reqs := AMap.adjust s1.reqs req fun y =>
            { y with read := AMap.put y.read (va / 4 * 4 + k) b } }
        | (.error _, s1) => s1) s
    | _ => s

/-- Of each granule of a node that was taken early, a fetch gives that value or the one that stands, by a free bit
(R313). -/
def State.mixNode (s : State) (req va : Nat) (bs : List Byte) : List Byte × State :=
  match AMap.find s.reqs req with
  | none => (bs, s)
  | some q =>
    let gs := ((upTo bs.length).map fun k => (va + k) / 4).eraseDups.filter fun g =>
      (upTo 4).any fun k => (AMap.find q.read (4 * g + k)).isSome
    gs.foldl (fun r g =>
      let (v, s1) := r.2.free
      (if v.getLsbD 0 then (upTo bs.length).map fun k =>
        if (va + k) / 4 = g then (AMap.find q.read (va + k)).getD (r.1.getD k 0) else r.1.getD k 0 else r.1, s1)) (bs, s)

/-- The bytes of a node, or the first that faults. -/
def State.nodeBytes (s : State) (cl : Nat) (pasid : BitVec 20) (va : Nat) : Nat → Except Cause (List Byte) × State
  | 0 => (.ok [], s)
  | n + 1 =>
    match s.nodeByte cl pasid va with
    | (.error c, s1) => (.error c, s1)
    | (.ok b, s1) =>
      match s1.nodeBytes cl pasid (va + 1) n with
      | (.error c, s2) => (.error c, s2)
      | (.ok bs, s2) => (.ok (b :: bs), s2)

/-- NODE_FETCH_RETURN (R299, R304): the buffer is loaded, or the fault suspends the ray. -/
def execNodeFetchReturn (ray : Nat) (s : State) : Host.Outcome State Fault Refusal :=
  .next <|
    match AMap.find s.rays ray with
    | none => s
    | some r =>
      if !r.fetching || r.out then s
      else
        match s.nodeBytes r.cluster r.pasid r.node r.layout.nsize with
        | (.error c, s1) => { s1 with rays := AMap.put s1.rays ray (r.suspend 3 c.code r.upc) }
        | (.ok now, s1) =>
          let (bs, s2) := s1.mixNode r.req r.node now
          { s2 with rays := AMap.put s2.rays ray (r.advance { r with buf := some bs, fetching := false } r.len) }

/-- The place of a STATUS in the summary (R310). -/
def statusIndex (st : BitVec 8) : Nat := st.toNat - 2

/-- RAY_WRITEBACK (R305, R310): a suspended ray's record is written back and its context frees. -/
def execRayWriteback (ray : Nat) (s : State) : Host.Outcome State Fault Refusal :=
  .next <|
    match AMap.find s.rays ray with
    | none => s
    | some r =>
      if !r.out then s
      else
        let (ok, s1) := s.engineMapped r.cluster r.pasid r.at_ 256
        if !ok then s1
        else
          let (f, s2) := s1.engineStore r.cluster r.pasid r.at_ r.bytes
          let s3 := match f with
            | some (c, a) => s2.failReq r.req c a
            | none => s2
          let k := statusIndex r.status
          let s4 := s3.onReq r.req fun x => { x with counts := x.counts.set k (x.counts.getD k 0 + 1) }
          ({ s4 with rays := AMap.del s4.rays ray }).settleSaves r.savers

/-- The summary address of a trace request. -/
def Req.summary (q : Req) : Nat := (q.desc.getD 3 0).toNat + 2 ^ 32 * natBits (q.desc.getD 4 0).toNat 24 0

/-- TRAVERSAL_REQUEST_COMPLETE (R310). -/
def execTraversalRequestComplete (req : Nat) (s : State) : Host.Outcome State Fault Refusal :=
  .next <|
    match AMap.find s.reqs req with
    | none => s
    | some q =>
      match q.kind with
      | .trace _ =>
        if decide (q.next < q.count) || s.rays.any fun e => e.2.req == req then s
        else if q.summary = 0 then s.finishReq req
        else
          let (ok, s1) := s.engineMapped q.cluster q.pasid q.summary 16
          if !ok then s1
          else
            let bs := ((upTo 6).flatMap fun k => leBytes (q.counts.getD k 0) 2) ++ leBytes 0 4
            let (f, s2) := s1.engineStore q.cluster q.pasid q.summary bs
            (match f with
              | some (c, a) => s2.failReq req c a
              | none => s2).finishReq req
      | _ => s

/-- RBIND_APPLY (R309): once every earlier request of the context has completed, the class is bound or left unbound. -/
def execRbindApply (req : Nat) (s : State) : Host.Outcome State Fault Refusal :=
  .next <|
    match AMap.find s.reqs req with
    | none => s
    | some q =>
      match q.kind with
      | .bind cls =>
        if !(s.before q).isEmpty then s
        else
          let lay := (q.desc.getD 0 0).toNat + 2 ^ 32 * natBits (q.desc.getD 1 0).toNat 24 0
          let prg := (q.desc.getD 2 0).toNat + 2 ^ 32 * natBits (q.desc.getD 3 0).toNat 24 0
          let n := natBits (q.desc.getD 4 0).toNat 6 0
          let unbind (s : State) (c : Cause) (a : Nat) : State :=
            ((s.onCohort q.cohort fun h => { h with classes := AMap.del h.classes (8 * q.cluster + cls.toNat) }).failReq req c a).finishReq req
          match s.engineBytes q.cluster q.pasid lay 64 with
          | (none, s1) => s1
          | (some (.error (c, a)), s1) => unbind s1 c a
          | (some (.ok bs), s1) =>
            match s1.engineBytes q.cluster q.pasid prg (4 * n) with
            | (none, s2) => s2
            | (some (.error (c, a)), s2) => unbind s2 c a
            | (some (.ok ps), s2) =>
              let l := Layout.ofBytes bs
              let ws := (upTo n).map fun k => BitVec.ofNat 32 (listValue ps (4 * k) 4)
              match layoutBad bs with
              | some o => unbind s2 .illegalFormat (lay + o)
              | none =>
                match (upTo n).find? fun k => !walkWordOk l n (ws.getD k 0) with
                | some k => unbind s2 .illegalFormat (prg + 4 * k + walkWordBad l n (ws.getD k 0))
                | none =>
                  (s2.onCohort q.cohort fun h => { h with classes := AMap.put h.classes (8 * q.cluster + cls.toNat) ⟨l, ws⟩ }).finishReq req
      | _ => s

/-! The words. -/

/-- A request word of the engine: its checks, then the request (R308). -/
def travWord (c : Ctl) (d a : SReg) (kind : ReqKind) (s : State) (checks : List Word → List (Nat × Bool)) :
    Host.Outcome State Fault Refusal :=
  scalarWord c s fun x s =>
    let ds := (s.wave x.w).block a 5
    match firstFail (checks ds) with
    | some k => s.badWord x k
    | none => s.requestWord x c.h.setf d .trav kind ds

/-- RBIND (R309). -/
def execRbind (c : Ctl) (d a : SReg) (cls : BitVec 3) (s : State) : Host.Outcome State Fault Refusal :=
  travWord c d a (.bind cls) s fun ds =>
    let w (k : Nat) : Nat := (ds.getD k 0).toNat
    [(0, w 0 % 64 == 0), (1, natBits (w 1) 31 25 == 0), (2, w 2 % 4 == 0), (3, natBits (w 3) 31 25 == 0),
     (4, natBits (w 4) 31 7 == 0 && decide (1 ≤ w 4 ∧ w 4 ≤ 64))]

/-- The checks of `rtrace` and `rresume` (R310). -/
def traceChecks (ds : List Word) : List (Nat × Bool) :=
  let w (k : Nat) : Nat := (ds.getD k 0).toNat
  [(0, w 0 % 256 == 0), (1, natBits (w 1) 31 25 == 0), (2, natBits (w 2) 31 16 == 0 && w 2 != 0),
   (3, w 3 % 16 == 0), (4, natBits (w 4) 31 25 == 0)]

/-- RTRACE (R310). -/
def execRtrace (c : Ctl) (d a : SReg) (s : State) : Host.Outcome State Fault Refusal :=
  travWord c d a (.trace false) s traceChecks

/-- RRESUME (R310). -/
def execRresume (c : Ctl) (d a : SReg) (s : State) : Host.Outcome State Fault Refusal :=
  travWord c d a (.trace true) s traceChecks

/-- Rays of requests that have not started. -/
def State.unstarted (s : State) (c : Nat) : Nat :=
  s.reqs.foldl (fun n e => match e.2.kind with
    | .trace _ => if e.2.cohort = c then n + (e.2.count - e.2.next) else n
    | _ => n) 0

/-- RSAVE (R311): every ray of the context on this cluster in flight or not started is to be saved. -/
def execRsave (c : Ctl) (s : State) : Host.Outcome State Fault Refusal :=
  scalarWord c s fun x s =>
    let h := s.cohortOf x.w
    let cl := clusterOf (s.wave x.w).core
    let sv := (x.w, (s.wave x.w).nextOp)
    let s1 := s.onWave x.w fun w => (w.raiseFlag c.h.setf).addFlight ⟨.command, c.h.setf, x.run, []⟩
    let s2 := { s1 with
      rays := s1.rays.map fun (e : Nat × Ray) => if e.2.cohort = h ∧ e.2.cluster = cl then (e.1, { e.2 with savers := sv :: e.2.savers }) else e
      reqs := s1.reqs.map fun (e : Nat × Req) => match e.2.kind with
        | .trace _ => if e.2.cohort = h ∧ e.2.cluster = cl then (e.1, { e.2 with savers := sv :: e.2.savers }) else e
        | _ => e }
    (s2.settleSave sv).goto x x.run (x.pc + 1)

/-- RQUERY (R312). -/
def execRquery (c : Ctl) (d : SReg) (sub : RQuery) (s : State) : Host.Outcome State Fault Refusal :=
  scalarWord c s fun x s =>
    let h := s.cohortOf x.w
    let v : Nat := match sub with
      | .inflight => (s.rays.filter fun e => e.2.cohort == h).length + s.unstarted h
      | .outstanding => s.outstanding h .trav
      | .bound =>
        let cl := clusterOf (s.wave x.w).core
        (s.cohort h).classes.foldl (fun n e => if e.1 / 8 = cl then n + 2 ^ (e.1 % 8) else n) 0
    (s.onWave x.w fun w =>
      (w.raiseFlag c.h.setf).addFlight ⟨.result [.s d (BitVec.ofNat 32 v)], c.h.setf, x.run, []⟩).goto x x.run (x.pc + 1)

end Sys2Proof.Machine
end

