-- ==== Sys2Proof/Machine/Nmv.lean ====
section
/-!
DEFINITION. Near-bank products (R401 to R405).
-/

namespace Sys2Proof.Machine

/-- Fields of an `nmv` descriptor (R401). -/
def nmAddr (d : List Word) : Nat := (d.getD 0 0).toNat + 2 ^ 32 * natBits (d.getD 1 0).toNat 24 0
def nmRows (d : List Word) : Nat := natBits (d.getD 2 0).toNat 15 0
def nmK (d : List Word) : Nat := natBits (d.getD 3 0).toNat 16 0
def nmX (d : List Word) : Nat := (d.getD 4 0).toNat
def nmY (d : List Word) : Nat := (d.getD 5 0).toNat
def nmVecs (d : List Word) : Nat := natBits (d.getD 6 0).toNat 10 8 + 1
def nmStack (d : List Word) : Nat := natBits (d.getD 6 0).toNat 4 0
def nmFmt (d : List Word) : Fmt := (fmtOfMatrix (natBits (d.getD 7 0).toNat 3 0)).getD .e4m3
def nmNeg (d : List Word) : Bool := (d.getD 7 0).getLsbD 13

/-- Whole blocks in a chunk (R402). -/
def chunkBlocks : Fmt → Nat
  | .blk4 => 14
  | .blk8 => 7
  | _ => 8

/-- Chunks of a row (R402). -/
def nmChunks (d : List Word) : Nat := (nmK d / 32 + chunkBlocks (nmFmt d) - 1) / chunkBlocks (nmFmt d)

/-- The checks of the descriptor (R401). -/
def nmvChecks (feat : BitVec 64) (size : Nat) (d : List Word) : List (Nat × Bool) :=
  let w (k : Nat) : Nat := (d.getD k 0).toNat
  let wf := natBits (w 7) 3 0
  [(0, w 0 % 256 == 0), (1, natBits (w 1) 31 25 == 0), (2, natBits (w 2) 31 16 == 0 && nmRows d != 0),
   (3, natBits (w 3) 31 17 == 0 && decide (32 ≤ nmK d ∧ nmK d ≤ 65536 ∧ nmK d % 32 = 0)),
   (4, nmX d % 16 == 0 && decide (nmX d + 2 * nmK d * nmVecs d ≤ size)),
   (5, nmY d % 16 == 0 && decide (nmY d + 4 * nmRows d * nmVecs d ≤ size)),
   (6, natBits (w 6) 31 11 == 0 && natBits (w 6) 7 5 == 0 && decide (nmStack d ≤ 23)),
   (7, natBits (w 7) 31 14 == 0 && natBits (w 7) 12 12 == 0 && natBits (w 7) 11 8 == 0 && natBits (w 7) 7 4 == 1 &&
     (wf == 3 || wf == 7 || wf == 9) && codeOk feat wf)]

/-- The vectors of a request in the cluster's scratch space. -/
def State.nmVectors (s : State) (q : Req) : SMap 8 :=
  regionBytes (s.cluster q.cluster).scratch
    [((s.cohort q.cohort).base + nmX q.desc, 2 * nmK q.desc * nmVecs q.desc)]

/-- NMV (R403): the request is numbered on the stack's timeline; its vectors are sampled a first time at issue. -/
def execNmv (c : Ctl) (d a : SReg) (s : State) : Host.Outcome State Fault Refusal :=
  scalarWord c s fun x s =>
    let w := s.wave x.w
    let ds := w.block a 8
    match firstFail (nmvChecks s.fabric.featacc w.localsize.toNat ds) with
    | some k => s.badWord x k
    | none =>
      let sel := Timeline.nmv (BitVec.ofNat 5 (nmStack ds))
      let r := s.nextId
      (s.requestWord x c.h.setf d sel .nmv ds).onReq r fun q => { q with read := s.nmVectors q }

/-- The unit order of a row's chunks: ascending unit (R402, R403). -/
def chunkOrder (d : List Word) (n : Nat) : List Nat :=
  let u (j : Nat) : Nat := (natBits (nmAddr d) 29 8 + nmChunks d * n + j) % 1536
  let js := upTo (nmChunks d)
  (js.filter fun j => decide (u j < u 0)) ++ js.filter fun j => decide (u 0 ≤ u j)

/-- The place of block b of a row in its chunks: chunk and offset. -/
def blockPlace (d : List Word) (b : Nat) : Nat × Nat :=
  let bc := chunkBlocks (nmFmt d)
  let size := match nmFmt d with
    | .blk4 => 18
    | .blk8 => 34
    | _ => 32
  (b / bc, b % bc * size)

/-- Result (v, n) of a request (R403): `wr` reads the matrix by offset, `xr` the scratch space. -/
def nmResult (d : List Word) (wr xr : Nat → Byte) (base v n : Nat) : Word :=
  let F := nmFmt d
  let bc := chunkBlocks F
  let row := base + nmX d + 2 * nmK d * v
  let part (j : Nat) : FVal :=
    let bs := (upTo (nmK d / 32)).filter fun b => b / bc == j
    (dotBlocks FVal.zero (bs.map fun b =>
      let at_ := 256 * (nmChunks d * n + j) + (blockPlace d b).2
      (upTo 32).map fun k => dotTerm (nmNeg d) (rowElem wr F at_ k).1 (rowElem xr .bf16 row (32 * b + k)).1)).1
  toF32 ((chunkOrder d n).foldl (fun acc j => rnd (xAdd acc (part j))) FVal.zero)

/-- Where the weights of a request lie (R405): none while its translation stalls or a link on the way retrains (R396), else
the physical address, or the fault. -/
def State.nmPlace (s : State) (q : Req) : Option (Except Cause Nat) × State :=
  let va := nmAddr q.desc
  match s.lookup none q.cluster q.pasid va .load with
  | (.error .translation, s1) => match s1.takeRefusal q.pasid va with
    | some s2 => (some (.error .access), s2)
    | none => (none, s1)
  | (.error c, s1) => (some (.error c), s1)
  | (.ok e, s1) =>
    let pa := (e.hit va).pa
    let stack := 6 * homeDie pa + pa % 0x9000000000 % 0x180000000 / 2 ^ 30
    (if !e.allows .load || e.bits != 30 || decide (2 ^ 30 < va % 2 ^ 30 + 256 * nmRows q.desc * nmChunks q.desc) ||
        decide (dramEnd ≤ pa) || !s1.nearFrame (homeDie pa) (frameOf pa) || stack != nmStack q.desc then
      some (.error .access)
    else if s1.linkOpen (q.cluster / 12) (homeDie pa) then some (.ok pa) else none, s1)

/-- The number of result (v, n) of a request among its results. -/
def nmKey (d : List Word) (v n : Nat) : Nat := nmRows d * v + n

/-- The bytes of a request's vectors that its results so far have used, and of its weights, by offset (R404). -/
def Req.usedVectors (q : Req) (base : Nat) : List (Nat × Nat) :=
  ((upTo (nmVecs q.desc)).filter fun v => q.written.any fun k => k / nmRows q.desc == v).map fun v =>
    (base + nmX q.desc + 2 * nmK q.desc * v, 2 * nmK q.desc)
def Req.usedWeights (q : Req) : List (Nat × Nat) :=
  (q.written.map fun k => k % nmRows q.desc).eraseDups.map fun n =>
    (256 * nmChunks q.desc * n, 256 * nmChunks q.desc)

/-- The weights of a request as DRAM holds them, by offset. -/
def State.nmWeights (s : State) (q : Req) (pa : Nat) : SMap 8 :=
  (s.mem.filter fun e => decide (pa ≤ e.1 ∧ e.1 < pa + 256 * nmRows q.desc * nmChunks q.desc)).map fun e =>
    (e.1 - pa, e.2)

/-- Samples the vectors of a request again, and its weights: granules that no result has used (R404). -/
def State.nmResample (s : State) (q : Req) (pa : Nat) : Req × State :=
  let (xs, s1) := s.resample q.read (s.nmVectors q) (q.usedVectors (s.cohort q.cohort).base)
  match q.weights with
  | none => ({ q with read := xs }, s1)
  | some w =>
    let (w', s2) := s1.resample w (s1.nmWeights q pa) q.usedWeights
    ({ q with read := xs, weights := some w' }, s2)

/-- The engine samples what a request reads (R404). -/
def State.nmSample (s : State) (req : Nat) : State :=
  match AMap.find s.reqs req with
  | none => s
  | some q =>
    if q.kind != .nmv then s
    else match s.nmPlace q with
      | (some (.ok pa), s1) =>
        let q1 := if q.weights.isSome then q else { q with weights := some (s1.nmWeights q pa) }
        let (q2, s2) := s1.nmResample q1 pa
        { s2 with reqs := AMap.put s2.reqs req q2 }
      | (_, s1) => s1

/-- The chunk of row n that cannot be read (R405). -/
def State.nmLost (s : State) (d : List Word) (pa n : Nat) : Option Nat :=
  (upTo (nmChunks d)).find? fun j => (upTo 4).any fun k =>
    (AMap.find s.lost ((pa + 256 * (nmChunks d * n + j)) / 64 + k)).isSome

/-- Writes result (v, n) of a request, once (R403, R404). -/
def State.nmPut (s : State) (req : Nat) (q : Req) (pa v n : Nat) : State :=
  let d := q.desc
  if q.written.contains (nmKey d v n) then s
  else match s.nmLost d pa n with
    | some j => s.failReq req .dataLoss (nmAddr d + 256 * (nmChunks d * n + j))
    | none =>
      let base := (s.cohort q.cohort).base
      let wr (o : Nat) : Byte := match q.weights with
        | some w => SMap.get w o
        | none => s.mem.read (pa + o)
      s.scratchWrite q.cluster (base + nmY d + 4 * nmKey d v n)
        (leBytes (nmResult d wr (SMap.get q.read) base v n).toNat 4)

/-- One result of a request is written before the others (R403, R404). -/
def State.nmWrite (s : State) (req v n : Nat) : State :=
  match AMap.find s.reqs req with
  | none => s
  | some q =>
    if q.kind != .nmv || decide (nmVecs q.desc ≤ v) || decide (nmRows q.desc ≤ n) ||
        q.written.contains (nmKey q.desc v n) then s
    else match s.nmPlace q with
      | (some (.ok pa), s1) =>
        if (s1.nmLost q.desc pa n).isSome then s1
        else
          let q1 := if q.weights.isSome then q else { q with weights := some (s1.nmWeights q pa) }
          let s2 := s1.nmPut req q1 pa v n
          { s2 with reqs := AMap.put s2.reqs req { q1 with written := nmKey q.desc v n :: q1.written } }
      | (_, s1) => s1

/-- NMV_REQUEST_COMPLETE (R404, R405). -/
def execNmvRequestComplete (req : Nat) (s : State) : Host.Outcome State Fault Refusal :=
  .next <|
    match AMap.find s.reqs req with
    | none => s
    | some q =>
      if q.kind != .nmv then s
      else match s.nmPlace q with
        | (none, s1) => s1
        | (some (.error c), s1) => (s1.failReq req c (nmAddr q.desc)).finishReq req
        | (some (.ok pa), s1) =>
          let (q1, s2) := s1.nmResample q pa
          ((upTo (nmRows q.desc)).foldl (fun s n =>
            (upTo (nmVecs q.desc)).foldl (fun s v => s.nmPut req q1 pa v n) s) s2).finishReq req

end Sys2Proof.Machine
end

