-- ==== Sys2Proof/Machine/FrontEnd.lean ====
section
/-!
DEFINITION. The command front end of a die: queue control blocks and their walk (R342 to R346, R358), reading and
retiring packets (R347 to R350), the error state (R355, R356), and the claims of `tenq` and `qclaim` (R365, R373).
-/

namespace Sys2Proof.Machine

/-! Queues by key: die, PASID and number. -/

def queueKey (die : Nat) (pasid : BitVec 20) (n : Nat) : Nat := 2 ^ 28 * die + 256 * pasid.toNat + n
def keyDie (q : Nat) : Nat := q / 2 ^ 28
def keyPasid (q : Nat) : BitVec 20 := BitVec.ofNat 20 (q / 256)
def keyNum (q : Nat) : Nat := q % 256

def State.fq (s : State) (q : Nat) : FQ := AMap.getD s.queues q FQ.blank
def State.onFq (s : State) (q : Nat) (f : FQ → FQ) : State := { s with queues := AMap.put s.queues q (f (s.fq q)) }
/-- The firmware is told, once until it takes notice. -/
def State.tell (s : State) (n : Notice) : State :=
  if s.notices.contains n then s else { s with notices := s.notices ++ [n] }

/-- No link that an access between the dies may take retrains (R396). -/
def State.linksSteady (s : State) : Bool :=
  [0, 1, 2, 3].all fun a => [0, 1, 2, 3].all fun b => s.linkOpen a b

/-- A move of a front end: its accesses are made in order, and one that a retraining link holds back holds back those after
it (R396; log entry 46). -/
def State.atFront (s : State) (f : State → State) : State := if s.linksSteady then f s else s

/-- Where a walk of the queue tables ends (R343). -/
inductive Found where
  | qcb (pa : Nat)
  | notPresent
  | noQueue
deriving DecidableEq, Repr

/-- One step of the walk: the next table, with A set (R343). An entry that cannot be read makes the walk fail as V = 0
does. -/
def State.tableStep (s : State) (pa : Nat) : Found × State :=
  match s.readEntry pa with
  | .error _ => (.noQueue, s)
  | .ok e =>
    if e % 2 = 0 ∨ natBits e 63 57 ≠ 0 ∨ natBits e 14 3 ≠ 0 then (.noQueue, s)
    else if e / 2 % 2 = 0 then (.notPresent, s)
    else (.qcb (natBits e 56 15 * 2 ^ 15), if e / 4 % 2 = 1 then s else s.homeWrite pa (s.homeByte pa ||| 4))

/-- The walk to a queue's QCB (R342). -/
def State.walkQueue (s : State) (q : Nat) : Found × State :=
  let root := natBits (s.die (keyDie q)).qroot.toNat 56 15 * 2 ^ 15
  let p := (keyPasid q).toNat
  match s.tableStep (root + 8 * (p / 1024)) with
  | (.qcb t, s1) =>
    match s1.tableStep (t + 8 * (p % 1024)) with
    | (.qcb u, s2) => (.qcb (u + 128 * keyNum q), s2)
    | (.notPresent, s2) => (.notPresent, s2)
    | (.noQueue, s2) => (.noQueue, s2)
  | (.notPresent, s1) => (.notPresent, s1)
  | (.noQueue, s1) => (.noQueue, s1)

/-- Where a queue's QCB lies: the front end walks the tables only where it does not hold the QCB (R342), and tells the
firmware of a walk that fails (R343). -/
def State.findQueue (s : State) (q : Nat) : Found × State :=
  if (s.fq q).qcb.isSome then (.qcb (s.fq q).at_, s)
  else match s.walkQueue q with
    | (.qcb pa, s1) => (.qcb pa, s1)
    | (.notPresent, s1) => (.notPresent, s1.tell (.notPresent q))
    | (.noQueue, s1) => (.noQueue, s1.tell (.noQueue q))

/-- A QCB as memory holds it (R344). -/
def State.readQcb (s : State) (pa : Nat) : Qcb :=
  let w (k : Nat) : Nat := s.homeValue (pa + 8 * k) 8
  { ring := natBits (w 0) 63 6 * 64, log2n := w 0 % 64, rdidx := w 1, wridx := w 2, ctl := w 3 % 2 ^ 32,
    htab := w 6, erec := w 7, tkdesc := w 8, aggto := w 9 % 2 ^ 32,
    clean := natBits (w 9) 63 32 == 0 && [10, 11, 12, 13, 14, 15].all fun k => w k == 0 }

/-- Fields of CTL (R345). -/
def Qcb.en (c : Qcb) : Bool := natBits c.ctl 0 0 == 1
def Qcb.err (c : Qcb) : Bool := natBits c.ctl 2 2 == 1
def Qcb.kind (c : Qcb) : Bool := natBits c.ctl 7 7 == 1
def Qcb.ceil (c : Qcb) : Nat := natBits c.ctl 23 16

/-- The fields lie within their limits (R344, R345). -/
def Qcb.ok (c : Qcb) : Bool :=
  decide (2 ≤ c.log2n ∧ c.log2n ≤ 20 ∧ c.ring % (64 * 2 ^ c.log2n) = 0 ∧ c.ring < 2 ^ 57) &&
  natBits c.ctl 31 24 == 0 && natBits c.ctl 15 8 == 0 && natBits c.ctl 6 4 == 0 && natBits c.ctl 1 1 == 0 &&
  decide (c.htab % 4096 = 0 ∧ c.htab < 2 ^ 57 ∧ c.erec % 64 = 0 ∧ c.erec < 2 ^ 57) &&
  (if c.kind then decide (c.tkdesc % 64 = 0 ∧ c.tkdesc < 2 ^ 57) else c.tkdesc == 0) && c.clean

/-- The address of a slot (R344). -/
def Qcb.slot (c : Qcb) (i : Nat) : Nat := c.ring + 64 * (i % 2 ^ c.log2n)

/-- Free slots of a ring (R347). -/
def Qcb.room (c : Qcb) (n : Nat) : Bool := decide ((c.wridx + n + 2 ^ 64 - c.rdidx) % 2 ^ 64 ≤ 2 ^ c.log2n)

/-- What a queue's capabilities cover: the ring, the handle table and the error record that its QCB names (R387; log entry
31). -/
def Qcb.caps (c : Qcb) : QueueCaps := ⟨c.ring, 64 * 2 ^ c.log2n, natBits c.htab 56 12 * 4096, natBits c.erec 56 6 * 64⟩

/-- A queue's capabilities cover its ring slots [i, i + n), its handle table, its error record (R387). -/
def FQ.coversSlots (f : FQ) (c : Qcb) (i n : Nat) : Bool :=
  match f.caps with
  | some k => decide (k.ring ≤ c.slot i ∧ c.slot i + 64 * n ≤ k.ring + k.bytes)
  | none => false

def FQ.coversHtab (f : FQ) (a : Nat) : Bool :=
  match f.caps with
  | some k => decide (k.htab ≤ a ∧ a + 16 ≤ k.htab + 4096)
  | none => false

def FQ.coversErec (f : FQ) (a : Nat) : Bool :=
  match f.caps with
  | some k => k.erec == a
  | none => false

/-- The queues of a die whose QCBs its front end holds. -/
def State.cachedQcbs (s : State) (die : Nat) : List Nat :=
  (s.queues.filter fun e => keyDie e.1 == die && e.2.qcb.isSome).map fun e => e.1

/-- A die's front end holds 256 QCBs: with that many, a free one leaves (R342). -/
def State.qcbRoom (s : State) (die : Nat) : State :=
  let held := s.cachedQcbs die
  if held.length < 256 then s
  else
    let (f, s1) := s.free
    match held[f.toNat % held.length]? with
    | some k => s1.onFq k fun f => { f with qcb := none }
    | none => s1

/-- A resident queue whose QCB is not cached is walked again (R342, R343). -/
def State.loadQcb (s : State) (q : Nat) : State :=
  let f := s.fq q
  if !f.resident || f.qcb.isSome then s
  else
    match s.findQueue q with
    | (.qcb pa, s1) =>
      let s2 := s1.qcbRoom (keyDie q)
      let c := s2.readQcb pa
      s2.onFq q fun f => { f with at_ := pa, qcb := some c, caps := some (f.caps.getD c.caps) }
    | (_, s1) => s1

/-- A queue is enabled: by the QCB that the front end holds, else by the one in memory (R345, R346). -/
def State.queueOn (s : State) (q : Nat) : Bool :=
  match (s.fq q).qcb with
  | some c => c.en
  | none => s.homeValue ((s.fq q).at_ + 0x18) 1 % 2 == 1

/-! Addresses that the front end takes from packets and descriptors (R387). -/

/-- Bytes of a context's partition memory (R387, R389). -/
def State.inPartition (s : State) (pasid : BitVec 20) (pa n : Nat) : Bool :=
  match AMap.find s.contexts pasid.toNat with
  | none => false
  | some x => match AMap.find s.parts x.desc.part.toNat with
    | some p => decide (p.spec.memBase ≤ pa ∧ pa + n ≤ p.spec.memBase + p.spec.memLen)
    | none => false

/-- The physical address behind a virtual one, or the error code and its address: 0x06 for one that cannot be accessed,
0x07 for one outside the partition's capability (R355, R387). -/
def State.feAddr (s : State) (pasid : BitVec 20) (va n : Nat) (acc : Access) : Except (Nat × Nat) Nat × State :=
  if 2 ^ 57 < va + n then (.error (6, va), s)
  else
    match s.walk none pasid va acc with
    | (.error _, s1) => (.error (6, va), s1)
    | (.ok e, s1) =>
      let pa := (e.hit va).pa
      if !e.allows acc || (s1.backed pa).isSome || (acc != .store && s1.sectorLost pa) then (.error (6, va), s1)
      else if !s1.inPartition pasid pa n then (.error (7, va), s1)
      else (.ok pa, s1)

/-- Reads 8-byte words. -/
def State.feWords (s : State) (pasid : BitVec 20) (va : Nat) : Nat → Except (Nat × Nat) (List Nat) × State
  | 0 => (.ok [], s)
  | n + 1 =>
    match s.feAddr pasid va 8 .load with
    | (.error e, s1) => (.error e, s1)
    | (.ok pa, s1) =>
      match s1.feWords pasid (va + 8) n with
      | (.error e, s2) => (.error e, s2)
      | (.ok ws, s2) => (.ok (s1.homeValue pa 8 :: ws), s2)

/-- Stores `n` bytes of a value. -/
def State.feStore (s : State) (pasid : BitVec 20) (va n v : Nat) : Option (Nat × Nat) × State :=
  match s.feAddr pasid va n .store with
  | (.error e, s1) => (some e, s1)
  | (.ok pa, s1) => (none, s1.homeStore pa n v)

/-- Stores 8-byte words up to the first that fails. -/
def State.feStores (s : State) (pasid : BitVec 20) (va : Nat) : List Nat → Option (Nat × Nat) × State
  | [] => (none, s)
  | v :: t =>
    match s.feStore pasid va 8 v with
    | (some e, s1) => (some e, s1)
    | (none, s1) => s1.feStores pasid (va + 8) t

/-- A field of a list of 8-byte words. -/
def field (ws : List Nat) (off n : Nat) : Nat := ws.getD (off / 8) 0 / 2 ^ (8 * (off % 8)) % 2 ^ (8 * n)

/-! The error state (R355). -/

/-- The queue enters the error state, or its code is replaced (R355, R356). -/
def State.queueError (s : State) (q code addr : Nat) : State :=
  let pa := (s.fq q).at_
  let ctl := s.homeValue (pa + 0x18) 4
  let s1 := ((s.homeStore (pa + 0x18) 4 (ctl ||| 4)).homeStore (pa + 0x1C) 4 code).homeStore (pa + 0x20) 8 (addr % 2 ^ 57)
  let s2 := s1.onFq q fun f => { f with qcb := f.qcb.map fun (c : Qcb) => { c with ctl := c.ctl ||| 4 } }
  if natBits ctl 2 2 = 1 then s2 else s2.tell (.queueError q)

/-- The words of an error record (R356). -/
def ErrRec.words (e : ErrRec) : List Nat :=
  [e.cause.toNat + 2 ^ 32 * e.pc.toNat, e.addr.toNat % 2 ^ 57, e.lref.toNat, e.place.toNat + 2 ^ 32 * e.gidx.toNat,
   e.cidx.toNat, 0, 0, 0]

/-- A launch's error record is written at EREC of its queue, which enters error 0x10 (R356). -/
def State.reportError (s : State) (l : Nat) : State :=
  let x := s.launch l
  match x.error with
  | none => s
  | some e =>
    if x.reported then s
    else
      let s1 := s.onLaunch l fun x => { x with reported := true }
      let erec := natBits (s1.homeValue ((s1.fq x.root).at_ + 0x38) 8) 56 6 * 64
      if !(s1.fq x.root).coversErec erec then s1.queueError x.root 7 erec
      else
        let (_, s2) := s1.feStores (keyPasid x.root) erec e.words
        s2.queueError x.root 0x10 erec

/-- The priority ceiling of a queue's work (R345, R346). -/
def State.ceilOf (s : State) (q : Nat) : Nat :=
  match (s.fq q).qcb with
  | some c => c.ceil
  | none => s.homeValue ((s.fq q).at_ + 0x1A) 1

/-! Claims of waves (R347, R365, R373). -/

/-- What a claim meets. -/
inductive Claim where
  | refused (addr : Nat)
  | full
  | done (ws : List RegWrite)
deriving DecidableEq, Repr

/-- The queue that a wave names by number, on its die. -/
def Wave.queueOf (w : Wave) (n : Nat) : Nat := queueKey (dieOf w.core) w.pasid n

/-- The record that `tenq` writes (R364, R365). -/
def taskRecord (ws : List Word) (lref : BitVec 64) : List Word :=
  (upTo 13).map (fun k => ws.getD (k + 1) 0) ++ [lo32 lref, hi32 lref, 0]

/-- 32-bit words as 8-byte words. -/
def pairUp : List Word → List Nat
  | a :: b :: t => (a.toNat + 2 ^ 32 * b.toNat) :: pairUp t
  | [a] => [a.toNat]
  | [] => []

/-- `tenq` tries to write its record (R365). -/
def State.tryTenq (s : State) (w : Nat) (ws : List Word) : Claim × State :=
  let x := s.wave w
  let q := x.queueOf ((ws.getD 0 0).toNat % 256)
  match s.findQueue q with
  | (.noQueue, s1) => (.refused 0, s1)
  | (.notPresent, s1) => (.full, s1)
  | (.qcb pa, s1) =>
    let c := s1.readQcb pa
    if !c.kind then (.refused 0, s1)
    else if !c.room 1 then (.full, s1)
    else
      let s2 := s1.releaseAll w .device
      match s2.feStores x.pasid (c.slot c.wridx) (pairUp (taskRecord ws (s2.launch x.launch).lref)) with
      | (some e, s3) => (.refused e.2, s3)
      | (none, s3) => (.done [], s3.homeStore (pa + 0x10) 8 (c.wridx + 1))

/-- `qclaim` tries to raise WRIDX (R373). -/
def State.tryQclaim (s : State) (w : Nat) (arg : BitVec 32) (d : SReg) : Claim × State :=
  let x := s.wave w
  let q := x.queueOf (arg.toNat % 256)
  let n := natBits arg.toNat 12 8
  match s.findQueue q with
  | (.noQueue, s1) => (.refused 0, s1)
  | (.notPresent, s1) => (.full, s1)
  | (.qcb pa, s1) =>
    let c := s1.readQcb pa
    if c.kind || c.err then (.refused 0, s1)
    else if !c.room n then (.full, s1)
    else (.done (pairWrites d (BitVec.ofNat 64 c.wridx)), s1.homeStore (pa + 0x10) 8 (c.wridx + n))

/-- A sleeping run tries its claim again (R360). -/
def State.retryClaim (s : State) (w : Nat) (z : Sleeper) : State :=
  let r : Claim × State := match z.wait with
    | .tenq ws => s.tryTenq w ws
    | .qclaim a d => s.tryQclaim w a d
    | _ => (.full, s)
  match r with
  | (.full, s1) => s1
  | (.refused a, s1) => (s1.onWave w fun x => x.unsleep z).park w z.members z.pc .access (BitVec.ofNat 64 a)
  | (.done ws, s1) => s1.onWave w fun x => x.wake z ws

/-- The resident waves that wait for a place in a queue try again (R365, R373). -/
def State.settleClaims (s : State) (q : Nat) : State :=
  s.waves.foldl (fun s e =>
    if e.2.slot.isSome then
      e.2.sleepers.foldl (fun s z =>
        let mine := match z.wait with
          | .tenq ws => e.2.queueOf ((ws.getD 0 0).toNat % 256) == q
          | .qclaim a _ => e.2.queueOf (a.toNat % 256) == q
          | _ => false
        if z.entry && mine then s.retryClaim e.1 z else s) s
    else s) s

/-! Packets (R348 to R350). -/

/-- A packet as read: the slot it lies in, its header fields and its words. -/
structure Pkt where
  slot : Nat
  type : Nat
  size : Nat
  flags : Nat
  tag : Nat
  words : List Nat
deriving DecidableEq, Repr

/-- What the front end finds at RDIDX. -/
inductive Front where
  | idle
  | bad (code addr : Nat)
  | pkt (p : Pkt)
deriving DecidableEq, Repr

/-- The QCB of a queue that may be read now, or its error (R344, R346, R420, R422). -/
def State.openQueue (s : State) (q : Nat) : Option (Except (Nat × Nat) Qcb) × State :=
  let s1 := s.loadQcb q
  match (s1.fq q).qcb with
  | none => (none, s1)
  | some c =>
    if !c.en || c.err || s1.fabric.boot == .recovery then (none, s1)
    else if !s1.inPartition (keyPasid q) (s1.fq q).at_ 128 then (some (.error (7, (s1.fq q).at_)), s1)
    else if !c.ok then (some (.error (3, (s1.fq q).at_)), s1)
    else if c.kind && !s1.fabric.featacc.getLsbD 10 then (some (.error (5, (s1.fq q).at_)), s1)
    else if c.rdidx = c.wridx then (none, s1)
    else if !(s1.fq q).coversSlots c c.rdidx 1 then (some (.error (7, c.slot c.rdidx)), s1)
    else (some (.ok c), s1)

/-- Reads the next packet of a packet queue (R348 to R350, R355). -/
def State.nextPacket (s : State) (q : Nat) : Front × State :=
  match s.openQueue q with
  | (none, s1) => (.idle, s1)
  | (some (.error e), s1) => (.bad e.1 e.2, s1)
  | (some (.ok c), s1) =>
    if c.kind then (.idle, s1)
    else
      let slot := c.slot c.rdidx
      match s1.feWords (keyPasid q) slot 1 with
      | (.error e, s2) => (.bad e.1 e.2, s2)
      | (.ok ws, s2) =>
        let h := ws.headD 0
        let type := h % 256
        let size := natBits h 31 16
        let flags := natBits h 15 8
        if type = 0 then (.idle, s2)
        else if 9 ≤ type ∧ type < 0x80 then (.bad 1 slot, s2)
        else if size = 0 ∨ 16 < size ∨ 4 ≤ flags ∨ 2 ^ c.log2n < c.rdidx % 2 ^ c.log2n + size then (.bad 2 slot, s2)
        else if !(s2.fq q).coversSlots c c.rdidx size then (.bad 7 slot, s2)
        else
          match s2.feWords (keyPasid q) slot (8 * size) with
          | (.error e, s3) => (.bad e.1 e.2, s3)
          | (.ok ws, s3) => (.pkt ⟨slot, type, size, flags, natBits h 63 32, ws⟩, s3)

/-- How a packet enters the list of retired packets. -/
structure Retired where
  kind : PacketKind
  after : List Nat
deriving DecidableEq, Repr

/-- The number of the next packet on a queue's timeline (R349). -/
def State.nextNumber (s : State) (q : Nat) : Nat := (s.fq q).tl.accepted + 1

/-- RDIDX moves on (R349, R344). -/
def State.advanceQueue (s : State) (q n : Nat) : State :=
  let s1 := s.onFq q fun f => { f with qcb := f.qcb.map fun (c : Qcb) => { c with rdidx := (c.rdidx + n) % 2 ^ 64 } }
  match (s1.fq q).qcb with
  | some c => (s1.homeStore ((s1.fq q).at_ + 8) 8 c.rdidx).settleClaims q
  | none => s1

/-- Every earlier packet has started, or has completed when the packet carries BARRIER (R348, R349). -/
def FQ.inTurn (f : FQ) (n : Nat) (p : Packet) : Bool :=
  f.packets.all fun e => decide (n ≤ e.1) || (e.2.started && !p.barrier)

/-- Marks a packet started. -/
def FQ.start (f : FQ) (n : Nat) : FQ :=
  { f with packets := AMap.adjust f.packets n fun (p : Packet) => { p with started := true } }

/-- A packet leaves the list: QTL rises (R349). -/
def State.dropPacket (s : State) (q n : Nat) : State :=
  let s1 := s.onFq q fun f => { f with packets := AMap.del f.packets n, tl := f.tl.finish n }
  s1.homeStore ((s1.fq q).at_ + 0x28) 8 (s1.fq q).tl.value

/-- The packets of an enabled queue that wait for nothing but their turn start when it comes (R346, R348, R349): a signal,
a handle's declaration, a firmware packet, which is then forwarded, and a no-op with BARRIER, which then completes. -/
def State.settleStarts (s : State) (q : Nat) : State :=
  if !s.queueOn q then s
  else (s.fq q).packets.foldl (fun s e =>
    if e.2.started || !(s.fq q).inTurn e.1 e.2 then s
    else match e.2.kind with
      | .firmware => (s.onFq q fun f => f.start e.1).tell (.packet q e.1)
      | .signal .. => s.onFq q fun f => f.start e.1
      | .handle .. => s.onFq q fun f => f.start e.1
      | .noOp => s.dropPacket q e.1
      | _ => s) s

/-- A packet completes, and others may start (R348, R349). -/
def State.finishPacket (s : State) (q n : Nat) : State := (s.dropPacket q n).settleStarts q

/-- A packet starts, and later ones may (R348, R349). -/
def State.startPacket (s : State) (q n : Nat) : State := (s.onFq q fun f => f.start n).settleStarts q

/-- A packet whose TYPE has been cleared is numbered, and RDIDX moves on (R349). -/
def State.retire (s : State) (q : Nat) (p : Pkt) (r : Retired) : State :=
  let n := s.nextNumber q
  ((s.onFq q fun f => { f with
    tl := { f.tl with accepted := n },
    packets := AMap.put f.packets n ⟨r.kind, p.flags % 2 == 1, false, r.after⟩ }).advanceQueue q p.size).settleStarts q

/-- Reads the next packet when it is of the given types, checks it, clears its TYPE and retires it; an error leaves it, that
of a slot which cannot be written too (R349, R355). -/
def State.takePacket (s : State) (q : Nat) (types : Nat → Bool)
    (body : Pkt → State → Except (Nat × Nat) Retired × State) : State :=
  match s.nextPacket q with
  | (.idle, s1) => s1
  | (.bad c a, s1) => s1.queueError q c a
  | (.pkt p, s1) =>
    if !types p.type then s1
    else
      match body p s1 with
      | (.error e, s2) => s2.queueError q e.1 e.2
      | (.ok r, s2) =>
        match s2.feStore (keyPasid q) p.slot 1 0 with
        | (some e, _) => s1.queueError q e.1 e.2
        | (none, s3) => s3.retire q p r

/-- A retired packet may start: it is its turn, and the packets it comes after have completed (R341, R348, R349, R354). -/
def FQ.mayStart (f : FQ) (n : Nat) : Bool :=
  match AMap.find f.packets n with
  | none => false
  | some p => f.inTurn n p && p.after.all fun m => (AMap.find f.packets m).isNone

/-- The first retired packet that a test selects and that may start. -/
def FQ.firstReady (f : FQ) (sel : Packet → Bool) : Option (Nat × Packet) :=
  f.packets.find? fun e => sel e.2 && f.mayStart e.1

/-! The tail filter (R346, R358) and RESTART (R355). -/

/-- TAIL_FILTER_REPORT (R346, R358): WRIDX and CTL are read again; the whole QCB when the front end does not hold it
(EN was 0, or the queue is in error). ERR is the front end's own bit. -/
def execTailFilterReport (q : Nat) (s : State) : Host.Outcome State Fault Refusal :=
  .next <| s.atFront fun s =>
    match (s.fq q).qcb with
    | none => s
    | some c =>
      let pa := (s.fq q).at_
      let m := s.readQcb pa
      let own := if c.err then 4 else 0
      let ctl := m.ctl - natBits m.ctl 2 2 * 4 + own
      let c1 := if c.en && !c.err then { c with wridx := m.wridx, ctl := ctl } else { m with ctl := ctl }
      let s1 := if ctl = m.ctl then s else s.homeStore (pa + 0x18) 4 ctl
      (s1.onFq q fun f => { f with
        qcb := some c1,
        written := if m.wridx = c.wridx then f.written else (s.die (keyDie q)).counter.toNat }).settleStarts q

/-- QUEUE_RESTART (R355): RESTART is cleared, and with it ERR and ERRCODE when the queue is in error. -/
def execQueueRestart (q : Nat) (s : State) : Host.Outcome State Fault Refusal :=
  .next <| s.atFront fun s =>
    match (s.fq q).qcb with
    | none => s
    | some c =>
      let pa := (s.fq q).at_
      let m := s.readQcb pa
      if natBits m.ctl 3 3 = 0 then s
      else if c.err then
        let ctl := m.ctl - 8 - natBits m.ctl 2 2 * 4
        ((s.homeStore (pa + 0x18) 4 ctl).homeStore (pa + 0x1C) 4 0).onFq q fun f =>
          { f with qcb := some { m with ctl := ctl } }
      else
        let ctl := m.ctl - 8 - natBits m.ctl 2 2 * 4
        (s.homeStore (pa + 0x18) 4 ctl).onFq q fun f => { f with qcb := some { c with ctl := ctl, wridx := m.wridx } }

/-- QCBINV (R381): the QCB leaves the front end's cache. -/
def execQcbinv (die : Nat) (value : BitVec 64) (s : State) : Host.Outcome State Fault Refusal :=
  .next (s.qcbinvWrite die value)

/-! Packets other than launches and graphs (R350, R354). -/

/-- The fields of a packet's word 8 onwards that stand at 0. -/
def Pkt.fld (p : Pkt) (off n : Nat) : Nat := field p.words off n

/-- NO_OP (R350): it completes when it is retired; with BARRIER once every earlier packet has completed (R348; log entry
122). -/
def execNoOp (q : Nat) (s : State) : Host.Outcome State Fault Refusal :=
  .next <| s.atFront fun s =>
    let n := s.nextNumber q
    let s1 := s.takePacket q (· == 8) fun _ s => (.ok ⟨.noOp, []⟩, s)
    match AMap.find (s1.fq q).packets n with
    | some p => if p.barrier || n == s1.nextNumber q then s1 else s1.finishPacket q n
    | none => s1

/-- Entries of a dependency packet up to the first that is all zero (R354). -/
def depEntries : List Nat → List (Nat × Nat)
  | [] => []
  | e :: t => if e = 0 then [] else (natBits e 63 56, natBits e 55 0) :: depEntries t

/-- DEPENDENCY (R354): the packet is retired and waits. -/
def execDependency (q : Nat) (s : State) : Host.Outcome State Fault Refusal :=
  .next <| s.atFront fun s => s.takePacket q (· == 4) fun p s =>
    if p.size ≠ 1 then (.error (3, p.slot), s)
    else (.ok ⟨.dependency (depEntries (p.words.drop 1)), []⟩, s)

/-- Every named queue timeline has reached its value (R354). -/
def State.depsMet (s : State) (q : Nat) : List (Nat × Nat) → Bool × State
  | [] => (true, s)
  | (k, v) :: t =>
    match s.findQueue (queueKey (keyDie q) (keyPasid q) k) with
    | (.qcb pa, s1) => if v ≤ s1.homeValue (pa + 0x28) 8 then s1.depsMet q t else (false, s1)
    | (_, s1) => (false, s1)

/-- DEPENDENCY_SATISFIED (R354). -/
def execDependencySatisfied (q n : Nat) (s : State) : Host.Outcome State Fault Refusal :=
  .next <| s.atFront fun s =>
    match AMap.find (s.fq q).packets n with
    | some ⟨.dependency es, _, _, _⟩ =>
      if !(s.fq q).mayStart n then s
      else
        let (ok, s1) := s.depsMet q es
        if ok then s1.finishPacket q n else s1
    | _ => s

/-- TIMELINE_WAIT (R354). -/
def execTimelineWait (q : Nat) (s : State) : Host.Outcome State Fault Refusal :=
  .next <| s.atFront fun s => s.takePacket q (· == 6) fun p s =>
    let a := p.fld 8 8
    if p.size ≠ 1 ∨ a % 8 ≠ 0 ∨ 2 ^ 57 ≤ a then (.error (3, p.slot), s)
    else
      match s.feAddr (keyPasid q) a 8 .load with
      | (.error e, s1) => (.error e, s1)
      | (.ok _, s1) => (.ok ⟨.wait a (p.fld 0x10 8), []⟩, s1)

/-- TIMELINE_WAIT_SATISFIED (R354): the word is at least the value. -/
def execTimelineWaitSatisfied (q n : Nat) (s : State) : Host.Outcome State Fault Refusal :=
  .next <| s.atFront fun s =>
    match AMap.find (s.fq q).packets n with
    | some ⟨.wait a v, _, _, _⟩ =>
      if !(s.fq q).mayStart n then s
      else
        match s.feAddr (keyPasid q) a 8 .load with
        | (.error e, s1) => s1.queueError q e.1 e.2
        | (.ok pa, s1) => if v ≤ s1.homeValue pa 8 then s1.finishPacket q n else s1
    | _ => s

/-- The first signal whose earlier packets have all completed. -/
def FQ.signalReady (f : FQ) : Option (Nat × Nat × Nat × Bool) :=
  match f.packets.head? with
  | some (n, ⟨.signal a v add, _, true, _⟩) => some (n, a, v, add)
  | _ => none

/-- TIMELINE_SIGNAL (R354): the packet is retired; once every earlier packet has completed its write is performed. -/
def execTimelineSignal (q : Nat) (s : State) : Host.Outcome State Fault Refusal :=
  .next <| s.atFront fun s =>
    let s1 := s.takePacket q (· == 5) fun p s =>
      let a := p.fld 8 8
      let o := p.fld 0x18 8
      if p.size ≠ 1 ∨ a % 8 ≠ 0 ∨ 2 ^ 57 ≤ a ∨ 2 ≤ o then (.error (3, p.slot), s)
      else
        match s.feAddr (keyPasid q) a 8 .store with
        | (.error e, s1) => (.error e, s1)
        | (.ok _, s1) => (.ok ⟨.signal a (p.fld 0x10 8) (o == 1), []⟩, s1)
    match (s1.fq q).signalReady with
    | none => s1
    | some (n, a, v, add) =>
      match s1.feAddr (keyPasid q) a 8 .store with
      | (.error e, s2) => (s2.queueError q e.1 e.2).finishPacket q n
      | (.ok pa, s2) =>
        (s2.homeStore pa 8 ((if add then s2.homeValue pa 8 + v else v) % 2 ^ 64)).finishPacket q n

/-- The packets that must complete before a handle's declaration changes (R340, R354). -/
def FQ.users (f : FQ) (h : Nat) : List Nat := (AMap.find f.writer h).toList ++ AMap.getD f.readers h []

/-- The address of a handle's entry in a queue's handle table (R344, R441). -/
def State.handleAt (s : State) (q h : Nat) : Nat := natBits (s.homeValue ((s.fq q).at_ + 0x30) 8) 56 12 * 4096 + 16 * h

/-- The entry of a handle may be written: its table's capability covers it, and its address can be stored to (R355, R387). -/
def State.feHandle (s : State) (q h : Nat) : Except (Nat × Nat) Nat × State :=
  let a := s.handleAt q h
  if !(s.fq q).coversHtab a then (.error (7, a), s) else s.feAddr (keyPasid q) a 16 .store

/-- HANDLE_DECLARATION (R354, R441): the packet is retired; once the handle's users have completed its table entry is
written. -/
def execHandleDeclaration (q : Nat) (s : State) : Host.Outcome State Fault Refusal :=
  .next <| s.atFront fun s =>
    let s1 := s.takePacket q (· == 7) fun p s =>
      let w := p.fld 8 4
      let retire := natBits w 10 10 == 1
      let base := p.fld 0x10 8
      let n := p.fld 0x18 8
      if p.size ≠ 1 ∨ 2 ^ 11 ≤ w then (.error (3, p.slot), s)
      else if !retire && decide (n = 0 ∨ 2 ^ 48 ≤ n ∨ 2 ^ 57 ≤ base ∨ 2 ^ 57 < base + n) then (.error (3, p.slot), s)
      else
        let h := w % 256
        let pending := (s.fq q).packets.filterMap fun e => match e.2.kind with
          | .handle k .. => if k = h then some e.1 else none
          | _ => none
        match s.feHandle q h with
        | (.error e, s1) => (.error e, s1)
        | (.ok _, s1) =>
          (.ok ⟨.handle h (natBits w 8 8 == 1) (natBits w 9 9 == 1) retire base n, (s1.fq q).users h ++ pending⟩, s1)
    match (s1.fq q).firstReady fun p => match p.kind with
      | .handle .. => p.started
      | _ => false with
    | some (n, ⟨.handle h ro dram retire base bytes, _, _, _⟩) =>
      let entry : List Nat := if retire then [0, 0]
        else [base, bytes + 2 ^ 48 + (if ro then 2 ^ 49 else 0) + (if dram then 2 ^ 50 else 0)]
      match s1.feStores (keyPasid q) (s1.handleAt q h) entry with
      | (some e, s2) => (s2.queueError q e.1 e.2).finishPacket q n
      | (none, s2) => s2.finishPacket q n
    | _ => s1

/-- The bytes of a packet. -/
def Pkt.bytes (p : Pkt) : List Byte := p.words.flatMap fun w => leBytes w 8

/-- The first of some ranges that the partition's capability does not cover (R387). -/
def State.outside (s : State) (pasid : BitVec 20) : List (Nat × Nat) → Option Nat × State
  | [] => (none, s)
  | (va, n) :: t =>
    match s.feAddr pasid va n .load with
    | (.error _, s1) => (some va, s1)
    | (.ok _, s1) => s1.outside pasid t

/-- FIRMWARE_DEFINED_PACKET (R350, R387): a packet is forwarded to the firmware, which parses it through the partition's
capability (log entry 21); a forwarded one completes as the firmware reports. -/
def execFirmwareDefinedPacket (q : Nat) (s : State) : Host.Outcome State Fault Refusal :=
  .next <| s.atFront fun s =>
    match (s.fq q).packets.find? fun e => e.2.kind == .firmware && e.2.started with
    | some (n, _) => s.finishPacket q n
    | none =>
      s.takePacket q (fun t => decide (0x80 ≤ t)) fun p s =>
        match s.outside (keyPasid q) (Config.firmwareRanges p.bytes) with
        | (some a, s1) => (.error (7, a), s1)
        | (none, s1) => (.ok ⟨.firmware, []⟩, s1)

end Sys2Proof.Machine
end

