-- ==== Sys2Proof/Machine/Launch.lean ====
section
/-!
DEFINITION. Launches: kernel descriptors and their checks (R351 to R353), starting under the handle rules (R340, R341,
R368), placement of cohorts (R161, R268, R269, R363), and completion (R356, R362).
-/

namespace Sys2Proof.Machine

/-! Kernel descriptors (R352). -/

/-- A kernel descriptor of eight 8-byte words. -/
def KDesc.ofWords (ws : List Nat) : KDesc :=
  { code := field ws 0 8, trapvec := BitVec.ofNat 32 (field ws 8 4), waves := field ws 0x0C 1, groups := field ws 0x0D 1,
    acc := field ws 0x0E 1, args := field ws 0x0F 1, regs := field ws 0x10 2, prio := field ws 0x12 1,
    kkind := field ws 0x13 1, local_ := field ws 0x14 4, feat := BitVec.ofNat 64 (field ws 0x18 8),
    nodes := field ws 0x20 8, nnodes := field ws 0x28 4 }

/-- The fields lie within their limits and the reserved bytes are 0 (R352, R68). -/
def kdescOk (k : KDesc) (ws : List Nat) : Bool :=
  decide (k.code % 4096 = 0 ∧ k.code < 2 ^ 57 ∧ 1 ≤ k.waves ∧ k.waves ≤ 16 ∧ 1 ≤ k.groups ∧ k.groups ≤ 12 ∧ k.acc ≤ 8 ∧
    k.args ≤ 8 ∧ 1 ≤ k.regs ∧ k.regs ≤ 64 ∧ k.kkind ≤ 2 ∧ k.local_ ≤ 24576 ∧ k.nodes % 32 = 0 ∧ k.nodes < 2 ^ 57 ∧
    k.nnodes ≤ 256) &&
  field ws 0x2C 4 == 0 && field ws 0x30 8 == 0 && field ws 0x38 8 == 0

/-- The longest run of adjacent scratch banks of a cluster. -/
def State.scratchRun (s : State) (cl : Nat) : Nat :=
  ((upTo 16).foldl (fun (r : Nat × Nat) b =>
    let n := if s.bankMode cl b = 1 then r.1 + 1 else 0
    (n, max n r.2)) (0, 0)).2

/-- Some cluster of the partition could hold a cohort's local bytes (R353). -/
def State.placeable (s : State) (pasid : BitVec 20) (k : KDesc) : Bool :=
  (s.clustersOf pasid).any fun cl => decide (256 * k.local_ ≤ s.scratchRun cl * 0x60000)

/-- Reads and checks a kernel descriptor of a kind (R353); `slot` is the address of the packet. -/
def State.vet (s : State) (pasid : BitVec 20) (slot addr kkind : Nat) : Except (Nat × Nat) KDesc × State :=
  if addr % 64 ≠ 0 ∨ 2 ^ 57 ≤ addr then (.error (3, slot), s)
  else
    match s.feWords pasid addr 8 with
    | (.error e, s1) => (.error e, s1)
    | (.ok ws, s1) =>
      let k := KDesc.ofWords ws
      if !kdescOk k ws || k.kkind != kkind then (.error (3, slot), s1)
      else if k.feat &&& ~~~s1.fabric.featacc ≠ 0 then (.error (5, slot), s1)
      else if !s1.placeable pasid k then (.error (4, slot), s1)
      else (.ok k, s1)

/-- What a cluster's cache banks hold that is not what its home holds leaves them: a load through them gives no value that
the granule held only before its launch began (R337). -/
def State.freshCaches (s : State) : State :=
  { s with clusters := s.clusters.map fun (e : Nat × ClusterSt) =>
      let old := (e.2.cache.filter fun b => s.homeByte b.1 != b.2).map fun b => b.1 / 256
      (e.1, { e.2 with cache := e.2.cache.filter fun b => !old.contains (b.1 / 256) }) }

/-- Adds a launch, which may begin at once. -/
def State.addLaunch (s : State) (x : Launch) : State :=
  let s1 := if x.started then s.freshCaches else s
  { s1 with launches := AMap.put s1.launches s1.nextId x, nextId := s1.nextId + 1 }

/-! Launch packets (R351, R353). -/

/-- The handles a launch packet names, with W. -/
def Pkt.handles (p : Pkt) : List Nat := (upTo (p.fld 0x38 4)).map fun k => p.fld (0x40 + 4 * k) 4

/-- Whether a handle is declared for the next packet: by the latest declaration still pending, else by its table entry
(R340, R353, R441). -/
def State.declared (s : State) (q h : Nat) : Except (Nat × Nat) Bool × State :=
  let pending := (s.fq q).packets.foldl (fun b e => match e.2.kind with
    | .handle k _ _ retire _ _ => if k = h then some (!retire) else b
    | _ => b) none
  match pending with
  | some b => (.ok b, s)
  | none =>
    let a := s.handleAt q h
    match if (s.fq q).coversHtab a then s.feWords (keyPasid q) (a + 8) 1 else (.error (7, a), s) with
    | (.error e, s1) => (.error e, s1)
    | (.ok ws, s1) => (.ok (natBits (ws.headD 0) 48 48 == 1), s1)

/-- The first handle that is not declared, as an error. -/
def State.checkHandles (s : State) (q slot : Nat) : List Nat → Option (Nat × Nat) × State
  | [] => (none, s)
  | h :: t =>
    match s.declared q (h % 256) with
    | (.error e, s1) => (some e, s1)
    | (.ok false, s1) => (some (8, slot), s1)
    | (.ok true, s1) => s1.checkHandles q slot t

/-- The packets that a launch comes after for the handles it names (R341), a pending declaration of one included. -/
def FQ.launchAfter (f : FQ) (hs : List (Nat × Bool)) : List Nat :=
  hs.flatMap fun h =>
    (AMap.find f.writer h.1).toList ++ (if h.2 then AMap.getD f.readers h.1 [] else []) ++
      f.packets.filterMap fun e => match e.2.kind with
        | .handle k .. => if k = h.1 then some e.1 else none
        | _ => none

/-- Records packet n as the last writer or a reader of its handles (R340). -/
def FQ.track (f : FQ) (n : Nat) (hs : List (Nat × Bool)) : FQ :=
  hs.foldl (fun f h =>
    if h.2 then { f with writer := AMap.put f.writer h.1 n, readers := AMap.put f.readers h.1 [] }
    else { f with readers := AMap.put f.readers h.1 (AMap.getD f.readers h.1 [] ++ [n]) }) f

/-- LAUNCH_PACKET (R351, R353): read, checked, retired. -/
def execLaunchPacket (q : Nat) (s : State) : Host.Outcome State Fault Refusal :=
  .next <| s.atFront fun s => s.takePacket q (· == 1) fun p s =>
    let pasid := keyPasid q
    let groups := p.fld 0x10 4
    let threads := p.fld 0x14 4
    let nh := p.fld 0x38 4
    if 2 < p.size ∨ groups = 0 ∨ 2 ^ 11 ≤ threads ∨ 16 < nh ∨ (nh ≠ 0 ∧ p.size < 2) ∨ p.fld 0x3C 4 ≠ 0 ∨
        (p.handles.any fun h => decide (512 ≤ h)) = true then (.error (3, p.slot), s)
    else
      match s.vet pasid p.slot (p.fld 8 8) 0 with
      | (.error e, s1) => (.error e, s1)
      | (.ok k, s1) =>
        if 64 * k.waves < threads then (.error (3, p.slot), s1)
        else
          match s1.checkHandles q p.slot p.handles with
          | (some e, s2) => (.error e, s2)
          | (none, s2) =>
            let f := s2.fq q
            let n := s2.nextNumber q
            let hs := p.handles.map fun h => (h % 256, h / 256 % 2 == 1)
            let l := s2.nextId
            let x : Launch := { Launch.blank with
              lref := BitVec.ofNat 64 (2 ^ 32 * p.tag + 2 ^ 20 * keyNum q + pasid.toNat), pasid := pasid,
              die := keyDie q, queue := some (q, n), root := q, kd := k, kaddr := p.fld 8 8, ngroups := groups,
              threads := if threads = 0 then 64 * k.waves else threads,
              args := (upTo 8).map fun i => BitVec.ofNat 32 (p.fld (0x18 + 4 * i) 4), handles := hs,
              gate := match f.last with
                | some (m, true) => some m
                | _ => none }
            (.ok ⟨.launch l, f.launchAfter hs⟩,
              (s2.addLaunch x).onFq q fun f => { (f.track n hs) with last := some (l, p.flags / 2 % 2 == 1) })

/-! Handles at a start and at an end (R341). -/

/-- The physical addresses of the 4 KiB pages that a range touches, each with the bytes [first, end) of the range. -/
def State.rangePages (s : State) (pasid : BitVec 20) (base n : Nat) : List (Nat × Nat × Nat) :=
  if n = 0 then []
  else
    (upTo ((base + n - 1) / 4096 + 1 - base / 4096)).filterMap fun k =>
      let page := (base / 4096 + k) * 4096
      let lo := max base page
      let hi := min (base + n) (page + 4096)
      match (s.feAddr pasid lo 1 .load).1 with
      | .ok pa => some (pa, pa, pa + (hi - lo))
      | .error _ => none

/-- An entry of the handle table: base, bytes, RO and DRAMREAD (R441). -/
def State.handleEntry (s : State) (q h : Nat) : Nat × Nat × Bool × Bool :=
  match (s.feWords (keyPasid q) (s.handleAt q h) 2).1 with
  | .ok ws =>
    (natBits (ws.getD 0 0) 56 0, natBits (ws.getD 1 0) 47 0, natBits (ws.getD 1 0) 49 49 == 1,
      natBits (ws.getD 1 0) 50 50 == 1)
  | .error _ => (0, 0, false, false)

/-- A handle's lines leave the cache banks of the partition's clusters (R341). -/
def State.dropHandle (s : State) (q h : Nat) : State :=
  let (base, n, _, _) := s.handleEntry q h
  let pages := s.rangePages (keyPasid q) base n
  (s.clustersOf (keyPasid q)).foldl (fun s cl => s.onCluster cl fun c =>
    { c with cache := c.cache.filter fun e =>
        !pages.any fun p => decide (p.2.1 / 256 ≤ e.1 / 256 ∧ e.1 / 256 ≤ (p.2.2 - 1) / 256) }) s

/-- A handle's dirty L2 bytes are written to DRAM (R341). -/
def State.cleanHandle (s : State) (q h : Nat) : State :=
  let (base, n, _, _) := s.handleEntry q h
  let pages := s.rangePages (keyPasid q) base n
  let hit (a : Nat) : Bool := pages.any fun p => decide (p.2.1 ≤ a ∧ a < p.2.2)
  { s with
    mem := s.l2.foldl (fun m e => if e.2.2 && hit e.1 then m.write e.1 e.2.1 else m) s.mem
    l2 := s.l2.map fun (e : Nat × Byte × Bool) => if e.2.2 && hit e.1 then (e.1, e.2.1, false) else e }

/-- The actions of a start on the handles that a launch names (R341): those it writes are stale in the banks until they are
invalidated for a launch that reads them as RO. -/
def State.startHandles (s : State) (q : Nat) (hs : List (Nat × Bool)) : State :=
  hs.foldl (fun s h =>
    let rest (f : FQ) : List Nat := f.stale.filter fun k => k != h.1
    if h.2 then s.onFq q fun f => { f with stale := h.1 :: rest f }
    else if (s.handleEntry q h.1).2.2.1 && (s.fq q).stale.contains h.1 then
      (s.dropHandle q h.1).onFq q fun f => { f with stale := rest f }
    else s) s

/-- LAUNCH_START (R341, R349, R422): a queued launch starts once LOCK is set, its queue is enabled (R346) and its
conditions hold; the ceiling is the queue's at this time (R346, R353). -/
def execLaunchStart (launch : Nat) (s : State) : Host.Outcome State Fault Refusal :=
  .next <| s.atFront fun s =>
    let x := s.launch launch
    match x.queue with
    | none => s
    | some (q, n) =>
      if x.started || x.kind != .grid || !s.fabric.lock || !s.queueOn q || !(s.fq q).mayStart n then s
      else
        let ceil := s.ceilOf q
        let s1 := (s.startHandles q x.handles).freshCaches
        (s1.startPacket q n).onLaunch launch fun x =>
          { x with started := true, ceil := ceil, prio := min x.kd.prio ceil }

/-! Placement of cohorts (R161, R268, R269). -/

/-- Where a group goes: core, group slot, wave slots in ascending sr.waveid. -/
structure Spot where
  core : Nat
  slot : Nat
  waves : List Nat
deriving DecidableEq, Repr

/-- Wave slots in use on a core, with the groups placed at the same moment. -/
def State.usedSlots (s : State) (core : Nat) (taken : List Spot) : List Nat :=
  (s.waves.filterMap fun e => if e.2.core = core then e.2.slot.map fun k => k.toNat else none) ++
    taken.flatMap fun t => if t.core = core then t.waves else []

def State.usedGroupSlots (s : State) (core : Nat) (taken : List Spot) : List Nat :=
  (s.groups.filterMap fun e => if e.2.core = core then e.2.slot.map fun k => k.toNat else none) ++
    taken.filterMap fun t => if t.core = core then some t.slot else none

/-- Free placement slots of a core: slot 31 is the resume slot (R160). -/
def State.freeSlots (s : State) (core : Nat) (taken : List Spot) : List Nat :=
  (upTo 31).filter fun k => !(s.usedSlots core taken).contains k

/-- The slots that n waves take: each goes to the quadrant with the most free ones, the lowest on a tie (R161). Within the
quadrant it takes the lowest free slot, and a group the lowest free group slot: the manual names none (DESIGN CHOICE, log
entry 119). -/
def slotsFor : Nat → List Nat → List Nat
  | 0, _ => []
  | n + 1, free =>
    let count (q : Nat) : Nat := (free.filter fun k => k / 8 == q).length
    let q := [1, 2, 3].foldl (fun b q => if count b < count q then q else b) 0
    match free.find? fun k => k / 8 == q with
    | some k => k :: slotsFor n (free.filter fun j => j != k)
    | none => []

/-- A core may take a group of n waves (R161). -/
def State.mayTake (s : State) (core n regs acc : Nat) (pasid : BitVec 20) (taken : List Spot) : Bool :=
  let here := taken.filter fun t => t.core == core
  let lines := s.waves.foldl (fun k e => if e.2.core = core ∧ e.2.slot.isSome then k + e.2.regsDecl else k) 0
  let accs := s.groups.foldl (fun k e => if e.2.core = core ∧ e.2.slot.isSome then k + e.2.accDecl else k) 0
  let alone := here.isEmpty && !s.groups.any fun e => e.2.core == core && e.2.slot.isSome
  let m := here.length
  decide ((s.usedGroupSlots core taken).length < 8) && decide (n ≤ (s.freeSlots core taken).length) &&
    (decide (lines + (m + 1) * n * regs ≤ 16384 ∧ accs + (m + 1) * acc ≤ 8) || alone) &&
    (AMap.find (s.core core).halting pasid.toNat).isNone

/-- The core that a group goes to: the most free placement slots, the lowest on a tie (R269). -/
def State.coreFor (s : State) (cores : List Nat) (n regs acc : Nat) (pasid : BitVec 20) (taken : List Spot) : Option Nat :=
  (cores.filter fun c => s.mayTake c n regs acc pasid taken).foldl (fun b c =>
    match b with
    | none => some c
    | some d => if (s.freeSlots d taken).length < (s.freeSlots c taken).length then some c else some d) none

/-- The spots of the groups of a cohort, none when one cannot be placed (R269). -/
def State.spots (s : State) (cores : List Nat) (n regs acc : Nat) (pasid : BitVec 20) :
    Nat → List Spot → Option (List Spot)
  | 0, taken => some taken
  | k + 1, taken =>
    match s.coreFor cores n regs acc pasid taken with
    | none => none
    | some c =>
      match (upTo 8).find? fun g => !(s.usedGroupSlots c taken).contains g with
      | none => none
      | some g => s.spots cores n regs acc pasid k (taken ++ [⟨c, g, slotsFor n (s.freeSlots c taken)⟩])

/-- The mode of a bank as the next command to its controller finds it: the one it changes to (R271). -/
def State.modeOf (s : State) (cl b : Nat) : Nat :=
  match AMap.find (s.cluster cl).changing b with
  | some (m, _, _) => m.toNat
  | none => s.bankMode cl b

/-- The mode changes of the banks that an allocation takes are done before it (R271). -/
def State.finishBanks (s : State) (cl base size : Nat) : State :=
  (upTo 16).foldl (fun s k =>
    if k * 0x60000 < base + size ∧ base < (k + 1) * 0x60000 then s.finishBank cl k else s) s

/-- The lowest base for a local allocation of a cluster, each of whose banks is in scratch mode once the mode changes before
it are done (R268, R271). -/
def State.allocBase (s : State) (cl size : Nat) : Option Nat :=
  if size = 0 then some 0
  else
    let live := s.cohorts.filter fun e => e.2.cluster == cl && !e.2.groups.isEmpty && decide (0 < e.2.size)
    let ok (b : Nat) : Bool :=
      decide (b + size ≤ 0x600000) &&
      ((upTo 16).all fun k => !decide (k * 0x60000 < b + size ∧ b < (k + 1) * 0x60000) ||
        s.modeOf cl k == 1) &&
      live.all fun e => decide (b + size ≤ e.2.base ∨ e.2.base + e.2.size ≤ b)
    (((upTo 16).map fun k => k * 0x60000) ++ live.map fun (e : Nat × Cohort) => (e.2.base + e.2.size + 255) / 256 * 256).foldl
      (fun r b => if ok b then (match r with
        | none => some b
        | some c => some (min b c)) else r) none

/-- The first number from a start, modulo a bound, that is not in use. -/
def firstFree (used : List Nat) (bound : Nat) : Nat → Nat → Nat
  | 0, i => i
  | n + 1, i => if used.contains i then firstFree used bound n ((i + 1) % bound) else i

/-- A free index below a bound: which one is not stated (log entry 28). -/
def State.freeIndex (s : State) (used : List Nat) (bound : Nat) : Nat × State :=
  let (f, s1) := s.free
  (firstFree used bound used.length (f.toNat % bound), s1)

/-- The cohorts of a launch (R351, R363). -/
def Launch.cohorts (x : Launch) : Nat :=
  match x.kind with
  | .graph => 0
  | _ => (x.ngroups + x.kd.groups - 1) / x.kd.groups

/-- Waves of each group (R10, R351). -/
def Launch.waves (x : Launch) : Nat := (x.threads + 63) / 64

/-- A wave at dispatch (R28, R31, R352, R363, R377). -/
def Launch.wave (x : Launch) (group l core slot image gidx cidx wid base : Nat) : Wave :=
  let n := 16 * gidx + wid
  let lanes : Lanes := match x.kind with
    | .pixel .. => x.cover
    | _ => maskOf fun i => decide (64 * wid + i < x.threads)
  let pc (i : Nat) : Nat × Word := (i, x.entry)
  { Wave.blank with
    group := group, launch := l, pasid := x.pasid, core := core, slot := some (BitVec.ofNat 5 slot), image := image,
    launched := lanes, pcs := ((lanesOf lanes).map pc).filter fun e => e.2 != 0,
    threads := (lanesOf lanes).map fun i => (i, ThreadState.ready),
    v := x.vregs.foldl (fun m r => SMap.set m (64 * r.1 + r.2.1) r.2.2) [],
    s := (upTo 8).foldl (fun m i => SMap.set m i (x.args.getD i 0)) [],
    seed := BitVec.ofNat 64 (n % 2 ^ 32), prio := BitVec.ofNat 32 x.prio, selPrio := BitVec.ofNat 32 x.prio, waveid := BitVec.ofNat 32 wid,
    gidx := BitVec.ofNat 32 gidx, ngroups := BitVec.ofNat 32 x.ngroups, cidx := BitVec.ofNat 32 cidx,
    rngstream := BitVec.ofNat 32 n, codebase := BitVec.ofNat 64 x.kd.code, localbase := BitVec.ofNat 32 base,
    localsize := BitVec.ofNat 32 (256 * x.kd.local_), trapVec := x.kd.trapvec, ceiling := BitVec.ofNat 8 x.ceil,
    regsDecl := 64 * x.kd.regs,
    pixel := match x.kind with
      | .pixel p _ _ => some p
      | _ => none }

/-- Puts one group of a cohort on its spot: the group and its waves, and the acquire of the start (R341, R374). -/
def State.placeGroup (s : State) (x : Launch) (l c idx gidx base : Nat) (t : Spot) : State :=
  let (gi, s0) := s.freeIndex (s.groups.filterMap fun e => if e.2.pasid = x.pasid then some e.2.image else none) 4608
  let g := s0.nextId
  let gr : Group := { Group.blank with
    core := t.core, waves := t.waves.length, pasid := x.pasid, launch := l, cohort := c, index := idx,
    slot := some (BitVec.ofNat 3 t.slot), image := gi, localbase := BitVec.ofNat 32 base,
    localsize := BitVec.ofNat 32 (256 * x.kd.local_), accDecl := x.kd.acc }
  let s1 := { s0 with groups := AMap.put s0.groups g gr, nextId := g + 1 }
  let s2 := s1.acquire t.core
  let s3 := (upTo t.waves.length).foldl (fun s i =>
    let (wi, s') := s.freeIndex (s.waves.filterMap fun e => if e.2.pasid = x.pasid then some e.2.image else none) 18432
    let w := s'.nextId
    { s' with
      waves := AMap.put s'.waves w
        (x.wave g l t.core (t.waves.getD i 0) wi gidx (gidx / x.kd.groups) i base), nextId := w + 1 }) s2
  s3.onCohort c fun h => { h with groups := h.groups ++ [g] }

/-- Places the next cohort of a launch on a cluster's cores, none when it cannot be placed at this moment (R269). -/
def State.placeCohort (s : State) (l cl : Nat) (cores : List Nat) : Option State :=
  let x := s.launch l
  let first := x.nextCohort * x.kd.groups
  let count := min x.kd.groups (x.ngroups - first)
  match s.spots cores x.waves (64 * x.kd.regs) x.kd.acc x.pasid count [], s.allocBase cl (256 * x.kd.local_) with
  | some ts, some base =>
    let (ri, s0) := s.freeIndex (s.cohorts.filterMap fun e => if e.2.pasid = x.pasid ∧ e.2.groups ≠ [] then some e.2.record else none) 4608
    let c := s0.nextId
    let h : Cohort := { Cohort.blank with
      pasid := x.pasid, launch := l, cluster := cl, cidx := x.nextCohort, count := count, base := base, size := 256 * x.kd.local_,
      record := ri, task := x.task }
    let s1 := { s0.finishBanks cl base (256 * x.kd.local_) with cohorts := AMap.put s0.cohorts c h, nextId := c + 1 }
    let s2 := (upTo count).foldl (fun s i =>
      match ts[i]? with
      | some t => s.placeGroup x l c i (first + i) base t
      | none => s) s1
    some (s2.onLaunch l fun x =>
      { x with nextCohort := x.nextCohort + 1, cores := (x.cores ++ ts.map fun t => t.core).eraseDups })
  | _, _ => none

/-- Every cohort of a launch has been placed. -/
def Launch.placed (x : Launch) : Bool := decide (x.cohorts ≤ x.nextCohort)

/-- COHORT_PLACEMENT (R269, R358): the launch's next cohort goes to a cluster of its partition that can place it, a
pixel wave's to one of its die (R377). -/
def execCohortPlacement (cohort : Nat) (cl : Nat) (s : State) : Host.Outcome State Fault Refusal :=
  .next <|
    let x := s.launch cohort
    let turn := match x.behind with
      | none => true
      | some b => match AMap.find s.launches b with
        | none => true
        | some y => y.placed
    let die := match x.kind with
      | .pixel .. => cl / 12 == x.die
      | _ => true
    if !x.started || s.ended cohort || x.placed || !turn || !die || !(s.clustersOf x.pasid).contains cl then s
    else (s.placeCohort cohort cl ((upTo 12).map fun k => 12 * cl + k)).getD s

/-! `gate` and `release` (R368). -/

/-- A launch's `gate` lets go: it was not started early, or every group of the earlier launch has released, or that
launch has completed. -/
def State.gateOpen (s : State) (l : Nat) : Bool :=
  match (s.launch l).gate with
  | none => true
  | some p => match AMap.find s.launches p with
    | none => true
    | some y => decide (y.ngroups ≤ y.releasedGroups)

/-- The resident runs that wait in `gate` go on when it opens, with an acquire at device scope. -/
def State.settleGates (s : State) : State :=
  s.waves.foldl (fun s e =>
    if e.2.slot.isSome && s.gateOpen e.2.launch then
      e.2.sleepers.foldl (fun s z => match z.wait with
        | .gate => (s.acquire e.2.core).onWave e.1 fun x => x.wake z []
        | _ => s) s
    else s) s

/-- GATE (R368). -/
def execGate (c : Ctl) (s : State) : Host.Outcome State Fault Refusal :=
  scalarWord c s fun x s =>
    let w := s.wave x.w
    if s.gateOpen w.launch then ((s.acquire w.core).noResult x c).goto x x.run (x.pc + 1)
    else (s.onWave x.w fun w => w.raiseFlag c.h.setf).sleepRun x.w x.run x.pc (x.pc + 1) .gate c.h.setf

/-- A group counts as having released, once (R368). -/
def State.countRelease (s : State) (g : Nat) : State :=
  let y := s.group g
  if y.released then s
  else
    ((s.onGroup g fun y => { y with released := true }).onLaunch y.launch fun l =>
      { l with releasedGroups := l.releasedGroups + 1 }).settleGates

/-- RELEASE (R368). -/
def execRelease (c : Ctl) (s : State) : Host.Outcome State Fault Refusal :=
  scalarWord c s fun x s =>
    let s1 := ((s.releaseAll x.w .device).noResult x c).goto x x.run (x.pc + 1)
    s1.countRelease (s1.wave x.w).group

/-! Completion (R349, R356, R362). -/

/-- The graph of a launch. -/
def State.graphOfLaunch (s : State) (l : Nat) : Option (Nat × Graph) := s.graphs.find? fun e => e.2.launch == l

/-- Records of a graph that hold it open: all that are allocated; once it has failed, those of its batch groups only
(R350, R372). -/
def State.graphOpen (s : State) (g : Nat) (y : Graph) : Bool :=
  if s.ended y.launch then y.slots.any fun e => e.2.batch.isSome
  else
    !y.slots.isEmpty || s.prims.any fun e => e.2.graph == g && e.2.blocks.any fun b => !e.2.launched.contains b

/-- Nothing of a launch is left to run: no group, no engine request of its threads (R106, R341), no child, no graph
record. -/
def State.launchDone (s : State) (l : Nat) : Bool :=
  let x := s.launch l
  (x.placed || s.ended l) && !(s.groups.any fun e => e.2.launch == l) &&
    !(s.reqs.any fun e => (s.cohort e.2.cohort).launch == l) &&
    !(s.launches.any fun e => e.2.parent == some l) &&
    !(s.windows.any fun e => e.2.children.any fun c => c.parent == l) &&
    match s.graphOfLaunch l with
    | none => true
    | some (g, y) => !s.graphOpen g y

/-- LAUNCH_COMPLETE (R341, R350, R356, R362): the cores' dirty bytes are written back, DRAMREAD handles are cleaned, the
error record is written, the queue timeline advances and a child's signal is added. -/
def execLaunchComplete (launch : Nat) (s : State) : Host.Outcome State Fault Refusal :=
  .next <| s.atFront fun s =>
    match AMap.find s.launches launch with
    | none => s
    | some x =>
      if !x.started || !s.launchDone launch then s
      else
        let s1 := x.cores.foldl (fun s c => s.release c 0xFF) s
        let s2 := match x.queue with
          | some (q, _) => x.handles.foldl (fun (s : State) (h : Nat × Bool) =>
              if h.2 && (s.handleEntry q h.1).2.2.2 then s.cleanHandle q h.1 else s) s1
          | none => s1
        let s3 := s2.reportError launch
        let s4 := match x.queue with
          | some (q, n) => s3.finishPacket q n
          | none => s3
        let s5 := match x.kind with
          | .child a =>
            if a = 0 then s4
            else
              match s4.feAddr x.pasid a 8 .store with
              | (.error e, s) => s.queueError x.root e.1 e.2
              | (.ok pa, s) => s.homeStore pa 8 ((s.homeValue pa 8 + 1) % 2 ^ 64)
          | .graph => match s4.graphOfLaunch launch with
            | some (g, _) => { s4 with graphs := AMap.del s4.graphs g, prims := s4.prims.filter fun e => e.2.graph != g }
            | none => s4
          | _ => s4
        ({ s5 with launches := AMap.del s5.launches launch }).settleGates

end Sys2Proof.Machine
end

