-- ==== Sys2Proof/Machine/Device.lean ====
section
/-!
DEFINITION. Device-side work: child launches (R361 to R363), tasks (R364 to R367), work graphs (R369 to R372), queue
claims (R373) and the raster unit (R375 to R380).
-/

namespace Sys2Proof.Machine

/-! Child launches (R361). -/

/-- A closed window starts as one grid: its children in order of acceptance (R361). -/
def State.closeWindow (s : State) (k : Nat) : State :=
  match AMap.find s.windows k with
  | none => s
  | some y =>
    let s1 := { s with windows := AMap.del s.windows k }
    (y.children.foldl (fun (r : Option Nat × State) (c : Child) =>
      let p := r.2.launch c.parent
      let ceil := r.2.ceilOf p.root
      let x : Launch := { Launch.blank with
        lref := p.lref, pasid := y.pasid, die := y.die, kind := .child c.signal, parent := some c.parent,
        root := p.root, kd := y.kd, kaddr := y.kdesc, ngroups := c.ngroups,
        threads := if c.threads = 0 then 64 * y.kd.waves else c.threads, args := c.args, ceil := ceil,
        prio := min y.kd.prio ceil, behind := r.1, started := true }
      (some r.2.nextId, r.2.addLaunch x)) (none, s1)).2

/-- The aggregator takes a child into the window of its kernel descriptor; a window of 4,096 children closes (R361). -/
def State.aggregate (s : State) (die : Nat) (pasid : BitVec 20) (kaddr : Nat) (k : KDesc) (c : Child) : State :=
  match s.windows.find? fun e => e.2.die == die && e.2.pasid == pasid && e.2.kdesc == kaddr with
  | some (i, y) =>
    let s1 := { s with windows := AMap.put s.windows i { y with children := y.children ++ [c] } }
    if 4096 ≤ y.children.length + 1 then s1.closeWindow i else s1
  | none =>
    let t := s.homeValue ((s.fq (s.launch c.parent).root).at_ + 0x48) 4
    { s with
      windows := AMap.put s.windows s.nextId
        ⟨die, pasid, kaddr, k, (s.die die).counter.toNat, if t = 0 then 2048 else t, [c]⟩,
      nextId := s.nextId + 1 }

/-- The first fields of a `launch` descriptor (R361). -/
def launchChecks (ds : List Word) : List (Nat × Bool) :=
  let w (k : Nat) : Nat := (ds.getD k 0).toNat
  [(0, w 0 % 64 == 0), (1, decide (w 1 < 2 ^ 25)), (2, w 2 != 0), (3, decide (w 3 < 2 ^ 11)), (4, w 4 % 8 == 0),
   (5, decide (w 5 < 2 ^ 25))]

/-- A 57-bit address of two descriptor words. -/
def addrOf (ds : List Word) (k : Nat) : Nat := (ds.getD k 0).toNat + 2 ^ 32 * natBits (ds.getD (k + 1) 0).toNat 24 0

/-- An operation that is accepted: it completes at any time after. -/
def State.accepted (s : State) (x : Issue) (c : Ctl) (ws : List RegWrite) : State :=
  (s.onWave x.w fun w => (w.raiseFlag c.h.setf).addFlight ⟨.result ws, c.h.setf, x.run, []⟩).goto x x.run (x.pc + 1)

/-- LAUNCH (R361): a descriptor that fails R353 ends the parent launch with cause 0x02, whose address is not stated
(log entry 3). -/
def execLaunch (c : Ctl) (a : SReg) (s : State) : Host.Outcome State Fault Refusal :=
  scalarWord c s fun x s =>
    let w := s.wave x.w
    let ds := w.block a 14
    match firstFail (launchChecks ds) with
    | some k => s.badWord x k
    | none =>
      match s.vet w.pasid 0 (addrOf ds 0) 0 with
      | (.error _, s1) =>
        let (f, s2) := s1.free
        s2.endLaunch x.w .illegalFormat x.pc (f &&& 0x01FFFFFFFFFFFFFF#64)
      | (.ok k, s1) =>
        let threads := (ds.getD 3 0).toNat
        if 64 * k.waves < threads then s1.badWord x 3
        else
          let s2 := (s1.releaseAll x.w .device).aggregate (dieOf w.core) w.pasid (addrOf ds 0) k
            ⟨w.launch, (ds.getD 2 0).toNat, threads, addrOf ds 4, (upTo 8).map fun i => ds.getD (6 + i) 0⟩
          s2.accepted x c []

/-- AGGREGATOR_WINDOW_CLOSE (R361). -/
def execAggregatorWindowClose (die : Nat) (kdesc : Nat) (s : State) : Host.Outcome State Fault Refusal :=
  .next <| s.windows.foldl (fun s e =>
    if e.2.die = die ∧ e.2.kdesc = kdesc ∧
        (4096 ≤ e.2.children.length ∨ e.2.since + e.2.timeout ≤ (s.die die).counter.toNat) then s.closeWindow e.1
    else s) s

/-! Tasks (R364 to R367). -/

/-- The fields of a task record's word 1. -/
def taskWaves (w : Word) : Nat := natBits w.toNat 20 16
def taskKind (w : Word) : Nat := w.toNat % 4

/-- The checks of record words 0 to 12, with the number of the descriptor word that holds record word 0 (R364, R365). -/
def taskChecks (first : Nat) (r : List Word) : List (Nat × Bool) :=
  let w1 := r.getD 1 0
  [(first + 1, natBits w1.toNat 31 21 == 0 && natBits w1.toNat 7 2 == 0 && decide (1 ≤ taskWaves w1 ∧ taskWaves w1 ≤ 16) &&
      decide (taskKind w1 < 2)),
   (first + 12, taskKind w1 != 1 || r.getD 12 0 != 0)]

/-- TENQ (R365). -/
def execTenq (c : Ctl) (a : SReg) (s : State) : Host.Outcome State Fault Refusal :=
  scalarWord c s fun x s =>
    let ds := (s.wave x.w).block a 17
    match firstFail ([(0, decide ((ds.getD 0 0).toNat < 256)), (14, ds.getD 14 0 == 0), (15, ds.getD 15 0 == 0),
        (16, ds.getD 16 0 == 0)] ++ taskChecks 1 (ds.drop 1)) with
    | some k => s.badWord x k
    | none =>
      match s.tryTenq x.w ds with
      | (.refused e, s1) => s1.refuse x e
      | (.full, s1) =>
        (s1.onWave x.w fun w => w.raiseFlag c.h.setf).sleepRun x.w x.run x.pc (x.pc + 1) (.tenq ds) c.h.setf
      | (.done ws, s1) => s1.accepted x c ws

/-- QCLAIM (R373). -/
def execQclaim (c : Ctl) (d a : SReg) (s : State) : Host.Outcome State Fault Refusal :=
  scalarWord c s fun x s =>
    let v := (s.wave x.w).rs a
    let n := natBits v.toNat 12 8
    if natBits v.toNat 31 13 ≠ 0 ∨ n = 0 ∨ 16 < n then s.badWord x 0
    else
      match s.tryQclaim x.w v d with
      | (.refused e, s1) => s1.refuse x e
      | (.full, s1) =>
        (s1.onWave x.w fun w => w.raiseFlag c.h.setf).sleepRun x.w x.run x.pc (x.pc + 1) (.qclaim v d) c.h.setf
      | (.done ws, s1) => s1.accepted x c ws

/-- The 32-bit words of 8-byte words. -/
def splitWords (ws : List Nat) : List Word := ws.flatMap fun w => [BitVec.ofNat 32 w, BitVec.ofNat 32 (w / 2 ^ 32)]

/-- TASK_START (R364): the next record of a task queue starts as a cohort of one group. -/
def execTaskStart (q : Nat) (s : State) : Host.Outcome State Fault Refusal :=
  .next <| s.atFront fun s =>
    match s.openQueue q with
    | (none, s1) => s1
    | (some (.error e), s1) => s1.queueError q e.1 e.2
    | (some (.ok c), s1) =>
      if !c.kind || !s1.fabric.lock then s1
      else
        let pasid := keyPasid q
        let slot := c.slot c.rdidx
        match s1.feWords pasid slot 8 with
        | (.error e, s2) => s2.queueError q e.1 e.2
        | (.ok ws, s2) =>
          let r := splitWords ws
          if (firstFail (taskChecks 0 r)).isSome || r.getD 15 0 != 0 then s2.queueError q 3 slot
          else
            match s2.vet pasid c.tkdesc c.tkdesc 0 with
            | (.error e, s3) => s3.queueError q e.1 e.2
            | (.ok k, s3) =>
              let w1 := r.getD 1 0
              let n := s3.nextNumber q
              let x : Launch := { Launch.blank with
                lref := r.getD 14 0 ++ r.getD 13 0, pasid := pasid, die := keyDie q, kind := .task, queue := some (q, n),
                root := q, kd := { k with groups := 1, waves := taskWaves w1 }, kaddr := c.tkdesc,
                threads := 64 * taskWaves w1, entry := r.getD 0 0, args := (upTo 8).map fun i => r.getD (2 + i) 0,
                ceil := c.ceil, prio := min (natBits w1.toNat 15 8) c.ceil, started := true,
                task := if taskKind w1 = 1 then some ⟨r.getD 10 0, r.getD 11 0, r.getD 12 0⟩ else none }
              let l := s3.nextId
              ((s3.addLaunch x).onFq q fun f => { f with
                tl := { f.tl with accepted := n },
                packets := AMap.put f.packets n ⟨.launch l, false, true, []⟩ }).advanceQueue q 1

/-- One chunk of a task register, and the register after (R366). -/
def TaskReg.claim (t : TaskReg) : Word × Word × TaskReg :=
  let lo := t.cur
  let hi := if t.grain.toNat < (t.hi - t.cur).toNat ∧ t.cur.toNat < t.hi.toNat then t.cur + t.grain else t.hi
  let hi := if hi.toNat ≤ lo.toNat then lo else hi
  (lo, hi, { t with cur := hi })

/-- RNEXT (R366). -/
def execRnext (c : Ctl) (d : SReg) (q : BitVec 4) (s : State) : Host.Outcome State Fault Refusal :=
  scalarWord c s fun x s =>
    let h := s.cohortOf x.w
    match (s.cohort h).task with
    | none => s.accepted x c [.s d 0, .s (d + 1) 0, .q q true]
    | some t =>
      let (lo, hi, t') := t.claim
      (s.onCohort h fun k => { k with task := some t' }).accepted x c [.s d lo, .s (d + 1) hi, .q q (lo == hi)]

/-- Remaining chunks of a task register (R367). -/
def TaskReg.chunks (t : TaskReg) : Nat :=
  if t.hi.toNat ≤ t.cur.toNat then 0 else (t.hi.toNat - t.cur.toNat + t.grain.toNat - 1) / t.grain.toNat

/-- A task waits for a core of a cluster: placed later, or unread in a resident task queue (R367). -/
def State.taskQueued (s : State) (cl : Nat) : Bool :=
  (s.launches.any fun e => e.2.kind == .task && e.2.started && !e.2.placed && !s.ended e.1 &&
    (s.clustersOf e.2.pasid).contains cl) ||
  s.queues.any fun e => match e.2.qcb with
    | some c => c.kind && c.en && !c.err && c.rdidx != c.wridx && (s.clustersOf (keyPasid e.1)).contains cl
    | none => false

/-- The running range task with the most remaining chunks, at least two, that may be split for a cluster (R367). -/
def State.splitTask (s : State) (cl : Nat) : Option (Nat × TaskReg) :=
  s.cohorts.foldl (fun b e =>
    match e.2.task with
    | none => b
    | some t =>
      let running := e.2.groups.any fun g => (s.group g).slot.isSome
      if !running || decide (t.chunks < 2) || s.ended e.2.launch || !(s.clustersOf e.2.pasid).contains cl then b
      else match b with
        | none => some (e.1, t)
        | some (_, u) => if u.chunks < t.chunks then some (e.1, t) else b) none

/-- RANGE_TASK_SPLIT (R367): the new task starts at once on the asking core. The record's task completes after the
tasks split from it (log entry 29). -/
def execRangeTaskSplit (core : Nat) (s : State) : Host.Outcome State Fault Refusal :=
  .next <|
    let cl := clusterOf core
    if s.taskQueued cl || decide (8 ≤ (s.usedGroupSlots core []).length) then s
    else
      match s.splitTask cl with
      | none => s
      | some (h, t) =>
        let m := t.cur.toNat + t.grain.toNat * ((t.chunks + 1) / 2)
        if t.hi.toNat ≤ m then s
        else
          let p := (s.cohort h).launch
          let x := s.launch p
          let l := s.nextId
          let s1 := s.addLaunch { x with
            parent := some p, queue := none, error := none, reported := false, nextCohort := 0, endedGroups := 0,
            releasedGroups := 0, cores := [], task := some ⟨BitVec.ofNat 32 m, t.hi, t.grain⟩ }
          match (s1.onCohort h fun k => { k with task := some { t with hi := BitVec.ofNat 32 m } }).placeCohort l cl [core] with
          | some s2 => s2
          | none => s

/-! Work graphs (R369 to R372). -/

/-- A node of four 8-byte words (R380), its pixel kernel still unread. -/
def GNode.ofWords (ws : List Nat) : GNode :=
  ⟨BitVec.ofNat 32 (field ws 0 4), field ws 6 1, field ws 7 1, field ws 8 4, field ws 0x0C 4, field ws 0x10 1,
    field ws 0x11 1, field ws 0x18 8, KDesc.blank⟩

/-- The fields of a node lie within their limits (R380). -/
def nodeOk (n : GNode) (ws : List Nat) : Bool :=
  decide (1 ≤ n.batch ∧ n.batch ≤ 64 ∧ n.nkind ≤ 1 ∧ 1 ≤ n.reserve ∧ n.reserve ≤ 65535 ∧ 1 ≤ n.timeout ∧ n.cls ≤ 1 ∧
    1 ≤ n.waves ∧ n.waves ≤ 16 ∧ n.pixk % 64 = 0 ∧ n.pixk < 2 ^ 57) &&
  decide (16 ≤ field ws 4 2 ∧ field ws 4 2 ≤ 256 ∧ field ws 4 2 % 16 = 0) &&
  field ws 0x12 6 == 0 && (n.nkind == 1 || (n.cls == 0 && n.pixk == 0))

/-- Reads the nodes of a graph, with the pixel kernels of a draw graph's mesh nodes (R369, R377, R380). -/
def State.readNodes (s : State) (pasid : BitVec 20) (slot : Nat) (draw : Bool) (va : Nat) : Nat →
    Except (Nat × Nat) (List GNode) × State
  | 0 => (.ok [], s)
  | n + 1 =>
    match s.feWords pasid va 4 with
    | (.error e, s1) => (.error e, s1)
    | (.ok ws, s1) =>
      let nd := GNode.ofWords ws
      if !nodeOk nd ws then (.error (3, slot), s1)
      else
        let r : Except (Nat × Nat) KDesc × State :=
          if draw && nd.nkind == 1 then s1.vet pasid slot nd.pixk 2 else (.ok KDesc.blank, s1)
        match r with
        | (.error e, s2) => (.error e, s2)
        | (.ok k, s2) =>
          if draw && nd.nkind == 1 && k.waves != 1 then (.error (3, slot), s2)
          else
            match s2.readNodes pasid slot draw (va + 32) n with
            | (.error e, s3) => (.error e, s3)
            | (.ok t, s3) => (.ok ({ nd with pix := { k with groups := 1 } } :: t), s3)

/-- The render targets of a draw state (R375), none when a field is out of its limits. -/
def targetsOf (ws : List Nat) : Option (List Target) :=
  let ts : List Target := (upTo 8).map fun k =>
    ⟨field ws (16 * k) 8, field ws (16 * k + 8) 4, field ws (16 * k + 12) 2, field ws (16 * k + 14) 2⟩
  if ts.all fun t => decide (t.base < 2 ^ 57 ∧ t.pitch % 4 = 0) then some ts else none

def sumOf (ns : List Nat) : Nat := ns.foldl (fun a b => a + b) 0

/-- Checks and retires a graph packet (R369): its launch and its graph, not started. -/
def State.graphPacket (s : State) (q : Nat) (draw : Bool) : State :=
  s.takePacket q (· == if draw then 3 else 2) fun p s =>
    let pasid := keyPasid q
    let pool := p.fld 0x10 8
    let nslot := p.fld 0x18 4
    let entry := p.fld 0x1C 2
    let ninit := p.fld 0x1E 2
    let btab := p.fld 0x20 8
    let dst := p.fld 0x28 8
    let feature := if draw then s.fabric.featacc.getLsbD 5 else s.fabric.featacc.getLsbD 4
    if p.size ≠ 1 ∨ pool % 256 ≠ 0 ∨ 2 ^ 57 ≤ pool ∨ nslot = 0 ∨ 2 ^ 24 < nslot ∨ btab % 512 ≠ 0 ∨ 2 ^ 57 ≤ btab ∨
        dst % 128 ≠ 0 ∨ 2 ^ 57 ≤ dst ∨ draw = (dst == 0) ∨ p.fld 0x30 8 ≠ 0 ∨ p.fld 0x38 8 ≠ 0 then (.error (3, p.slot), s)
    else if !feature then (.error (5, p.slot), s)
    else
      match s.vet pasid p.slot (p.fld 8 8) 1 with
      | (.error e, s1) => (.error e, s1)
      | (.ok k, s1) =>
        match s1.readNodes pasid p.slot draw k.nodes k.nnodes with
        | (.error e, s2) => (.error e, s2)
        | (.ok ns, s2) =>
          let all := sumOf (ns.map fun n => n.reserve)
          let mine := match ns[entry]? with
            | some n => n.reserve
            | none => 0
          if ns.length ≤ entry ∨ nslot < all ∨ nslot < ninit + (all - mine) then (.error (3, p.slot), s2)
          else
            let r : Except (Nat × Nat) (List Nat) × State := if draw then s2.feWords pasid dst 16 else (.ok [], s2)
            match r with
            | (.error e, s3) => (.error e, s3)
            | (.ok ws, s3) =>
              match if draw then targetsOf ws else some [] with
              | none => (.error (3, p.slot), s3)
              | some ts =>
                let n := s3.nextNumber q
                let l := s3.nextId
                let (f, s4) := s3.free
                let x : Launch := { Launch.blank with
                  lref := BitVec.ofNat 64 (2 ^ 32 * p.tag + 2 ^ 20 * keyNum q + pasid.toNat), pasid := pasid,
                  die := keyDie q, kind := .graph, queue := some (q, n), root := q, kd := { k with groups := 1 },
                  kaddr := p.fld 8 8 }
                let s5 := s4.addLaunch x
                let y : Graph := ⟨l, keyDie q, pool, nslot, btab, draw, ts, ns, (upTo ninit).map fun i =>
                  (i, ⟨entry, none, none, none⟩), f.toNat, [], [], 0⟩
                (.ok ⟨.launch l, []⟩,
                  { s5 with graphs := AMap.put s5.graphs s5.nextId y, nextId := s5.nextId + 1 })

def State.onGraph (s : State) (g : Nat) (f : Graph → Graph) : State := { s with graphs := AMap.adjust s.graphs g f }

/-- A pending batch of a node launches: its table is written and its group's launch starts (R371, R372). -/
def State.launchBatch (s : State) (g node : Nat) : State :=
  match AMap.find s.graphs g with
  | none => s
  | some y =>
    match AMap.find y.pending node, y.nodes[node]? with
    | some (ks, since), some nd =>
      if s.ended y.launch || ks.isEmpty then s
      else
        let take := ks.take nd.batch
        let rest := ks.drop nd.batch
        let commitOf (k : Nat) : Nat := match AMap.find y.slots k with
          | some r => r.commit.getD 0
          | none => 0
        let table := y.btab + 512 * take.headD 0
        let p := s.launch y.launch
        let (e, s1) := s.feStores p.pasid table (take.map fun k => y.pool + 256 * k)
        let s2 := match e with
          | some e => s1.queueError p.root e.1 e.2
          | none => s1
        let l := s2.nextId
        let ceil := s2.ceilOf p.root
        let n := commitOf (take.headD 0)
        let s3 := s2.addLaunch { p with
          kind := .batch g node (take.map fun k => (k, commitOf k)), parent := some y.launch, queue := none,
          kd := { p.kd with waves := nd.waves }, ngroups := 1, threads := 64 * nd.waves, entry := nd.entry,
          args := [BitVec.ofNat 32 table, BitVec.ofNat 32 (table / 2 ^ 32), BitVec.ofNat 32 take.length,
            BitVec.ofNat 32 node, BitVec.ofNat 32 n, BitVec.ofNat 32 (n / 2 ^ 32), 0, 0],
          ceil := ceil, prio := min p.kd.prio ceil, started := true, nextCohort := 0, endedGroups := 0,
          releasedGroups := 0, cores := [] }
        s3.onGraph g fun y => { y with
          pending := if rest.isEmpty then AMap.del y.pending node else AMap.put y.pending node (rest, since),
          slots := take.foldl (fun m k => AMap.adjust m k fun (r : RecSlot) => { r with batch := some l }) y.slots }
    | _, _ => s

/-- A record gets the graph's next commit number and joins its node's pending batch, which launches when it holds BATCH
records (R371). -/
def State.commitSlot (s : State) (g k : Nat) : State :=
  match AMap.find s.graphs g with
  | none => s
  | some y =>
    match AMap.find y.slots k with
    | none => s
    | some r =>
      let now := (s.die y.die).counter.toNat
      let (ks, since) := AMap.getD y.pending r.node ([], now)
      let s1 := s.onGraph g fun y => { y with
        slots := AMap.put y.slots k { r with commit := some y.commits }, commits := y.commits + 1,
        pending := AMap.put y.pending r.node (ks ++ [k], if ks.isEmpty then now else since) }
      let batch := match y.nodes[r.node]? with
        | some nd => nd.batch
        | none => 1
      if batch ≤ ks.length + 1 then s1.launchBatch g r.node else s1

/-- The retired graph packets that may start do so: the initial records are committed in slot order (R369). -/
def State.startGraphs (s : State) (q : Nat) : State :=
  let ready := (s.fq q).firstReady fun p => match p.kind with
    | .launch l => !p.started && (s.launch l).kind == .graph
    | _ => false
  match ready with
  | some (n, ⟨.launch l, _, _, _⟩) =>
    if !s.fabric.lock || !s.queueOn q then s
    else
      let ceil := s.ceilOf q
      let s1 := (s.freshCaches.startPacket q n).onLaunch l fun x =>
        { x with started := true, ceil := ceil, prio := min x.kd.prio ceil }
      match s1.graphOfLaunch l with
      | none => s1
      | some (g, y) => y.slots.foldl (fun s e => s.commitSlot g e.1) s1
  | _ => s

/-- GRAPH_DISPATCH (R369). -/
def execGraphDispatch (q : Nat) (s : State) : Host.Outcome State Fault Refusal :=
  .next (s.atFront fun s => (s.graphPacket q false).startGraphs q)

/-- DRAW_GRAPH (R369). -/
def execDrawGraph (q : Nat) (s : State) : Host.Outcome State Fault Refusal :=
  .next (s.atFront fun s => (s.graphPacket q true).startGraphs q)

/-- BATCH_TIMEOUT (R371). -/
def execBatchTimeout (graph : Nat) (node : Nat) (s : State) : Host.Outcome State Fault Refusal :=
  .next <| s.atFront fun s =>
    match AMap.find s.graphs graph with
    | none => s
    | some y =>
      match AMap.find y.pending node, y.nodes[node]? with
      | some (_, since), some nd =>
        if since + nd.timeout ≤ (s.die y.die).counter.toNat then s.launchBatch graph node else s
      | _, _ => s

/-- The graph that a wave works for: its batch group's, or its pixel wave's. -/
def State.graphOf (s : State) (w : Nat) : Option Nat :=
  match (s.launch (s.wave w).launch).kind with
  | .batch g _ _ => some g
  | .pixel p _ _ => (AMap.find s.prims p).map fun p => p.graph
  | _ => none

/-- Records of a node (R370). -/
def Graph.used (y : Graph) (n : Nat) : Nat := (y.slots.filter fun e => e.2.node == n).length

/-- An allocation for a node succeeds (R370). -/
def Graph.admits (y : Graph) (n : Nat) : Bool :=
  let claimed := sumOf ((upTo y.nodes.length).map fun m => max (y.used m) (match y.nodes[m]? with
    | some nd => nd.reserve
    | none => 0))
  (match y.nodes[n]? with
    | some nd => decide (y.used n < nd.reserve)
    | none => false) || decide (claimed < y.nslot)

/-- A slot is allocated for a node by a wave: which free one is not stated (R370; log entry 28). Its address. -/
def State.allocSlot (s : State) (g node w : Nat) : Nat × State :=
  match AMap.find s.graphs g with
  | none => (0, s)
  | some y =>
    let (k, s1) := s.freeIndex (y.slots.map fun e => e.1) y.nslot
    (y.pool + 256 * k, s1.onGraph g fun y =>
      { y with slots := AMap.put y.slots k ⟨node, some (s.wave w).group, none, none⟩ })

/-- Waiting allocations in order: each node's oldest that is admitted succeeds (R370). One that polls is served at its poll
(R177), and those of its node behind it wait. -/
def State.settleAllocs (s : State) (g : Nat) : State :=
  match AMap.find s.graphs g with
  | none => s
  | some y =>
    (y.waiters.foldl (fun (r : List Nat × State) (e : Nat × Nat × Nat) =>
      let s := r.2
      let now := match AMap.find s.graphs g with
        | some y => y.admits e.1
        | none => false
      match (s.wave e.2.1).sleepers.find? fun z => z.order == e.2.2 with
      | none => (r.1, s.onGraph g fun y => { y with waiters := y.waiters.filter fun u => u != e })
      | some z =>
        match z.wait with
        | .recalloc _ d =>
          if r.1.contains e.1 || !now || !z.entry then (e.1 :: r.1, s)
          else
            let (a, s1) := s.allocSlot g e.1 e.2.1
            (r.1, (s1.onGraph g fun y => { y with waiters := y.waiters.filter fun u => u != e }).onWave e.2.1 fun x =>
              x.wake z (pairWrites d (BitVec.ofNat 64 a)))
        | _ => (r.1, s)) ([], s)).2

/-- RECALLOC (R370). -/
def execRecalloc (c : Ctl) (d a : SReg) (s : State) : Host.Outcome State Fault Refusal :=
  scalarWord c s fun x s =>
    let w := s.wave x.w
    let v := w.rs a
    if 256 ≤ v.toNat then s.badWord x 0
    else
      match s.graphOf x.w with
      | none => s.refuse x 0
      | some g =>
        match AMap.find s.graphs g with
        | none => s.refuse x 0
        | some y =>
          if y.nodes.length ≤ v.toNat then s.badWord x 0
          else if y.admits v.toNat && !y.waiters.any fun e => e.1 == v.toNat then
            let (addr, s1) := s.allocSlot g v.toNat x.w
            s1.accepted x c (pairWrites d (BitVec.ofNat 64 addr))
          else
            let s1 := (s.onWave x.w fun w => w.raiseFlag c.h.setf).sleepRun x.w x.run x.pc (x.pc + 1) (.recalloc v d) c.h.setf
            s1.onGraph g fun y => { y with waiters := y.waiters ++ [(v.toNat, x.w, w.nextOrder)] }

/-- RECSEND (R371). -/
def execRecsend (c : Ctl) (a : SReg) (s : State) : Host.Outcome State Fault Refusal :=
  scalarWord c s fun x s =>
    let addr := ((s.wave x.w).rsPair a).toNat
    match s.graphOf x.w with
    | none => s.refuse x addr
    | some g =>
      match AMap.find s.graphs g with
      | none => s.refuse x addr
      | some y =>
        let k := (addr - y.pool) / 256
        let mine := match AMap.find y.slots k with
          | some r => r.commit.isNone
          | none => false
        if addr < y.pool ∨ addr % 256 ≠ 0 ∨ mine = false then s.refuse x addr
        else ((s.releaseAll x.w .device).commitSlot g k).accepted x c []

/-- The slots of a graph that a group allocated and never sent, and those of a batch, are freed (R371, R372). -/
def State.freeSlotsOf (s : State) (g grp : Nat) (batch : Option Nat) : State :=
  (s.onGraph g fun y => { y with slots := y.slots.filter fun e =>
    !((e.2.owner == some grp && e.2.commit.isNone) || (batch.isSome && e.2.batch == batch)) }).settleAllocs g

/-- A group ends: it counts as released, and leaves its cohort, whose allocation goes with its last group (R268, R368). -/
def State.endGroup (s : State) (g : Nat) : State :=
  let y := s.group g
  let s1 := s.countRelease g
  let s2 := { s1 with groups := AMap.del s1.groups g }
  let s3 := s2.onLaunch y.launch fun l => { l with endedGroups := l.endedGroups + 1 }
  let s4 := s3.onCohort y.cohort fun h => { h with groups := h.groups.filter fun k => k != g }
  if (s4.cohort y.cohort).groups.isEmpty && !s4.reqs.any fun e => e.2.cohort == y.cohort then
    { s4 with cohorts := AMap.del s4.cohorts y.cohort }
  else s4

/-- Every wave of a group has ended. -/
def Group.allEnded (g : Group) : Bool := decide (g.waves ≤ popcount 16 g.ended.toNat)

/-- BATCH_GROUP_END (R372): the group's records are freed, and waiting allocations are served. -/
def execBatchGroupEnd (g : Nat) (s : State) : Host.Outcome State Fault Refusal :=
  .next <|
    match AMap.find s.groups g with
    | none => s
    | some y =>
      match (s.launch y.launch).kind with
      | .batch k _ _ => if y.allEnded then (s.endGroup g).freeSlotsOf k g (some y.launch) else s
      | _ => s

/-! The raster unit (R375 to R379). -/

/-- The mesh node of a draw graph for which a wave works, with its graph and the records of its batch. -/
def State.meshOf (s : State) (w : Nat) : Option (Nat × Graph × Nat × List (Nat × Nat)) :=
  match (s.launch (s.wave w).launch).kind with
  | .batch g n ks =>
    match AMap.find s.graphs g with
    | some y =>
      match y.nodes[n]? with
      | some nd => if y.draw && nd.nkind == 1 then some (g, y, n, ks) else none
      | none => none
    | none => none
  | _ => none

/-- PEMIT (R375). -/
def execPemit (c : Ctl) (a : SReg) (s : State) : Host.Outcome State Fault Refusal :=
  scalarWord c s fun x s =>
    let ds := (s.wave x.w).block a 10
    let pos := (ds.getD 8 0).toNat
    let w := s.wave x.w
    match firstFail [(8, decide (pos < 64)), (9, ds.getD 9 0 == 0)] with
    | some k => s.badWord x k
    | none =>
      match s.meshOf x.w with
      | none => s.refuse x 0
      | some (g, y, n, ks) =>
        match ks[pos]? with
        | none => s.badWord x 8
        | some (_, commit) =>
          let s1 := s.releaseAll x.w .device
          let pts := ds.take 6
          let drawn := match triOf pts with
            | some t => t.area != 0
            | none => false
          let ordered := match y.nodes[n]? with
            | some nd => nd.cls == 1
            | none => false
          let s2 :=
            if drawn then
              let die := dieOf w.core
              let p : Prim := ⟨g, n, commit, y.prims, pts, [ds.getD 6 0, ds.getD 7 0], [], ordered, die,
                [0, 1, 2, 3].filter fun k => s.linkOpen die k⟩
              { s1 with prims := AMap.put s1.prims s1.nextId p, nextId := s1.nextId + 1 }
            else s1
          (s2.onGraph g fun y => { y with prims := y.prims + 1 }).accepted x c []

/-- The die that owns a raster region for a partition (R375, R406). -/
def State.regionDie (s : State) (pasid : BitVec 20) (bx by_ : Nat) : Option Nat :=
  let e := bx / 32 % 2 + 2 * (by_ / 32 % 2)
  [0, 1, 2, 3].map (fun k => (e + k) % 4) |>.find? fun d => (s.clustersOf pasid).any fun cl => cl / 12 == d

/-- Every primitive of lower key has been emitted: the batch groups of all records of lower commit number have ended
(R379). -/
def State.lowerEmitted (s : State) (p : Prim) : Bool :=
  match AMap.find s.graphs p.graph with
  | none => true
  | some y => y.slots.all fun e => match e.2.commit with
    | some c => decide (p.commit ≤ c)
    | none => true

/-- Nothing of the primitive sequence that a primitive's pixels on a die need is behind a stalled link: the primitive has
reached the die; for an ordered one, every ordered primitive up to its key has, and those that come from the die have
reached every other, since the stream stalls on both dies (R379, R396). -/
def State.streamReached (s : State) (p : Prim) (die : Nat) : Bool :=
  p.reached.contains die && (!p.ordered || s.prims.all fun e =>
    let q := e.2
    q.graph != p.graph || !q.ordered || decide (p.commit < q.commit ∨ (p.commit = q.commit ∧ p.seq < q.seq)) ||
      (q.reached.contains die && (q.die != die || [0, 1, 2, 3].all fun k => q.reached.contains k)))

/-- The primitives that waited for a link cross it once it is open (R379, R396). -/
def State.sendPrims (s : State) : State :=
  { s with prims := s.prims.map fun e => (e.1, { e.2 with
      reached := [0, 1, 2, 3].filter fun k => e.2.reached.contains k || s.linkOpen e.2.die k }) }

/-- PIXEL_WAVE_LAUNCH (R377, R379). -/
def execPixelWaveLaunch (prim : Nat) (bx by' : Nat) (s : State) : Host.Outcome State Fault Refusal :=
  .next <|
    match AMap.find s.prims prim with
    | none => s
    | some p =>
      match AMap.find s.graphs p.graph, triOf p.pts with
      | some y, some t =>
        let root := s.launch y.launch
        match s.regionDie root.pasid bx by', y.nodes[p.node]? with
        | some die, some nd =>
          let cover := t.blockCover bx by'
          if cover = 0 ∨ 8192 ≤ bx ∨ 8192 ≤ by' ∨ p.launched.contains (bx, by') = true ∨ s.ended y.launch = true ∨
              (p.ordered && !s.lowerEmitted p) = true ∨ s.streamReached p die = false then s
          else
            let ceil := s.ceilOf root.root
            let vs := (lanesOf cover).flatMap fun l =>
              let px := 8 * bx + l % 8
              let py := 8 * by' + l / 8
              [(0, l, BitVec.ofNat 32 (px + 65536 * py)), (1, l, t.weight 1 px py), (2, l, t.weight 2 px py)]
            let s1 := s.addLaunch { root with
              kind := .pixel prim bx by', parent := some y.launch, queue := none, die := die, kd := nd.pix,
              kaddr := nd.pixk, ngroups := 1, threads := 64, entry := 0, args := p.attr ++ [0, 0, 0, 0, 0, 0],
              vregs := vs, cover := cover, ceil := ceil, prio := min nd.pix.prio ceil, started := true,
              nextCohort := 0, endedGroups := 0, releasedGroups := 0, cores := [] }
            { s1 with prims := AMap.adjust s1.prims prim fun (p : Prim) => { p with launched := (bx, by') :: p.launched } }
        | _, _ => s
      | _, _ => s

/-- PXOUT (R378). -/
def execPxout (c : Ctl) (d : VReg) (tgt : BitVec 3) (s : State) : Host.Outcome State Fault Refusal :=
  scalarWord c s fun x s =>
    let w := s.wave x.w
    match (s.launch w.launch).kind, s.graphOf x.w with
    | .pixel _ bx by_, some g =>
      match (AMap.find s.graphs g).bind fun y => y.targets[tgt.toNat]? with
      | none => s.refuse x 0
      | some t =>
        if t.width = 0 then s.refuse x 0
        else
          let ls := (lanesOf x.en).filter fun l => decide (8 * bx + l % 8 < t.width ∧ 8 * by_ + l / 8 < t.height)
          let as := ls.map fun l => (l, t.base + t.pitch * (8 * by_ + l / 8) + 4 * (8 * bx + l % 8))
          let (rs, s1) := s.resolveAll x.w .global 4 .store false as
          s1.issueLanes x c.h.setf .pxout rs (fun l loc => LaneAcc.of l loc ((w.rv d l).setWidth 128) 0) [] (x.pc + 1)
    | _, _ => s.refuse x 0

end Sys2Proof.Machine
end

