-- ==== Sys2Proof/Machine/Firmware.lean ====
section
/-!
DEFINITION. Contexts and mailboxes (R382 to R384), the Turel cores (R386), the firmware's work (R388 to R390), and
display and encode (R392, R393).
-/

namespace Sys2Proof.Machine

/-- The firmware runs: the boot ROM has loaded the Turel cores (R420). -/
def State.firmwareRuns (s : State) : Bool := s.fabric.boot == .running

/-! Contexts (R382). -/

/-- CONTEXT_CREATE (R382): a descriptor is written once; one with a reserved bit of its control word set is refused (R168). -/
def execContextCreate (desc : CtxDesc) (s : State) : Host.Outcome State Fault Refusal :=
  .next <|
    if !s.firmwareRuns || (AMap.find s.contexts desc.pasid.toNat).isSome ||
        (AMap.find s.parts desc.part.toNat).isNone || natBits desc.ctlw.toNat 31 3 != 0 then s
    else
      let d : CtxDesc := { desc with
        image := bitsOf desc.image 56 12, s1root := bitsOf desc.s1root 51 12, msave := bitsOf desc.msave 56 8,
        cohrec := bitsOf desc.cohrec 56 10, mbox := bitsOf desc.mbox 56 14 }
      { s with contexts := AMap.put s.contexts desc.pasid.toNat ⟨d, [], []⟩ }

/-! Mailboxes (R384). -/

/-- The first free entry of a context's mailbox. -/
def State.mailFree (s : State) (pasid : BitVec 20) : Option Nat :=
  (upTo 256).find? fun k => (s.mailPa pasid k 1).isSome && s.mailState pasid k == 0

/-- Stores `n` bytes of a mailbox entry. -/
def State.mailWrite (s : State) (pasid : BitVec 20) (entry o n v : Nat) : State :=
  match s.mailPa pasid entry o with
  | some pa => s.homeStore pa n v
  | none => s

/-- A posted entry (R384): its fields, then STATE 1, then the interrupt on the context's hart. -/
def State.postMail (s : State) (pasid : BitVec 20) (entry : Nat) (fs : List (Nat × Nat × Nat)) : State :=
  let s1 := fs.foldl (fun s f => s.mailWrite pasid entry f.1 f.2.1 f.2.2) s
  let s2 := s1.setMailState pasid entry 1
  match AMap.find s.contexts pasid.toNat with
  | none => s2
  | some x => s2.onDie x.desc.mbdie.toNat fun d => { d with irq := d.irq ||| BitVec.ofNat 16 (2 ^ x.desc.mbhart.toNat) }

/-- KIND and CODE of a parked set. A fetch fault whose translation was invalid or not present carries the argument 1
(R384, R21). -/
def Parked.kind (p : Parked) : Nat × Nat :=
  match p.cause with
  | .upcall => (0, p.addr.toNat % 64)
  | .translation => (1, 0x21)
  | .fetchFault => (if p.args.isEmpty then 2 else 1, 0x20)
  | .dataLoss => (3, 0x24)
  | .breakpoint => (4, 0x09)
  | c => (2, c.code.toNat)

/-- The fields of an entry for a parked set of a wave (R384). -/
def Wave.mailFields (w : Wave) (p : Parked) : List (Nat × Nat × Nat) :=
  let arg (k : Nat) : Nat := if p.cause = .upcall then (p.args.getD k 0).toNat else 0
  [(0, 1, p.kind.1), (2, 1, p.kind.2), (3, 1, w.waveid.toNat), (4, 4, w.image), (8, 8, p.addr.toNat % 2 ^ 57),
   (0x10, 4, arg 0), (0x14, 4, arg 1), (0x18, 4, arg 2), (0x1C, 4, arg 3), (0x20, 4, p.pc.toNat),
   (0x24, 4, w.place.toNat), (0x28, 8, p.members.toNat)]

/-- The system-service sets of a wave that have not been posted. -/
def Wave.unposted (w : Wave) : List Parked := w.parked.filter fun p => p.system && p.posted.isNone

/-- The set of a context to post next, with its wave: the one that parked first (R384). -/
def State.toPost (s : State) (pasid : BitVec 20) : Option (Nat × Parked) :=
  s.waves.foldl (fun b e =>
    if e.2.pasid ≠ pasid then b
    else e.2.unposted.foldl (fun (b : Option (Nat × Parked)) p => match b with
      | none => some (e.1, p)
      | some (_, q) => if p.seq < q.seq then some (e.1, p) else b) b) none

/-- MAILBOX_POST (R384): the set of the wave's context that parked first, where it is the wave's, is posted; every colour is
released at device scope with STATE 1. -/
def execMailboxPost (w : Nat) (s : State) : Host.Outcome State Fault Refusal :=
  .next <|
    let x := s.wave w
    match s.toPost x.pasid, s.mailFree x.pasid with
    | some (v, p), some e =>
      if v ≠ w then s else
      let s1 := (s.release x.core 0xFF).postMail x.pasid e (x.mailFields p)
      s1.onWave w fun x => { x with parked := x.parked.map fun (q : Parked) =>
        if q.order = p.order then { q with posted := some (BitVec.ofNat 8 e) } else q }
    | _, _ => s

/-- MBDONE (R384). -/
def execMbdone (die : Nat) (value : BitVec 64) (s : State) : Host.Outcome State Fault Refusal :=
  .next (s.mbdoneWrite die value)

/-- The wave and set that a mailbox entry stands for. -/
def State.mailSet (s : State) (pasid : BitVec 20) (entry : Nat) : Option (Nat × Parked) :=
  s.waves.findSome? fun e =>
    if e.2.pasid = pasid then
      (e.2.parked.find? fun p => p.posted == some (BitVec.ofNat 8 entry)).map fun p => (e.1, p)
    else none

/-- A wave whose page lies in its image is read from there, changed, and written back (R196, R384). -/
def State.onSaved (s : State) (w : Nat) (f : Wave → Wave) : State :=
  if s.pageInImage w then
    let x := s.wave w
    let rd (o n : Nat) : Nat := s.imageRead x.pasid (waveImageOff x.image + controlOff + o) n
    ((if pageOk rd then s.onWave w fun x => x.ofPage rd else s).onWave w f).savePage w
  else s.onWave w f

/-- ACTION 00 for a set (R384): an acquire by the wave's core (R332), the reply of an upcall, the failure record of a timeline
cleared, the set released. -/
def State.serveSet (s0 : State) (w : Nat) (p : Parked) (pasid : BitVec 20) (entry : Nat) : State :=
  let s := if (s0.wave w).slot.isSome then s0.acquire (s0.wave w).core else s0
  let reply (k : Nat) : Word :=
    match s.mailPa pasid entry (0x30 + 4 * k) with
    | some pa => BitVec.ofNat 32 (s.homeValue pa 4)
    | none => 0
  let s1 := match p.onTl with
    | some sel => (s.onCohort (s.cohortOf w) fun h => h.putTl sel { h.tl sel with fail := none }).mirrorCohort (s.cohortOf w)
    | none => s
  s1.onSaved w fun x =>
    let y := if p.cause = .upcall then
        (x.landAll (scalarWrites p.replyTo [reply 0, reply 1, reply 2, reply 3])).lowerFlag p.flag
      else x
    y.release p.order

/-- MAILBOX_ACTION_APPLY (R384). A run parked in `upcall` without a wait-table entry sees its reply at its next poll
(R177). -/
def execMailboxActionApply (pasid : BitVec 20) (entry : BitVec 8) (s : State) : Host.Outcome State Fault Refusal :=
  .next <|
    match AMap.find s.contexts pasid.toNat with
    | none => s
    | some x =>
      match x.actions.find? fun a => a.1 == entry.toNat with
      | none => s
      | some (e, act) =>
        let done (s : State) : State :=
          let s1 := { s with contexts := AMap.adjust s.contexts pasid.toNat fun (y : Ctx) =>
            { y with actions := y.actions.erase (e, act) } }
          s1.setMailState pasid e 0
        match s.mailSet pasid e with
        | some (w, p) =>
          let due := match p.polling with
            | some t => decide (t ≤ s.coreCycle (s.wave w)) || (s.wave w).slot.isNone
            | none => true
          if !due then s
          else if act then
            let y := s.wave w
            let s1 := s.endWith y.launch
              ⟨BitVec.ofNat 8 (if p.cause = .upcall then 0x23 else p.kind.2), p.pc, p.addr,
                (s.launch y.launch).lref, y.place, y.gidx, y.cidx⟩
            done (s1.reportError (s1.errLaunch y.launch))
          else done (s.serveSet w p pasid e)
        | none =>
          match s.waves.find? fun k => k.2.pasid == pasid && k.2.corrupt == some e with
          | some (w, y) =>
            let s1 := s.onWave w fun y => { y with corrupt := none }
            if act then
              let posted (o n : Nat) : Nat := match s1.mailPa pasid e o with
                | some pa => s1.homeValue pa n
                | none => 0
              let s2 := s1.endWith y.launch
                ⟨BitVec.ofNat 8 (posted 2 1), BitVec.ofNat 32 (posted 0x20 4), BitVec.ofNat 64 (posted 8 8),
                  (s.launch y.launch).lref, y.place, y.gidx, y.cidx⟩
              done (s2.reportError (s2.errLaunch y.launch))
            else done s1
          | none => done s

/-! The Turel cores (R386). -/

def State.turel (s : State) (t : Nat) : Turel := AMap.getD s.turels t Turel.reset
def State.onTurel (s : State) (t : Nat) (f : Turel → Turel) : State := { s with turels := AMap.put s.turels t (f (s.turel t)) }

/-- Fields of a capability (R386). -/
def capWin (c : BitVec 128) : Nat := natBits c.toNat 105 96
def capGen (c : BitVec 128) : Word := c.extractLsb' 64 32
def capOff (c : BitVec 128) : Nat := natBits c.toNat 56 0

/-- The window of a capability, when the reference is good: reserved bits 0, entry valid, generation current. -/
def Turel.window (t : Turel) (c : BitVec 128) : Option TWin :=
  if natBits c.toNat 127 106 ≠ 0 ∨ natBits c.toNat 63 57 ≠ 0 then none
  else match AMap.find t.wins (capWin c) with
    | some w => if w.valid && w.gen == capGen c then some w else none
    | none => none

/-- An index can take a new window: it is not the root, not valid, and not retired. -/
def Turel.free (t : Turel) (i : Nat) : Bool :=
  i != 0 && match AMap.find t.wins i with
    | some w => !w.valid && w.gen != 0xFFFFFFFF#32
    | none => true

/-- WINDOW_DERIVE (R386). -/
def execWindowDerive (turel : Nat) (parent : BitVec 128) (win : BitVec 10) (base len : Nat) (perm : BitVec 4) (s : State) :
    Host.Outcome State Fault Refusal :=
  .next <|
    let t := s.turel turel
    match t.window parent with
    | none => s
    | some p =>
      if !p.perm.getLsbD 3 || !t.free win.toNat || perm &&& ~~~p.perm != 0 ||
          !decide (1 ≤ len ∧ p.base ≤ base ∧ base + len ≤ p.base + p.len) then s
      else
        let gen := match AMap.find t.wins win.toNat with
          | some w => w.gen
          | none => 0
        s.onTurel turel fun t => { t with
          wins := AMap.put t.wins win.toNat ⟨base, len, gen, perm, BitVec.ofNat 10 (capWin parent), true⟩,
          value := BitVec.ofNat 128 (2 ^ 96 * win.toNat + 2 ^ 64 * gen.toNat) }

/-- A window descends from another: a chain of parents of at most 1,024 steps. -/
def Turel.descends (t : Turel) (from_ : Nat) : Nat → Nat → Bool
  | 0, _ => false
  | n + 1, i =>
    if i = from_ then true
    else match AMap.find t.wins i with
      | some w => if w.parent.toNat = i then false else t.descends from_ n w.parent.toNat
      | none => false

/-- WINDOW_INVALIDATE (R386). -/
def execWindowInvalidate (turel : Nat) (win : BitVec 10) (s : State) : Host.Outcome State Fault Refusal :=
  .next <|
    let t := s.turel turel
    match AMap.find t.wins win.toNat with
    | none => s
    | some w =>
      if win = 0 ∨ w.valid = false then s
      else s.onTurel turel fun t => { t with
        wins := t.wins.map fun (e : Nat × TWin) =>
          if e.2.valid && t.descends win.toNat 1024 e.1 then (e.1, { e.2 with valid := false, gen := e.2.gen + 1 }) else e }

/-- The bytes behind a capability are backed, and none that is read is lost (R397, R407). -/
def State.servable (s : State) (pa n : Nat) (acc : Access) : Bool :=
  (upTo n).all fun k => (s.backed (pa + k)).isNone && (acc == .store || !s.sectorLost (pa + k))

/-- CAPABILITY_ACCESS (R386). An access that the capability permits and memory cannot serve ends in the core's fault as well
(log entry 31). -/
def execCapabilityAccess (turel : Nat) (cap : BitVec 128) (size : Nat) (acc : Access) (value : BitVec 64) (s : State) :
    Host.Outcome State Fault Refusal :=
  .next <|
    let t := s.turel turel
    let ok := match t.window cap with
      | none => none
      | some w =>
        let p := match acc with
          | .load => w.perm.getLsbD 0
          | .store => w.perm.getLsbD 1
          | .fetch => w.perm.getLsbD 2
        let pa := w.base + capOff cap
        if p && decide (capOff cap + size ≤ w.len) && s.servable pa size acc then some pa else none
    match ok with
    | none => s.onTurel turel fun t => { t with fault := true }
    | some pa =>
      match acc with
      | .store => (s.homeStore pa size value.toNat).onTurel turel fun t => { t with fault := false }
      | _ => s.onTurel turel fun t => { t with value := BitVec.ofNat 128 (s.homeValue pa size), fault := false }

/-! Residency and notices (R388). -/

/-- A resident queue of a die that may lose its watch: nothing unread by its QCB in memory, its tail written least recently.
A queue whose QCB has not been found has no packet. -/
def State.leastWritten (s : State) (die : Nat) : Option Nat :=
  (s.queues.foldl (fun (b : Option (Nat × Nat)) e =>
    let c := s.readQcb e.2.at_
    let idle := (e.2.qcb.isNone && e.2.caps.isNone) || c.rdidx == c.wridx
    if keyDie e.1 == die && e.2.resident && idle then
      match b with
      | none => some (e.1, e.2.written)
      | some (q, t) => if e.2.written < t then some (e.1, e.2.written) else some (q, t)
    else b) none).map fun b => b.1

/-- Makes a queue resident: a watch, then its QCB is read (R388). -/
def State.makeResident (s : State) (q : Nat) : State :=
  let die := keyDie q
  let n := (s.queues.filter fun e => e.2.resident && keyDie e.1 == die).length
  let room (s : State) : State :=
    (s.onFq q fun f => { f with resident := true, qcb := none, caps := none, written := (s.die die).counter.toNat }).loadQcb q
  if n < 1024 then room s
  else
    match s.leastWritten die with
    | none => s
    | some k => room (s.onFq k fun f => { f with resident := false, qcb := none })

/-- DOORBELL_WRITE (R388). -/
def execDoorbellWrite (q : Nat) (s : State) : Host.Outcome State Fault Refusal :=
  .next (if !s.firmwareRuns || (s.fq q).resident then s else s.makeResident q)

/-- The first entry of a walk that is valid and not present. -/
def State.absentEntry (s : State) (q : Nat) : Option Nat :=
  let p := (keyPasid q).toNat
  let d := natBits (s.die (keyDie q)).qroot.toNat 56 15 * 2 ^ 15 + 8 * (p / 1024)
  match (s.tableStep d).1 with
  | .notPresent => some d
  | .qcb t => match (s.tableStep (t + 8 * (p % 1024))).1 with
    | .notPresent => some (t + 8 * (p % 1024))
    | _ => none
  | .noQueue => none

/-- QUEUE_TABLE_FAULT (R343, R388): the firmware makes the table present, or reports the queue as non-existent, and the
tail write is ignored. -/
def execQueueTableFault (q : Nat) (s : State) : Host.Outcome State Fault Refusal :=
  .next <|
    if !s.firmwareRuns then s
    else if s.notices.contains (.notPresent q) then
      let s1 := { s with notices := s.notices.erase (.notPresent q) }
      match s1.absentEntry q with
      | some pa => ((s1.homeWrite pa (s1.homeByte pa ||| 2)).loadQcb q).settleClaims q
      | none => (s1.loadQcb q).settleClaims q
    else if s.notices.contains (.noQueue q) then
      { s with notices := s.notices.erase (.noQueue q) }.onFq q fun f => { f with resident := false }
    else s

/-- QUEUE_ERROR_NOTICE (R388): an entry of KIND 2 with CODE 0x22; its other fields are not stated (log entry 3). -/
def execQueueErrorNotice (q : Nat) (s : State) : Host.Outcome State Fault Refusal :=
  .next <|
    let pasid := keyPasid q
    match s.mailFree pasid with
    | none => s
    | some e =>
      if !s.firmwareRuns || !s.notices.contains (.queueError q) then s
      else
        let (a, s1) := { s with notices := s.notices.erase (.queueError q) }.free
        let (b, s2) := s1.free
        let (m, s3) := s2.free
        s3.postMail pasid e
          [(0, 1, 2), (2, 1, 0x22), (3, 1, b.toNat % 16), (4, 4, natBits b.toNat 63 32), (8, 8, a.toNat % 2 ^ 57),
           (0x10, 8, 0), (0x18, 8, 0), (0x20, 4, natBits b.toNat 31 0), (0x24, 4, natBits m.toNat 63 32), (0x28, 8, m.toNat)]

/-! Partitions (R389, R390). -/

/-- The bank-mode word of a partition (R389). -/
def bankWordOf (p : PartSpec) : BitVec 32 := p.bankWord.getD 0x00555555

/-- A cluster takes the bank modes of its partition (R267, R389). -/
def State.applyBanks (s : State) (word : BitVec 32) (cl : Nat) : State :=
  s.onCluster cl fun c => { c with
    scratch := [], queues := [], cache := [], changing := [],
    modes := (upTo 16).foldl (fun m b =>
      let x : BitVec 2 := word.extractLsb' (2 * b) 2
      SMap.set m b (if x = 3 then SMap.get m b else x)) c.modes }

/-- The dies of some clusters. -/
def diesOf (cls : List Nat) : List Nat := [0, 1, 2, 3].filter fun d => cls.any fun c => c / 12 == d

/-- Assigns a shard context on a die, cleared; which one is not stated (R416; log entry 28). -/
def State.assignShard (s : State) (part : BitVec 8) (die : Nat) : State :=
  let used := s.parts.flatMap fun p => (p.2.shards.filter fun k => k.1 == die).map fun k => k.2
  let (c, s1) := s.freeIndex used 64
  { (s1.onDie die fun d => { d with shards := AMap.put d.shards c Shard.reset }) with
    parts := AMap.adjust s1.parts part.toNat fun (p : Part) => { p with shards := p.shards ++ [(die, c)] } }

/-- A cluster belongs to a partition, or has not yet been released by one that it leaves (R389, R390). -/
def State.clusterTaken (s : State) (c : Nat) : Bool :=
  s.parts.any fun p => p.2.spec.clusters.contains c || p.2.leaving.contains c

/-- PARTITION_CREATE (R389): every cluster takes the bank-mode word; the state-table sets are loaded (R381). -/
def execPartitionCreate (part : BitVec 8) (spec : PartSpec) (s : State) : Host.Outcome State Fault Refusal :=
  .next <|
    let taken := spec.clusters.any fun c => s.clusterTaken c
    if !s.firmwareRuns || (AMap.find s.parts part.toNat).isSome || taken || !spec.clusters.all fun c => decide (c < 48) then s
    else
      let s1 := { s with parts := AMap.put s.parts part.toNat ⟨spec, [], none, [], []⟩ }
      let s2 := spec.clusters.foldl (fun s c => s.applyBanks (bankWordOf spec) c) s1
      (diesOf spec.clusters).foldl (fun s d =>
        (s.onDie d fun x => { x with seqset := 0xFFFF }).assignShard part d) s2

/-- A request writes or names local bytes of a departing cluster (R390). -/
def Req.departs (q : Req) (gone : List Nat) : Bool :=
  match q.kind with
  | .copy => cpDsp q.desc && gone.contains q.cluster
  | .follow => gone.contains q.cluster
  | .multi m => (maskClusters m).any fun c => gone.contains c
  | _ => false

/-- Moves a halted cohort's local bytes into an allocation of another cluster (R390). -/
def State.moveCohort (s : State) (h cl base : Nat) : State :=
  let c := s.cohort h
  let old := (s.cluster c.cluster).scratch
  let s1 := (s.finishBanks cl base c.size).onCluster cl fun k => { k with
    scratch := (upTo c.size).foldl (fun m i => SMap.set m (base + i) (SMap.get old (c.base + i))) k.scratch }
  let s2 := s1.onCohort h fun k =>
    { k with cluster := cl, base := base, classes := k.classes.filter fun e => e.1 / 8 != cl }
  let s3 := { s2 with
    groups := s2.groups.map fun (e : Nat × Group) =>
      if e.2.cohort = h then (e.1, { e.2 with localbase := BitVec.ofNat 32 base }) else e
    reqs := s2.reqs.map fun (e : Nat × Req) =>
      let moves := match e.2.kind with
        | .copy => true
        | .multi _ => true
        | .nmv => true
        | _ => false
      if e.2.cohort = h ∧ moves = true then (e.1, { e.2 with cluster := cl }) else e }
  let s4 := s3.waves.foldl (fun s e =>
    if s.cohortOf e.1 = h then
      (s.onWave e.1 fun x => { x with localbase := BitVec.ofNat 32 base }).mirror e.1 [(0x1C0, 4, base)]
    else s) s3
  s4.writeCohort h [(0x390, 4, base), (0x398, 4, cl / 12 + 16 * (cl % 12))]

/-- Each cohort of the departing clusters gets a cluster and an allocation, which one not being stated; none when one
finds no room (R390; log entry 28). -/
def State.moveAll (s : State) (dests : List Nat) : List Nat → Option State
  | [] => some s
  | h :: t =>
    let (f, s1) := s.free
    let n := f.toNat % max dests.length 1
    let size := (s1.cohort h).size
    match (dests.drop n ++ dests.take n).findSome? fun cl => (s1.allocBase cl size).map fun b => (cl, b) with
    | some (cl, b) => (s1.moveCohort h cl b).moveAll dests t
    | none => none

/-- The contexts with resident waves on some clusters stop being selected there (R194, R390). -/
def State.haltClusters (s : State) (gone : List Nat) : State :=
  s.waves.foldl (fun s e =>
    if e.2.slot.isSome && gone.contains (clusterOf e.2.core) && !s.halting e.2.core e.2.pasid then
      s.onCore e.2.core fun c => { c with halting := AMap.put c.halting e.2.pasid.toNat false }
    else s) s

/-- PARTITION_RESIZE (R390). One that a destination cannot hold is refused and changes nothing. While cohorts of the
departing clusters run or copies to them are outstanding, they are being halted; once none is, the cohorts move, and the
clusters leave the partition when the cohorts have been restored. -/
def execPartitionResize (part : BitVec 8) (add remove : List Nat) (s : State) : Host.Outcome State Fault Refusal :=
  .next <|
    match AMap.find s.parts part.toNat with
    | none => s
    | some p =>
      let (add, remove) := p.resizing.getD (add, remove)
      let gone := remove.filter fun c => p.spec.clusters.contains c
      let new := add.filter fun c => decide (c < 48) && !s.clusterTaken c
      let stay := (p.spec.clusters.filter fun c => !gone.contains c) ++ new
      let moved := (s.cohorts.filter fun e => gone.contains e.2.cluster && !e.2.groups.isEmpty).map fun e => e.1
      let halted := moved.all fun h => (s.cohort h).groups.all fun g => (s.group g).slot.isNone
      if !s.firmwareRuns || !p.leaving.isEmpty then s
      else
        let s1 := new.foldl (fun s c => s.applyBanks (bankWordOf p.spec) c) s
        match s1.moveAll stay moved with
        | none => s
        | some s2 =>
          if !halted || (s.reqs.any fun e => e.2.departs gone) then
            { s.haltClusters gone with parts := AMap.put s.parts part.toNat { p with resizing := some (add, remove) } }
          else
            let fresh := (diesOf new).filter fun d => !p.shards.any fun k => k.1 == d
            let s3 := { s2 with parts := AMap.adjust s2.parts part.toNat fun (p : Part) =>
              { p with
                spec := { p.spec with clusters := stay }, resizing := none, moving := moved,
                leaving := if moved.isEmpty then [] else gone } }
            fresh.foldl (fun s d => (s.onDie d fun x => { x with seqset := 0xFFFF }).assignShard part d) s3

/-- The clusters that leave a partition are released once the cohorts that moved are resident again, or gone (R390). -/
def State.releaseClusters (s : State) (part : BitVec 8) : State :=
  match AMap.find s.parts part.toNat with
  | none => s
  | some p =>
    if p.moving.all fun h => (s.cohort h).groups.all fun g => (s.group g).slot.isSome then
      { s with parts := AMap.put s.parts part.toNat { p with leaving := [], moving := [] } }
    else s

/-! Display and encode (R392, R393). -/

/-- SURF_WRITE (R393). -/
def execSurfWrite (die : Nat) (head : BitVec 3) (value : BitVec 64) (s : State) : Host.Outcome State Fault Refusal :=
  .next (s.headWrite die head.toNat 0 value)

/-- VERTICAL_BLANK (R393): the head takes the surface last written, and a frame begins. -/
def execVerticalBlank (die : Nat) (head : BitVec 3) (s : State) : Host.Outcome State Fault Refusal :=
  .next <|
    let h := s.head die head.toNat
    if decide (die < 4) && h.ctlt.getLsbD 0 then
      s.onDie die fun d => { d with
        heads := AMap.put d.heads head.toNat { h with active := h.surf, slice := 0, row := 0, lines := [] } }
    else s

/-- Rows of a slice (R392, R393). -/
def Head.sliceRows (h : Head) : Nat := if h.ctlt.getLsbD 2 then 128 else 64

/-- Rows and columns of a head's surface (R393). -/
def Head.height (h : Head) : Nat := natBits h.geom.toNat 63 48
def Head.width (h : Head) : Nat := natBits h.geom.toNat 47 32

/-- Slices of a frame (R392, R393). -/
def Head.slices (h : Head) : Nat := (h.height + h.sliceRows - 1) / h.sliceRows

/-- The rows of a frame that belong to the slices up to the one being encoded. -/
def Head.sliceEnd (h : Head) : Nat := min h.height ((h.slice + 1) * h.sliceRows)

/-- The physical address of a byte of a head's surfaces and rings, partition-physical addresses of the partition that
has the head (log entry 30), where it is backed (R397). -/
def State.headPa (s : State) (die head a : Nat) (acc : Access) : Option Nat :=
  match s.parts.find? fun p => p.2.spec.heads.contains (8 * die + head) with
  | none => none
  | some (_, p) =>
    match s.stage2 (.hyper p.spec.s2root.toNat) a acc with
    | .ok l => if (s.backed (l.out a)).isNone then some (l.out a) else none
    | .error _ => none

/-- The pixels of a row of the surface in use, as the home slices give them now; one that cannot be read is a free value
(R392, R393; log entry 18). -/
def State.readRow (s : State) (die head at_ : Nat) : Nat → List Word × State
  | 0 => ([], s)
  | n + 1 =>
    let (v, s1) := match s.headPa die head at_ .load with
      | some pa => if s.sectorLost pa then s.free else (BitVec.ofNat 64 (s.homeValue pa 4), s)
      | none => s.free
    let (vs, s2) := s1.readRow die head (at_ + 4) n
    (v.setWidth 32 :: vs, s2)

/-- The scan of a head reaches the next row of its frame (R393). -/
def State.scanRow (s : State) (die : Nat) (head : BitVec 3) : State :=
  let h := s.head die head.toNat
  if !h.ctlt.getLsbD 0 || decide (4 ≤ die) || decide (h.height ≤ h.row) then s
  else
    let (px, s1) := s.readRow die head.toNat (h.active.toNat + natBits h.geom.toNat 31 0 * h.row) h.width
    s1.onDie die fun d => { d with
      heads := AMap.put d.heads head.toNat { h with
        row := h.row + 1, lines := if h.ctlt.getLsbD 1 then h.lines ++ [px] else [] } }

/-! BT.709, limited range, 10 bits (R392): exact values as fractions; how a sample is rounded is not stated (log entry 18). -/

/-- R, G and B of a pixel. -/
def pixelRgb (p : Word) : Nat × Nat × Nat := (natBits p.toNat 9 0, natBits p.toNat 19 10, natBits p.toNat 29 20)

/-- 10,000 times the luma of a pixel before scaling. -/
def luma (p : Word) : Nat :=
  let (r, g, b) := pixelRgb p
  2126 * r + 7152 * g + 722 * b

/-- The luma sample of a pixel: 64 at black, 940 at white. -/
def lumaSample (p : Word) : Int × Nat := (64 * 10230000 + 876 * luma p, 10230000)

/-- The chroma samples of some pixels, of their averages: 512 ± 448. -/
def chromaSamples (ps : List Word) : (Int × Nat) × (Int × Nat) :=
  let sum (f : Word → Nat) : Int := ((ps.map f).foldl (fun a b => a + b) 0 : Nat)
  let y := sum luma
  let n := 1023 * ps.length
  let one (c : Int) (k : Nat) : Int × Nat := (512 * (k * n) + 896 * (10000 * c - y), k * n)
  (one (sum fun p => (pixelRgb p).2.2) 18556, one (sum fun p => (pixelRgb p).1) 15748)

/-- Two rows cut into columns of two: the 2 × 2 blocks, smaller at an edge. -/
def blocksOf : Nat → List Word → List Word → List (List Word)
  | 0, _, _ => []
  | n + 1, a, b => if a.isEmpty && b.isEmpty then [] else (a.take 2 ++ b.take 2) :: blocksOf n (a.drop 2) (b.drop 2)

/-- The chroma samples of some rows. -/
def chromaRows : List (List Word) → List (List ((Int × Nat) × (Int × Nat)))
  | a :: b :: t => ((blocksOf (max a.length b.length) a b).map chromaSamples) :: chromaRows t
  | [a] => [(blocksOf a.length a []).map chromaSamples]
  | [] => []

/-- Writes bytes to a head's output ring from a position. -/
def State.ringWrite (s : State) (die head base size : Nat) : Nat → List Byte → State
  | _, [] => s
  | pos, b :: t =>
    (match s.headPa die head (base + pos % size) .store with
      | some pa => s.homeWrite pa b
      | none => s).ringWrite die head base size (pos + 1) t

/-- SLICE_ENCODE_COMPLETE (R392, R393; log entry 18): the OBUs of the next slice, once the scan has reached its rows, at most
BMAX bytes, then the index entry. -/
def execSliceEncodeComplete (die : Nat) (head : BitVec 3) (s : State) : Host.Outcome State Fault Refusal :=
  .next <|
    let k := head.toNat
    let h := s.head die k
    if decide (4 ≤ die) || !h.ctlt.getLsbD 0 || !h.ctlt.getLsbD 1 || decide (h.slices ≤ h.slice) ||
        decide (h.row < h.sliceEnd) then s
    else
      let n := h.sliceEnd - h.slice * h.sliceRows
      let rows := h.lines.take n
      let chroma := chromaRows rows
      let bs := (Config.slicePayload die k (rows.map fun r => r.map lumaSample)
        (chroma.map fun r => r.map fun c => c.1) (chroma.map fun r => r.map fun c => c.2) s.freeCtr).take
          (natBits h.obcfg.toNat 63 32)
      let size := 2 ^ natBits h.obcfg.toNat 4 0
      let s1 := { s with freeCtr := s.freeCtr + 1 }
      let s2 := s1.ringWrite die k h.obuf.toNat size h.outPos (bs ++ leBytes bs.length 8)
      let h1 := { h with slice := h.slice + 1, outPos := (h.outPos + bs.length + 8) % size, lines := h.lines.drop n }
      s2.onDie die fun d => { d with heads := AMap.put d.heads k h1 }

end Sys2Proof.Machine
end

