-- ==== Sys2Proof/Machine/Package.lean ====
section
/-!
DEFINITION. The package: die links (R395, R396), the stacks' error counts and the patrol (R399, R407, R408), and the
governor (R409).
-/

namespace Sys2Proof.Machine

/-! Die links (R395, R396). -/

/-- Changes a link at both of its ends. -/
def State.onLink (s : State) (die j : Nat) (f : Link → Link) : State :=
  let e := (die + j + 1) % 4
  let set (s : State) (d k : Nat) (l : Link) : State := s.onDie d fun x => { x with links := AMap.put x.links k l }
  let l := f (s.link die j)
  set (set s die j l) e (linkTo e die) l

/-- A die and a link that exist. -/
def isLink (die j : Nat) : Bool := decide (die < 4 ∧ j < 3)

/-- FLIT_CRC_RETRY (R395): the flit is sent again, and nothing is reordered. -/
def execFlitCrcRetry (die : Nat) (link : BitVec 2) (s : State) : Host.Outcome State Fault Refusal :=
  .next <|
    if isLink die link.toNat && (s.link die link.toNat).mode == .up then
      s.onLink die link.toNat fun l => { l with retries := l.retries + 1 }
    else s

/-- LINK_RETRAIN (R396): a link that has seen repeated CRC failures retrains. -/
def execLinkRetrain (die : Nat) (link : BitVec 2) (s : State) : Host.Outcome State Fault Refusal :=
  .next <|
    let l := s.link die link.toNat
    if isLink die link.toNat && l.mode == .up && decide (2 ≤ l.retries) then
      s.onLink die link.toNat fun _ => ⟨.retraining, 0, (s.die die).counter.toNat⟩
    else s

/-- LINK_RECOVER (R396). -/
def execLinkRecover (die : Nat) (link : BitVec 2) (s : State) : Host.Outcome State Fault Refusal :=
  .next <|
    if isLink die link.toNat && (s.link die link.toNat).mode == .retraining then
      (s.onLink die link.toNat fun _ => Link.reset).sendPrims
    else s

/-- LINK_DOWN (R396): a link that has retrained for 1 ms, 10^6 die cycles (R5), is declared down, and the firmware is
told. -/
def execLinkDown (die : Nat) (link : BitVec 2) (s : State) : Host.Outcome State Fault Refusal :=
  .next <|
    let l := s.link die link.toNat
    if isLink die link.toNat && l.mode == .retraining && decide (l.since + 1000000 ≤ (s.die die).counter.toNat) then
      let s1 := (s.onLink die link.toNat fun l => { l with mode := .down }).sendPrims
      { s1 with notices := s1.notices ++ [.linkDown die link] }
    else s

/-! Memory errors (R399, R407, R408). -/

/-- CECNT_CLEAR (R399). -/
def execCecntClear (die : Nat) (k : BitVec 3) (value : BitVec 64) (s : State) : Host.Outcome State Fault Refusal :=
  .next (if die < 4 ∧ k.toNat < 6 then s.cecntWrite die k.toNat value else s)

/-- DRAM_PATROL (R407): the sector is read, and what it holds stays as it is. -/
def execDramPatrol (_pa : Nat) (s : State) : Host.Outcome State Fault Refusal := .next s

/-- An error of a DRAM sector is corrected and counted; the count saturates (R399, R407). -/
def State.dramCorrected (s : State) (pa : Nat) : State :=
  if dramEnd ≤ pa then s
  else
    let k := s.stackOf pa
    s.onDie (homeDie pa) fun d => { d with cecnt := SMap.set d.cecnt k (satAdd (SMap.get d.cecnt k) 1) }

/-- A DRAM sector has an uncorrectable error: it is retired to one of the 4,096 spares of its stack, or stays in place
when there is none, and the firmware is told (R408). -/
def State.dramError (s : State) (pa : Nat) : State :=
  if dramEnd ≤ pa then s
  else
    let k := s.stackOf pa
    let d := homeDie pa
    let n := SMap.get (s.die d).retcnt k
    let spare := decide (n.toNat < 4096)
    let s1 := { s with lost := AMap.put s.lost (pa / 64) (BitVec.allOnes 64, !spare) }
    if spare then s1.onDie d fun x => { x with retcnt := SMap.set x.retcnt k (n + 1) }
    else { s1 with notices := s1.notices ++ [.sparesGone (6 * d + k)] }

/-- A line of the L2 has an uncorrectable error: its bytes are gone, their sectors are handled as lost ones of DRAM, and its
location is retired (R316; log entry 120). -/
def State.l2Error (s : State) (pa : Nat) : State :=
  let line := pa / 256
  let held := s.l2.filter fun e => e.1 / 256 == line
  if held.isEmpty then s
  else
    { s with
      l2 := s.l2.filter fun e => e.1 / 256 != line
      lost := ((held.map fun (e : Nat × Byte × Bool) => e.1 / 64).eraseDups).foldl (fun m k =>
        if (AMap.find m k).isSome then m else AMap.put m k (BitVec.allOnes 64, false)) s.lost }.onDie (homeDie pa) fun d =>
      { d with retired := AMap.put d.retired (l2Set line) (AMap.getD d.retired (l2Set line) 0 + 1) }

/-- A sector of a core's L1, a sector of a cluster's banks, a register line has an uncorrectable error, which its next
reader meets (R407; log entry 120). -/
def State.l1Error (s : State) (core pa : Nat) : State :=
  if (s.core core).l1.any fun e => e.1 / 64 == pa / 64 then
    s.onCore core fun c => { c with upset := c.upset ++ [pa / 64] }
  else s

def State.bankError (s : State) (cl off : Nat) : State :=
  s.onCluster cl fun c => { c with upset := c.upset ++ [off / 64] }

def State.lineError (s : State) (w line : Nat) : State :=
  s.onCore (s.wave w).core fun c => { c with upsetLines := c.upsetLines ++ [(w, line)] }

/-! Power (R409). -/

/-- Some cores' clocks take free values of 0.6 to 1.4 GHz in steps of 50 MHz; 0.6 GHz while the coolant is above its
limit. -/
def State.setClocks (s : State) (cores : List Nat) : State :=
  cores.foldl (fun s c =>
    let (f, s1) := s.free
    s1.onCore c fun k => { k with clock := if s.fabric.hot then 12 else 12 + f.toNat % 17 }) s

/-- The cores of a die. -/
def coresOf (die : Nat) : List Nat := (upTo 144).map fun k => 144 * die + k

/-- GOVERNOR_TICK (R409). How the governor divides the budget is not stated: the clocks are free (log entry 3). -/
def execGovernorTick (die : Nat) (s : State) : Host.Outcome State Fault Refusal :=
  .next (if die < 4 then s.setClocks (coresOf die) else s)

/-- COOLANT_LIMIT (R409): above the limit every core runs at 0.6 GHz. -/
def execCoolantLimit (above : Bool) (s : State) : Host.Outcome State Fault Refusal :=
  .next <|
    let s1 := { s with fabric := { s.fabric with hot := above } }
    if above then [0, 1, 2, 3].foldl (fun s d => s.setClocks (coresOf d)) s1 else s1

/-- COOLANT_SHUTDOWN (R409): the module resets, and the cause waits for the next boot. What lies outside the module, and
the model's own fields, stay. -/
def execCoolantShutdown (s : State) : Host.Outcome State Fault Refusal :=
  .next { State.reset with
    peers := s.peers, hostOut := s.hostOut, spdmOut := s.spdmOut, notices := [.shutdown], nextId := s.nextId,
    agenda := s.agenda, freeCtr := s.freeCtr }

end Sys2Proof.Machine
end

