-- ==== Sys2Proof/Machine/Fabric.lean ====
section
/-!
DEFINITION. The fabric: boot and attestation (R420, R421), the host (R410, R415), peer packages (R412), shards (R416,
R417), features (R422).
-/

namespace Sys2Proof.Machine

/-! Boot and attestation. -/

/-- The checks of a firmware image: signature, key and security version (R420). -/
def imageOk (img : FwImage) : Bool :=
  let key := sha512 (Config.keyBytes img.modulus img.exponent)
  pssVerify img.modulus img.exponent img.signature (sha512 img.body) &&
    ([0, 1, 2, 3].any fun (k : Fin 4) => Config.fusedKeyDigest k == some key) &&
    decide (Config.fusedMinVersion ≤ img.version)

/-- The root window of a Turel core: all of memory, with every permission (R386; log entry 31). -/
def rootWindow : TWin := ⟨0, 2 ^ 57, 0, 15, 0, true⟩

/-- The ROM loads the four Turel cores of each die with an image (R420). -/
def State.loadFirmware (s : State) (img : FwImage) : State :=
  (upTo 16).foldl (fun s t => s.onTurel t fun _ => { Turel.reset with wins := [(0, rootWindow)] })
    { s with fabric := { s.fabric with boot := .running, fwDigest := sha512 (Config.imageBytes img.signature img.body), fwVersion := img.version } }

/-- BOOT (R420). -/
def execBoot (img : FwImage) (s : State) : Host.Outcome State Fault Refusal :=
  .next <|
    if s.fabric.boot ≠ .held then s
    else if imageOk img then s.loadFirmware img
    else { s with fabric := { s.fabric with boot := .recovery } }

/-- RECOVERY_IMAGE (R420): an image that passes the checks is loaded; any other leaves the device in recovery. -/
def execRecoveryImage (img : FwImage) (s : State) : Host.Outcome State Fault Refusal :=
  .next (if s.fabric.boot = .recovery ∧ imageOk img = true then s.loadFirmware img else s)

/-- The measurement blocks, least significant byte first (R421). -/
def State.measurement (s : State) (k : Nat) : List Byte :=
  match k with
  | 1 => leBytes Config.bootRomVersion 8
  | 2 => digestBytes s.fabric.fwDigest
  | 3 => leBytes s.fabric.fwVersion 8
  | 4 => leBytes Config.featOff.toNat 8
  | 5 => leBytes (if s.fabric.lock then s.fabric.featacc.toNat else 0) 8
  | _ => []

/-- The measurements that a GET_MEASUREMENTS request asks for: one, or all with 0xFF (log entry 17). -/
def State.measured (s : State) (param : BitVec 8) : List Byte :=
  if param = 0xFF then [1, 2, 3, 4, 5].flatMap fun k => s.measurement k else s.measurement param.toNat

/-- The responder's answer (R421; log entry 17). -/
def State.spdm (s : State) (via : SpdmPath) (code : Nat) (param : BitVec 8) (blocks : List Byte) : State :=
  if s.fabric.boot = .held then s
  else { s with
    spdmOut := s.spdmOut ++ [(via, Config.spdmBody code param s.freeCtr ++ blocks)], freeCtr := s.freeCtr + 1 }

/-- GET_VERSION (R421): versions 1.2 and 1.3, as SPDM's version entries (log entry 17). -/
def execGetVersion (via : SpdmPath) (param : BitVec 8) (s : State) : Host.Outcome State Fault Refusal :=
  .next (s.spdm via 0x84 param [0x00, 0x12, 0x00, 0x13])

/-- GET_CAPABILITIES (R421). -/
def execGetCapabilities (via : SpdmPath) (param : BitVec 8) (s : State) : Host.Outcome State Fault Refusal :=
  .next (s.spdm via 0xE1 param [])

/-- NEGOTIATE_ALGORITHMS (R421): the selection of RSASSA-PSS 4096 and of SHA-512, in SPDM's bits (log entry 17). -/
def execNegotiateAlgorithms (via : SpdmPath) (param : BitVec 8) (s : State) : Host.Outcome State Fault Refusal :=
  .next (s.spdm via 0xE3 param (leBytes 0x40 4 ++ leBytes 0x04 4))

/-- The digest of the certificate chain of slot 0 (R421). -/
def chainDigest : List Byte := digestBytes (sha512 Config.certificateChain)

/-- GET_DIGESTS (R421). -/
def execGetDigests (via : SpdmPath) (param : BitVec 8) (s : State) : Host.Outcome State Fault Refusal :=
  .next (s.spdm via 0x81 param chainDigest)

/-- GET_CERTIFICATE (R421): slot 0 holds the device certificate chain, other slots none. -/
def execGetCertificate (via : SpdmPath) (param : BitVec 8) (s : State) : Host.Outcome State Fault Refusal :=
  .next (s.spdm via 0x82 param (if param = 0 then Config.certificateChain else []))

/-- CHALLENGE (R421): what it signs begins with the digest of slot 0's chain (log entry 17). -/
def execChallenge (via : SpdmPath) (param : BitVec 8) (s : State) : Host.Outcome State Fault Refusal :=
  .next (s.spdm via 0x83 param chainDigest)

/-- GET_MEASUREMENTS (R421). -/
def execGetMeasurements (via : SpdmPath) (param : BitVec 8) (s : State) : Host.Outcome State Fault Refusal :=
  .next (s.spdm via 0xE0 param (s.measured param))

/-- FEATACC_WRITE (R422). -/
def execFeataccWrite (value : BitVec 64) (s : State) : Host.Outcome State Fault Refusal := .next (s.featWrite value)

/-- REGISTER_WRITE (R381). -/
def execRegisterWrite (die : Nat) (off : BitVec 24) (value : BitVec 64) (s : State) : Host.Outcome State Fault Refusal :=
  .next (if die < 4 ∧ off.toNat % 8 = 0 then s.windowWrite die off.toNat value else s)

/-! Accesses from outside the cores, performed at the home slice. -/

/-- The sectors of some bytes hold no uncorrectable error. -/
def State.sound (s : State) (pa n : Nat) : Bool := (upTo n).all fun k => !s.sectorLost (pa + k)

/-- A read of `n` bytes at their home: the bytes, or the fault of R397, R407. -/
def State.busRead (s : State) (pa n : Nat) : Except Cause (List Byte) :=
  match s.backed pa, s.backed (pa + n - 1) with
  | some c, _ => .error c
  | _, some c => .error c
  | none, none => if s.sound pa n then .ok (leBytes (s.homeValue pa n) n) else .error .dataLoss

/-- The performance of a read-modify-write of `n` bytes at their home: the old value, none when a fault stops it. On a service
window it has no effect and reads 0 (R381). -/
def State.busRmw (s : State) (pa n : Nat) (f : Nat → Option Nat) : Except Cause Nat × State :=
  match paClass pa, s.busRead pa n with
  | .window _ _, _ => (.ok 0, s)
  | _, .error c => (.error c, s)
  | _, .ok bs =>
    let old := bytesValue bs
    (.ok old, match f old with
      | some v => s.homeStore pa n v
      | none => s)

/-- What the host reaches: DRAM, and die 0's fabric block (R410). -/
def hostReaches (pa : Nat) : Bool :=
  match paClass pa with
  | .dram => true
  | .window 0 off => decide (off / 0x10000 = 7)
  | _ => false

/-- HOST_WRITE (R415): performed at the home slice in the order of arrival, whether or not the write asks for it. -/
def execHostWrite (pa : Nat) (bytes : List Byte) (_relaxed : Bool) (s : State) : Host.Outcome State Fault Refusal :=
  .next <|
    if hostReaches pa && hostReaches (pa + bytes.length - 1) then s.homeStore pa bytes.length (bytesValue bytes) else s

/-- HOST_READ (R415): the value at the home slice; no value where nothing can be read. -/
def execHostRead (pa : Nat) (n : Nat) (s : State) : Host.Outcome State Fault Refusal :=
  .next <|
    let bs := if hostReaches pa && hostReaches (pa + n - 1) then
        match s.busRead pa n with
        | .ok bs => bs
        | .error _ => []
      else []
    { s with hostOut := s.hostOut ++ [(pa, bs)] }

/-- HOST_ATOMIC (R410): FetchAdd, Swap and CAS on 4 or 8 bytes, aligned; the host gets the old value. -/
def execHostAtomic (pa : Nat) (wide : Bool) (op : HostAtomicOp) (s : State) : Host.Outcome State Fault Refusal :=
  .next <|
    let n := if wide then 8 else 4
    let m := 2 ^ (8 * n)
    if pa % n ≠ 0 ∨ hostReaches pa = false then s
    else
      let (r, s1) := s.busRmw pa n fun old =>
        match op with
        | .fetchAdd v => some (atomEval .add n old (v.toNat % m))
        | .swap v => some (v.toNat % m)
        | .cas cmp new => if old = cmp.toNat % m then some (new.toNat % m) else none
      { s1 with hostOut := s1.hostOut ++ [(pa, match r with
        | .ok old => leBytes old n
        | .error _ => [])] }

/-! Peer packages (R412). -/

/-- The firmware exports a range to the group, of at most 64. -/
def State.exportRange (s : State) (lo len : Nat) : State :=
  if s.firmwareRuns && decide (s.fabric.exported.length < 64 ∧ 0 < len ∧ lo + len ≤ dramEnd) then
    { s with fabric := { s.fabric with exported := s.fabric.exported ++ [(lo, len)] } }
  else s

/-- A peer's firmware exports a range to this package, of at most 64. -/
def State.peerExport (s : State) (id lo len : Nat) : State :=
  let p := s.peer id
  if decide (id < 432 ∧ p.exported.length < 64 ∧ 0 < len ∧ lo + len ≤ dramEnd) then
    { s with peers := AMap.put s.peers id { p with exported := p.exported ++ [(lo, len)] } }
  else s

/-- Every byte of an access lies in an exported range. -/
def Fabric.exports (f : Fabric) (pa n : Nat) : Bool :=
  (upTo n).all fun k => f.exported.any fun r => decide (r.1 ≤ pa + k ∧ pa + k < r.1 + r.2)

/-- The answer to a peer: 0 and the data, or a cause. -/
def State.replyTo (s : State) (id : Nat) (r : Except Cause (List Byte)) : State :=
  let p := s.peer id
  let entry := match r with
    | .ok bs => (0, bs)
    | .error c => (c.code.toNat, [])
  { s with peers := AMap.put s.peers id { p with replies := p.replies ++ [entry] } }

/-- Bytes of a peer's request. -/
def ExtKind.bytes : ExtKind → Nat
  | .read n => n
  | .write bs => bs.length
  | .atomic wide .. => if wide then 8 else 4
  | .cas wide .. => if wide then 8 else 4

/-- A read-modify-write for a peer. -/
def State.peerRmw (s : State) (id pa n : Nat) (f : Nat → Option Nat) : State :=
  let (r, s1) := s.busRmw pa n f
  s1.replyTo id (match r with
    | .ok old => .ok (leBytes old n)
    | .error c => .error c)

/-- PEER_REQUEST (R412): an address that is not exported completes with the access fault; any other is performed at its
home slice. -/
def execPeerRequest (req : ExtReq) (s : State) : Host.Outcome State Fault Refusal :=
  .next <|
    let id := req.peer.toNat
    let n := ExtKind.bytes req.kind
    let m := 2 ^ (8 * n)
    if !s.fabric.exports req.pa n then s.replyTo id (.error .access)
    else
      match req.kind with
      | .read _ => s.replyTo id (s.busRead req.pa n)
      | .write bs => (s.homeWriteBytes req.pa bs).replyTo id (.ok [])
      | .atomic _ op v => s.peerRmw id req.pa n fun old => some (atomEval op n old (v.toNat % m))
      | .cas _ cmp new => s.peerRmw id req.pa n fun old => if old = cmp.toNat % m then some (new.toNat % m) else none

/-- PEER_PORT_DOWN (R412): its traffic takes the next port (log entry 32). -/
def execPeerPortDown (port : BitVec 4) (s : State) : Host.Outcome State Fault Refusal :=
  .next { s with fabric := { s.fabric with portsDown := s.fabric.portsDown ||| BitVec.ofNat 16 (2 ^ port.toNat) } }

/-- An access lies in a peer's memory. -/
def LaneAcc.toPeer (a : LaneAcc) (id : Nat) : Bool :=
  match a.loc with
  | .mem pa => match paClass pa with
    | .peer k _ => k == id
    | _ => false
  | .scratch _ => false

/-- The pending accesses of an operation to a peer that is lost complete with the data-loss fault: a store or
read-modify-write may have been performed, a load writes nothing, and the threads concerned park at the word; those of
threads that sleep, or are parked already, once these are ready (R412; log entry 33). -/
def State.losePeerOp (s : State) (w op id : Nat) : State :=
  match AMap.find (s.wave w).flights op with
  | none => s
  | some f =>
    let x := s.wave w
    let later := x.lanesIn .sleeping ||| x.lanesIn .parked ||| x.lanesIn .syncing
    let mine (a : LaneAcc) : Lanes := if a.lane < 64 then laneBit a.lane else f.threads
    let out (a : LaneAcc) : Bool := a.got.isNone && a.toPeer id && mine a &&& later == 0
    let gone := f.accs.filter out
    match gone with
    | [] => s
    | first :: _ =>
      let s1 := gone.foldl (fun s (a : LaneAcc) =>
        let (b, s1) := s.free
        match f.kind with
        | .load .. => s1
        | _ => if b.getLsbD 0 then (s1.performAcc (s1.wave w).core f.kind a).2 else s1) s
      let s2 := s1.onWave w fun x =>
        { x with flights := AMap.adjust x.flights op fun (f : Flight) =>
          { f with accs := f.accs.filter fun a => !out a } }
      let ls := gone.foldl (fun m a => m ||| mine a) 0
      let stop := ls &&& (s2.wave w).lanesIn .ready
      (s2.onWave w fun x => x.next stop first.pc).park w stop first.pc .dataLoss (BitVec.ofNat 64 first.va)

/-- What a core's waves still await of peers that are lost, once their threads are ready (R412). -/
def State.lateLosses (s : State) (core : Nat) : State :=
  ((s.peers.filter fun p => !p.2.reachable).map fun p => p.1).foldl (fun s id =>
    s.waves.foldl (fun s e => if e.2.core = core then e.2.flights.foldl (fun s f => s.losePeerOp e.1 f.1 id) s else s) s) s

/-- PEER_UNREACHABLE (R412). -/
def execPeerUnreachable (id : BitVec 9) (s : State) : Host.Outcome State Fault Refusal :=
  .next <|
    let p := s.peer id.toNat
    let s1 := s.waves.foldl (fun s e => e.2.flights.foldl (fun s f => s.losePeerOp e.1 f.1 id.toNat) s) s
    let p1 := { p with mem := (s1.peer id.toNat).mem, reachable := false }
    { s1 with peers := AMap.put s1.peers id.toNat p1 }

/-! Shards (R416, R417). -/

def State.onShard (s : State) (die cx : Nat) (f : Shard → Shard) : State :=
  s.onDie die fun d => { d with shards := AMap.put d.shards cx (f (AMap.getD d.shards cx Shard.reset)) }

/-- The physical address of a partition-physical address of the partition that a shard context serves. -/
def State.shardPa (s : State) (die cx pp : Nat) (acc : Access) : Option Nat :=
  match s.parts.find? fun p => p.2.shards.contains (die, cx) with
  | none => none
  | some (_, p) =>
    match s.stage2 (.hyper p.spec.s2root.toNat) pp acc with
    | .ok l => if (s.backed (l.out pp)).isNone then some (l.out pp) else none
    | .error _ => none

/-- The physical address of a byte of a manifest entry. -/
def State.manifestPa (s : State) (die cx index o : Nat) : Option Nat :=
  s.shardPa die cx ((s.shard die cx).base.toNat + 128 * index + o) .store

/-- A field of a manifest entry. -/
def State.manifest (s : State) (die cx index o n : Nat) : Nat :=
  match s.manifestPa die cx index o with
  | some pa => s.homeValue pa n
  | none => 0

def State.setManifest (s : State) (die cx index o n v : Nat) : State :=
  match s.manifestPa die cx index o with
  | some pa => s.homeStore pa n v
  | none => s

/-- STATE := 3, with an external interrupt on hart 0 of the die (R417). -/
def State.badShard (s : State) (die cx index : Nat) : State :=
  (s.setManifest die cx index 0 4 3).onDie die fun d => { d with irq := d.irq ||| 1 }

/-- The context that a die's integrity engine serves next, when it is free: the contexts with commands take turns (R416). -/
def State.shardTurn (s : State) (die : Nat) : Option Nat :=
  let d := s.die die
  if d.shards.any fun e => e.2.busy.isSome then none
  else ((upTo 64).map fun k => (d.shardLast + 1 + k) % 64).find? fun c => !(s.shard die c).cmds.isEmpty

/-- The command at the head of a context, when it is the one named and the engine serves the context next. -/
def State.shardHead (s : State) (die cx : Nat) (verify : Bool) (index : Nat) : Bool :=
  s.shardTurn die == some cx && (s.shard die cx).cmds.head? == some (verify, index)

/-- The engine takes the command at the head of a context. -/
def State.takeShard (s : State) (die cx : Nat) : State :=
  (s.onShard die cx fun c => { c with cmds := c.cmds.drop 1 }).onDie die fun d => { d with shardLast := cx }

/-- A manifest entry can be translated, each of its 64-byte halves (R416). -/
def State.manifestAt (s : State) (die cx index : Nat) : Bool :=
  (s.manifestPa die cx index 0).isSome && (s.manifestPa die cx index 0x40).isSome

/-- SHARD_FETCH (R416, R417): a command whose manifest cannot be translated is discarded; STATE 0 or 3 becomes 1. -/
def execShardFetch (die : Nat) (cx : BitVec 6) (index : BitVec 16) (s : State) : Host.Outcome State Fault Refusal :=
  .next <|
    let k := cx.toNat
    let i := index.toNat
    if !s.shardHead die k false i then s
    else
      let s1 := s.takeShard die k
      let st := s1.manifest die k i 0 4 % 4
      if !s1.manifestAt die k i || (st != 0 && st != 3) then s1
      else (s1.setManifest die k i 0 4 1).onShard die k fun c => { c with busy := some i, read := [], ok := true }

/-- The integrity engine copies the next byte of the shard it fetches (R417): a fault on either side fails the entry. -/
def State.shardByte (s : State) (die : Nat) (cx : BitVec 6) : State :=
  let k := cx.toNat
  let c := s.shard die k
  match c.busy with
  | none => s
  | some i =>
    let n := c.read.length
    if !c.ok || decide (s.manifest die k i 0x18 4 ≤ n) then s
    else
      let src := s.manifest die k i 0x10 8 + n
      match s.backed src, s.shardPa die k (s.manifest die k i 0x08 8 + n) .store with
      | none, some pa =>
        if s.sectorLost src then s.onShard die k fun c => { c with ok := false }
        else
          let b := s.homeByte src
          (s.homeWrite pa b).onShard die k fun c => { c with read := c.read ++ [b] }
      | _, _ => s.onShard die k fun c => { c with ok := false }

/-- Copies up to `n` more bytes. -/
def State.shardBytes (s : State) (die : Nat) (cx : BitVec 6) : Nat → State
  | 0 => s
  | n + 1 => (s.shardByte die cx).shardBytes die cx n

/-- The digest that a manifest entry names. -/
def State.manifestDigest (s : State) (die cx index : Nat) : List Byte :=
  (upTo 64).map fun k => BitVec.ofNat 8 (s.manifest die cx index (0x40 + k) 1)

/-- SHARD_FETCH_COMPLETE (R417). -/
def execShardFetchComplete (die : Nat) (cx : BitVec 6) (s : State) : Host.Outcome State Fault Refusal :=
  .next <|
    let k := cx.toNat
    match (s.shard die k).busy with
    | none => s
    | some i =>
      let s1 := s.shardBytes die cx (s.manifest die k i 0x18 4)
      let c := s1.shard die k
      let good := c.ok && digestBytes (sha512 c.read) == s1.manifestDigest die k i
      let s2 := s1.onShard die k fun c => { c with busy := none, read := [], ok := true }
      if good then s2.setManifest die k i 0 4 2 else s2.badShard die k i

/-- The bytes at DEST, none when one cannot be read. -/
def State.shardDest (s : State) (die cx i : Nat) : Option (List Byte) :=
  (upTo (s.manifest die cx i 0x18 4)).foldr (fun n r =>
    match r, s.shardPa die cx (s.manifest die cx i 0x08 8 + n) .load with
    | some bs, some pa => if s.sectorLost pa then none else some (s.homeByte pa :: bs)
    | _, _ => none) (some [])

/-- VERIFY of an entry with STATE 2 (R417). -/
def State.verifyShard (s : State) (die cx i : Nat) : State :=
  if s.manifestAt die cx i = false ∨ s.manifest die cx i 0 4 % 4 ≠ 2 then s
  else
    match s.shardDest die cx i with
    | none => s.badShard die cx i
    | some bs =>
      if digestBytes (sha512 bs) == s.manifestDigest die cx i then
        s.setManifest die cx i 4 4 (min (s.manifest die cx i 4 4 + 1) 0xFFFFFFFF)
      else s.badShard die cx i

/-- SHARD_VERIFY (R417). -/
def execShardVerify (die : Nat) (cx : BitVec 6) (index : BitVec 16) (s : State) : Host.Outcome State Fault Refusal :=
  .next <|
    let k := cx.toNat
    if !s.shardHead die k true index.toNat then s
    else (s.takeShard die k).verifyShard die k index.toNat

/-- SHARD_SCRUB (R417): every verified entry of every context of the die whose COUNT is not 0; SCRUBINT 0 turns it
off. -/
def execShardScrub (die : Nat) (s : State) : Host.Outcome State Fault Refusal :=
  .next <|
    if s.fabric.scrubint = 0 then s
    else (s.die die).shards.foldl (fun s e => (upTo e.2.count.toNat).foldl (fun s i => s.verifyShard die e.1 i) s) s

end Sys2Proof.Machine
end

