-- ==== Sys2Proof/Machine/Tiles.lean ====
section
/-!
DEFINITION. Deferred tiles: appends (R230 to R246), handles and references (R255, R256), configuration and status
(R252, R266), captures (R262 to R264). Demands compute in Demands.lean.
-/

namespace Sys2Proof.Machine

/-! Shapes and formats. -/

def shapeRows (w : Word) : Nat := natBits w.toNat 15 0
def shapeCols (w : Word) : Nat := natBits w.toNat 31 16
def shapeOk (w : Word) : Bool := shapeRows w != 0 && shapeCols w != 0

/-- Tags of block formats. -/
def blockTag (t : Nat) : Bool := t == 0x0D || t == 0x0E

/-- The element alignment of a tag (R237). -/
def tagAlign (t : Nat) : Nat :=
  match t with
  | 0x08 => 4
  | 0x0B => 1
  | 0x0C => 1
  | _ => 2

/-- A tag that a view or `tcvt` may name, accepted under its feature (R237, R422). -/
def tagOk (feat : BitVec 64) (t : Nat) : Bool :=
  [0x08, 0x09, 0x0A, 0x0B, 0x0C].contains t || (blockTag t && feat.getLsbD 8)

/-- ElemOff(j) (R241). -/
def elemOff (t j : Nat) : Nat :=
  match t with
  | 0x0D => 18 * (j / 32)
  | 0x0E => 34 * (j / 32)
  | t => tagRowBytes t 1 * j

/-- The format of a tag. -/
def tagFmt (t : Nat) : Fmt :=
  match t with
  | 0x09 => .bf16
  | 0x0A => .f16
  | 0x0B => .e4m3
  | 0x0C => .e5m2
  | 0x0D => .blk4
  | 0x0E => .blk8
  | _ => .f32

/-- The checks of a region: shape, origin inside, fit; and multiples of 32 for a block tag (R235, R237). `o` and `z`
are the numbers of the origin and shape words. -/
def regionChecks (origin shape : Word) (rows cols : Nat) (block : Bool) (o z : Nat) : List (Nat × Bool) :=
  let r0 := shapeRows origin
  let c0 := shapeCols origin
  [(z, shapeOk shape), (o, decide (r0 < rows ∧ c0 < cols)),
   (z, decide (rows ≤ r0 ∨ cols ≤ c0) || decide (r0 + shapeRows shape ≤ rows ∧ c0 + shapeCols shape ≤ cols)),
   (o, !block || c0 % 32 == 0), (z, !block || shapeCols shape % 32 == 0)]

/-! The table of a group. -/

/-- A handle's node. -/
def Group.handleNode (g : Group) (h : BitVec 6) : Option Nat := AMap.find g.handles h.toNat

def Group.node (g : Group) (n : Nat) : Option Node := AMap.find g.nodes n

/-- Release(x) (R255): a node that nothing names is reclaimed, and its operands are released. -/
def Group.releaseNode : Nat → Group → Nat → Group
  | 0, g, _ => g
  | k + 1, g, n =>
    match AMap.find g.nodes n with
    | none => g
    | some x =>
      if 1 < x.refs then { g with nodes := AMap.put g.nodes n { x with refs := x.refs - 1 } }
      else
        let g1 := { g with nodes := AMap.del g.nodes n, ranges := g.ranges.filter fun e => e.2.node != n }
        let g2 := match x.opa with
          | some a => Group.releaseNode k g1 a
          | none => g1
        match x.opb with
        | some b => Group.releaseNode k g2 b
        | none => g2

/-- One release, deep enough for every chain of the 256 nodes. -/
def Group.release (g : Group) (n : Nat) : Group := Group.releaseNode 257 g n

/-- One more reference to a node. -/
def Group.retain (g : Group) (n : Nat) : Group :=
  { g with nodes := AMap.adjust g.nodes n fun x => { x with refs := x.refs + 1 } }

/-- Live nodes of a core's resident groups (R256). -/
def State.coreNodes (s : State) (core : Nat) : Nat :=
  s.groups.foldl (fun k e => if e.2.core = core ∧ e.2.slot.isSome then k + e.2.nodes.length else k) 0

/-- The lowest free index of a table below a bound. -/
def freeEntry {α : Type} (m : AMap α) (n : Nat) : Option Nat :=
  (upTo n).find? fun k => (AMap.find m k).isNone

/-! Capture (R263, R264). -/

/-- The stores and read-modify-writes of a group's waves to global memory are performed. -/
def State.storesDone (s : State) (g : Nat) : Bool :=
  s.waves.all fun e => e.2.group != g || e.2.flights.all fun f => f.2.performed || match f.2.kind with
    | .store .. => false
    | .rmw .. => false
    | _ => true

/-- Bytes of a view's row as loads give them: none while a translation is missing; a byte that faults otherwise is
open (log entry 26). -/
def State.captureBytes (s : State) (core : Nat) (pasid : BitVec 20) (va : Nat) : Nat → Option (List Byte) × State
  | 0 => (some [], s)
  | n + 1 =>
    match s.loadByte core pasid va with
    | (.error .translation, s1) => (none, s1)
    | (r, s1) =>
      let (b, s2) := match r with
        | .ok b => (b, s1)
        | .error _ => let (v, s2) := s1.free; (v.setWidth 8, s2)
      match s2.captureBytes core pasid (va + 1) n with
      | (none, s3) => (none, s3)
      | (some bs, s3) => (some (b :: bs), s3)

/-- Copies the rows of a view into capture units at a local offset. -/
def State.captureRows (s : State) (g : Nat) (n : Node) (off : Nat) : List Nat → Option State
  | [] => some s
  | i :: t =>
    let x := s.group g
    let rb := tagRowBytes n.tag.toNat n.cols
    let va := (n.param.getD 0 0).toNat + 2 ^ 32 * ((n.param.getD 1 0).toNat % 2 ^ 25) + i * (n.param.getD 3 0).toNat
    match s.captureBytes x.core x.pasid va rb with
    | (none, _) => none
    | (some bs, s1) => (s1.scratchWrite (clusterOf x.core) (x.localbase.toNat + off + i * rb) bs).captureRows g n off t

/-- Captures a live source view: none while it must wait. -/
def State.captureView (s : State) (g node : Nat) : Option State :=
  let x := s.group g
  match AMap.find x.nodes node with
  | none => some s
  | some n =>
    match x.captureRoom n.units with
    | none => some s
    | some u =>
      match s.captureRows g n (256 * u) (upTo n.rows) with
      | none => none
      | some s1 => some (s1.onGroup g fun y =>
          { y with nodes := AMap.put y.nodes node { n with captured := true, capu := u },
                   ranges := y.ranges.filter fun e => e.2.node != node })

/-- Captures some views in turn. -/
def State.captureAll (s : State) (g : Nat) : List Nat → Option State
  | [] => some s
  | n :: t =>
    match s.captureView g n with
    | none => none
    | some s1 => s1.captureAll g t

/-- VIEW_CAPTURE (R263): the views that a held store touches are captured, and the word is released. -/
def execViewCapture (w : Nat) (s : State) : Host.Outcome State Fault Refusal :=
  .next <|
    let x := s.wave w
    if x.captures.isEmpty || !s.storesDone x.group then s
    else
      match s.captureAll x.group x.captures with
      | none => s
      | some s1 => s1.onWave w fun y => { y with captures := [] }

/-! Appends. -/

/-- What an append makes of its operands: tag, rows, columns; or the number of its error (R235). -/
abbrev Shape := Nat × Nat × Nat

/-- The oldest live source view of a group. -/
def Group.oldestView (g : Group) : Option Nat :=
  (g.ranges.foldl (fun (b : Option (Nat × Nat)) e =>
    let age := match AMap.find g.nodes e.2.node with
      | some n => n.age
      | none => 0
    match b with
    | none => some (e.2.node, age)
    | some p => if age < p.2 then some (e.2.node, age) else some p) none).map fun p => p.1

/-- Makes the new node (R238). -/
def Group.append (g : Group) (hd : BitVec 6) (idx : Nat) (kind sub : BitVec 8) (sh : Shape) (opa opb : Option Nat)
    (param : List Word) (pc : Word) : Group :=
  let n : Node := ⟨kind, sub, BitVec.ofNat 8 sh.1, false, false, 1, opa, opb, sh.2.1, sh.2.2, 0, pc, 0, param, [], g.nodeAge⟩
  let g1 := match opa with
    | some a => g.retain a
    | none => g
  let g2 := match opb with
    | some b => g1.retain b
    | none => g1
  let old := AMap.find g.handles hd.toNat
  let g3 := { g2 with
    nodes := AMap.put g2.nodes idx n, handles := AMap.put g2.handles hd.toNat idx, nodeAge := g.nodeAge + 1,
    ranges :=
      if kind = 0 then
        match freeEntry g2.ranges 32 with
        | some e => AMap.put g2.ranges e
            ⟨(param.getD 0 0).toNat + 2 ^ 32 * ((param.getD 1 0).toNat % 2 ^ 25),
              (sh.2.1 - 1) * (param.getD 3 0).toNat + tagRowBytes sh.1 sh.2.2, idx⟩
        | none => g2.ranges
      else g2.ranges }
  match old with
  | some o => g3.release o
  | none => g3

/-- The append of a node whose word has passed its checks (R238, R256, R264). -/
def State.appendNode (s : State) (x : Issue) (setf : BitVec 4) (hd : BitVec 6) (kind sub : BitVec 8) (sh : Shape)
    (opa opb : Option Nat) (param : List Word) : State :=
  let gi := (s.wave x.w).group
  let g := s.group gi
  match freeEntry g.nodes 256 with
  | none => s.park x.w x.run x.pc .chrysalisFull 0
  | some idx =>
    if 512 ≤ s.coreNodes g.core then s.park x.w x.run x.pc .chrysalisFull 0
    else
      let done (s : State) : State :=
        (((s.onGroup gi fun g => g.append hd idx kind sub sh opa opb param x.pc).fixed x.w setf x.run 1 []).goto x
          x.run (x.pc + 1))
      if kind = 0 ∧ 32 ≤ g.ranges.length then
        match g.oldestView with
        | none => done s
        | some v =>
          if !g.canCapture v then s.park x.w x.run x.pc .chrysalisFull 0
          else if !s.storesDone gi then s.hold x
          else
            match s.captureView gi v with
            | none => s.hold x
            | some s1 => done s1
      else done s

/-- The meaning of an append: operand handles, the kind's checks, then the node (R235, R238). -/
def appendWord (c : Ctl) (hd : BitVec 6) (ha hb : Option (BitVec 6)) (sb : SReg) (n : Nat) (kind sub : BitVec 8)
    (s : State) (mk : BitVec 64 → List Word → Option Node → Option Node → Except Nat Shape) :
    Host.Outcome State Fault Refusal :=
  scalarWord c s fun x s =>
    let w := s.wave x.w
    let g := s.group w.group
    let node (h : Option (BitVec 6)) : Option Nat := match h with
      | some k => g.handleNode k
      | none => none
    let a := node ha
    let b := node hb
    if (ha.isSome && a.isNone) || (hb.isSome && b.isNone) then s.illegal x
    else
      let ps := w.block sb n
      let get (i : Option Nat) : Option Node := match i with
        | some k => g.node k
        | none => none
      match mk s.fabric.featacc ps (get a) (get b) with
      | .error k => s.park x.w x.run x.pc .illegalFormat (BitVec.ofNat 64 k)
      | .ok sh => s.appendNode x c.h.setf hd kind sub sh a b ps

/-- Turns the least failing check into an error. -/
def checked (cs : List (Nat × Bool)) (sh : Shape) : Except Nat Shape :=
  match firstFail cs with
  | some k => .error k
  | none => .ok sh

/-- TLD (R241). -/
def execTld (c : Ctl) (hd : BitVec 6) (sb : SReg) (s : State) : Host.Outcome State Fault Refusal :=
  appendWord c hd none none sb 5 0x00 0 s fun feat p _ _ =>
    let w (k : Nat) : Word := p.getD k 0
    let t := (w 4).toNat % 32
    let ok := tagOk feat t
    checked [(1, !ok || (w 0).toNat % tagAlign t == 0), (2, natBits (w 1).toNat 31 25 == 0), (3, shapeOk (w 2)),
      (3, !(ok && blockTag t) || shapeCols (w 2) % 32 == 0), (4, !ok || (w 3).toNat % tagAlign t == 0), (5, ok)]
      (t, shapeRows (w 2), shapeCols (w 2))

/-- TCONST (R240). -/
def execTconst (c : Ctl) (hd : BitVec 6) (sb : SReg) (s : State) : Host.Outcome State Fault Refusal :=
  appendWord c hd none none sb 2 0x01 0 s fun _ p _ _ =>
    let z := p.getD 0 0
    checked [(1, shapeOk z)] (0x08, shapeRows z, shapeCols z)

/-- TIOTA (R240). -/
def execTiota (c : Ctl) (hd : BitVec 6) (sb : SReg) (s : State) : Host.Outcome State Fault Refusal :=
  appendWord c hd none none sb 4 0x02 0 s fun _ p _ _ =>
    let z := p.getD 0 0
    checked [(1, shapeOk z)] (0x08, shapeRows z, shapeCols z)

/-- The rows, columns and tag of an operand node. -/
def dims (n : Option Node) : Nat × Nat × Nat :=
  match n with
  | some x => (x.rows, x.cols, x.tag.toNat)
  | none => (1, 1, 0x08)

/-- TMAP_TR (R242). -/
def execTmapTr (c : Ctl) (hd : BitVec 6) (ha : BitVec 6) (s : State) : Host.Outcome State Fault Refusal :=
  appendWord c hd (some ha) none 0 0 0x03 0 s fun _ _ a _ =>
    let (r, k, t) := dims a
    checked [(0, !blockTag t)] (t, k, r)

/-- TMAP_SLICE (R242). -/
def execTmapSlice (c : Ctl) (hd : BitVec 6) (ha : BitVec 6) (sb : SReg) (s : State) : Host.Outcome State Fault Refusal :=
  appendWord c hd (some ha) none sb 2 0x03 1 s fun _ p a _ =>
    let (r, k, t) := dims a
    let z := p.getD 1 0
    checked (regionChecks (p.getD 0 0) z r k (blockTag t) 1 2) (t, shapeRows z, shapeCols z)

/-- TMAP_BCR (R242). -/
def execTmapBcr (c : Ctl) (hd : BitVec 6) (ha : BitVec 6) (sb : SReg) (s : State) : Host.Outcome State Fault Refusal :=
  appendWord c hd (some ha) none sb 1 0x03 2 s fun _ p a _ =>
    let (r, k, t) := dims a
    let z := p.getD 0 0
    checked [(0, r == 1), (1, shapeRows z != 0 && shapeCols z == 0)] (t, shapeRows z, k)

/-- TMAP_BCC (R242). -/
def execTmapBcc (c : Ctl) (hd : BitVec 6) (ha : BitVec 6) (sb : SReg) (s : State) : Host.Outcome State Fault Refusal :=
  appendWord c hd (some ha) none sb 1 0x03 3 s fun _ p a _ =>
    let (r, k, t) := dims a
    let z := p.getD 0 0
    checked [(0, k == 1), (0, !blockTag t), (1, shapeRows z != 0 && shapeCols z == 0)] (t, r, shapeRows z)

/-- TMAP_REVR (R242). -/
def execTmapRevr (c : Ctl) (hd : BitVec 6) (ha : BitVec 6) (s : State) : Host.Outcome State Fault Refusal :=
  appendWord c hd (some ha) none 0 0 0x03 4 s fun _ _ a _ => let (r, k, t) := dims a; .ok (t, r, k)

/-- TMAP_REVC (R242). -/
def execTmapRevc (c : Ctl) (hd : BitVec 6) (ha : BitVec 6) (s : State) : Host.Outcome State Fault Refusal :=
  appendWord c hd (some ha) none 0 0 0x03 5 s fun _ _ a _ =>
    let (r, k, t) := dims a
    checked [(0, !blockTag t)] (t, r, k)

/-- TMAP_SHIFT (R242). -/
def execTmapShift (c : Ctl) (hd : BitVec 6) (ha : BitVec 6) (sb : SReg) (s : State) : Host.Outcome State Fault Refusal :=
  appendWord c hd (some ha) none sb 2 0x03 6 s fun _ _ a _ => let (r, k, _) := dims a; .ok (0x08, r, k)

/-- An element operation of two operands of one shape (R240). -/
def tileBinary (c : Ctl) (kind : BitVec 8) (hd ha hb : BitVec 6) (s : State) : Host.Outcome State Fault Refusal :=
  appendWord c hd (some ha) (some hb) 0 0 kind 0 s fun _ _ a b =>
    let (r, k, _) := dims a
    let (r', k', _) := dims b
    checked [(0, r == r' && k == k')] (0x08, r, k)

/-- TADD (R240). -/
def execTadd (c : Ctl) (hd : BitVec 6) (ha : BitVec 6) (hb : BitVec 6) (s : State) : Host.Outcome State Fault Refusal :=
  tileBinary c 0x04 hd ha hb s
/-- TSUB (R240). -/
def execTsub (c : Ctl) (hd : BitVec 6) (ha : BitVec 6) (hb : BitVec 6) (s : State) : Host.Outcome State Fault Refusal :=
  tileBinary c 0x05 hd ha hb s
/-- TMUL (R240). -/
def execTmul (c : Ctl) (hd : BitVec 6) (ha : BitVec 6) (hb : BitVec 6) (s : State) : Host.Outcome State Fault Refusal :=
  tileBinary c 0x06 hd ha hb s
/-- TMAX (R240). -/
def execTmax (c : Ctl) (hd : BitVec 6) (ha : BitVec 6) (hb : BitVec 6) (s : State) : Host.Outcome State Fault Refusal :=
  tileBinary c 0x07 hd ha hb s
/-- TMIN (R240). -/
def execTmin (c : Ctl) (hd : BitVec 6) (ha : BitVec 6) (hb : BitVec 6) (s : State) : Host.Outcome State Fault Refusal :=
  tileBinary c 0x08 hd ha hb s

/-- An element function (R243). -/
def tileUnary (c : Ctl) (kind : BitVec 8) (hd ha : BitVec 6) (s : State) : Host.Outcome State Fault Refusal :=
  appendWord c hd (some ha) none 0 0 kind 0 s fun _ _ a _ => let (r, k, _) := dims a; .ok (0x08, r, k)

/-- TEXP (R243). -/
def execTexp (c : Ctl) (hd : BitVec 6) (ha : BitVec 6) (s : State) : Host.Outcome State Fault Refusal := tileUnary c 0x09 hd ha s
/-- TLOG (R243). -/
def execTlog (c : Ctl) (hd : BitVec 6) (ha : BitVec 6) (s : State) : Host.Outcome State Fault Refusal := tileUnary c 0x0A hd ha s
/-- TRCP (R243). -/
def execTrcp (c : Ctl) (hd : BitVec 6) (ha : BitVec 6) (s : State) : Host.Outcome State Fault Refusal := tileUnary c 0x0B hd ha s
/-- TSIG (R243). -/
def execTsig (c : Ctl) (hd : BitVec 6) (ha : BitVec 6) (s : State) : Host.Outcome State Fault Refusal := tileUnary c 0x0C hd ha s

/-- TSELM (R240). -/
def execTselm (c : Ctl) (hd : BitVec 6) (ha : BitVec 6) (sb : SReg) (up : Bool) (s : State) :
    Host.Outcome State Fault Refusal :=
  appendWord c hd (some ha) none sb 2 0x0D (if up then 1 else 0) s fun _ _ a _ =>
    let (r, k, _) := dims a
    .ok (0x08, r, k)

/-- TSCAN (R240). -/
def execTscan (c : Ctl) (hd : BitVec 6) (ha : BitVec 6) (colw : Bool) (s : State) : Host.Outcome State Fault Refusal :=
  appendWord c hd (some ha) none 0 0 0x0E (if colw then 1 else 0) s fun _ _ a _ =>
    let (r, k, _) := dims a
    .ok (0x08, r, k)

/-- TRED (R240): rows by 1, or 1 by columns. -/
def execTred (c : Ctl) (hd : BitVec 6) (ha : BitVec 6) (op : BitVec 2) (s : State) : Host.Outcome State Fault Refusal :=
  appendWord c hd (some ha) none 0 0 0x0F (op.setWidth 8) s fun _ _ a _ =>
    let (r, k, _) := dims a
    .ok (if op.getLsbD 0 then (0x08, 1, k) else (0x08, r, 1))

/-- The matrix code that a tag names (R245). -/
def tagMatrix (t : Nat) : Nat :=
  match t with
  | 0x09 => 1
  | 0x0A => 2
  | 0x0B => 3
  | 0x0C => 4
  | 0x0D => 7
  | 0x0E => 9
  | _ => 0

/-- TMMA (R245). -/
def execTmma (c : Ctl) (hd : BitVec 6) (ha : BitVec 6) (hb : BitVec 6) (sb : SReg) (s : State) :
    Host.Outcome State Fault Refusal :=
  appendWord c hd (some ha) (some hb) sb 1 0x10 0 s fun feat p a b =>
    let (m, k, ta) := dims a
    let (k', n, tb) := dims b
    let f := p.getD 0 0
    checked [(0, k == k'),
      (1, natBits f.toNat 31 14 == 0 && natBits f.toNat 12 8 == 0 && codeOk feat (fwAF f) && codeOk feat (fwBF f) &&
        fwAF f == tagMatrix ta && fwBF f == tagMatrix tb && (blockStep (fwAF f) (fwBF f) 0).isSome)]
      (0x08, m, n)

/-- TCVT (R246). -/
def execTcvt (c : Ctl) (hd : BitVec 6) (ha : BitVec 6) (sb : SReg) (s : State) : Host.Outcome State Fault Refusal :=
  appendWord c hd (some ha) none sb 1 0x11 0 s fun feat p a _ =>
    let (r, k, _) := dims a
    let f := (p.getD 0 0).toNat
    let t := f % 32
    checked [(1, natBits f 31 12 == 0 && t != 0x08 && tagOk feat t && decide (natBits f 7 5 ≤ 4) &&
      (t == 0x0D || natBits f 11 9 == 0) && (!blockTag t || k % 32 == 0))] (t, r, k)

/-! Handles, configuration, status. -/

/-- TDROP (R255). -/
def execTdrop (c : Ctl) (hd : BitVec 6) (s : State) : Host.Outcome State Fault Refusal :=
  scalarWord c s fun x s =>
    ((s.onGroup (s.wave x.w).group fun g =>
      match AMap.find g.handles hd.toNat with
      | some n => { g with handles := AMap.del g.handles hd.toNat }.release n
      | none => g).fixed x.w c.h.setf x.run 1 []).goto x x.run (x.pc + 1)

/-- The checks of `tcfg` (R252). -/
def tcfgChecks (seqset : BitVec 64) (size : Nat) (g : Group) (p : List Word) : List (Nat × Bool) :=
  let w (k : Nat) : Nat := (p.getD k 0).toNat
  let changed := decide (w 1 / 256 ≠ g.tcfg.capOff ∨ w 2 / 256 ≠ g.tcfg.capSize)
  [(1, natBits (w 0) 31 4 == 0 && seqset.getLsbD (w 0 % 16)), (2, w 1 % 256 == 0),
   (2, !(changed && g.nodes.any fun e => e.2.captured)), (3, w 2 % 256 == 0), (3, decide (w 1 + w 2 ≤ size)),
   (4, w 3 % 64 == 0), (5, natBits (w 4) 31 25 == 0), (6, decide (1 ≤ w 5 ∧ w 5 ≤ 256))]

/-- TCFG (R252). -/
def execTcfg (c : Ctl) (sb : SReg) (s : State) : Host.Outcome State Fault Refusal :=
  scalarWord c s fun x s =>
    let w := s.wave x.w
    let g := s.group w.group
    let p := w.block sb 6
    match firstFail (tcfgChecks (s.die (dieOf w.core)).seqset g.localsize.toNat g p) with
    | some k => s.park x.w x.run x.pc .illegalFormat (BitVec.ofNat 64 k)
    | none =>
      let n (k : Nat) : Nat := (p.getD k 0).toNat
      let farea := n 3 + 2 ^ 32 * n 4
      let s1 := s.onGroup w.group fun g => { g with tcfg :=
        ⟨true, BitVec.ofNat 4 (n 0), n 1 / 256, n 2 / 256, farea, n 5,
          if farea = g.tcfg.farea then g.tcfg.next % n 5 else 0⟩ }
      (s1.fixed x.w c.h.setf x.run 1 []).goto x x.run (x.pc + 1)

/-- A word of variable latency whose scalars are ready (R39). -/
def State.readyResult (s : State) (x : Issue) (setf : BitVec 4) (ws : List RegWrite) : State :=
  (s.onWave x.w fun w => (w.raiseFlag setf).addFlight ⟨.result ws, setf, x.run, []⟩).goto x x.run (x.pc + 1)

/-- TSTAT_COUNTS (R266). -/
def execTstatCounts (c : Ctl) (sb : SReg) (s : State) : Host.Outcome State Fault Refusal :=
  scalarWord c s fun x s =>
    let g := s.group (s.wave x.w).group
    let v := g.nodes.length + 2 ^ 9 * (512 - s.coreNodes g.core) + 2 ^ 19 * g.handles.length + 2 ^ 26 * g.ranges.length
    s.readyResult x c.h.setf [.s sb (BitVec.ofNat 32 v)]

/-- TSTAT_CAP (R266). -/
def execTstatCap (c : Ctl) (sb : SReg) (s : State) : Host.Outcome State Fault Refusal :=
  scalarWord c s fun x s =>
    let g := s.group (s.wave x.w).group
    s.readyResult x c.h.setf [.s sb (BitVec.ofNat 32 (g.nodes.foldl (fun k e => if e.2.captured then k + e.2.units else k) 0))]

/-- STATE of a node record (R233). -/
def Group.nodeState (g : Group) (i : Nat) (n : Node) : Nat :=
  1 + (if n.kept then 2 else 0) + (if n.captured then 4 else 0) +
    if g.ranges.any fun e => e.2.node == i then 8 else 0

/-- TSTAT_NODE (R266). -/
def execTstatNode (c : Ctl) (ha : BitVec 6) (sb : SReg) (s : State) : Host.Outcome State Fault Refusal :=
  scalarWord c s fun x s =>
    let g := s.group (s.wave x.w).group
    let (a, b) := match g.handleNode ha with
      | none => (0, 0)
      | some i => match g.node i with
        | none => (0, 0)
        | some n => (n.rows + 65536 * n.cols,
            n.kind.toNat + 256 * n.sub.toNat + 65536 * n.tag.toNat + 16777216 * g.nodeState i n)
    s.readyResult x c.h.setf [.s sb (BitVec.ofNat 32 a), .s (sb + 1) (BitVec.ofNat 32 b)]

/-- TSTAT_FAULT (R266): the record that sr.tfault locates; a fault on its read parks the run (log entry 34). -/
def execTstatFault (c : Ctl) (sb : SReg) (s : State) : Host.Outcome State Fault Refusal :=
  scalarWord c s fun x s =>
    let w := s.wave x.w
    if !w.tfault.getLsbD 8 then s.readyResult x c.h.setf (scalarWrites sb ((upTo 16).map fun _ => 0))
    else
      let va := (s.group w.group).tcfg.farea + 64 * (w.tfault.toNat % 256)
      match s.loadBytes w.core w.pasid va 64 with
      | (.error (e, a), s1) => s1.park x.w x.run x.pc e (BitVec.ofNat 64 a)
      | (.ok bs, s1) =>
        s1.readyResult x c.h.setf (scalarWrites sb ((upTo 16).map fun k => BitVec.ofNat 32 (bytesValue ((bs.drop (4 * k)).take 4))))

end Sys2Proof.Machine
end

