-- ==== Sys2Proof/Machine/Demands.lean ====
section
/-!
DEFINITION. Demands: acceptance (R247), the value of every element (R240 to R246), output steps (R248), faults and
their records (R257 to R260).
-/

namespace Sys2Proof.Machine

/-! Acceptance. -/

/-- The rows of bytes that a region of a node takes at an address with a stride. -/
def regionRows (tag rows cols addr stride : Nat) : List (Nat × Nat) :=
  (upTo rows).map fun i => (addr + i * stride, tagRowBytes tag cols)

/-- The checks of `tst` and `tforce` in R247: `o` is the number of the origin word. -/
def demandChecks (n : Node) (on : Bool) (p : List Word) (tst : Bool) (size : Nat) : List (Nat × Bool) :=
  let w (k : Nat) : Word := p.getD k 0
  let o := if tst then 2 else 1
  let t := n.tag.toNat
  let al := tagAlign t
  let shape := w (o + 1)
  let rb := tagRowBytes t (shapeCols shape)
  let stride := (w (o + 2)).toNat
  regionChecks (w o) shape n.rows n.cols (blockTag t) (o + 1) (o + 2) ++
    [(0, !blockTag t || n.kind == 0x11), (1, (w 0).toNat % al == 0), (o + 3, stride % al == 0),
     (o + 3, decide (rb ≤ stride)), (1, on)] ++
    (if tst then [(2, natBits (w 1).toNat 31 25 == 0)]
     else [(1, decide ((w 0).toNat < 2 ^ 23 ∧ (w 0).toNat + (shapeRows shape - 1) * stride + rb ≤ size))])

/-- FORMAT of a demand (R254): node, set, trap enables. -/
def demandFormat (node : Nat) (set : BitVec 4) (en : BitVec 5) : Word :=
  BitVec.ofNat 32 (node + 256 * set.toNat + 4096 * en.toNat)

/-- The meaning of `tst` and `tforce` (R247): the flag, the operand handle, the formats, the baton, a place in the
queue, the captures of R264, then acceptance. -/
def demandWord (c : Ctl) (tst : Bool) (ha : BitVec 6) (sb : SReg) (s : State) : Host.Outcome State Fault Refusal :=
  scalarWord c s fun x s =>
    let w := s.wave x.w
    let gi := w.group
    let g := s.group gi
    let p := w.block sb (if tst then 5 else 4)
    if c.h.setf = 15 then s.illegal x
    else
      match g.handleNode ha with
      | none => s.illegal x
      | some ni =>
        match g.node ni with
        | none => s.illegal x
        | some n =>
          match firstFail (demandChecks n g.tcfg.on p tst g.localsize.toNat) with
          | some k => s.park x.w x.run x.pc .illegalFormat (BitVec.ofNat 64 k)
          | none =>
            if !s.commands x.w then s.park x.w x.run x.pc .baton 0
            else if !s.queueRoom x.w then s.hold x
            else
              let accept (s : State) : State :=
                let ms := (s.waves.filter fun e => e.2.group == gi).map fun e => (e.1, e.2.nextOp)
                let s1 := s.enqueue x c.h.setf fun op =>
                  ⟨if tst then 0x1A2 else 0x1A3, 0, 0, false, x.w, w.waveid.setWidth 4,
                    demandFormat ni g.tcfg.set w.fpEnables, c.h.setf, p, some op, x.pc, ms, none, none, 0, none⟩
                s1.onGroup gi fun g => g.retain ni
              if tst then
                let z := p.getD 3 0
                let rows := regionRows n.tag.toNat (shapeRows z) (shapeCols z)
                  ((p.getD 0 0).toNat + 2 ^ 32 * (p.getD 1 0).toNat) (p.getD 4 0).toNat
                let hit := (rows.flatMap fun r => g.viewsHit r.1 r.2).eraseDups
                if hit.isEmpty then accept s
                else if hit.any fun v => !g.canCapture v then s.park x.w x.run x.pc .aliased 0
                else if !s.storesDone gi then s.hold x
                else
                  match s.captureAll gi hit with
                  | none => s.hold x
                  | some s1 =>
                    if hit.all fun v => !((s1.group gi).ranges.any fun e => e.2.node == v) then accept s1
                    else s.park x.w x.run x.pc .aliased 0
              else accept s

/-- TST (R247). -/
def execTst (c : Ctl) (ha : BitVec 6) (sb : SReg) (s : State) : Host.Outcome State Fault Refusal :=
  demandWord c true ha sb s
/-- TFORCE (R247). -/
def execTforce (c : Ctl) (ha : BitVec 6) (sb : SReg) (s : State) : Host.Outcome State Fault Refusal :=
  demandWord c false ha sb s

/-! The value of an element. -/

/-- What a demand computes under: core, group, FTZ and the trap enables W (R248, R251), and the bytes of kept regions as
sampled since it started (R250). -/
structure DCtx where
  core : Nat
  group : Nat
  ftz : Bool
  en : Flags
  kept : SMap 8
deriving DecidableEq, Repr

/-- A fault of an element (R258): how deep its node lies, node, row, column, cause, address, flags. -/
structure DFault where
  depth : Nat
  node : Nat
  row : Nat
  col : Nat
  cause : Cause
  addr : Nat
  flags : Flags
deriving DecidableEq, Repr

/-- An element as it was evaluated: value, exceptions raised, the fault, and whether a translation is missing. -/
structure Ev where
  v : FVal
  fl : Flags
  fault : Option DFault
  stall : Bool

def Ev.val (v : FVal) : Ev := ⟨v, 0, none, false⟩

/-- The deeper of two faults, the first on a tie (R258). -/
def deeper (a b : Option DFault) : Option DFault :=
  match a, b with
  | some x, some y => if x.depth < y.depth then b else a
  | none, b => b
  | a, none => a

/-- The exceptions, faults and stalls of some operands together. -/
def joinEvs (es : List Ev) : Ev :=
  es.foldl (fun a e => ⟨FVal.zero, a.fl ||| e.fl, deeper a.fault e.fault, a.stall || e.stall⟩) (Ev.val FVal.zero)

/-- A node's own value over its operands: a trap-enabled exception stops the demand here (R257). -/
def ownEv (x : DCtx) (depth node i j : Nat) (ops : Ev) (r : FVal × Flags) : Ev :=
  if ops.stall || ops.fault.isSome then ops
  else if r.2 &&& x.en ≠ 0 then ⟨.nan, ops.fl ||| r.2, some ⟨depth, node, i, j, .fpException, 0, r.2⟩, false⟩
  else ⟨r.1, ops.fl ||| r.2, none, false⟩

/-- Evaluates a list of elements in order. -/
def evalAll (f : State → Nat × Nat → Ev × State) (s : State) : List (Nat × Nat) → List Ev × State
  | [] => ([], s)
  | p :: t =>
    let (e, s1) := f s p
    let (es, s2) := evalAll f s1 t
    (e :: es, s2)

/-- An element from bytes in its tag's format: a bad block header is a fault (R241). `blk` holds the whole packed
block of a block format, `at_` its address. -/
def elemOfBytes (depth node i j tag at_ : Nat) (bs : List Byte) : Ev :=
  let rd (k : Nat) : Byte := bs.getD k 0
  let F := tagFmt tag
  let (v, bad) := rowElem rd F 0 (if blockTag tag then j % 32 else 0)
  if bad then ⟨.nan, 0, some ⟨depth, node, i, j, .illegalFormat, at_, 0⟩, false⟩ else Ev.val v

/-- Bytes that reading one element takes (R241). -/
def elemSize (tag : Nat) : Nat := if blockTag tag then blockBytes (tagFmt tag) else tagRowBytes tag 1

/-- Bytes of kept regions, as sampled (R250). -/
def DCtx.keptBytes (x : DCtx) (off n : Nat) : List Byte := (upTo n).map fun k => SMap.get x.kept (off + k)

/-- Bytes of a cluster's scratch space. -/
def State.scratchBytes (s : State) (cl off n : Nat) : List Byte :=
  (upTo n).map fun k => SMap.get (s.cluster cl).scratch (off + k)

/-- Where a kept region holds an element, as an offset in the scratch space (R250). -/
def Node.keptAt (n : Node) (base i j : Nat) : Option Nat :=
  let w (k : Nat) : Word := n.keep.getD k 0
  let r0 := shapeRows (w 1)
  let c0 := shapeCols (w 1)
  if n.kept ∧ r0 ≤ i ∧ i < r0 + shapeRows (w 2) ∧ c0 ≤ j ∧ j < c0 + shapeCols (w 2) then
    some (base + (w 0).toNat + (i - r0) * (w 3).toNat + elemOff n.tag.toNat (j - c0))
  else none

/-- An element of a source view (R241): from its capture, or by plain loads (R263, R265). -/
def State.evalView (s : State) (x : DCtx) (depth node : Nat) (n : Node) (i j : Nat) : Ev × State :=
  let g := s.group x.group
  let t := n.tag.toNat
  let off := elemOff t j
  if n.captured then
    let at_ := g.localbase.toNat + 256 * n.capu + i * tagRowBytes t n.cols + off
    (elemOfBytes depth node i j t at_ (s.scratchBytes (clusterOf x.core) at_ (elemSize t)), s)
  else
    let va := (n.param.getD 0 0).toNat + 2 ^ 32 * ((n.param.getD 1 0).toNat % 2 ^ 25) + i * (n.param.getD 3 0).toNat + off
    match s.loadBytes x.core g.pasid va (elemSize t) with
    | (.error (.translation, _), s1) => (⟨.nan, 0, none, true⟩, s1)
    | (.error (c, a), s1) => (⟨.nan, 0, some ⟨depth, node, i, j, c, a, 0⟩, false⟩, s1)
    | (.ok bs, s1) => (elemOfBytes depth node i j t va bs, s1)

/-- The running sums of `tscan` (R240, R93): the first that traps stops the demand. -/
def scanEvs (x : DCtx) (depth node : Nat) (pos : Nat → Nat × Nat) : Nat → List Ev → Option FVal → Flags → Ev
  | _, [], acc, fl => ⟨acc.getD FVal.zero, fl, none, false⟩
  | k, e :: t, acc, fl =>
    let r := match acc with
      | none => rneF32 e.v
      | some a =>
        let (s, f) := fAdd false a e.v
        let (q, g) := rneF32 s
        (q, f ||| g)
    if r.2 &&& x.en ≠ 0 then
      ⟨.nan, fl ||| r.2, some ⟨depth, node, (pos k).1, (pos k).2, .fpException, 0, r.2⟩, false⟩
    else scanEvs x depth node pos (k + 1) t (some r.1) (fl ||| r.2)

/-- Blocks of 32 (R93). -/
def chunks32 {α : Type} : Nat → List α → List (List α)
  | 0, _ => []
  | k + 1, l => if l.isEmpty then [] else l.take 32 :: chunks32 k (l.drop 32)

/-- The encoding of a block of a `tcvt` node: under AUTO or its TYPE, with its RND and SAT (R246). -/
def Node.encode (n : Node) (xs : List FVal) : EncBlock :=
  let f := (n.param.getD 0 0).toNat
  let m := rndOf (natBits f 7 5)
  let sat := natBits f 8 8 == 1
  if natBits f 11 11 = 1 then encodeAuto m sat xs else encodeBlock (n.tag == 0x0E) (natBits f 10 9) m sat xs

/-- Eval(n, i, j) (R240): `k` bounds the depth of the nodes. -/
def State.eval (x : DCtx) : Nat → State → Nat → Nat → Nat → Ev × State
  | 0, s, _, _, _ => (Ev.val .nan, s)
  | k + 1, s, node, i, j =>
    let g := s.group x.group
    let depth := 300 - k
    match g.node node with
    | none => (Ev.val .nan, s)
    | some n =>
      let t := n.tag.toNat
      let a := n.opa.getD 0
      let b := n.opb.getD 0
      let p (q : Nat) : Word := n.param.getD q 0
      let A (s : State) (i j : Nat) : Ev × State := State.eval x k s a i j
      let B (s : State) (i j : Nat) : Ev × State := State.eval x k s b i j
      let dimA := dims (g.node a)
      let un (f : FVal → FVal × Flags) : Ev × State :=
        let (e, s1) := A s i j
        (ownEv x depth node i j e (f e.v), s1)
      let bin (f : FVal → FVal → FVal × Flags) : Ev × State :=
        let (e, s1) := A s i j
        let (e', s2) := B s1 i j
        (ownEv x depth node i j (joinEvs [e, e']) (f (ftzIn x.ftz e.v) (ftzIn x.ftz e'.v)), s2)
      let rt (r : FVal × Flags) : FVal × Flags :=
        let (v, f) := roundTo fmtF32 .rne false x.ftz r.1
        (v, r.2 ||| f)
      match n.keptAt g.localbase.toNat i j with
      | some at_ => (elemOfBytes depth node i j t at_ (x.keptBytes at_ (elemSize t)), s)
      | none =>
        match n.kind.toNat with
        | 0x00 => s.evalView x depth node n i j
        | 0x01 => (Ev.val (f32 (p 1)), s)
        | 0x02 =>
          let term (w : Word) (m : Nat) : FVal := (fMul (ftzIn x.ftz (f32 w)) (.fin false m 1)).1
          let (s1, _) := fAdd false (ftzIn x.ftz (f32 (p 1))) (term (p 2) i)
          let (s2, _) := fAdd false s1 (term (p 3) j)
          -- the flags of its one rounding (R244)
          let (v, f) := rt (s2, 0)
          (ownEv x depth node i j (Ev.val FVal.zero) (v, f), s)
        | 0x03 =>
          match n.sub.toNat with
          | 0 => A s j i
          | 1 => A s (shapeRows (p 0) + i) (shapeCols (p 0) + j)
          | 2 => A s 0 j
          | 3 => A s i 0
          | 4 => A s (n.rows - 1 - i) j
          | 5 => A s i (n.cols - 1 - j)
          | _ =>
            let r : Int := i - ((p 0).extractLsb' 0 16).toInt
            let c : Int := j - ((p 0).extractLsb' 16 16).toInt
            if 0 ≤ r ∧ r < n.rows ∧ 0 ≤ c ∧ c < n.cols then A s r.toNat c.toNat else (Ev.val (f32 (p 1)), s)
        | 0x04 => bin fun u v => rt (fAdd false u v)
        | 0x05 => bin fun u v => rt (fAdd false u v.neg)
        | 0x06 => bin fun u v => rt (fMul u v)
        | 0x07 => bin fun u v => (ftzIn x.ftz (fMax u v), 0)
        | 0x08 => bin fun u v => (ftzIn x.ftz (fMin u v), 0)
        | 0x09 => un fun v => SFun.exp.apply false x.ftz v
        | 0x0A => un fun v => SFun.log.apply false x.ftz v
        | 0x0B => un fun v => SFun.rcp.apply false x.ftz v
        | 0x0C => un fun v => SFun.sig.apply false x.ftz v
        | 0x0D =>
          let lim : Int := Int.ofNat i + (p 0).toInt
          let keep := if n.sub = 0 then decide (Int.ofNat j ≤ lim) else decide (lim ≤ Int.ofNat j)
          if keep then A s i j else (Ev.val (f32 (p 1)), s)
        | 0x0E =>
          let ps := if n.sub = 0 then (upTo (j + 1)).map fun q => (i, q) else (upTo (i + 1)).map fun q => (q, j)
          let (es, s1) := evalAll (fun s q => A s q.1 q.2) s ps
          let ops := joinEvs es
          if ops.stall || ops.fault.isSome then (ops, s1)
          else (scanEvs x depth node (fun q => ps.getD q (i, j)) 0 es none ops.fl, s1)
        | 0x0F =>
          let ps := if n.sub.getLsbD 0 then (upTo dimA.1).map fun q => (q, j) else (upTo dimA.2.1).map fun q => (i, q)
          let (es, s1) := evalAll (fun s q => A s q.1 q.2) s ps
          let r : FVal × Flags :=
            if n.sub.toNat < 2 then
              dotBlocks FVal.zero (chunks32 es.length (es.map fun e => (e.v, 0)))
            else
              match es.map fun e => ftzIn x.ftz e.v with
              | [] => (FVal.zero, 0)
              | v :: t => (ftzIn x.ftz (t.foldl fMax v), 0)
          (ownEv x depth node i j (joinEvs es) r, s1)
        | 0x10 =>
          let kk := dimA.2.1
          let (ea, s1) := evalAll (fun s q => A s q.1 q.2) s ((upTo kk).map fun q => (i, q))
          let (eb, s2) := evalAll (fun s q => B s q.1 q.2) s1 ((upTo kk).map fun q => (q, j))
          let ts := (ea.zip eb).map fun e => dotTerm (fwNeg (p 0)) e.1.v e.2.v
          (ownEv x depth node i j (joinEvs (ea ++ eb)) (dotBlocks FVal.zero (chunks32 ts.length ts)), s2)
        | _ =>
          if blockTag t then
            let (es, s1) := evalAll (fun s q => A s q.1 q.2) s ((upTo 32).map fun q => (i, j / 32 * 32 + q))
            let e := n.encode (es.map fun (e : Ev) => e.v)
            let fl := e.flags.getD (j % 32) 0 ||| (if e.bad then flagIV else 0)
            (ownEv x depth node i j (joinEvs es) (blockElem (t == 0x0E) e.hdr (e.codes.getD (j % 32) 0), fl), s1)
          else
            un fun v =>
              let f := (p 0).toNat
              let (r, fl) := roundTo ((fmtFloat (tagFmt t)).getD fmtF32) (rndOf (natBits f 7 5)) (natBits f 8 8 == 1) false v
              (((fmtFloat (tagFmt t)).getD fmtF32).decode (((fmtFloat (tagFmt t)).getD fmtF32).encode r), fl)

/-! Output steps. -/

/-- Node, set and trap enables of a demand (R254). -/
def Cmd.dnode (c : Cmd) : Nat := natBits c.format.toNat 7 0
def Cmd.dctx (c : Cmd) (core g : Nat) : DCtx :=
  ⟨core, g, c.format.getLsbD 9, BitVec.ofNat 5 (natBits c.format.toNat 16 12), c.snap.getD []⟩
/-- STEPORD of a demand's set (R251). -/
def Cmd.stepord (c : Cmd) : Bool := c.format.getLsbD 8
def Cmd.isTst (c : Cmd) : Bool := c.op == 0x1A2
/-- Origin, shape and stride of a demand's region. -/
def Cmd.origin (c : Cmd) : Word := c.desc.getD (if c.isTst then 2 else 1) 0
def Cmd.shape (c : Cmd) : Word := c.desc.getD (if c.isTst then 3 else 2) 0
def Cmd.stride (c : Cmd) : Nat := (c.desc.getD (if c.isTst then 4 else 3) 0).toNat

/-- The output steps that meet a demand's region, in its set's order (R248, R251), as row and column blocks. -/
def Cmd.outSteps (c : Cmd) : List (Nat × Nat) :=
  let r0 := shapeRows c.origin / 128
  let r1 := (shapeRows c.origin + shapeRows c.shape - 1) / 128
  let c0 := shapeCols c.origin / 128
  let c1 := (shapeCols c.origin + shapeCols c.shape - 1) / 128
  let rs := (upTo (r1 + 1 - r0)).map fun k => r0 + k
  let cs := (upTo (c1 + 1 - c0)).map fun k => c0 + k
  if c.stepord then cs.flatMap fun b => rs.map fun a => (a, b) else rs.flatMap fun a => cs.map fun b => (a, b)

/-- The rows and columns of a step that lie in the region: first row, end, first column, end. -/
def Cmd.stepRegion (c : Cmd) (st : Nat × Nat) : Nat × Nat × Nat × Nat :=
  (max (128 * st.1) (shapeRows c.origin), min (128 * (st.1 + 1)) (shapeRows c.origin + shapeRows c.shape),
   max (128 * st.2) (shapeCols c.origin), min (128 * (st.2 + 1)) (shapeCols c.origin + shapeCols c.shape))

/-- The bytes of evaluated elements of a row in a tag's format. -/
def rowOfEvs (tag : Nat) (es : List Ev) : List Byte :=
  es.flatMap fun e => leBytes (((fmtFloat (tagFmt tag)).getD fmtF32).encode e.v) (tagRowBytes tag 1)

/-- The packed blocks of a row of a `tcvt` node of a block format: kept blocks as they stand, others encoded (R246,
R250). -/
def State.blockRow (s : State) (x : DCtx) (node : Nat) (n : Node) (i c0 : Nat) : Nat → List Byte × State
  | 0 => ([], s)
  | k + 1 =>
    let g := s.group x.group
    let (bs, s1) := match n.keptAt g.localbase.toNat i c0 with
      | some at_ => (x.keptBytes at_ (elemSize n.tag.toNat), s)
      | none =>
        let (es, s1) := evalAll (fun s q => State.eval x 299 s (n.opa.getD 0) q.1 q.2) s
          ((upTo 32).map fun q => (i, c0 + q))
        (packBlock (n.tag == 0x0E) (n.encode (es.map fun (e : Ev) => e.v)), s1)
    let (rest, s2) := s1.blockRow x node n i (c0 + 32) k
    (bs ++ rest, s2)

/-- Columns of an element, or of a packed block, and its bytes. -/
def elemUnit (tag : Nat) : Nat × Nat := if blockTag tag then (32, elemSize tag) else (1, tagRowBytes tag 1)

/-- Writes the rows of a step: the first byte that faults, with the row and column of its element. -/
def State.writeRows (s : State) (x : DCtx) (c : Cmd) (tag c0 : Nat) :
    List (Nat × List Byte) → Option (Cause × Nat × Nat × Nat) × State
  | [] => (none, s)
  | (i, bs) :: t =>
    let g := s.group x.group
    let off := (i - shapeRows c.origin) * c.stride + elemOff tag (c0 - shapeCols c.origin)
    if c.isTst then
      let row := (c.desc.getD 0 0).toNat + 2 ^ 32 * (c.desc.getD 1 0).toNat + off
      match s.storeBytes x.core g.pasid row bs with
      | (some (e, a), s1) => (some (e, a, i, c0 + (elemUnit tag).1 * ((a - row) / (elemUnit tag).2)), s1)
      | (none, s1) => s1.writeRows x c tag c0 t
    else
      (s.scratchWrite (clusterOf x.core) (g.localbase.toNat + (c.desc.getD 0 0).toNat + off) bs).writeRows x c tag c0 t

/-- The fields of a fault record (R259). -/
def faultRecord (c : Cmd) (n : Node) (f : DFault) (steps : Nat) : List Byte :=
  leBytes c.pc.toNat 4 ++ leBytes n.apc.toNat 4 ++ leBytes f.node 2 ++ leBytes f.cause.code.toNat 1 ++
    leBytes n.kind.toNat 1 ++ leBytes f.row 2 ++ leBytes f.col 2 ++ leBytes (f.addr % 2 ^ 57) 8 ++
    leBytes f.flags.toNat 4 ++ leBytes c.wid.toNat 1 ++ leBytes c.flag.toNat 1 ++ leBytes 1 1 ++ leBytes 0 1 ++
    leBytes steps 4 ++ leBytes 0 28

/-- Ends the launch of a group for a fault of one of its demands (R258, R260). -/
def State.endForDemand (s : State) (g : Nat) (c : Cmd) (addr : Nat) : State :=
  let x := s.group g
  if (AMap.find s.waves c.wave).isSome then s.endLaunch c.wave .tileFault c.pc (BitVec.ofNat 64 addr)
  else s.endWith x.launch ⟨Cause.tileFault.code, c.pc, BitVec.ofNat 64 addr, (s.launch x.launch).lref,
    BitVec.ofNat 32 (16777216 * c.wid.toNat), 0, 0⟩

/-- A demand leaves the queue: its node's reference is released, its flag falls (R249, R258). -/
def State.retireDemand (s : State) (core g : Nat) (c : Cmd) : State :=
  let s1 := s.onGroup g fun x =>
    { x with nodes := AMap.adjust x.nodes c.dnode fun n => { n with prog := 0 } }.release c.dnode
  (s1.retireCmd g c).engineIdle core g

/-- A demand stops (R258): its record goes to the ring through the L1, unless the slot still holds a pending one; none
while the record's write must wait. -/
def State.stopDemand (s : State) (core g : Nat) (c : Cmd) (f : DFault) (steps : Nat) : Option State :=
  let x := s.group g
  let va := x.tcfg.farea + 64 * x.tcfg.next
  let fail (s : State) : State := (s.endForDemand g c f.addr).retireDemand core g c
  match s.loadByte core x.pasid (va + 0x1E) with
  | (.error .translation, _) => none
  | (.error _, s1) => some (fail s1)
  | (.ok b, s1) =>
    if b.getLsbD 0 then some (fail s1)
    else
      let n := (x.node f.node).getD ⟨0, 0, 0x08, false, false, 0, none, none, 0, 0, 0, 0, 0, [], [], 0⟩
      match s1.storeBytes core x.pasid va (faultRecord c n f steps) with
      | (some (.translation, _), _) => none
      | (some _, s2) => some (fail s2)
      | (none, s2) =>
        let s3 := s2.onGroup g fun y => { y with tcfg := { y.tcfg with next := (y.tcfg.next + 1) % y.tcfg.nrec } }
        let s4 := s3.retireDemand core g c
        if (AMap.find s4.waves c.wave).isSome then
          some (s4.onWave c.wave fun w => { w with
            tileFaults := w.tileFaults ++ [⟨c.flag, x.tcfg.next, va, BitVec.ofNat 64 (f.addr % 2 ^ 57)⟩] })
        else some (s4.endForDemand g c f.addr)

/-- The head demand of the group that a core's engine serves. -/
def State.demandAt (s : State) (core : Nat) : Option (Nat × Cmd × Node) :=
  match (s.core core).engine with
  | none => none
  | some (g, _) =>
    match (s.group g).queue with
    | c :: _ =>
      if c.isDemand then
        match (s.group g).node c.dnode with
        | some n => some (g, c, n)
        | none => none
      else none
    | [] => none

/-- The rows of an output step, with the bytes of those of its columns that lie in the region. -/
def State.stepBytes (s : State) (x : DCtx) (c : Cmd) (n : Node) (st : Nat × Nat) (es : List Ev) :
    List (Nat × List Byte) × State :=
  let (r0, r1, c0, c1) := c.stepRegion st
  let rows := (upTo (r1 - r0)).map fun k => r0 + k
  if blockTag n.tag.toNat then
    rows.foldl (fun (r : List (Nat × List Byte) × State) i =>
      let (bs, s3) := r.2.blockRow x c.dnode n i c0 ((c1 - c0) / 32)
      (r.1 ++ [(i, bs)], s3)) ([], s)
  else ((upTo rows.length).map fun k =>
      (rows.getD k 0, rowOfEvs n.tag.toNat ((es.drop (k * (c1 - c0))).take (c1 - c0))), s)

/-- The elements of an output step, in row-major order (R248). -/
def State.stepElems (s : State) (x : DCtx) (c : Cmd) (st : Nat × Nat) : List Ev × State :=
  let (r0, r1, c0, c1) := c.stepRegion st
  let cells := (upTo (r1 - r0)).flatMap fun i => (upTo (c1 - c0)).map fun k => (r0 + i, c0 + k)
  evalAll (fun s q => State.eval x 300 s c.dnode q.1 q.2) s cells

/-- The flags that a step's elements raise. -/
def stepFlags (es : List Ev) : Flags := es.foldl (fun a e => a ||| e.fl) 0

/-- One output step (R248): none while it must wait. The first element that faults stops the demand, whatever a later one
waits for (R258). -/
def State.demandStep (s : State) (core g : Nat) (c : Cmd) (n : Node) (st : Nat × Nat) : Option State :=
  let x := c.dctx core g
  let (_, _, c0, _) := c.stepRegion st
  let (es, s1) := s.stepElems x c st
  match es.find? fun e => e.stall || e.fault.isSome with
  | some ⟨_, _, _, true⟩ => none
  | some ⟨_, _, none, false⟩ => none
  | some ⟨_, _, some f, false⟩ =>
    let (v, s2) := s1.free
    let s3 := s2.onGroup g fun y => { y with sticky := y.sticky ||| f.flags ||| (stepFlags es &&& v.setWidth 5) }
    s3.stopDemand core g c f n.prog
  | none =>
    let (bytes, s2) := s1.stepBytes x c n st es
    match s2.writeRows x c n.tag.toNat c0 bytes with
    | (some (.translation, _, _, _), _) => none
    | (some (e, a, i, j), _) => s2.stopDemand core g c ⟨0, c.dnode, i, j, e, a, 0⟩ n.prog
    | (none, s3) =>
      some (s3.onGroup g fun y => { y with
        sticky := y.sticky ||| stepFlags es,
        nodes := AMap.adjust y.nodes c.dnode fun n => { n with prog := n.prog + 1 } })

/-- What a step that a halt discards may leave (R254): the bytes of some of its rows, and some of its flags. -/
def State.discardedStep (s : State) (core g : Nat) (c : Cmd) (n : Node) (st : Nat × Nat) : State :=
  let x := c.dctx core g
  let (_, _, c0, _) := c.stepRegion st
  let (es, s1) := s.stepElems x c st
  if es.any fun e => e.stall || e.fault.isSome then s
  else
    let (bytes, s2) := s1.stepBytes x c n st es
    let (rows, s3) := s2.free
    let (fl, s4) := s3.free
    match s4.writeRows x c n.tag.toNat c0 (bytes.take (rows.toNat % (bytes.length + 1))) with
    | (some _, _) => s
    | (none, s5) => s5.onGroup g fun y => { y with sticky := y.sticky ||| (stepFlags es &&& fl.setWidth 5) }

/-- DEMAND_OUTPUT_STEP (R248). -/
def execDemandOutputStep (core : Nat) (s : State) : Host.Outcome State Fault Refusal :=
  .next <|
    let s1 := s.sampleEngine core
    match s1.demandAt core with
    | none => s
    | some (g, c, n) =>
      match c.outSteps[n.prog]? with
      | none => s
      | some st => (s1.demandStep core g c n st).getD s

/-- DEMAND_COMPLETE (R248, R249): every step is written; a `tforce` keeps its region. -/
def execDemandComplete (core : Nat) (s : State) : Host.Outcome State Fault Refusal :=
  .next <|
    match s.demandAt core with
    | none => s
    | some (g, c, n) =>
      if n.prog < c.outSteps.length then s
      else
        let s1 := if c.isTst then s
          else s.onGroup g fun y => { y with nodes := AMap.adjust y.nodes c.dnode fun n =>
            { n with kept := true, keep := [c.desc.getD 0 0, c.origin, c.shape, c.desc.getD 3 0] } }
        s1.retireDemand core g c

end Sys2Proof.Machine
end

