-- ==== Sys2Proof/Machine/Saved.lean ====
section
/-!
DEFINITION. The images of groups and the records of cohorts in memory (R174, R228, R229, R233, R234, R383): what a halt
writes and a restore reads.
-/

namespace Sys2Proof.Machine

/-! The group control page (R174). -/

/-- The offset of the group control page in a group image. -/
def groupPageOff (g : Nat) : Nat := groupImageOff g + 0x80000

/-- The word of a barrier (R174): its counts are 0 while no wave has arrived (R178). -/
def Group.barWord (g : Group) (b : Barrier) : Nat :=
  popcount 16 b.arrived.toNat + 2 ^ 8 * (if b.arrived = 0 then 0 else g.expected b) + (if b.gen then 2 ^ 16 else 0) + 2 ^ 32 * b.arrived.toNat

/-- The header report that a halt saves: the pending one, else that of the product it interrupts (R227, R228). -/
def Group.savedReport (g : Group) : Option (BitVec 23 × Nat × BitVec 4) :=
  match g.report, g.queue with
  | none, c :: _ => c.reportOf none c.bad
  | r, _ => r

/-- The matrix progress word (R228). -/
def Group.progress (g : Group) : Nat :=
  (match g.savedReport with
    | some (o, _, wid) => 2 ^ 33 * o.toNat + 2 ^ 32 + 2 ^ 28 * wid.toNat
    | none => 0) +
  2 ^ 17 * (match g.queue with
    | c :: _ => c.step
    | [] => 0) +
  (match g.pass with
    | some .free => 2 ^ 16
    | some (.wave w) => 2 ^ 16 + 2 ^ 15 + 2 ^ 11 * w.toNat
    | none => 0) +
  2 ^ 5 * g.queue.length + g.sticky.toNat

/-- The fields of a group's control page (R174, R228, R234). -/
def Group.pageFields (g : Group) (outstanding : Nat) : List PageField :=
  let t := g.tcfg
  ((upTo 16).map fun b => (8 * b, 8, g.barWord (g.bar (BitVec.ofNat 4 b)))) ++
  [(0x080, 8, (match g.baton with
      | some w => w.toNat
      | none => 0xFF) + 2 ^ 16 * outstanding),
   (0x088, 8, g.progress), (0x090, 8, t.farea), (0x098, 4, 2 ^ 15 * t.capSize + t.capOff),
   (0x09C, 4, (if t.on then 2 ^ 20 else 0) + 2 ^ 12 * t.next + 2 ^ 4 * (t.nrec - 1) + t.set.toNat),
   (0x0A0, 4, g.waves + 2 ^ 16 * g.ended.toNat)] ++
  (g.handles.map fun e => (0x100 + 8 * e.1, 8, 2 ^ 8 + e.2)) ++
  g.ranges.flatMap fun e =>
    [(0x300 + 16 * e.1, 8, e.2.first), (0x308 + 16 * e.1, 8, 2 ^ 56 + 2 ^ 48 * e.2.node + (e.2.len - 1))]

/-- The fields of a node's record (R233). -/
def Group.nodeFields (g : Group) (i : Nat) (n : Node) : List PageField :=
  let opd : Option Nat → Nat := fun o => o.getD 0xFFFF
  [(0x00, 1, n.kind.toNat), (0x01, 1, n.sub.toNat), (0x02, 1, n.tag.toNat), (0x03, 1, g.nodeState i n),
   (0x04, 2, n.refs), (0x06, 2, opd n.opa), (0x08, 2, opd n.opb), (0x0A, 2, n.rows), (0x0C, 2, n.cols),
   (0x0E, 2, n.capu), (0x10, 4, n.apc.toNat), (0x14, 4, n.prog)] ++
  ((upTo 6).map fun k => (0x18 + 4 * k, 4, (n.param.getD k 0).toNat)) ++
  (upTo 4).map fun k => (0x30 + 4 * k, 4, (n.keep.getD k 0).toNat)

/-- The fields of a command's record in the matrix save area (R229, R254). -/
def Cmd.fields (c : Cmd) : List PageField :=
  [(0x00, 4, c.op.toNat + 2 ^ 9 * c.acc.toNat + 2 ^ 12 * c.sub.toNat + (if c.follow then 2 ^ 19 else 0) +
      2 ^ 20 * c.wid.toNat), (0x04, 4, c.format.toNat), (0x08, 4, c.flag.toNat)] ++
  (upTo 5).map fun k => (0x0C + 4 * k, 4, (c.desc.getD k 0).toNat)

/-- The offset of node n in a group image (R174). -/
def nodeOff (g n : Nat) : Nat := groupImageOff g + 0x81000 + 64 * n

/-- The address of a group's matrix save area (R229). -/
def State.saveArea (s : State) (pasid : BitVec 20) (image : Nat) : Nat :=
  match AMap.find s.contexts pasid.toNat with
  | some x => x.desc.msave.toNat + 256 * image
  | none => 0

/-- Writes a group's control page, its nodes and its command queue (R174, R197, R229, R233). -/
def State.saveGroup (s : State) (g : Nat) : State :=
  let y := s.group g
  let s1 := s.writePage y.pasid (groupPageOff y.image) (y.pageFields (s.outstandingOps g))
  let s2 := (upTo 256).foldl (fun s i =>
    match y.node i with
    | some n => (y.nodeFields i n).foldl (fun s f => s.imageWrite y.pasid (nodeOff y.image i + f.1) f.2.1 f.2.2) s
    | none => s.imageWrite y.pasid (nodeOff y.image i + 3) 1 0) s1
  let base := s2.saveArea y.pasid y.image
  (upTo y.queue.length).foldl (fun s k =>
    match y.queue[k]? with
    | some c => c.fields.foldl (fun s f => s.areaWrite y.pasid (base + 32 * k + f.1) f.2.1 f.2.2) s
    | none => s) s2

/-- A barrier as its word gives it; one that stands as it was written keeps the rule of its expected count (R178). -/
def Group.barOf (g : Group) (b : Barrier) (v : Nat) : Barrier :=
  if v = g.barWord b then b else ⟨BitVec.ofNat 16 (v / 2 ^ 32), natBits v 12 8, natBits v 16 16 == 1⟩

/-- A node as its record gives it (R233), none for a free one. `age` is the model's own. -/
def nodeOf (rd : Nat → Nat → Nat) (age : Nat) : Option Node :=
  if rd 0x03 1 % 2 = 0 then none
  else
    let opd (v : Nat) : Option Nat := if v = 0xFFFF then none else some v
    let word (o : Nat) : Word := BitVec.ofNat 32 (rd o 4)
    some { kind := BitVec.ofNat 8 (rd 0 1), sub := BitVec.ofNat 8 (rd 1 1), tag := BitVec.ofNat 8 (rd 2 1),
           kept := natBits (rd 3 1) 1 1 == 1, captured := natBits (rd 3 1) 2 2 == 1, refs := rd 4 2,
           opa := opd (rd 6 2), opb := opd (rd 8 2), rows := rd 0x0A 2, cols := rd 0x0C 2, capu := rd 0x0E 2,
           apc := word 0x10, prog := rd 0x14 4, param := (upTo 6).map fun k => word (0x18 + 4 * k),
           keep := (upTo 4).map fun k => word (0x30 + 4 * k), age := age }

/-- The operation of a wave that a command with a SETF flag completes: the oldest of its commands that holds the flag. -/
def Wave.commandOp (w : Wave) (flag : BitVec 4) : Option Nat :=
  (w.flights.find? fun e => e.2.kind == .command && e.2.flag == flag).map fun e => e.1

/-- A command as its record gives it, over the command it was (R229). `who` is the issuing wave, whose flag falls; a
command that keeps wave and flag keeps its operation. -/
def Cmd.ofRecord (c : Cmd) (rd : Nat → Nat → Nat) (who : Nat → Nat) (opOf : Nat → BitVec 4 → Option Nat) : Cmd :=
  let w := rd 0 4
  let v := who (natBits w 23 20)
  let flag := BitVec.ofNat 4 (rd 8 4)
  { c with
    wave := v,
    opId := if natBits w 19 19 = 1 then none else if v = c.wave ∧ flag = c.flag then c.opId else opOf v flag,
    op := BitVec.ofNat 9 w, acc := BitVec.ofNat 3 (natBits w 11 9), sub := BitVec.ofNat 7 (natBits w 18 12),
    follow := natBits w 19 19 == 1, wid := BitVec.ofNat 4 (natBits w 23 20), format := BitVec.ofNat 32 (rd 4 4),
    flag := flag, desc := (upTo (max c.desc.length 5)).map fun k =>
      if k < 5 then BitVec.ofNat 32 (rd (0x0C + 4 * k) 4) else c.desc.getD k 0 }

/-- The operation codes that a record may hold (R229, R254). -/
def savedOps : List Nat := [0x180, 0x181, 0x182, 0x183, 0x184, 0x185, 0x1A2, 0x1A3]

/-- The consistency of a group's image (R229, R233). -/
def groupImageOk (saved : Nat) (cmds : List Cmd) (nodes : List (Nat × Node)) : Bool :=
  decide (saved ≤ 8) && cmds.all (fun c => savedOps.contains c.op.toNat) &&
  nodes.all fun e =>
    let live (o : Option Nat) : Bool := match o with
      | some k => (AMap.find nodes k).isSome
      | none => true
    decide (e.2.kind.toNat ≤ 0x11) && live e.2.opa && live e.2.opb

/-- Reads a group's control page, nodes and queue back over the record it had (R198); none when the image is corrupt. -/
def State.loadGroup (s : State) (g : Nat) : Option State :=
  let y := s.group g
  let rd (o n : Nat) : Nat := s.imageRead y.pasid (groupPageOff y.image + o) n
  let prog := rd 0x088 8
  let saved := natBits prog 8 5
  let base := s.saveArea y.pasid y.image
  let blank : Cmd := ⟨0, 0, 0, false, 0, 0, 0, 15, [], none, 0, [], none, none, 0, none⟩
  let waveOf (wid : Nat) : Nat := match s.waves.find? fun e => e.2.group == g && e.2.waveid.toNat == wid with
    | some e => e.1
    | none => 0
  -- the report of an interrupted product stays with it (R227)
  let own := y.report.isNone && natBits prog 32 32 == 1 && y.savedReport.isSome
  let cmds := (upTo (min saved 8)).map fun k =>
    let old := (y.queue[k]?).getD blank
    let c := old.ofRecord (fun o n => s.areaRead y.pasid (base + 32 * k + o) n)
      (fun wid => if wid = old.wid.toNat then old.wave else waveOf wid) fun v f => (s.wave v).commandOp f
    if k = 0 then { c with step := natBits prog 27 17, bad := if own then some (BitVec.ofNat 23 (prog / 2 ^ 33)) else none }
    else c
  let nodes := (upTo 256).filterMap fun i =>
    (nodeOf (fun o n => s.imageRead y.pasid (nodeOff y.image i + o) n) (match y.node i with
      | some n => n.age
      | none => i)).map fun n => (i, n)
  let tw := rd 0x09C 4
  if !groupImageOk saved cmds nodes then none
  else
    some <| s.onGroup g fun y => { y with
      ended := BitVec.ofNat 16 (rd 0x0A0 4 / 2 ^ 16),
      waves := natBits (rd 0x0A0 4) 4 0,
      bars := (upTo 16).filterMap fun b =>
        let x := y.barOf (y.bar (BitVec.ofNat 4 b)) (rd (8 * b) 8)
        if x = Barrier.fresh ∧ AMap.find y.bars b = none then none else some (b, x),
      baton := if rd 0x080 1 = 0xFF then none else some (BitVec.ofNat 4 (rd 0x080 1)),
      pass := if natBits prog 16 16 = 0 then none
        else if natBits prog 15 15 = 0 then some .free else some (.wave (BitVec.ofNat 4 (natBits prog 14 11))),
      sticky := BitVec.ofNat 5 prog,
      report := if natBits prog 32 32 = 0 ∨ own then none
        else
          let hw := natBits prog 31 28
          some (BitVec.ofNat 23 (prog / 2 ^ 33), waveOf hw, BitVec.ofNat 4 hw),
      queue := cmds, nodes := nodes,
      handles := (upTo 64).filterMap fun h =>
        let v := rd (0x100 + 8 * h) 8
        if natBits v 8 8 = 1 then some (h, v % 256) else none,
      ranges := (upTo 32).filterMap fun k =>
        let v := rd (0x308 + 16 * k) 8
        if natBits v 56 56 = 1 then some (k, ⟨rd (0x300 + 16 * k) 8, natBits v 47 0 + 1, natBits v 55 48⟩) else none,
      tcfg := ⟨natBits tw 20 20 == 1, BitVec.ofNat 4 tw, natBits (rd 0x098 4) 14 0, natBits (rd 0x098 4) 29 15,
        rd 0x090 8, natBits tw 11 4 + 1, natBits tw 19 12⟩ }

/-! Cohort records (R383). -/

/-- Writes a cohort's record at its halt. -/
def State.saveCohort (s : State) (c : Nat) : State :=
  let h := s.cohort c
  let ws := s.cohortWaves c
  let bars := (upTo 16).map fun b =>
    (0x340 + 4 * b, 4, (ws.filter fun e => e.2.arrivals.getLsbD b).length + 2 ^ 8 * ws.length +
      if h.bars.getLsbD b then 2 ^ 16 else 0)
  let t := h.task.getD ⟨0, 0, 0⟩
  let s1 := (upTo 128).foldl (fun s k => s.writeCohort c [(8 * k, 8, 0)]) s
  s1.writeCohort c (h.tlFields ++ bars ++
    [(0x380, 4, t.cur.toNat), (0x384, 4, t.hi.toNat), (0x388, 4, t.grain.toNat), (0x390, 4, h.base), (0x394, 4, h.size),
     (0x398, 4, h.cluster / 12 + 16 * (h.cluster % 12)), (0x39C, 4, h.count)])

/-- A timeline as its record gives it, over what it was; completions above its value are the engine's own. -/
def Tl.ofRecord (t : Tl) (rd : Nat → Nat → Nat) (o fo : Nat) : Tl :=
  let c := rd (fo + 8) 8
  { t with
    value := rd o 8, accepted := rd (o + 8) 8,
    fail := if rd fo 8 = 0 then none
      else some (rd fo 8, (Cause.ofCode (c / 2 ^ 57)).getD .access, c % 2 ^ 57) }

/-- Reads a cohort's record at its restore. -/
def State.loadCohort (s : State) (c : Nat) : State :=
  let h := s.cohort c
  match AMap.find s.contexts h.pasid.toNat with
  | none => s
  | some x =>
    let rd (o n : Nat) : Nat := s.areaRead h.pasid (x.desc.cohrec.toNat + 1024 * h.record + o) n
    let word (o : Nat) : Word := BitVec.ofNat 32 (rd o 4)
    s.onCohort c fun h => { h with
      copy := h.copy.ofRecord rd 0x000 0x020, trav := h.trav.ofRecord rd 0x010 0x030,
      nmv := (upTo 24).filterMap fun k =>
        let t := (AMap.getD h.nmv k Tl.fresh).ofRecord rd (0x040 + 16 * k) (0x1C0 + 16 * k)
        if t = Tl.fresh ∧ AMap.find h.nmv k = none then none else some (k, t),
      base := rd 0x390 4, size := rd 0x394 4, count := rd 0x39C 4 % 16,
      bars := (upTo 16).foldl (fun m b =>
        if natBits (rd (0x340 + 4 * b) 4) 16 16 = 1 then m ||| BitVec.ofNat 16 (2 ^ b) else m) 0,
      task := h.task.map fun _ => ⟨word 0x380, word 0x384, word 0x388⟩ }

end Sys2Proof.Machine
end

