-- ==== Sys2Proof/Machine/CoreEvents.lean ====
section
/-!
DEFINITION. The events of a core: completions (R39, R150 to R156), waits (R108, R157, R177), traps (R25), translation
(R190 to R193), halts and restores (R194 to R201), lines (R175, R316), promotion (R164, R327), and the end of a wave
(R20).
-/

namespace Sys2Proof.Machine

/-! Completions. -/

/-- The kind of an operation in flight. -/
def State.kindOf (s : State) (w op : Nat) : Option FlightKind := (AMap.find (s.wave w).flights op).map fun f => f.kind

/-- FIXED_LATENCY_COMPLETE (R39): the latency has elapsed. A result of variable latency that is ready completes at any
time (R41). -/
def execFixedLatencyComplete (w : Nat) (op : Nat) (s : State) : Host.Outcome State Fault Refusal :=
  .next <|
    match s.kindOf w op with
    | some (.fixed due _) => if due ≤ s.coreCycle (s.wave w) then s.complete w op else s
    | some (.result _) => s.complete w op
    | _ => s

/-- LOAD_COMPLETE (R150). -/
def execLoadComplete (w : Nat) (op : Nat) (s : State) : Host.Outcome State Fault Refusal :=
  .next <|
    match s.kindOf w op with
    | some (.load ..) => s.performComplete w op
    | _ => s

/-- STORE_PERFORMED (R150); cache-control words (R158) and pixels (R378) complete so too. -/
def execStorePerformed (w : Nat) (op : Nat) (s : State) : Host.Outcome State Fault Refusal :=
  .next <|
    match s.kindOf w op with
    | some (.store ..) => s.performComplete w op
    | some (.cache ..) => s.performComplete w op
    | some .pxout => s.performComplete w op
    | _ => s

/-- RMW_PERFORMED (R153). -/
def execRmwPerformed (w : Nat) (op : Nat) (s : State) : Host.Outcome State Fault Refusal :=
  .next <|
    match s.kindOf w op with
    | some (.rmw ..) => s.performComplete w op
    | _ => s

/-- FENCE_COMPLETE (R156). -/
def execFenceComplete (w : Nat) (op : Nat) (s : State) : Host.Outcome State Fault Refusal :=
  .next <|
    match s.kindOf w op with
    | some (.fence kind sco colours) =>
      let core := (s.wave w).core
      let open_ := kind == .acquire || !atL2 sco || s.canRelease core colours
      if (s.wave w).fenceMet op kind colours && open_ then (s.fenceActions core kind sco colours).complete w op else s
    | _ => s

/-! Waits. -/

/-- SLEEP_EXPIRE (R108). -/
def execSleepExpire (w : Nat) (s : State) : Host.Outcome State Fault Refusal :=
  .next <|
    let x := s.wave w
    let now := s.dieCycle x
    if x.slot.isNone then s
    else s.onWave w fun y => x.sleepers.foldl (fun y z =>
      match z.wait with
      | .sleep t => if t.toNat ≤ now.toNat then y.wake z [] else y
      | _ => y) y

/-- A sleeping `mwait` reads its word and completes (R157). -/
def State.endMwait (s : State) (w : Nat) (z : Sleeper) (pa : Nat) (d : SReg) (ord : LdOrd) (sco : Scope) (ch : Chan) :
    State :=
  let (v, s1) := s.mwaitRead w pa ord sco ch
  s1.onWave w fun x => x.wake z [.s d v]

/-- The first read of an `mwait` that had to wait for earlier accesses of its run (R157, R159). -/
def State.testMwait (s : State) (w : Nat) (z : Sleeper) (op : Nat) : State :=
  match z.wait with
  | .mwait va pa old d ord sco ch _ =>
    let x := s.wave w
    if !x.mayRead op z.members pa d ord sco ch then s
    else
      let (v, s1) := s.mwaitRead w pa ord sco ch
      if x.watchWritten || v != old then s1.onWave w fun x => x.wake z [.s d v]
      else s1.onWave w fun x => { x with sleepers := x.sleepers.map fun (y : Sleeper) =>
        if y.order = z.order then { y with wait := .mwait va pa old d ord sco ch none } else y }
  | _ => s

/-- MWAIT_WAKE (R157, R321): the written bit wakes the runs that sleep in `mwait`. A run whose first read still waits makes
it as soon as it may. -/
def execMwaitWake (w : Nat) (s : State) : Host.Outcome State Fault Refusal :=
  .next <|
    let x := s.wave w
    if x.slot.isNone then s
    else x.sleepers.foldl (fun s z =>
      match z.wait with
      | .mwait _ _ _ _ _ _ _ (some op) => s.testMwait w z op
      | .mwait _ pa _ d ord sco ch none => if x.watchWritten && z.entry then s.endMwait w z pa d ord sco ch else s
      | _ => s) s

/-- A polling run tests its condition as a wake would (R177). -/
def State.pollWait (s : State) (w : Nat) (z : Sleeper) : State :=
  match z.wait with
  | .mwait _ _ _ _ _ _ _ (some op) => s.testMwait w z op
  | .mwait _ pa old d ord sco ch none =>
    let x := s.wave w
    let s1 := match x.watch with
      | some u => if !u.held && s.watchFree w (sliceOf u.pa) then
          s.onWave w fun x => { x with watch := some { u with held := true } } else s
      | none => s
    let (v, s2) := s1.mwaitRead w pa ord sco ch
    if x.watchWritten || v != old then s2.onWave w fun x => x.wake z [.s d v] else s2
  | .recalloc a d =>
    match s.graphOf w with
    | none => s
    | some g =>
      match AMap.find s.graphs g with
      | none => s
      | some y =>
        let me := (a.toNat, w, z.order)
        if y.admits a.toNat && (y.waiters.find? fun e => e.1 == a.toNat) == some me then
          let (addr, s1) := s.allocSlot g a.toNat w
          ((s1.onGraph g fun y => { y with waiters := y.waiters.filter fun u => u != me }).onWave w fun x =>
            x.wake z (pairWrites d (BitVec.ofNat 64 addr))).settleAllocs g
        else s
  | .tenq _ => s.retryClaim w z
  | .qclaim _ _ => s.retryClaim w z
  | .port _ a b _ _ _ =>
    -- it takes the messages whose turn is its own
    let try_ (s : State) (o : SSrc) : State :=
      match o.portOf with
      | none => s
      | some p =>
        let t := ((s.wave w).port p.toNat).target
        s.serveRead (targetCluster t) (targetQueue t) fun v order => v == w && order == z.order
    try_ (try_ s a) b
  | _ => s.testTimeline w z

/-- A sleeping run gets a wait-table entry (R176). -/
def State.takeWaitEntry (s : State) (w : Nat) (z : Sleeper) : State :=
  s.onWave w fun x => { x with sleepers := x.sleepers.map fun (y : Sleeper) =>
    if y.order = z.order then { y with entry := true, poll := none } else y }

/-- A waiting allocation takes its place in its node's line (R370). -/
def State.queueAlloc (s : State) (w : Nat) (z : Sleeper) : State :=
  match z.wait, s.graphOf w with
  | .recalloc a _, some g => s.onGraph g fun y => { y with waiters := y.waiters ++ [(a.toNat, w, z.order)] }
  | _, _ => s

/-- A wait-table entry can be had for a run: one of the 32 is free, and an `mwait` holds its slice's watch entry (R177,
R320). -/
def State.entryFor (s : State) (w : Nat) (z : Sleeper) : Bool :=
  let x := s.wave w
  decide (s.waitEntries x.core < 32) && match z.wait, x.watch with
    | .mwait .., some u => u.held
    | .mwait .., none => false
    | _, _ => true

/-- The poll of a sleeping run (R177). -/
def State.pollRun (s : State) (w : Nat) (z : Sleeper) : State :=
  let now := s.coreCycle (s.wave w)
  match z.poll with
  | none => s
  | some t =>
    if now < t then s
    else
      let s1 := s.pollWait w z
      match (s1.wave w).sleepers.find? fun y => y.order == z.order with
      | none => s1
      | some y =>
        if s1.entryFor w y then s1.takeWaitEntry w y
        else s1.onWave w fun x => { x with sleepers := x.sleepers.map fun (u : Sleeper) =>
          if u.order = z.order then { u with poll := some (t + 1024) } else u }

/-- The poll of a run parked in `upcall` whose reply has not come (R177). -/
def State.pollUpcall (s : State) (w : Nat) (p : Parked) : State :=
  let x := s.wave w
  let replied := match AMap.find s.contexts x.pasid.toNat, p.posted with
    | some c, some e => c.actions.any fun a => a.1 == e.toNat
    | _, _ => false
  match p.polling with
  | none => s
  | some t =>
    if replied || decide (s.coreCycle x < t) then s
    else
      let next := if s.waitEntries x.core < 32 then none else some (t + 1024)
      s.onWave w fun x => { x with parked := x.parked.map fun (q : Parked) =>
        if q.order = p.order then { q with polling := next } else q }

/-- WAIT_POLL (R177). -/
def execWaitPoll (w : Nat) (s : State) : Host.Outcome State Fault Refusal :=
  .next <|
    let x := s.wave w
    if x.slot.isNone then s
    else x.parked.foldl (fun s p => s.pollUpcall w p) (x.sleepers.foldl (fun s z => s.pollRun w z) s)

/-- TRAP_DELIVERY (R25, R181): the oldest pending set, once no set is active. -/
def execTrapDelivery (w : Nat) (s : State) : Host.Outcome State Fault Refusal :=
  .next <|
    let x := s.wave w
    match x.pending with
    | some p => if x.activeMembers = 0 ∧ x.slot.isSome ∧ s.ended x.launch = false then s.onWave w fun x => x.deliver p else s
    | none => s

/-! Translation. -/

/-- PAGE_WALK (R190): a completed walk sets A and D and fills the TLBs; a fault of it is raised by the word that needs
the page. -/
def execPageWalk (core : Nat) (pasid : BitVec 20) (va : BitVec 64) (acc : Access) (s : State) :
    Host.Outcome State Fault Refusal :=
  .next (if core < 576 ∧ va.toNat < 2 ^ 57 then (s.lookup (some core) (clusterOf core) pasid va.toNat acc).2 else s)

/-- TLBI_GO (R192). -/
def execTlbiGo (die : Nat) (value : BitVec 64) (s : State) : Host.Outcome State Fault Refusal :=
  .next (if die < 4 then s.tlbiWrite die value else s)

/-- What an invalidation names (R192): every context or one, stage 2, the pages from one, 0 for every page. -/
structure Inval where
  all : Bool
  pasid : BitVec 20
  part : Option (BitVec 8)
  stage2 : Bool
  page : Nat
  pages : Nat
deriving DecidableEq, Repr

/-- What the registers of a die name; TLBI_ADDR as it stands (log entry 125). -/
def State.inval (s : State) (die : Nat) : Inval :=
  let d := s.die die
  let pasid : BitVec 20 := d.tlbiCtl.extractLsb' 44 20
  ⟨d.tlbiCtl.getLsbD 2, pasid, (AMap.find s.contexts pasid.toNat).map fun x => x.desc.part, d.tlbiCtl.getLsbD 40,
    natBits d.tlbiAddr.toNat 56 12, natBits d.tlbiCtl.toNat 39 8⟩

/-- Pages [p, p + n) are among the named ones. -/
def Inval.covers (i : Inval) (p n : Nat) : Bool :=
  i.pages == 0 || decide (p < i.page + i.pages ∧ i.page < p + n)

/-- A cached translation is named (R192). -/
def Inval.hits (i : Inval) (e : TlbEntry) : Bool :=
  let n := 2 ^ (e.bits - 12)
  if i.stage2 then
    (i.all || i.part == some e.part) &&
      match e.via with
      | [] => true
      | p :: t => i.covers (p / n * n) n || t.any fun q => i.covers q 1
  else (i.all || e.pasid == i.pasid) && i.covers (e.vpage * n) n

/-- An entry of a walk cache is named: it serves a named page, or was found through one (R190, R192). -/
def Inval.hitsWalk (i : Inval) (e : WalkEntry) : Bool :=
  let n := 2 ^ (9 * e.level)
  if i.stage2 then
    (i.all || i.part == some e.part) &&
      if e.stage2 then i.covers (e.pre * n) n else e.via.any fun q => i.covers q 1
  else !e.stage2 && (i.all || e.pasid == i.pasid) && i.covers (e.pre * n) n

/-- An access of a wave still to be performed used a named translation. -/
def Inval.awaits (i : Inval) (w : Wave) (a : LaneAcc) : Bool :=
  a.got.isNone && (match a.loc with
    | .mem _ => true
    | .scratch _ => false) && (i.all || i.stage2 || (w.pasid == i.pasid && i.covers (a.va / 4096) 1))

/-- TLBI_COMPLETE (R193): once every access that used a named translation has been performed, the named translations are
gone from the TLBs and walk caches of this die, or of all dies, and GO reads 0. -/
def execTlbiComplete (die : Nat) (s : State) : Host.Outcome State Fault Refusal :=
  .next <|
    let ctl := (s.die die).tlbiCtl
    let named (d : Nat) : Bool := d == die || ctl.getLsbD 1
    let i := s.inval die
    let waits := s.waves.any fun e => named (dieOf e.2.core) &&
      e.2.flights.any fun f => f.2.accs.any fun a => i.awaits e.2 a
    if !ctl.getLsbD 0 || waits then s
    else
      let s1 := { s with
        cores := s.cores.map fun (e : Nat × CoreSt) =>
          if named (dieOf e.1) then (e.1, { e.2 with tlb := e.2.tlb.filter fun t => !i.hits t }) else e
        clusters := s.clusters.map fun (e : Nat × ClusterSt) =>
          if named (e.1 / 12) then (e.1, { e.2 with tlb := e.2.tlb.filter fun t => !i.hits t }) else e
        dies := s.dies.map fun (e : Nat × DieSt) =>
          if named e.1 then (e.1, { e.2 with walks := e.2.walks.filter fun t => !i.hitsWalk t }) else e }
      s1.onDie die fun d => { d with tlbiCtl := d.tlbiCtl &&& ~~~1#64 }

/-! Halts (R194 to R197, R200). -/

/-- The resident waves of a context on a core. -/
def State.resident (s : State) (core : Nat) (pasid : BitVec 20) : List (Nat × Wave) :=
  s.waves.filter fun e => e.2.core == core && e.2.pasid == pasid && e.2.slot.isSome

/-- The cores that hold groups of the context's cohorts which some cores hold, and those cores (R269). -/
def State.gangStep (s : State) (pasid : BitVec 20) (cores : List Nat) : List Nat :=
  let hs := (s.groups.filter fun e => e.2.pasid == pasid && e.2.slot.isSome && cores.contains e.2.core).map
    fun e => e.2.cohort
  (cores ++ (s.groups.filter fun e => e.2.pasid == pasid && e.2.slot.isSome && hs.contains e.2.cohort).map
    fun e => e.2.core).eraseDups

/-- The cores on which the context stops with one core, since the groups of a cohort are halted together (R269): it spreads
over the 12 cores of a cluster. -/
def State.gang (s : State) (core : Nat) (pasid : BitVec 20) : List Nat :=
  (upTo 12).foldl (fun cs _ => s.gangStep pasid cs) [core]

/-- PREEMPT (R194): no wave of the context is selected any more on the core, nor on the cores that hold groups of the same
cohorts (R269). -/
def execPreempt (core : Nat) (pasid : BitVec 20) (s : State) : Host.Outcome State Fault Refusal :=
  .next <|
    if s.halting core pasid || (s.resident core pasid).isEmpty then s
    else (s.gang core pasid).foldl (fun s k => if s.halting k pasid then s
      else s.onCore k fun c => { c with halting := AMap.put c.halting pasid.toNat false }) s

/-- The engine's command ends (R208, R229). -/
def State.finishHead (s : State) (core g : Nat) (c : Cmd) : State :=
  let (x, ws) := c.run (s.group g) (SMap.get (c.snap.getD []))
  (((((s.onGroup g fun _ => x).scratchWrites (clusterOf core) ws).retireCmd g c).engineIdle core g).reportGone g c)

/-- The engine stops for a halt: a product after its current step, any other command at its end, a demand where it is
(R229, R254). -/
def State.haltEngine (s : State) (core g due : Nat) : State :=
  let s1 := s.sampleEngine core
  match (s1.group g).queue with
  | [] => s1.engineIdle core g
  | c :: t =>
    if c.isDemand then
      let s2 := match s1.demandAt core with
        | some (h, d, n) => match d.outSteps[n.prog]? with
          | some st => s1.discardedStep core h d n st
          | none => s1
        | none => s1
      s2.engineIdle core g
    else
      let n := max c.step (c.begun (due - (s.core core).cycle))
      if c.op ≠ 0x180 ∧ c.op ≠ 0x181 ∨ c.steps ≤ n then s1.finishHead core g c
      else
        let (x, d) := c.runSteps (s1.group g) (SMap.get (c.snap.getD [])) n
        (s1.onGroup g fun _ => { x with queue := d :: t }).engineIdle core g

/-- CONTEXT_HALT (R194, R195): once no word stays in dispatch and the shadow store is empty, the engine stops and the
context is halted. -/
def execContextHalt (core : Nat) (pasid : BitVec 20) (s : State) : Host.Outcome State Fault Refusal :=
  .next <|
    let c := s.core core
    let held := (s.resident core pasid).any fun e => e.2.holding.isSome
    if AMap.find c.halting pasid.toNat != some false || held || !c.draining.isEmpty then s
    else
      let s1 := match c.engine with
        | some (g, due) => if (s.group g).pasid = pasid then s.haltEngine core g due else s
        | none => s
      s1.onCore core fun c => { c with halting := AMap.put c.halting pasid.toNat true }

/-- The sleeping port reads of a wave leave the queues. -/
def State.dropReaders (s : State) (w : Nat) : State :=
  { s with clusters := s.clusters.map fun c => (c.1, { c.2 with queues := c.2.queues.map fun q =>
      (q.1, { q.2 with takers := q.2.takers.filter fun t => match t with
        | .read v _ _ => v != w
        | _ => true }) }) }

/-- The waiting allocations of a wave leave their lines. -/
def State.dropWaiters (s : State) (w : Nat) : State :=
  { s with graphs := s.graphs.map fun e => (e.1, { e.2 with waiters := e.2.waiters.filter fun u => u.2.1 != w }) }

/-- A wave leaves its slot (R194): its wait-table entries and its watch entry are freed (R176, R320), and a sleeping run
keeps its remaining count (R108). -/
def State.leaveSlot (s : State) (w : Nat) : State :=
  let now := s.dieCycle (s.wave w)
  let s1 := s.onWave w fun x => { x with
    slot := none, preempted := s.nextId, promoted := none,
    watch := x.watch.map fun (u : Watch) => { u with held := false },
    sleepers := x.sleepers.map fun (z : Sleeper) => { z with
      entry := false,
      wait := match z.wait with
        | .sleep t => .sleep (if t.toNat ≤ now.toNat then 0 else t - now)
        | k => k } }
  ({ s1 with nextId := s1.nextId + 1 }.dropReaders w).dropWaiters w

/-- CONTROL_STATE_SWAP (R197): the control pages of the outgoing context's waves go to the shadow store, those of its
groups and its cohort records to memory. The incoming context's pages are read by RESTORE. -/
def execControlStateSwap (core : Nat) (outgoing incoming : BitVec 20) (s : State) : Host.Outcome State Fault Refusal :=
  .next <|
    let c := s.core core
    if AMap.find c.halting outgoing.toNat != some true || !c.draining.isEmpty || outgoing == incoming then s
    else
      let ws := (s.resident core outgoing).map fun e => e.1
      let gs := (s.groups.filter fun e => e.2.core == core && e.2.pasid == outgoing && e.2.slot.isSome).map fun e => e.1
      let s1 := ws.foldl (fun s w => s.leaveSlot w) s
      let s2 := gs.foldl (fun s g => (s.onGroup g fun y => { y with slot := none }).saveGroup g) s1
      let hs := (gs.map fun g => (s.group g).cohort).eraseDups
      let s3 := hs.foldl (fun s h => s.saveCohort h) s2
      s3.onCore core fun c => { c with halting := AMap.del c.halting outgoing.toNat, draining := ws }

/-- SHADOW_STORE_DRAIN (R197). -/
def execShadowStoreDrain (core : Nat) (s : State) : Host.Outcome State Fault Refusal :=
  .next <|
    let ws := (s.core core).draining
    (ws.foldl (fun s w => s.savePage w) s).onCore core fun c => { c with draining := [] }

/-- All non-exited threads of a wave sleep in `mwait`, `sleep` or a port read, or are parked (R200); in any waiting word,
for a wave in the resume slot (R199). -/
def Wave.idle (w : Wave) : Bool :=
  w.lanesIn .ready ||| w.lanesIn .syncing == 0 && (w.slot == some 31 || w.sleepers.all fun z => match z.wait with
    | .mwait .. => true
    | .sleep _ => true
    | .port .. => true
    | _ => false)

/-- WAVE_EVICT (R200). -/
def execWaveEvict (w : Nat) (s : State) : Host.Outcome State Fault Refusal :=
  .next <|
    let x := s.wave w
    if x.slot.isNone || !x.idle || x.holding.isSome || !(s.core x.core).draining.isEmpty || s.halting x.core x.pasid then s
    else (s.leaveSlot w).onCore x.core fun c => { c with draining := [w] }

/-! Restores (R198, R199, R201). -/

/-- Wave slots in use on a core. -/
def State.slotUsed (s : State) (core : Nat) (slot : BitVec 5) : Bool :=
  s.waves.any fun e => e.2.core == core && e.2.slot == some slot

/-- The resume slot takes a wave (R199): its context has a resident wave on the core, no placement slot is free, and no
other pre-empted wave of the context there comes first. -/
def State.resumeTakes (s : State) (w core : Nat) : Bool :=
  let x := s.wave w
  !(s.resident core x.pasid).isEmpty && ((upTo 31).all fun k => s.slotUsed core (BitVec.ofNat 5 k)) &&
    s.waves.all fun e =>
      e.1 == w || e.2.slot.isSome || e.2.core != core || e.2.pasid != x.pasid ||
        decide (e.2.prio.toNat < x.prio.toNat ∨ (e.2.prio = x.prio ∧ x.preempted ≤ e.2.preempted))

/-- A wave may be restored into a slot of a core: a group stays whole, a cohort in its cluster, and the core's nodes within
the 512 of its chrysalis table (R201, R232, R256). -/
def State.mayRestore (s : State) (w core : Nat) (slot : BitVec 5) : Bool :=
  let x := s.wave w
  let g := s.group x.group
  x.slot.isNone && x.corrupt.isNone && decide (clusterOf core = (s.cohort g.cohort).cluster) &&
    !s.slotUsed core slot && !s.halting core x.pasid && (slot != 31 || s.resumeTakes w core) &&
    (if g.slot.isSome then g.core == core
     else ((upTo 8).any fun k => !(s.usedGroupSlots core []).contains k) &&
       decide (s.coreNodes core + g.nodes.length ≤ 512))

/-- The image-corrupt fault of a restore (R12, R384): an entry of KIND 5, of which the manual states no more (log entry
3). -/
def State.imageCorrupt (s : State) (w : Nat) : State :=
  let x := s.wave w
  match s.mailFree x.pasid with
  | none => s
  | some e =>
    let (a, s1) := s.free
    let (b, s2) := s1.free
    let (m, s3) := s2.free
    (s3.postMail x.pasid e
      [(0, 1, 5), (2, 1, b.toNat % 256), (3, 1, x.waveid.toNat), (4, 4, x.image), (8, 8, a.toNat % 2 ^ 57), (0x10, 8, 0),
       (0x18, 8, 0), (0x20, 4, natBits b.toNat 63 32), (0x24, 4, x.place.toNat), (0x28, 8, m.toNat)]).onWave w
      fun x => { x with corrupt := some e }

/-- The register lines of a wave that its old core holds are written to its image, and the new core holds none of them
(R175, R201). -/
def State.moveLines (s : State) (w old core : Nat) : State :=
  let gone := (s.core old).missing
  let lines := (upTo 4096).filter fun l => decide (l < (s.wave w).regsDecl) || (s.core old).lineUse.contains (w, l)
  let s1 := lines.foldl (fun s l => if gone.contains (w, l) then s else s.spillLine w l) s
  let s2 := s1.onCore old fun c => { c with
    missing := c.missing.filter fun e => e.1 != w, lineUse := c.lineUse.filter fun e => e.1 != w,
    upsetLines := c.upsetLines.filter fun e => e.1 != w }
  s2.onCore core fun c => { c with missing := c.missing ++ lines.map fun l => (w, l) }

/-- A group comes back to a core (R198, R201): its tiles move through its image, its control page and its cohort's record
are read. -/
def State.restoreGroup (s : State) (g core : Nat) : Option State :=
  let y := s.group g
  if y.slot.isSome then some s
  else
    let s1 := if s.cohortHalted y.cohort then s.loadCohort y.cohort else s
    let s2 := if y.core = core then s1 else ((upTo 8).foldl (fun s t => s.tileToImage g t) s1).release y.core 0xFF
    match s2.loadGroup g, (upTo 8).find? fun k => !(s.usedGroupSlots core []).contains k with
    | some s3, some k => some (s3.onGroup g fun y => { y with slot := some (BitVec.ofNat 3 k), core := core })
    | _, _ => none

/-- The sleeping runs as the suspension records of a page give them (R173, R198), over those that the model keeps: the
wait of the word in which each sleeps. A group barrier's and a `sleep` record stand for themselves. -/
def Wave.sleepersOf (w : Wave) (rd : Nat → Nat → Nat) (now : BitVec 64) : List Sleeper :=
  (upTo 64).filterMap fun k =>
    let r := recordAt rd k
    let old := w.sleepers[k - w.parked.length]?
    let fresh (wt : Wait) : Sleeper := ⟨r.members, r.pc, wt, 15, false, none, w.nextOrder + k⟩
    let known : Option Sleeper := if k < w.parked.length then none else old
    let base : Option Sleeper := match r.state, known with
      | 4, z => z
      | 5, some z => some z
      | 6, some z => some z
      | 5, none => some (fresh (.bar 0 false))
      | 6, none => some (fresh (.sleep 0))
      | _, _ => none
    base.map fun z => { z with members := r.members, pc := r.pc, wait := z.wait.ofRecord r now }

/-- A restored wait takes a new entry, or polls (R176, R177, R198). -/
def State.rearmRun (s : State) (w : Nat) (z : Sleeper) : State :=
  let s1 := match z.wait with
    | .port _ a b _ va vb =>
      let again (s : State) (o : SSrc) (v : Option Word) (second : Bool) : State :=
        match o, v with
        | .op (.n p), none => s.addReader w p z.order second
        | _, _ => s
      again (again s a va false) b vb true
    | _ => s
  match z.wait with
  | .cbar b _ =>
    if (s1.wave w).arrivals.getLsbD b.toNat then s1
    else (s1.acquire (s1.wave w).core).onWave w fun x => x.wake z []
  | _ =>
    if !z.wait.takesEntry then s1
    else if s1.entryFor w z then (s1.takeWaitEntry w z).queueAlloc w z
    else
      let s1 := s1.queueAlloc w z
      let now := s1.coreCycle (s1.wave w)
      s1.onWave w fun x => { x with
        waitovf := if z.poll.isNone then satAdd x.waitovf 1 else x.waitovf,
        sleepers := x.sleepers.map fun (y : Sleeper) =>
          if y.order = z.order then { y with poll := some (now + 1024) } else y }

/-- A run that sleeps in `mwait` translates its address again at a restore (R198); a fault of it is raised as by the word
issued again. -/
def State.retranslate (s : State) (w : Nat) (z : Sleeper) : State :=
  match z.wait with
  | .mwait va _ old d ord sco ch n =>
    match s.resolve w .global va 4 .load false with
    | (.ok (.mem pa), s1) => s1.onWave w fun x => { x with sleepers := x.sleepers.map fun (y : Sleeper) =>
        if y.order = z.order then { y with wait := .mwait va pa old d ord sco ch n } else y }
    | (.ok (.scratch _), s1) => s1
    | (.error c, s1) => (s1.onWave w fun x => x.unsleep z).park w z.members z.pc c (BitVec.ofNat 64 va)
  | _ => s

/-- A restored watch is armed again with its written bit set (R198, R320). -/
def State.rearmWatch (s : State) (w : Nat) : State :=
  match (s.wave w).watch with
  | none => s
  | some u =>
    let (r, s1) := s.resolve w .global u.va 4 .load false
    let s2 := s1.onWave w fun x => { x with watch := match r with
      | .ok (.mem pa) => some ⟨u.va, pa, true, s1.watchFree w (sliceOf pa)⟩
      | _ => none }
    (s2.wave w).sleepers.foldl (fun s z => s.retranslate w z) s2

/-- A run parked in `upcall` takes a new entry at a restore, or polls, which counts once for the whole wait (R176, R177). -/
def State.rearmUpcall (s : State) (w : Nat) (p : Parked) : State :=
  let full := decide (32 ≤ s.waitEntries (s.wave w).core)
  s.onWave w fun x => { x with
    waitovf := if full ∧ p.polling.isNone then satAdd x.waitovf 1 else x.waitovf,
    parked := x.parked.map fun (q : Parked) =>
      if q.order = p.order then { q with polling := if full then some (s.coreCycle x + 1024) else none } else q }

/-- The runs of a restored wave wait again; what came about meanwhile ends their waits (R198). -/
def State.rearm (s : State) (w : Nat) : State :=
  let s1 := s.rearmWatch w
  let s2 := (s1.wave w).sleepers.foldl (fun s z => s.rearmRun w z) s1
  let s3 := ((s2.wave w).parked.filter fun p => p.cause == .upcall).foldl (fun s p => s.rearmUpcall w p) (s2.onWave w fun x =>
    { x with parked := x.parked.map fun (p : Parked) => if p.cause = .upcall then { p with polling := some 0 } else p })
  let s4 := (s3.wave w).sleepers.foldl (fun s z =>
    match z.wait with
    | .tenq _ => if z.entry then s.retryClaim w z else s
    | .qclaim _ _ => if z.entry then s.retryClaim w z else s
    | _ => s) s3
  let s5 := match s4.graphOf w with
    | some g => s4.settleAllocs g
    | none => s4
  (s5.settleTimelines (s5.cohortOf w)).settleGates

/-- The group of a wave's context whose image a control page names (R172). -/
def State.groupNamed (s : State) (w image : Nat) : Nat :=
  let x := s.wave w
  if (s.group x.group).image = image then x.group
  else match s.groups.find? fun e => e.2.pasid == x.pasid && e.2.image == image with
    | some e => e.1
    | none => x.group

/-- The launch that a control page names (R172). -/
def State.launchNamed (s : State) (w lref : Nat) : Nat :=
  let x := s.wave w
  if (s.launch x.launch).lref.toNat = lref then x.launch
  else match s.launches.find? fun e => e.2.lref.toNat == lref with
    | some e => e.1
    | none => x.launch

/-- A fixed-latency word in flight keeps the cycles that it has left when its wave goes to a core whose cycle count is
another. -/
def Flight.moved (f : Flight) (old new : Nat) : Flight :=
  let at_ (t : Nat) : Nat := t - old + new
  match f.kind with
  | .fixed due ws => { f with kind := .fixed (at_ due) (ws.map fun r => (r.1, at_ r.2)) }
  | .query due d sub clear => { f with kind := .query (at_ due) d sub clear }
  | _ => f

/-- The fault records of a wave that its group's ring holds with PEND set, from the oldest slot on (R260); a slot that
cannot be read keeps what the wave knew of it. -/
def State.ringFaults (s : State) (core w : Nat) : List TileFault × State :=
  let x := s.wave w
  let y := s.group x.group
  (upTo y.tcfg.nrec).foldl (fun r k =>
    let slot := (y.tcfg.next + k) % y.tcfg.nrec
    let va := y.tcfg.farea + 64 * slot
    match r.2.loadBytes core x.pasid va 64 with
    | (.error _, s1) => (r.1 ++ x.tileFaults.filter fun f => f.index == slot, s1)
    | (.ok bs, s1) =>
      if (bs.getD 0x1E 0).getLsbD 0 && (bs.getD 0x1C 0).toNat == x.waveid.toNat then
        (r.1 ++ [⟨(bs.getD 0x1D 0).setWidth 4, slot, va,
          BitVec.ofNat 64 (leValue (fun k => bs.getD k 0) 0x10 8 % 2 ^ 57)⟩], s1)
      else (r.1, s1)) ([], s)

/-- A restored wave's pending records are armed again (R260). -/
def State.rearmFaults (s : State) (w : Nat) : State :=
  if (s.group (s.wave w).group).tcfg.on then
    let (fs, s1) := s.ringFaults (s.wave w).core w
    s1.onWave w fun x => { x with tileFaults := fs }
  else s

/-- A wave's control page is read into a slot (R198). -/
def State.restoreWave (s : State) (w core : Nat) (slot : BitVec 5) : State :=
  let x := s.wave w
  let s1 := if (s.core x.core).draining.contains w then
      (s.savePage w).onCore x.core fun c => { c with draining := c.draining.filter fun v => v != w }
    else s
  let rd (o n : Nat) : Nat := s1.imageRead x.pasid (waveImageOff x.image + controlOff + o) n
  let g := s1.groupNamed w (rd 0x1B4 4)
  if !pageOk rd then s1.imageCorrupt w
  else
    match s1.restoreGroup g core with
    | none => s1.imageCorrupt w
    | some s2 =>
      let s3 := if x.core = core then s2 else ((s2.moveLines w x.core core).release x.core 0xFF).acquire core
      let zs := x.sleepersOf rd (s3.die (dieOf core)).counter
      let old := (s3.core x.core).cycle
      let new := (s3.core core).cycle
      ((s3.onWave w fun y =>
        let y1 := y.ofPage rd
        { y1 with
          slot := some slot, core := core, sleepers := zs, group := g, launch := s1.launchNamed w (rd 0x1C8 8),
          flights := if old = new then y1.flights else y1.flights.map fun e => (e.1, e.2.moved old new) }).rearm w).rearmFaults w
        |>.onLaunch (s1.launchNamed w (rd 0x1C8 8)) fun l => { l with cores := (l.cores ++ [core]).eraseDups }

/-- RESTORE (R198, R199): a halted wave comes back; a wave in the resume slot moves to a placement slot that is free. -/
def execRestore (w : Nat) (core : Nat) (slot : BitVec 5) (s : State) : Host.Outcome State Fault Refusal :=
  .next <|
    match AMap.find s.waves w with
    | none => s
    | some x =>
      if x.slot = some 31#5 ∧ x.core = core ∧ slot ≠ 31#5 ∧ s.slotUsed core slot = false then
        s.onWave w fun y => { y with slot := some slot }
      else if s.mayRestore w core slot then s.restoreWave w core slot
      else s

/-! Lines and promotion. -/

/-- L2_LINE_FILL (R316). -/
def execL2LineFill (pa : Nat) (s : State) : Host.Outcome State Fault Refusal := .next (s.fillL2 pa)

/-- REGISTER_LINE_FILL (R175). -/
def execRegisterLineFill (w : Nat) (line : Nat) (s : State) : Host.Outcome State Fault Refusal :=
  .next <|
    let x := s.wave w
    if x.slot.isSome && (s.core x.core).missing.contains (w, line) then
      (s.reloadLine w line).onCore x.core fun c => { c with missing := c.missing.filter fun e => e != (w, line) }
    else s

/-- The candidate with the highest aging count, the lower slot on a tie (R164). -/
def State.promotionOf (s : State) (core quad : Nat) : Option (Nat × Wave) :=
  s.waves.foldl (fun b e =>
    match e.2.slot with
    | none => b
    | some k =>
      if e.2.core ≠ core ∨ k.toNat / 8 ≠ quad ∨ e.2.promoted.isSome ∨ e.2.holding.isSome ∨
          e.2.aging < e.2.age.toNat then b
      else match b with
        | none => some e
        | some c =>
          if c.2.aging < e.2.aging ∨ (c.2.aging = e.2.aging ∧ k.toNat < (c.2.slot.getD 0).toNat) then some e else b) none

/-- WAVE_PROMOTION (R164): at most one in any 4 consecutive cycles. -/
def execWavePromotion (core : Nat) (quad : BitVec 2) (s : State) : Host.Outcome State Fault Refusal :=
  .next <|
    let c := s.core core
    let due := match AMap.find c.lastPromotion quad.toNat with
      | none => true
      | some t => decide (t + 4 ≤ c.cycle)
    match s.promotionOf core quad.toNat with
    | some (w, _) =>
      if due then
        (s.onWave w fun x => { x with promoted := some c.cycle }).onCore core fun c =>
          { c with lastPromotion := AMap.put c.lastPromotion quad.toNat c.cycle }
      else s
    | none => s

/-- The key of a router's input: net, router, port. -/
def netKey (net : Bool) (router port : Nat) : Nat := (if net then 512 else 0) + 8 * router + port

/-- The key of the output that a head packet asks for. -/
def outKey (net : Bool) (router out : Nat) : Nat := netKey net router out

/-- PACKET_PROMOTION (R327): after 64 network cycles, at most one per 5 network cycles of an output. -/
def execPacketPromotion (die : Nat) (net : Bool) (router : Nat) (port : BitVec 3) (s : State) :
    Host.Outcome State Fault Refusal :=
  .next <|
    let d := s.die die
    let k := netKey net router port.toNat
    match AMap.find d.net k with
    | none => s
    | some h =>
      let o := outKey net router h.out.toNat
      let due := match AMap.find d.netPromo o with
        | none => true
        | some t => decide (t + 5 ≤ d.netCycle)
      if h.promoted.isSome || decide (h.waited < 64) || !due then s
      else s.onDie die fun d => { d with
        net := AMap.put d.net k { h with promoted := some d.netCycle }, netPromo := AMap.put d.netPromo o d.netCycle }

/-! The end of a wave (R20). -/

/-- A wave holds the baton no longer: a pass to free, once its outstanding operations complete (R213). -/
def State.dropBaton (s : State) (g : Nat) (wid : BitVec 4) : State :=
  s.onGroup g fun y =>
    if y.baton = some wid ∧ y.pass = none then { y with pass := some .free, passOp := none } else y

/-- Reports that a wave did not live to receive end its launch (R227, R260). -/
def State.lateReports (s : State) (w : Nat) : State :=
  let x := s.wave w
  let s1 := match x.tileFaults with
    | f :: _ =>
      let (p, s1) := s.free
      s1.endLaunch w .tileFault (p.setWidth 32) f.addr
    | [] => s
  match s1.reportFor w with
  | some (g, o) =>
    let (p, s2) := s1.free
    (s2.onGroup g fun y => { y with report := none }).endLaunch w .illegalFormat (p.setWidth 32) (o.setWidth 64)
  | none => s1

/-- WAVE_END (R20): every launched thread has exited, or the launch has ended with an error, and the operations the wave
issued have completed. Its slot, its watch and its ports are freed, the barriers count it no more, and the last wave ends
its group; a batch group ends by BATCH_GROUP_END (R372). -/
def execWaveEnd (w : Nat) (s : State) : Host.Outcome State Fault Refusal :=
  .next <|
    match AMap.find s.waves w with
    | none => s
    | some x =>
      if !(x.lanesIn .exited == x.launched || s.ended x.launch) || !x.flights.isEmpty then s
      else
        let s1 := s.lateReports w
        let s2 := (upTo 8).foldl (fun s p => if (AMap.find x.ports p).isSome then s.releasePort w p else s) s1
        let s3 := ((s2.dropReaders w).dropWaiters w).dropBaton x.group (x.waveid.setWidth 4)
        let s4 := { s3 with waves := AMap.del s3.waves w }.onCore x.core fun c => { c with
          missing := c.missing.filter fun e => e.1 != w, lineUse := c.lineUse.filter fun e => e.1 != w,
          upsetLines := c.upsetLines.filter fun e => e.1 != w, draining := c.draining.filter fun v => v != w }
        let s5 := s4.onGroup x.group fun y => { y with ended := y.ended ||| BitVec.ofNat 16 (2 ^ x.waveid.toNat) }
        let h := (s5.group x.group).cohort
        let s6 := (upTo 16).foldl (fun s b => (s.settleBar x.group (BitVec.ofNat 4 b)).settleCbar h (BitVec.ofNat 4 b)) s5
        if !(s6.group x.group).allEnded then s6
        else match (s6.launch x.launch).kind with
          | .batch .. => s6
          | .pixel p _ _ =>
            match AMap.find s6.prims p with
            | some y => (s6.endGroup x.group).freeSlotsOf y.graph x.group none
            | none => s6.endGroup x.group
          | _ => s6.endGroup x.group

end Sys2Proof.Machine
end

