-- ==== Sys2Proof/Machine/Efler.lean ====
section
/-!
DEFINITION. The Efler harts (R318, R339, R437): their accesses through the coherent L2 and its directory, and the
instructions of RV64 that their routines are written in (log entry 20).
-/

namespace Sys2Proof.Machine

/-- The partition whose resident kernel runs on a hart, 16·die + hart (R382, R384). -/
def State.kernelOf (s : State) (hart : Nat) : Option (BitVec 8) :=
  s.contexts.findSome? fun e =>
    if 16 * e.2.desc.mbdie.toNat + e.2.desc.mbhart.toNat = hart then some e.2.desc.part else none

/-- A context belongs to a partition. -/
def State.inPart (s : State) (pasid : Nat) (part : BitVec 8) : Bool :=
  match AMap.find s.contexts pasid with
  | some x => x.desc.part == part
  | none => false

/-- What the service window grants a resident kernel (R381, R384): a load, or the store of a value. An invalidation of another
partition's translations, or of every context's, and an answer to another partition's mailbox, have no effect. -/
def State.windowGrants (s : State) (part : BitVec 8) (die off : Nat) (store : Option (BitVec 64)) : Bool :=
  let b := off / 0x10000
  let p := AMap.find s.parts part.toNat
  match store with
  | some v =>
    if b = 0 then off != 8 || !v.getLsbD 0 || (!v.getLsbD 2 && s.inPart (natBits v.toNat 63 44) part)
    else if b = 1 then s.inPart (natBits v.toNat 63 44) part
    else if b = 5 then p.any fun p => p.spec.heads.contains (8 * die + off % 0x10000 / 0x40)
    else if 8 ≤ b ∧ b < 12 then p.any fun p => p.shards.contains (die, (off - 0x80000) / 0x1000)
    else false
  | none =>
    if b ≤ 3 then true
    else if b = 4 then off == 0x40010
    else if b = 5 then p.any fun p => p.spec.heads.contains (8 * die + off % 0x10000 / 0x40)
    else if 8 ≤ b ∧ b < 12 then p.any fun p => p.shards.contains (die, (off - 0x80000) / 0x1000)
    else false

/-- An access of a hart that its place bars: a resident kernel's to a block that is not mapped to it. -/
def State.kernelBars (s : State) (hart pa : Nat) (store : Option (BitVec 64)) : Bool :=
  match s.kernelOf hart, paClass pa with
  | some part, .window die off => !s.windowGrants part die off store
  | _, _ => false

/-! The directory (R318). -/

/-- A hart shares a line of DRAM: its owner's data has been obtained, and it stays with those that hold it. -/
def State.shareLine (s : State) (hart pa : Nat) : State :=
  if dramEnd ≤ pa then s
  else
    let hs := match AMap.find s.dir (pa / 64) with
      | none => []
      | some (.shared hs) => hs
      | some (.owned h) => [h]
    if AMap.find s.dir (pa / 64) = some (.owned hart) ∨ hs.contains hart = true then s
    else { s with dir := AMap.put s.dir (pa / 64) (.shared (hs ++ [hart])) }

/-- A hart owns a line of DRAM; no other holds it any longer. -/
def State.ownLine (s : State) (hart pa : Nat) : State :=
  if dramEnd ≤ pa then s else { s with dir := AMap.put s.dir (pa / 64) (.owned hart) }

/-! Accesses (R339). -/

def State.hart (s : State) (h : Nat) : Efler := AMap.getD s.eflers h Efler.reset
def State.onHart (s : State) (h : Nat) (f : Efler → Efler) : State := { s with eflers := AMap.put s.eflers h (f (s.hart h)) }

/-- A hart's load of `n` bytes: none when it faults. -/
def State.hartLoad (s : State) (hart pa n : Nat) : Option Nat × State :=
  if s.kernelBars hart pa none then (none, s)
  else match s.busRead pa n with
    | .error _ => (none, s)
    | .ok bs => (some (bytesValue bs), s.shareLine hart pa)

/-- A hart's store of `n` bytes; whether it was performed. -/
def State.hartStore (s : State) (hart pa n : Nat) (v : BitVec 64) : Bool × State :=
  if (s.backed pa).isSome || s.kernelBars hart pa (some v) then (false, s)
  else (true, (s.homeStore pa n (v.toNat % 2 ^ (8 * n))).ownLine hart pa)

def accessSize (wide : Bool) : Nat := if wide then 8 else 4

/-- One memory operation of a hart: the value that it gives, none when it faults or is an atomic that is not aligned, which
then has no effect. A fence orders what is ordered already: each access is performed when it comes. -/
def State.hartOp (s : State) (hart : Nat) (op : EflerOp) : Option Nat × State :=
  match op with
  | .load pa wide => s.hartLoad hart pa (accessSize wide)
  | .store pa wide v =>
    let (ok, s1) := s.hartStore hart pa (accessSize wide) v
    (if ok then some (s.hart hart).value.toNat else none, s1)
  | .amo pa wide o v _ _ =>
    let n := accessSize wide
    if pa % n ≠ 0 ∨ s.kernelBars hart pa none = true then (none, s)
    else
      let (r, s1) := s.busRmw pa n fun old => some (atomEval o n old (v.toNat % 2 ^ (8 * n)))
      match r with
      | .ok old => (some old, s1.ownLine hart pa)
      | .error _ => (none, s1)
  | .lr pa wide _ =>
    if pa % accessSize wide ≠ 0 then (none, s)
    else match s.hartLoad hart pa (accessSize wide) with
      | (none, s1) => (none, s1)
      | (some v, s1) => (some v, s1.onHart hart fun e => { e with resv := some (pa / 64) })
  | .sc pa wide v _ =>
    if pa % accessSize wide ≠ 0 then (none, s)
    else if (s.hart hart).resv = some (pa / 64) then
      let (ok, s1) := s.hartStore hart pa (accessSize wide) v
      (if ok then some 0 else none, s1.onHart hart fun e => { e with resv := none })
    else (some 1, s.onHart hart fun e => { e with resv := none })
  | .fence .. => (some (s.hart hart).value.toNat, s)

/-- EFLER_ACCESS (R339): performed through the coherent L2; the package has 64 harts (R1). -/
def execEflerAccess (hart : Nat) (op : EflerOp) (s : State) : Host.Outcome State Fault Refusal :=
  .next <|
    if 64 ≤ hart then s
    else match s.hartOp hart op with
      | (none, s1) => s1
      | (some v, s1) => s1.onHart hart fun e => { e with value := BitVec.ofNat 64 v }

/-! RV64: the base integer instructions, multiplication and division, and atomics (log entry 20). -/

def Efler.rx (e : Efler) (r : Nat) : BitVec 64 := if r = 0 then 0 else SMap.get e.x r
def Efler.wx (e : Efler) (r : Nat) (v : BitVec 64) : Efler := if r = 0 then e else { e with x := SMap.set e.x r v }

/-- The immediates of an instruction. -/
def immI (w : Word) : BitVec 64 := (w.extractLsb' 20 12).signExtend 64
def immS (w : Word) : BitVec 64 := (w.extractLsb' 25 7 ++ w.extractLsb' 7 5).signExtend 64
def immB (w : Word) : BitVec 64 :=
  (w.extractLsb' 31 1 ++ w.extractLsb' 7 1 ++ w.extractLsb' 25 6 ++ w.extractLsb' 8 4 ++ 0#1).signExtend 64
def immU (w : Word) : BitVec 64 := (w.extractLsb' 12 20 ++ 0#12).signExtend 64
def immJ (w : Word) : BitVec 64 :=
  (w.extractLsb' 31 1 ++ w.extractLsb' 12 8 ++ w.extractLsb' 20 1 ++ w.extractLsb' 21 10 ++ 0#1).signExtend 64

/-- An operation on registers of `n` bits: funct3, whether bit 30 selects the second form. -/
def rvAlu {n : Nat} (f3 : Nat) (alt : Bool) (a b : BitVec n) : BitVec n :=
  let sh := b.toNat % n
  match f3 with
  | 0 => if alt then a - b else a + b
  | 1 => a <<< sh
  | 2 => if a.slt b then 1 else 0
  | 3 => if a.ult b then 1 else 0
  | 4 => a ^^^ b
  | 5 => if alt then a.sshiftRight sh else a >>> sh
  | 6 => a ||| b
  | _ => a &&& b

/-- A multiplication or division of registers of `n` bits. -/
def rvMul {n : Nat} (f3 : Nat) (a b : BitVec n) : BitVec n :=
  match f3 with
  | 0 => a * b
  | 1 => BitVec.ofInt n (a.toInt * b.toInt / 2 ^ n)
  | 2 => BitVec.ofInt n (a.toInt * b.toNat / 2 ^ n)
  | 3 => BitVec.ofNat n (a.toNat * b.toNat / 2 ^ n)
  | 4 => if b = 0 then BitVec.allOnes n else a.sdiv b
  | 5 => if b = 0 then BitVec.allOnes n else a / b
  | 6 => if b = 0 then a else a.srem b
  | _ => if b = 0 then a else a % b

/-- Whether a branch is taken. -/
def rvTaken (f3 : Nat) (a b : BitVec 64) : Option Bool :=
  match f3 with
  | 0 => some (a == b)
  | 1 => some (a != b)
  | 4 => some (a.slt b)
  | 5 => some (!a.slt b)
  | 6 => some (a.ult b)
  | 7 => some (!a.ult b)
  | _ => none

/-- A loaded value of 2^k bytes, sign-extended or not. -/
def rvLoaded (f3 v : Nat) : BitVec 64 :=
  match f3 with
  | 0 => (BitVec.ofNat 8 v).signExtend 64
  | 1 => (BitVec.ofNat 16 v).signExtend 64
  | 2 => (BitVec.ofNat 32 v).signExtend 64
  | _ => BitVec.ofNat 64 v

/-- The memory operation of an atomic instruction. -/
def rvAtomic (f5 pa : Nat) (wide : Bool) (v : BitVec 64) (aq rl : Bool) : Option EflerOp :=
  let amo (o : AtomOp) : Option EflerOp := some (.amo pa wide o v aq rl)
  match f5 with
  | 0x02 => some (.lr pa wide aq)
  | 0x03 => some (.sc pa wide v rl)
  | 0x00 => amo .add
  | 0x01 => amo .xchg
  | 0x04 => amo .xor
  | 0x08 => amo .or
  | 0x0C => amo .and
  | 0x10 => amo .min
  | 0x14 => amo .max
  | 0x18 => amo .minu
  | 0x1C => amo .maxu
  | _ => none

/-- The result of an instruction that works on registers alone. -/
def Efler.compute (e : Efler) (w : Word) : Option (BitVec 64) :=
  let f3 := natBits w.toNat 14 12
  let f7 := natBits w.toNat 31 25
  let a := e.rx (natBits w.toNat 19 15)
  let b := e.rx (natBits w.toNat 24 20)
  let i := immI w
  let low (v : BitVec 64) : Word := v.setWidth 32
  match natBits w.toNat 6 0 with
  | 0x37 => some (immU w)
  | 0x17 => some (e.pc + immU w)
  | 0x13 =>
    if f3 = 1 ∧ natBits w.toNat 31 26 ≠ 0 then none
    else if f3 = 5 ∧ natBits w.toNat 31 26 ≠ 0 ∧ natBits w.toNat 31 26 ≠ 16 then none
    else some (rvAlu f3 (decide (f3 = 5) && w.getLsbD 30) a (if f3 = 1 ∨ f3 = 5 then i &&& 63 else i))
  | 0x1B =>
    if f3 = 0 then some ((low (a + i)).signExtend 64)
    else if f3 = 1 ∧ f7 = 0 ∨ f3 = 5 ∧ (f7 = 0 ∨ f7 = 32) then
      some ((rvAlu f3 (decide (f7 = 32)) (low a) (low i &&& 31)).signExtend 64)
    else none
  | 0x33 =>
    if f7 = 1 then some (rvMul f3 a b)
    else if f7 = 0 ∨ f7 = 32 ∧ (f3 = 0 ∨ f3 = 5) then some (rvAlu f3 (decide (f7 = 32)) a b)
    else none
  | 0x3B =>
    if f7 = 1 ∧ (f3 = 0 ∨ 4 ≤ f3) then some ((rvMul f3 (low a) (low b)).signExtend 64)
    else if f7 = 0 ∧ (f3 = 0 ∨ f3 = 1 ∨ f3 = 5) ∨ f7 = 32 ∧ (f3 = 0 ∨ f3 = 5) then
      some ((rvAlu f3 (decide (f7 = 32)) (low a) (low b)).signExtend 64)
    else none
  | _ => none

/-- The result of a memory operation goes to a register, and the hart goes on; one that faults leaves the hart where it
is. -/
def State.hartWrites (s : State) (hart rd : Nat) (pc : BitVec 64) : Option (BitVec 64) × State → State
  | (none, _) => s
  | (some v, s1) => s1.onHart hart fun e => { (e.wx rd v) with pc := pc }

/-- A hart executes an instruction; one outside those modelled leaves it where it is (log entry 20). -/
def State.hartRun (s : State) (hart : Nat) (w : Word) : State :=
  let e := s.hart hart
  let op := natBits w.toNat 6 0
  let rd := natBits w.toNat 11 7
  let f3 := natBits w.toNat 14 12
  let a := e.rx (natBits w.toNat 19 15)
  let b := e.rx (natBits w.toNat 24 20)
  let next := e.pc + 4
  let at_ (va : BitVec 64) : Option Nat := Config.hartPa hart va
  match e.compute w with
  | some v => s.onHart hart fun e => { (e.wx rd v) with pc := next }
  | none =>
    if op = 0x6F then s.onHart hart fun e => { (e.wx rd next) with pc := e.pc + immJ w }
    else if op = 0x67 ∧ f3 = 0 then
      s.onHart hart fun e => { (e.wx rd next) with pc := (a + immI w) &&& ~~~1#64 }
    else if op = 0x63 then
      match rvTaken f3 a b with
      | none => s
      | some t => s.onHart hart fun e => { e with pc := if t then e.pc + immB w else next }
    else if op = 0x03 ∧ f3 < 7 then
      match at_ (a + immI w) with
      | none => s
      | some pa =>
        let r := s.hartLoad hart pa (2 ^ (f3 % 4))
        s.hartWrites hart rd next (r.1.map fun v => rvLoaded f3 v, r.2)
    else if op = 0x23 ∧ f3 < 4 then
      match at_ (a + immS w) with
      | none => s
      | some pa =>
        let (ok, s1) := s.hartStore hart pa (2 ^ f3) b
        if ok then s1.onHart hart fun e => { e with pc := next } else s
    else if op = 0x0F ∧ f3 < 2 then s.onHart hart fun e => { e with pc := next }
    else if op = 0x2F ∧ (f3 = 2 ∨ f3 = 3) then
      match at_ a with
      | none => s
      | some pa =>
        match rvAtomic (natBits w.toNat 31 27) pa (f3 == 3) b (w.getLsbD 26) (w.getLsbD 25) with
        | none => s
        | some o =>
          let r := s.hartOp hart o
          s.hartWrites hart rd next (r.1.map fun v => rvLoaded f3 v, r.2)
    else s

/-- The hart executes the instruction at its program counter. -/
def State.hartStep (s : State) (hart : Nat) : State :=
  if 64 ≤ hart then s
  else
    let e := s.hart hart
    match Config.hartPa hart e.pc with
    | none => s
    | some pa =>
      match s.hartLoad hart pa 4 with
      | (none, _) => s
      | (some w, s1) => if e.pc.toNat % 4 = 0 then s1.hartRun hart (BitVec.ofNat 32 w) else s

/-- Software on a hart enters a routine with its arguments in x10 on. -/
def State.hartEnter (s : State) (hart : Nat) (pc : BitVec 64) (args : List (BitVec 64)) : State :=
  if 64 ≤ hart then s
  else s.onHart hart fun e => (upTo (min args.length 8)).foldl (fun e k => e.wx (10 + k) (args.getD k 0)) { e with pc := pc }

end Sys2Proof.Machine
end

