-- ==== Sys2Proof/Machine/RegUse.lean ====
section
/-!
DEFINITION. The registers that each word reads and writes, for the checking scoreboard (R169) and the residency of
register lines (R162). Reads stand in the order predicate, A, B, the destination as a source; the scoreboard names the
first register it finds (log entry 23).
-/

namespace Sys2Proof.Machine

/-- The registers a word reads and writes. -/
structure Use where
  reads : List RegId
  writes : List RegId
deriving DecidableEq, Repr

def vRegs (r : VReg) (n : Nat) : List RegId := (upTo n).map fun k => .v (r.toNat + k)
def sRegs (r : SReg) (n : Nat) : List RegId := (upTo n).map fun k => .s (r.toNat + k)
def oRegs : SOp → List RegId
  | .s r => [.s r.toNat]
  | .n _ => []
/-- The mask of a predicate: m0 is a constant. -/
def predRegs (c : Ctl) : List RegId := if c.pm = 0 then [] else [.m c.pm.toNat]

/-- A slot reads its destination unless it is unary (R53). -/
def slotUse (o : Slot) (d a : BitVec 8) : Use :=
  let unary := match o with
    | .vmov => true
    | .fabs => true
    | .fneg => true
    | .vnot => true
    | .cvtF32I32 => true
    | .cvtI32F32 => true
    | _ => false
  ⟨.v a.toNat :: (if unary then [] else [.v d.toNat]), [.v d.toNat]⟩

/-- The instructions whose addend is the old destination, which C replaces under a prefix (R123). -/
def hasAddend : Instr → Bool
  | .vmad _ _ _ _ => true
  | .vdot4 _ _ _ _ => true
  | .ffma _ _ _ _ => true
  | .hfma _ _ _ _ => true
  | .bfma _ _ _ _ => true
  | .fdot2h _ _ _ _ => true
  | .fdot2b _ _ _ _ => true
  | _ => false

/-- The registers of a word that is not a pair (R42 to R53). -/
def wordUse : Instr → Use
  | .nop c => ⟨predRegs c, []⟩
  | .bra c qc _ _ => ⟨predRegs c ++ [.q qc.toNat], []⟩
  | .call c d _ => ⟨predRegs c, sRegs d 1⟩
  | .jr c a => ⟨predRegs c ++ sRegs a 1, []⟩
  | .loop c d _ => ⟨predRegs c ++ sRegs d 1, sRegs d 1⟩
  | .split c m _ _ => ⟨predRegs c ++ [.m m.toNat], []⟩
  | .jmpv c a => ⟨predRegs c ++ vRegs a 1, []⟩
  | .sync c => ⟨predRegs c, []⟩
  | .exit c => ⟨predRegs c, []⟩
  | .yield c => ⟨predRegs c, []⟩
  | .sleep c a _ => ⟨predRegs c ++ sRegs a 1, []⟩
  | .trap c _ => ⟨predRegs c, []⟩
  | .upcall c d a _ => ⟨predRegs c ++ sRegs a 4, sRegs d 4⟩
  | .elect c d => ⟨predRegs c, [.m d.toNat]⟩
  | .setprio c _ => ⟨predRegs c, [.sr 0x020]⟩
  | .qany c qd a => ⟨predRegs c ++ [.m a.toNat], [.q qd.toNat]⟩
  | .qall c qd a => ⟨predRegs c ++ [.m a.toNat], [.q qd.toNat]⟩
  | .qnone c qd a => ⟨predRegs c ++ [.m a.toNat], [.q qd.toNat]⟩
  | .qcmp c qd _ a b => ⟨predRegs c ++ sRegs a 1 ++ sRegs b 1, [.q qd.toNat]⟩
  | .qcmpi c qd _ a _ => ⟨predRegs c ++ sRegs a 1, [.q qd.toNat]⟩
  | .qop c qd qa qb _ => ⟨predRegs c ++ [.q qa.toNat] ++ [.q qb.toNat], [.q qd.toNat]⟩
  | .srd c d spec => ⟨predRegs c ++ [.sr spec.toNat], sRegs d 1⟩
  | .swr c a spec => ⟨predRegs c ++ sRegs a 1, [.sr spec.toNat]⟩
  | .vsrd c d spec => ⟨predRegs c ++ [.sr spec.toNat], vRegs d 1⟩
  | .sadd c d a b => ⟨predRegs c ++ oRegs a ++ oRegs b, oRegs d⟩
  | .ssub c d a b => ⟨predRegs c ++ oRegs a ++ oRegs b, oRegs d⟩
  | .smul c d a b => ⟨predRegs c ++ oRegs a ++ oRegs b, oRegs d⟩
  | .smulh c d a b => ⟨predRegs c ++ oRegs a ++ oRegs b, oRegs d⟩
  | .sdiv c d a b => ⟨predRegs c ++ oRegs a ++ oRegs b, oRegs d⟩
  | .sdivu c d a b => ⟨predRegs c ++ oRegs a ++ oRegs b, oRegs d⟩
  | .srem c d a b => ⟨predRegs c ++ oRegs a ++ oRegs b, oRegs d⟩
  | .sremu c d a b => ⟨predRegs c ++ oRegs a ++ oRegs b, oRegs d⟩
  | .sand c d a b => ⟨predRegs c ++ oRegs a ++ oRegs b, oRegs d⟩
  | .sor c d a b => ⟨predRegs c ++ oRegs a ++ oRegs b, oRegs d⟩
  | .sxor c d a b => ⟨predRegs c ++ oRegs a ++ oRegs b, oRegs d⟩
  | .sshl c d a b => ⟨predRegs c ++ oRegs a ++ oRegs b, oRegs d⟩
  | .sshr c d a b => ⟨predRegs c ++ oRegs a ++ oRegs b, oRegs d⟩
  | .ssra c d a b => ⟨predRegs c ++ oRegs a ++ oRegs b, oRegs d⟩
  | .smin c d a b => ⟨predRegs c ++ oRegs a ++ oRegs b, oRegs d⟩
  | .smax c d a b => ⟨predRegs c ++ oRegs a ++ oRegs b, oRegs d⟩
  | .sminu c d a b => ⟨predRegs c ++ oRegs a ++ oRegs b, oRegs d⟩
  | .smaxu c d a b => ⟨predRegs c ++ oRegs a ++ oRegs b, oRegs d⟩
  | .saddi c d a _ => ⟨predRegs c ++ oRegs a, oRegs d⟩
  | .sandi c d a _ => ⟨predRegs c ++ oRegs a, oRegs d⟩
  | .sori c d a _ => ⟨predRegs c ++ oRegs a, oRegs d⟩
  | .sxori c d a _ => ⟨predRegs c ++ oRegs a, oRegs d⟩
  | .sshli c d a _ => ⟨predRegs c ++ oRegs a, oRegs d⟩
  | .sshri c d a _ => ⟨predRegs c ++ oRegs a, oRegs d⟩
  | .ssrai c d a _ => ⟨predRegs c ++ oRegs a, oRegs d⟩
  | .sli c d _ => ⟨predRegs c, oRegs d⟩
  | .slui c d _ => ⟨predRegs c ++ oRegs d, oRegs d⟩
  | .smov c d a => ⟨predRegs c ++ oRegs a, oRegs d⟩
  | .saddp c d a b => ⟨predRegs c ++ sRegs a 2 ++ sRegs b 2, sRegs d 2⟩
  | .sclz c d a => ⟨predRegs c ++ oRegs a, oRegs d⟩
  | .spopc c d a => ⟨predRegs c ++ oRegs a, oRegs d⟩
  | .sbfe c d a _ _ => ⟨predRegs c ++ oRegs a, oRegs d⟩
  | .mand c d a b => ⟨predRegs c ++ [.m a.toNat] ++ [.m b.toNat], [.m d.toNat]⟩
  | .mor c d a b => ⟨predRegs c ++ [.m a.toNat] ++ [.m b.toNat], [.m d.toNat]⟩
  | .mxor c d a b => ⟨predRegs c ++ [.m a.toNat] ++ [.m b.toNat], [.m d.toNat]⟩
  | .mandn c d a b => ⟨predRegs c ++ [.m a.toNat] ++ [.m b.toNat], [.m d.toNat]⟩
  | .mnot c d a => ⟨predRegs c ++ [.m a.toNat], [.m d.toNat]⟩
  | .mfroms c d a => ⟨predRegs c ++ sRegs a 2, [.m d.toNat]⟩
  | .mtos c d a => ⟨predRegs c ++ [.m a.toNat], sRegs d 2⟩
  | .mpopc c d a => ⟨predRegs c ++ [.m a.toNat], sRegs d 1⟩
  | .mffs c d a => ⟨predRegs c ++ [.m a.toNat], sRegs d 1⟩
  | .vadd c d a b => ⟨predRegs c ++ vRegs a 1 ++ vRegs b 1, vRegs d 1⟩
  | .vsub c d a b => ⟨predRegs c ++ vRegs a 1 ++ vRegs b 1, vRegs d 1⟩
  | .vmul c d a b => ⟨predRegs c ++ vRegs a 1 ++ vRegs b 1, vRegs d 1⟩
  | .vmulh c d a b => ⟨predRegs c ++ vRegs a 1 ++ vRegs b 1, vRegs d 1⟩
  | .vmulhu c d a b => ⟨predRegs c ++ vRegs a 1 ++ vRegs b 1, vRegs d 1⟩
  | .vmad c d a b => ⟨predRegs c ++ vRegs a 1 ++ vRegs b 1 ++ vRegs d 1, vRegs d 1⟩
  | .vand c d a b => ⟨predRegs c ++ vRegs a 1 ++ vRegs b 1, vRegs d 1⟩
  | .vor c d a b => ⟨predRegs c ++ vRegs a 1 ++ vRegs b 1, vRegs d 1⟩
  | .vxor c d a b => ⟨predRegs c ++ vRegs a 1 ++ vRegs b 1, vRegs d 1⟩
  | .vshl c d a b => ⟨predRegs c ++ vRegs a 1 ++ vRegs b 1, vRegs d 1⟩
  | .vshr c d a b => ⟨predRegs c ++ vRegs a 1 ++ vRegs b 1, vRegs d 1⟩
  | .vsra c d a b => ⟨predRegs c ++ vRegs a 1 ++ vRegs b 1, vRegs d 1⟩
  | .vmin c d a b => ⟨predRegs c ++ vRegs a 1 ++ vRegs b 1, vRegs d 1⟩
  | .vmax c d a b => ⟨predRegs c ++ vRegs a 1 ++ vRegs b 1, vRegs d 1⟩
  | .vminu c d a b => ⟨predRegs c ++ vRegs a 1 ++ vRegs b 1, vRegs d 1⟩
  | .vmaxu c d a b => ⟨predRegs c ++ vRegs a 1 ++ vRegs b 1, vRegs d 1⟩
  | .vaddi c d a _ => ⟨predRegs c ++ vRegs a 1, vRegs d 1⟩
  | .vandi c d a _ => ⟨predRegs c ++ vRegs a 1, vRegs d 1⟩
  | .vori c d a _ => ⟨predRegs c ++ vRegs a 1, vRegs d 1⟩
  | .vxori c d a _ => ⟨predRegs c ++ vRegs a 1, vRegs d 1⟩
  | .vshli c d a _ => ⟨predRegs c ++ vRegs a 1, vRegs d 1⟩
  | .vshri c d a _ => ⟨predRegs c ++ vRegs a 1, vRegs d 1⟩
  | .vsrai c d a _ => ⟨predRegs c ++ vRegs a 1, vRegs d 1⟩
  | .vli c d _ => ⟨predRegs c, vRegs d 1⟩
  | .vmov c d a => ⟨predRegs c ++ vRegs a 1, vRegs d 1⟩
  | .vmovs c d a => ⟨predRegs c ++ sRegs a 1, vRegs d 1⟩
  | .vaddp c d a b => ⟨predRegs c ++ vRegs a 2 ++ vRegs b 2, vRegs d 2⟩
  | .vclz c d a => ⟨predRegs c ++ vRegs a 1, vRegs d 1⟩
  | .vpopc c d a => ⟨predRegs c ++ vRegs a 1, vRegs d 1⟩
  | .vbfe c d a _ _ => ⟨predRegs c ++ vRegs a 1, vRegs d 1⟩
  | .vsel c d a b => ⟨predRegs c ++ vRegs a 1 ++ vRegs b 1, vRegs d 1⟩
  | .vcmp c md _ a b => ⟨predRegs c ++ vRegs a 1 ++ vRegs b 1, [.m md.toNat]⟩
  | .vcmpi c md _ a _ => ⟨predRegs c ++ vRegs a 1, [.m md.toNat]⟩
  | .vdot4 c d a b => ⟨predRegs c ++ vRegs a 1 ++ vRegs b 1 ++ vRegs d 1, vRegs d 1⟩
  | .fadd c d a b => ⟨predRegs c ++ vRegs a 1 ++ vRegs b 1, vRegs d 1⟩
  | .fsub c d a b => ⟨predRegs c ++ vRegs a 1 ++ vRegs b 1, vRegs d 1⟩
  | .fmul c d a b => ⟨predRegs c ++ vRegs a 1 ++ vRegs b 1, vRegs d 1⟩
  | .ffma c d a b => ⟨predRegs c ++ vRegs a 1 ++ vRegs b 1 ++ vRegs d 1, vRegs d 1⟩
  | .fmin c d a b => ⟨predRegs c ++ vRegs a 1 ++ vRegs b 1, vRegs d 1⟩
  | .fmax c d a b => ⟨predRegs c ++ vRegs a 1 ++ vRegs b 1, vRegs d 1⟩
  | .fabs c d a => ⟨predRegs c ++ vRegs a 1, vRegs d 1⟩
  | .fneg c d a => ⟨predRegs c ++ vRegs a 1, vRegs d 1⟩
  | .fcpsgn c d a b => ⟨predRegs c ++ vRegs a 1 ++ vRegs b 1, vRegs d 1⟩
  | .frnd c d a => ⟨predRegs c ++ vRegs a 1, vRegs d 1⟩
  | .fcmp c md _ a b => ⟨predRegs c ++ vRegs a 1 ++ vRegs b 1, [.m md.toNat]⟩
  | .hadd c d a b => ⟨predRegs c ++ vRegs a 1 ++ vRegs b 1, vRegs d 1⟩
  | .hmul c d a b => ⟨predRegs c ++ vRegs a 1 ++ vRegs b 1, vRegs d 1⟩
  | .hfma c d a b => ⟨predRegs c ++ vRegs a 1 ++ vRegs b 1 ++ vRegs d 1, vRegs d 1⟩
  | .badd c d a b => ⟨predRegs c ++ vRegs a 1 ++ vRegs b 1, vRegs d 1⟩
  | .bmul c d a b => ⟨predRegs c ++ vRegs a 1 ++ vRegs b 1, vRegs d 1⟩
  | .bfma c d a b => ⟨predRegs c ++ vRegs a 1 ++ vRegs b 1 ++ vRegs d 1, vRegs d 1⟩
  | .fdot2h c d a b => ⟨predRegs c ++ vRegs a 1 ++ vRegs b 1 ++ vRegs d 1, vRegs d 1⟩
  | .fdot2b c d a b => ⟨predRegs c ++ vRegs a 1 ++ vRegs b 1 ++ vRegs d 1, vRegs d 1⟩
  | .cvt c d a _ _ => ⟨predRegs c ++ vRegs a 1, vRegs d 1⟩
  | .packh c d a b => ⟨predRegs c ++ vRegs a 1 ++ vRegs b 1, vRegs d 1⟩
  | .packb c d a b => ⟨predRegs c ++ vRegs a 1 ++ vRegs b 1, vRegs d 1⟩
  | .frcp c d a => ⟨predRegs c ++ vRegs a 1, vRegs d 1⟩
  | .frsq c d a => ⟨predRegs c ++ vRegs a 1, vRegs d 1⟩
  | .fsqrt c d a => ⟨predRegs c ++ vRegs a 1, vRegs d 1⟩
  | .fex2 c d a => ⟨predRegs c ++ vRegs a 1, vRegs d 1⟩
  | .flg2 c d a => ⟨predRegs c ++ vRegs a 1, vRegs d 1⟩
  | .fsinp c d a => ⟨predRegs c ++ vRegs a 1, vRegs d 1⟩
  | .fcosp c d a => ⟨predRegs c ++ vRegs a 1, vRegs d 1⟩
  | .ftanh c d a => ⟨predRegs c ++ vRegs a 1, vRegs d 1⟩
  | .vperm c d a b => ⟨predRegs c ++ vRegs a 1 ++ vRegs b 1, vRegs d 1⟩
  | .vshfl c d a _ _ => ⟨predRegs c ++ vRegs a 1, vRegs d 1⟩
  | .vbcast c d a _ => ⟨predRegs c ++ vRegs a 1, vRegs d 1⟩
  | .vred c d a _ => ⟨predRegs c ++ vRegs a 1, sRegs d 1⟩
  | .vscan c d a _ _ => ⟨predRegs c ++ vRegs a 1, vRegs d 1⟩
  | .vhperm c d a _ => ⟨predRegs c ++ vRegs a 1, vRegs d 1⟩
  | .vrand c d => ⟨predRegs c, vRegs d 1⟩
  | .vrandf c d => ⟨predRegs c, vRegs d 1⟩
  | .vrseed c a => ⟨predRegs c ++ sRegs a 2, []⟩
  | .ldvB8z c d a _ _ _ _ => ⟨predRegs c ++ vRegs a 2, vRegs d 1⟩
  | .ldvB8s c d a _ _ _ _ => ⟨predRegs c ++ vRegs a 2, vRegs d 1⟩
  | .ldvB16z c d a _ _ _ _ => ⟨predRegs c ++ vRegs a 2, vRegs d 1⟩
  | .ldvB16s c d a _ _ _ _ => ⟨predRegs c ++ vRegs a 2, vRegs d 1⟩
  | .ldvB32 c d a _ _ _ _ => ⟨predRegs c ++ vRegs a 2, vRegs d 1⟩
  | .ldvB64 c d a _ _ _ _ => ⟨predRegs c ++ vRegs a 2, vRegs d 2⟩
  | .ldvB128 c d a _ _ _ _ => ⟨predRegs c ++ vRegs a 2, vRegs d 4⟩
  | .stvB8 c d a _ _ _ _ => ⟨predRegs c ++ vRegs a 2 ++ vRegs d 1, []⟩
  | .stvB16 c d a _ _ _ _ => ⟨predRegs c ++ vRegs a 2 ++ vRegs d 1, []⟩
  | .stvB32 c d a _ _ _ _ => ⟨predRegs c ++ vRegs a 2 ++ vRegs d 1, []⟩
  | .stvB64 c d a _ _ _ _ => ⟨predRegs c ++ vRegs a 2 ++ vRegs d 2, []⟩
  | .stvB128 c d a _ _ _ _ => ⟨predRegs c ++ vRegs a 2 ++ vRegs d 4, []⟩
  | .ldsB32 c d a _ _ _ _ => ⟨predRegs c ++ sRegs a 2, sRegs d 1⟩
  | .ldsB64 c d a _ _ _ _ => ⟨predRegs c ++ sRegs a 2, sRegs d 2⟩
  | .ldsB128 c d a _ _ _ _ => ⟨predRegs c ++ sRegs a 2, sRegs d 4⟩
  | .stsB32 c d a _ _ _ _ => ⟨predRegs c ++ sRegs a 2 ++ sRegs d 1, []⟩
  | .stsB64 c d a _ _ _ _ => ⟨predRegs c ++ sRegs a 2 ++ sRegs d 2, []⟩
  | .ldlB32 c d a _ _ _ _ => ⟨predRegs c ++ vRegs a 1, vRegs d 1⟩
  | .ldlB128 c d a _ _ _ _ => ⟨predRegs c ++ vRegs a 1, vRegs d 4⟩
  | .stlB32 c d a _ _ _ _ => ⟨predRegs c ++ vRegs a 1 ++ vRegs d 1, []⟩
  | .stlB128 c d a _ _ _ _ => ⟨predRegs c ++ vRegs a 1 ++ vRegs d 4, []⟩
  | .atomAddB32 c d a _ _ _ _ => ⟨predRegs c ++ vRegs a 2 ++ vRegs d 1, vRegs d 1⟩
  | .atomMinB32 c d a _ _ _ _ => ⟨predRegs c ++ vRegs a 2 ++ vRegs d 1, vRegs d 1⟩
  | .atomMaxB32 c d a _ _ _ _ => ⟨predRegs c ++ vRegs a 2 ++ vRegs d 1, vRegs d 1⟩
  | .atomMinuB32 c d a _ _ _ _ => ⟨predRegs c ++ vRegs a 2 ++ vRegs d 1, vRegs d 1⟩
  | .atomMaxuB32 c d a _ _ _ _ => ⟨predRegs c ++ vRegs a 2 ++ vRegs d 1, vRegs d 1⟩
  | .atomAndB32 c d a _ _ _ _ => ⟨predRegs c ++ vRegs a 2 ++ vRegs d 1, vRegs d 1⟩
  | .atomOrB32 c d a _ _ _ _ => ⟨predRegs c ++ vRegs a 2 ++ vRegs d 1, vRegs d 1⟩
  | .atomXorB32 c d a _ _ _ _ => ⟨predRegs c ++ vRegs a 2 ++ vRegs d 1, vRegs d 1⟩
  | .atomXchgB32 c d a _ _ _ _ => ⟨predRegs c ++ vRegs a 2 ++ vRegs d 1, vRegs d 1⟩
  | .casB32 c d a _ _ _ _ => ⟨predRegs c ++ vRegs a 2 ++ vRegs d 2, vRegs d 1⟩
  | .atomfAddF32 c d a _ _ _ _ => ⟨predRegs c ++ vRegs a 2 ++ vRegs d 1, vRegs d 1⟩
  | .atomfAddBf16x2 c d a _ _ _ _ => ⟨predRegs c ++ vRegs a 2 ++ vRegs d 1, vRegs d 1⟩
  | .atomAddB64 c d a _ _ _ _ => ⟨predRegs c ++ vRegs a 2 ++ vRegs d 2, vRegs d 2⟩
  | .atomMinB64 c d a _ _ _ _ => ⟨predRegs c ++ vRegs a 2 ++ vRegs d 2, vRegs d 2⟩
  | .atomMaxB64 c d a _ _ _ _ => ⟨predRegs c ++ vRegs a 2 ++ vRegs d 2, vRegs d 2⟩
  | .atomMinuB64 c d a _ _ _ _ => ⟨predRegs c ++ vRegs a 2 ++ vRegs d 2, vRegs d 2⟩
  | .atomMaxuB64 c d a _ _ _ _ => ⟨predRegs c ++ vRegs a 2 ++ vRegs d 2, vRegs d 2⟩
  | .atomAndB64 c d a _ _ _ _ => ⟨predRegs c ++ vRegs a 2 ++ vRegs d 2, vRegs d 2⟩
  | .atomOrB64 c d a _ _ _ _ => ⟨predRegs c ++ vRegs a 2 ++ vRegs d 2, vRegs d 2⟩
  | .atomXorB64 c d a _ _ _ _ => ⟨predRegs c ++ vRegs a 2 ++ vRegs d 2, vRegs d 2⟩
  | .atomXchgB64 c d a _ _ _ _ => ⟨predRegs c ++ vRegs a 2 ++ vRegs d 2, vRegs d 2⟩
  | .casB64 c d a _ _ _ _ => ⟨predRegs c ++ vRegs a 2 ++ vRegs d 4, vRegs d 2⟩
  | .atomsAddB32 c d a _ _ _ _ => ⟨predRegs c ++ sRegs a 2 ++ sRegs d 1, sRegs d 1⟩
  | .atomsMinB32 c d a _ _ _ _ => ⟨predRegs c ++ sRegs a 2 ++ sRegs d 1, sRegs d 1⟩
  | .atomsMaxB32 c d a _ _ _ _ => ⟨predRegs c ++ sRegs a 2 ++ sRegs d 1, sRegs d 1⟩
  | .atomsMinuB32 c d a _ _ _ _ => ⟨predRegs c ++ sRegs a 2 ++ sRegs d 1, sRegs d 1⟩
  | .atomsMaxuB32 c d a _ _ _ _ => ⟨predRegs c ++ sRegs a 2 ++ sRegs d 1, sRegs d 1⟩
  | .atomsAndB32 c d a _ _ _ _ => ⟨predRegs c ++ sRegs a 2 ++ sRegs d 1, sRegs d 1⟩
  | .atomsOrB32 c d a _ _ _ _ => ⟨predRegs c ++ sRegs a 2 ++ sRegs d 1, sRegs d 1⟩
  | .atomsXorB32 c d a _ _ _ _ => ⟨predRegs c ++ sRegs a 2 ++ sRegs d 1, sRegs d 1⟩
  | .atomsXchgB32 c d a _ _ _ _ => ⟨predRegs c ++ sRegs a 2 ++ sRegs d 1, sRegs d 1⟩
  | .cassB32 c d a _ _ _ _ => ⟨predRegs c ++ sRegs a 2 ++ sRegs d 2, sRegs d 1⟩
  | .atomlAddB32 c d a _ _ _ _ => ⟨predRegs c ++ vRegs a 1 ++ vRegs d 1, vRegs d 1⟩
  | .atomlMinB32 c d a _ _ _ _ => ⟨predRegs c ++ vRegs a 1 ++ vRegs d 1, vRegs d 1⟩
  | .atomlMaxB32 c d a _ _ _ _ => ⟨predRegs c ++ vRegs a 1 ++ vRegs d 1, vRegs d 1⟩
  | .atomlMinuB32 c d a _ _ _ _ => ⟨predRegs c ++ vRegs a 1 ++ vRegs d 1, vRegs d 1⟩
  | .atomlMaxuB32 c d a _ _ _ _ => ⟨predRegs c ++ vRegs a 1 ++ vRegs d 1, vRegs d 1⟩
  | .atomlAndB32 c d a _ _ _ _ => ⟨predRegs c ++ vRegs a 1 ++ vRegs d 1, vRegs d 1⟩
  | .atomlOrB32 c d a _ _ _ _ => ⟨predRegs c ++ vRegs a 1 ++ vRegs d 1, vRegs d 1⟩
  | .atomlXorB32 c d a _ _ _ _ => ⟨predRegs c ++ vRegs a 1 ++ vRegs d 1, vRegs d 1⟩
  | .atomlXchgB32 c d a _ _ _ _ => ⟨predRegs c ++ vRegs a 1 ++ vRegs d 1, vRegs d 1⟩
  | .caslB32 c d a _ _ _ _ => ⟨predRegs c ++ vRegs a 1 ++ vRegs d 2, vRegs d 1⟩
  | .fence c _ _ _ => ⟨predRegs c, []⟩
  | .monitor c a _ _ _ => ⟨predRegs c ++ sRegs a 2, []⟩
  | .mwait c d a _ _ _ _ => ⟨predRegs c ++ sRegs a 2 ++ sRegs d 1, sRegs d 1⟩
  | .pf c a _ _ _ => ⟨predRegs c ++ vRegs a 2, []⟩
  | .cwb c a _ _ _ => ⟨predRegs c ++ vRegs a 2, []⟩
  | .cinv c a _ _ _ => ⟨predRegs c ++ vRegs a 2, []⟩
  | .barSync c _ _ => ⟨predRegs c, []⟩
  | .barArrive c _ _ => ⟨predRegs c, []⟩
  | .barWait c _ _ => ⟨predRegs c, []⟩
  | .rte c => ⟨predRegs c ++ [.sr 0x02B], []⟩
  | .brk c _ => ⟨predRegs c, []⟩
  | .mma c d a _ => ⟨predRegs c ++ sRegs a 4 ++ vRegs d 1, []⟩
  | .mmas c d a _ => ⟨predRegs c ++ sRegs a 5 ++ vRegs d 1, []⟩
  | .macz c _ => ⟨predRegs c, []⟩
  | .macld c d a _ => ⟨predRegs c ++ sRegs a 3 ++ vRegs d 1, []⟩
  | .macst c d a _ => ⟨predRegs c ++ sRegs a 3 ++ vRegs d 1, []⟩
  | .mepiScale c d a _ => ⟨predRegs c ++ sRegs a 2 ++ vRegs d 1, []⟩
  | .mepiBiasRow c d a _ => ⟨predRegs c ++ sRegs a 2 ++ vRegs d 1, []⟩
  | .mepiBiasCol c d a _ => ⟨predRegs c ++ sRegs a 2 ++ vRegs d 1, []⟩
  | .mepiRelu c d a _ => ⟨predRegs c ++ sRegs a 2 ++ vRegs d 1, []⟩
  | .mepiClamp c d a _ => ⟨predRegs c ++ sRegs a 2 ++ vRegs d 1, []⟩
  | .mepiAdd c d a _ => ⟨predRegs c ++ sRegs a 2 ++ vRegs d 1, []⟩
  | .mepiDeq c d a _ => ⟨predRegs c ++ sRegs a 2 ++ vRegs d 1, []⟩
  | .batonTake c d => ⟨predRegs c, sRegs d 1⟩
  | .batonPass c _ => ⟨predRegs c, []⟩
  | .mquery c d _ => ⟨predRegs c, sRegs d 1⟩
  | .mqueryFlagsc c d => ⟨predRegs c, sRegs d 1⟩
  | .tld c _ sb => ⟨predRegs c ++ sRegs sb 5, []⟩
  | .tconst c _ sb => ⟨predRegs c ++ sRegs sb 2, []⟩
  | .tiota c _ sb => ⟨predRegs c ++ sRegs sb 4, []⟩
  | .tmapTr c _ _ => ⟨predRegs c, []⟩
  | .tmapSlice c _ _ sb => ⟨predRegs c ++ sRegs sb 2, []⟩
  | .tmapBcr c _ _ sb => ⟨predRegs c ++ sRegs sb 1, []⟩
  | .tmapBcc c _ _ sb => ⟨predRegs c ++ sRegs sb 1, []⟩
  | .tmapRevr c _ _ => ⟨predRegs c, []⟩
  | .tmapRevc c _ _ => ⟨predRegs c, []⟩
  | .tmapShift c _ _ sb => ⟨predRegs c ++ sRegs sb 2, []⟩
  | .tadd c _ _ _ => ⟨predRegs c, []⟩
  | .tsub c _ _ _ => ⟨predRegs c, []⟩
  | .tmul c _ _ _ => ⟨predRegs c, []⟩
  | .tmax c _ _ _ => ⟨predRegs c, []⟩
  | .tmin c _ _ _ => ⟨predRegs c, []⟩
  | .texp c _ _ => ⟨predRegs c, []⟩
  | .tlog c _ _ => ⟨predRegs c, []⟩
  | .trcp c _ _ => ⟨predRegs c, []⟩
  | .tsig c _ _ => ⟨predRegs c, []⟩
  | .tselm c _ _ sb _ => ⟨predRegs c ++ sRegs sb 2, []⟩
  | .tscan c _ _ _ => ⟨predRegs c, []⟩
  | .tred c _ _ _ => ⟨predRegs c, []⟩
  | .tmma c _ _ _ sb => ⟨predRegs c ++ sRegs sb 1, []⟩
  | .tcvt c _ _ sb => ⟨predRegs c ++ sRegs sb 1, []⟩
  | .tst c _ sb => ⟨predRegs c ++ sRegs sb 5, []⟩
  | .tforce c _ sb => ⟨predRegs c ++ sRegs sb 4, []⟩
  | .tdrop c _ => ⟨predRegs c, []⟩
  | .tcfg c sb => ⟨predRegs c ++ sRegs sb 6, []⟩
  | .tstatCounts c sb => ⟨predRegs c, sRegs sb 1⟩
  | .tstatCap c sb => ⟨predRegs c, sRegs sb 1⟩
  | .tstatNode c _ sb => ⟨predRegs c, sRegs sb 2⟩
  | .tstatFault c sb => ⟨predRegs c, sRegs sb 16⟩
  | .cpy c d a => ⟨predRegs c ++ sRegs a 8, sRegs d 2⟩
  | .cpym c d a => ⟨predRegs c ++ sRegs a 10, sRegs d 2⟩
  | .cpyx c d a => ⟨predRegs c ++ sRegs a 16, sRegs d 2⟩
  | .tlwait c a _ => ⟨predRegs c ++ sRegs a 1, []⟩
  | .tlrd c d _ => ⟨predRegs c, sRegs d 2⟩
  | .waitp c a _ => ⟨predRegs c ++ sRegs a 2, []⟩
  | .bankcfg c a => ⟨predRegs c ++ sRegs a 1, []⟩
  | .fpush c a => ⟨predRegs c ++ sRegs a 9, []⟩
  | .fpop c d a => ⟨predRegs c ++ sRegs a 1, sRegs d 8⟩
  | .portcfg c _ a => ⟨predRegs c ++ sRegs a 3, []⟩
  | .cbarArrive c _ => ⟨predRegs c, []⟩
  | .cbarWait c _ => ⟨predRegs c, []⟩
  | .rbind c d a _ => ⟨predRegs c ++ sRegs a 5, sRegs d 2⟩
  | .rtrace c d a => ⟨predRegs c ++ sRegs a 5, sRegs d 2⟩
  | .rsave c => ⟨predRegs c, []⟩
  | .rresume c d a => ⟨predRegs c ++ sRegs a 5, sRegs d 2⟩
  | .rquery c d _ => ⟨predRegs c, sRegs d 1⟩
  | .launch c a => ⟨predRegs c ++ sRegs a 14, []⟩
  | .tenq c a => ⟨predRegs c ++ sRegs a 17, []⟩
  | .rnext c d q => ⟨predRegs c, sRegs d 2 ++ [.q q.toNat]⟩
  | .recalloc c d a => ⟨predRegs c ++ sRegs a 1, sRegs d 2⟩
  | .recsend c a => ⟨predRegs c ++ sRegs a 2, []⟩
  | .gate c => ⟨predRegs c, []⟩
  | .release c => ⟨predRegs c, []⟩
  | .qclaim c d a => ⟨predRegs c ++ sRegs a 1, sRegs d 2⟩
  | .pemit c a => ⟨predRegs c ++ sRegs a 10, []⟩
  | .pxout c d _ => ⟨predRegs c ++ vRegs d 1, []⟩
  | .nmv c d a => ⟨predRegs c ++ sRegs a 8, sRegs d 2⟩
  | .dualWord _ opH dH aH opL dL aL p =>
    ⟨(if p then [.m 1] else []) ++ (slotUse opH dH aH).reads ++ (slotUse opL dL aL).reads,
      (slotUse opH dH aH).writes ++ (slotUse opL dL aL).writes⟩
  | .wnop => ⟨[], []⟩
  | .ldn => ⟨[], []⟩
  | .tbox => ⟨[], []⟩
  | .wSort => ⟨[], []⟩
  | .pushc => ⟨[], []⟩
  | .wNext => ⟨[], []⟩
  | .ttri => ⟨[], []⟩
  | .wHit => ⟨[], []⟩
  | .wPop => ⟨[], []⟩
  | .brc _ _ _ => ⟨[], []⟩
  | .callout _ => ⟨[], []⟩
  | .wDone => ⟨[], []⟩
  | .xform _ _ _ => ⟨[], []⟩
  | .ipop => ⟨[], []⟩
  | .cull => ⟨[], []⟩
  | .sett _ _ => ⟨[], []⟩
  | .prefixedPair _ _ => ⟨[], []⟩
  | .sleepExpire _ => ⟨[], []⟩
  | .batonTransfer _ => ⟨[], []⟩
  | .matrixCommandStart _ => ⟨[], []⟩
  | .accumulatorTileFill _ _ => ⟨[], []⟩
  | .matrixCommandComplete _ => ⟨[], []⟩
  | .demandOutputStep _ => ⟨[], []⟩
  | .demandComplete _ => ⟨[], []⟩
  | .viewCapture _ => ⟨[], []⟩
  | .bankModeChangeDone _ _ => ⟨[], []⟩
  | .fifoPushJoin _ _ => ⟨[], []⟩
  | .fifoPopServe _ _ => ⟨[], []⟩
  | .creditReturn _ _ => ⟨[], []⟩
  | .portReadServe _ _ => ⟨[], []⟩
  | .copyRequestComplete _ => ⟨[], []⟩
  | .followOnEnqueue _ => ⟨[], []⟩
  | .promisedTimeReached _ => ⟨[], []⟩
  | .rbindApply _ => ⟨[], []⟩
  | .rayStart _ => ⟨[], []⟩
  | .nodeFetchReturn _ => ⟨[], []⟩
  | .rayWriteback _ => ⟨[], []⟩
  | .traversalRequestComplete _ => ⟨[], []⟩
  | .nmvRequestComplete _ => ⟨[], []⟩
  | .pixelWaveLaunch _ _ _ => ⟨[], []⟩
  | .aggregatorWindowClose _ _ => ⟨[], []⟩
  | .taskStart _ => ⟨[], []⟩
  | .rangeTaskSplit _ => ⟨[], []⟩
  | .batchTimeout _ _ => ⟨[], []⟩
  | .batchGroupEnd _ => ⟨[], []⟩
  | .cohortPlacement _ _ => ⟨[], []⟩
  | .waveEnd _ => ⟨[], []⟩
  | .registerLineFill _ _ => ⟨[], []⟩
  | .wavePromotion _ _ => ⟨[], []⟩
  | .fixedLatencyComplete _ _ => ⟨[], []⟩
  | .loadComplete _ _ => ⟨[], []⟩
  | .storePerformed _ _ => ⟨[], []⟩
  | .rmwPerformed _ _ => ⟨[], []⟩
  | .fenceComplete _ _ => ⟨[], []⟩
  | .mwaitWake _ => ⟨[], []⟩
  | .waitPoll _ => ⟨[], []⟩
  | .trapDelivery _ => ⟨[], []⟩
  | .pageWalk _ _ _ _ => ⟨[], []⟩
  | .tlbiGo _ _ => ⟨[], []⟩
  | .tlbiComplete _ => ⟨[], []⟩
  | .preempt _ _ => ⟨[], []⟩
  | .contextHalt _ _ => ⟨[], []⟩
  | .controlStateSwap _ _ _ => ⟨[], []⟩
  | .shadowStoreDrain _ => ⟨[], []⟩
  | .restore _ _ _ => ⟨[], []⟩
  | .waveEvict _ => ⟨[], []⟩
  | .l2LineFill _ => ⟨[], []⟩
  | .packetPromotion _ _ _ _ => ⟨[], []⟩
  | .tailFilterReport _ => ⟨[], []⟩
  | .launchPacket _ => ⟨[], []⟩
  | .launchStart _ => ⟨[], []⟩
  | .launchComplete _ => ⟨[], []⟩
  | .graphDispatch _ => ⟨[], []⟩
  | .drawGraph _ => ⟨[], []⟩
  | .dependency _ => ⟨[], []⟩
  | .dependencySatisfied _ _ => ⟨[], []⟩
  | .timelineSignal _ => ⟨[], []⟩
  | .timelineWait _ => ⟨[], []⟩
  | .timelineWaitSatisfied _ _ => ⟨[], []⟩
  | .handleDeclaration _ => ⟨[], []⟩
  | .noOp _ => ⟨[], []⟩
  | .firmwareDefinedPacket _ => ⟨[], []⟩
  | .queueRestart _ => ⟨[], []⟩
  | .qcbinv _ _ => ⟨[], []⟩
  | .mbdone _ _ => ⟨[], []⟩
  | .mailboxPost _ => ⟨[], []⟩
  | .mailboxActionApply _ _ => ⟨[], []⟩
  | .contextCreate _ => ⟨[], []⟩
  | .windowDerive _ _ _ _ _ _ => ⟨[], []⟩
  | .windowInvalidate _ _ => ⟨[], []⟩
  | .capabilityAccess _ _ _ _ _ => ⟨[], []⟩
  | .doorbellWrite _ => ⟨[], []⟩
  | .queueTableFault _ => ⟨[], []⟩
  | .queueErrorNotice _ => ⟨[], []⟩
  | .partitionCreate _ _ => ⟨[], []⟩
  | .partitionResize _ _ _ => ⟨[], []⟩
  | .surfWrite _ _ _ => ⟨[], []⟩
  | .verticalBlank _ _ => ⟨[], []⟩
  | .sliceEncodeComplete _ _ => ⟨[], []⟩
  | .flitCrcRetry _ _ => ⟨[], []⟩
  | .linkRetrain _ _ => ⟨[], []⟩
  | .linkRecover _ _ => ⟨[], []⟩
  | .linkDown _ _ => ⟨[], []⟩
  | .cecntClear _ _ _ => ⟨[], []⟩
  | .dramPatrol _ => ⟨[], []⟩
  | .governorTick _ => ⟨[], []⟩
  | .coolantLimit _ => ⟨[], []⟩
  | .coolantShutdown => ⟨[], []⟩
  | .peerRequest _ => ⟨[], []⟩
  | .peerUnreachable _ => ⟨[], []⟩
  | .hostWrite _ _ _ => ⟨[], []⟩
  | .hostRead _ _ => ⟨[], []⟩
  | .feataccWrite _ => ⟨[], []⟩
  | .shardFetch _ _ _ => ⟨[], []⟩
  | .shardVerify _ _ _ => ⟨[], []⟩
  | .shardFetchComplete _ _ => ⟨[], []⟩
  | .shardScrub _ => ⟨[], []⟩
  | .boot _ => ⟨[], []⟩
  | .getVersion _ _ => ⟨[], []⟩
  | .getCapabilities _ _ => ⟨[], []⟩
  | .negotiateAlgorithms _ _ => ⟨[], []⟩
  | .getDigests _ _ => ⟨[], []⟩
  | .getCertificate _ _ => ⟨[], []⟩
  | .challenge _ _ => ⟨[], []⟩
  | .getMeasurements _ _ => ⟨[], []⟩
  | .registerWrite _ _ _ => ⟨[], []⟩
  | .eflerAccess _ _ => ⟨[], []⟩
  | .hostAtomic _ _ _ => ⟨[], []⟩
  | .peerPortDown _ => ⟨[], []⟩
  | .recoveryImage _ => ⟨[], []⟩

/-- The slot operations that can raise an exception. -/
def slotRaises : Slot → Bool
  | .fadd => true
  | .fsub => true
  | .fmul => true
  | .fmin => true
  | .fmax => true
  | .hadd => true
  | .hmul => true
  | .badd => true
  | .bmul => true
  | .cvtF32I32 => true
  | .cvtI32F32 => true
  | _ => false

/-- The words that read the trap enables of sr.fpctl: those that can raise a floating exception (R33, R34, R257). -/
def readsEnables : Instr → Bool
  | .fadd _ _ _ _ => true
  | .fsub _ _ _ _ => true
  | .fmul _ _ _ _ => true
  | .ffma _ _ _ _ => true
  | .fmin _ _ _ _ => true
  | .fmax _ _ _ _ => true
  | .frnd _ _ _ => true
  | .fcmp _ _ _ _ _ => true
  | .hadd _ _ _ _ => true
  | .hmul _ _ _ _ => true
  | .hfma _ _ _ _ => true
  | .badd _ _ _ _ => true
  | .bmul _ _ _ _ => true
  | .bfma _ _ _ _ => true
  | .fdot2h _ _ _ _ => true
  | .fdot2b _ _ _ _ => true
  | .cvt _ _ _ _ _ => true
  | .packh _ _ _ _ => true
  | .packb _ _ _ _ => true
  | .frcp _ _ _ => true
  | .frsq _ _ _ => true
  | .fsqrt _ _ _ => true
  | .fex2 _ _ _ => true
  | .flg2 _ _ _ => true
  | .fsinp _ _ _ => true
  | .fcosp _ _ _ => true
  | .ftanh _ _ _ => true
  | .vred _ _ _ op => redFloat op
  | .vscan _ _ _ _ op => redFloat op
  | .tst _ _ _ => true
  | .tforce _ _ _ => true
  | .dualWord _ opH _ _ opL _ _ _ => slotRaises opH || slotRaises opL
  | _ => false

/-- The registers of a word or a pair: under a prefix the mask is the prefix's, and C stands for the addend (R123). What a
word reads without naming it stands last. -/
def regUse : Instr → Use
  | .prefixedPair x i =>
    let u := wordUse i
    let m : List RegId := if x.mask = 0 then [] else [.m x.mask.toNat]
    let ctl : List RegId := if x.rnd = .dyn || readsEnables i then [.sr 0x018] else []
    if hasAddend i then ⟨m ++ u.reads.dropLast ++ [.v x.c.toNat] ++ ctl, u.writes⟩
    else ⟨m ++ u.reads ++ ctl, u.writes⟩
  | i =>
    let u := wordUse i
    ⟨u.reads ++ if readsEnables i then [.sr 0x018] else [], u.writes⟩

end Sys2Proof.Machine
end

