-- ==== Sys2Proof/Machine/Dispatch.lean ====
section
/-!
DEFINITION. One arm for each constructor of `Instr`: the meaning of each operation of the table.
-/

namespace Sys2Proof.Machine

/-- The effect of one operation. -/
def exec (i : Instr) (s : State) : Host.Outcome State Fault Refusal :=
  match i with
  | .wnop => Sys2Proof.Machine.execWnop s
  | .ldn => Sys2Proof.Machine.execLdn s
  | .tbox => Sys2Proof.Machine.execTbox s
  | .wSort => Sys2Proof.Machine.execWSort s
  | .pushc => Sys2Proof.Machine.execPushc s
  | .wNext => Sys2Proof.Machine.execWNext s
  | .ttri => Sys2Proof.Machine.execTtri s
  | .wHit => Sys2Proof.Machine.execWHit s
  | .wPop => Sys2Proof.Machine.execWPop s
  | .brc cond neg target => Sys2Proof.Machine.execBrc cond neg target s
  | .callout code => Sys2Proof.Machine.execCallout code s
  | .wDone => Sys2Proof.Machine.execWDone s
  | .xform mat ident child => Sys2Proof.Machine.execXform mat ident child s
  | .ipop => Sys2Proof.Machine.execIpop s
  | .cull => Sys2Proof.Machine.execCull s
  | .sett sel value => Sys2Proof.Machine.execSett sel value s
  | .dualWord h opH dH aH opL dL aL p => Sys2Proof.Machine.execDualWord h opH dH aH opL dL aL p s
  | .prefixedPair x j => Sys2Proof.Machine.execPrefixedPair x j s
  | .nop c => Sys2Proof.Machine.execNop c s
  | .bra c qc qn off => Sys2Proof.Machine.execBra c qc qn off s
  | .call c d im => Sys2Proof.Machine.execCall c d im s
  | .jr c a => Sys2Proof.Machine.execJr c a s
  | .loop c d im => Sys2Proof.Machine.execLoop c d im s
  | .split c m mn off => Sys2Proof.Machine.execSplit c m mn off s
  | .jmpv c a => Sys2Proof.Machine.execJmpv c a s
  | .sync c => Sys2Proof.Machine.execSync c s
  | .exit c => Sys2Proof.Machine.execExit c s
  | .yield c => Sys2Proof.Machine.execYield c s
  | .sleep c a im => Sys2Proof.Machine.execSleep c a im s
  | .trap c code => Sys2Proof.Machine.execTrap c code s
  | .upcall c d a chan => Sys2Proof.Machine.execUpcall c d a chan s
  | .elect c d => Sys2Proof.Machine.execElect c d s
  | .setprio c im => Sys2Proof.Machine.execSetprio c im s
  | .qany c qd a => Sys2Proof.Machine.execQany c qd a s
  | .qall c qd a => Sys2Proof.Machine.execQall c qd a s
  | .qnone c qd a => Sys2Proof.Machine.execQnone c qd a s
  | .qcmp c qd cc a b => Sys2Proof.Machine.execQcmp c qd cc a b s
  | .qcmpi c qd cc a im => Sys2Proof.Machine.execQcmpi c qd cc a im s
  | .qop c qd qa qb opc => Sys2Proof.Machine.execQop c qd qa qb opc s
  | .srd c d spec => Sys2Proof.Machine.execSrd c d spec s
  | .swr c a spec => Sys2Proof.Machine.execSwr c a spec s
  | .vsrd c d spec => Sys2Proof.Machine.execVsrd c d spec s
  | .sadd c d a b => Sys2Proof.Machine.execSadd c d a b s
  | .ssub c d a b => Sys2Proof.Machine.execSsub c d a b s
  | .smul c d a b => Sys2Proof.Machine.execSmul c d a b s
  | .smulh c d a b => Sys2Proof.Machine.execSmulh c d a b s
  | .sdiv c d a b => Sys2Proof.Machine.execSdiv c d a b s
  | .sdivu c d a b => Sys2Proof.Machine.execSdivu c d a b s
  | .srem c d a b => Sys2Proof.Machine.execSrem c d a b s
  | .sremu c d a b => Sys2Proof.Machine.execSremu c d a b s
  | .sand c d a b => Sys2Proof.Machine.execSand c d a b s
  | .sor c d a b => Sys2Proof.Machine.execSor c d a b s
  | .sxor c d a b => Sys2Proof.Machine.execSxor c d a b s
  | .sshl c d a b => Sys2Proof.Machine.execSshl c d a b s
  | .sshr c d a b => Sys2Proof.Machine.execSshr c d a b s
  | .ssra c d a b => Sys2Proof.Machine.execSsra c d a b s
  | .smin c d a b => Sys2Proof.Machine.execSmin c d a b s
  | .smax c d a b => Sys2Proof.Machine.execSmax c d a b s
  | .sminu c d a b => Sys2Proof.Machine.execSminu c d a b s
  | .smaxu c d a b => Sys2Proof.Machine.execSmaxu c d a b s
  | .saddi c d a im => Sys2Proof.Machine.execSaddi c d a im s
  | .sandi c d a im => Sys2Proof.Machine.execSandi c d a im s
  | .sori c d a im => Sys2Proof.Machine.execSori c d a im s
  | .sxori c d a im => Sys2Proof.Machine.execSxori c d a im s
  | .sshli c d a im => Sys2Proof.Machine.execSshli c d a im s
  | .sshri c d a im => Sys2Proof.Machine.execSshri c d a im s
  | .ssrai c d a im => Sys2Proof.Machine.execSsrai c d a im s
  | .sli c d im => Sys2Proof.Machine.execSli c d im s
  | .slui c d im => Sys2Proof.Machine.execSlui c d im s
  | .smov c d a => Sys2Proof.Machine.execSmov c d a s
  | .saddp c d a b => Sys2Proof.Machine.execSaddp c d a b s
  | .sclz c d a => Sys2Proof.Machine.execSclz c d a s
  | .spopc c d a => Sys2Proof.Machine.execSpopc c d a s
  | .sbfe c d a len pos => Sys2Proof.Machine.execSbfe c d a len pos s
  | .mand c d a b => Sys2Proof.Machine.execMand c d a b s
  | .mor c d a b => Sys2Proof.Machine.execMor c d a b s
  | .mxor c d a b => Sys2Proof.Machine.execMxor c d a b s
  | .mandn c d a b => Sys2Proof.Machine.execMandn c d a b s
  | .mnot c d a => Sys2Proof.Machine.execMnot c d a s
  | .mfroms c d a => Sys2Proof.Machine.execMfroms c d a s
  | .mtos c d a => Sys2Proof.Machine.execMtos c d a s
  | .mpopc c d a => Sys2Proof.Machine.execMpopc c d a s
  | .mffs c d a => Sys2Proof.Machine.execMffs c d a s
  | .vadd c d a b => Sys2Proof.Machine.execVadd c d a b s
  | .vsub c d a b => Sys2Proof.Machine.execVsub c d a b s
  | .vmul c d a b => Sys2Proof.Machine.execVmul c d a b s
  | .vmulh c d a b => Sys2Proof.Machine.execVmulh c d a b s
  | .vmulhu c d a b => Sys2Proof.Machine.execVmulhu c d a b s
  | .vmad c d a b => Sys2Proof.Machine.execVmad c d a b s
  | .vand c d a b => Sys2Proof.Machine.execVand c d a b s
  | .vor c d a b => Sys2Proof.Machine.execVor c d a b s
  | .vxor c d a b => Sys2Proof.Machine.execVxor c d a b s
  | .vshl c d a b => Sys2Proof.Machine.execVshl c d a b s
  | .vshr c d a b => Sys2Proof.Machine.execVshr c d a b s
  | .vsra c d a b => Sys2Proof.Machine.execVsra c d a b s
  | .vmin c d a b => Sys2Proof.Machine.execVmin c d a b s
  | .vmax c d a b => Sys2Proof.Machine.execVmax c d a b s
  | .vminu c d a b => Sys2Proof.Machine.execVminu c d a b s
  | .vmaxu c d a b => Sys2Proof.Machine.execVmaxu c d a b s
  | .vaddi c d a im => Sys2Proof.Machine.execVaddi c d a im s
  | .vandi c d a im => Sys2Proof.Machine.execVandi c d a im s
  | .vori c d a im => Sys2Proof.Machine.execVori c d a im s
  | .vxori c d a im => Sys2Proof.Machine.execVxori c d a im s
  | .vshli c d a im => Sys2Proof.Machine.execVshli c d a im s
  | .vshri c d a im => Sys2Proof.Machine.execVshri c d a im s
  | .vsrai c d a im => Sys2Proof.Machine.execVsrai c d a im s
  | .vli c d im => Sys2Proof.Machine.execVli c d im s
  | .vmov c d a => Sys2Proof.Machine.execVmov c d a s
  | .vmovs c d a => Sys2Proof.Machine.execVmovs c d a s
  | .vaddp c d a b => Sys2Proof.Machine.execVaddp c d a b s
  | .vclz c d a => Sys2Proof.Machine.execVclz c d a s
  | .vpopc c d a => Sys2Proof.Machine.execVpopc c d a s
  | .vbfe c d a len pos => Sys2Proof.Machine.execVbfe c d a len pos s
  | .vsel c d a b => Sys2Proof.Machine.execVsel c d a b s
  | .vcmp c md cc a b => Sys2Proof.Machine.execVcmp c md cc a b s
  | .vcmpi c md cc a im => Sys2Proof.Machine.execVcmpi c md cc a im s
  | .vdot4 c d a b => Sys2Proof.Machine.execVdot4 c d a b s
  | .fadd c d a b => Sys2Proof.Machine.execFadd c d a b s
  | .fsub c d a b => Sys2Proof.Machine.execFsub c d a b s
  | .fmul c d a b => Sys2Proof.Machine.execFmul c d a b s
  | .ffma c d a b => Sys2Proof.Machine.execFfma c d a b s
  | .fmin c d a b => Sys2Proof.Machine.execFmin c d a b s
  | .fmax c d a b => Sys2Proof.Machine.execFmax c d a b s
  | .fabs c d a => Sys2Proof.Machine.execFabs c d a s
  | .fneg c d a => Sys2Proof.Machine.execFneg c d a s
  | .fcpsgn c d a b => Sys2Proof.Machine.execFcpsgn c d a b s
  | .frnd c d a => Sys2Proof.Machine.execFrnd c d a s
  | .fcmp c md cc a b => Sys2Proof.Machine.execFcmp c md cc a b s
  | .hadd c d a b => Sys2Proof.Machine.execHadd c d a b s
  | .hmul c d a b => Sys2Proof.Machine.execHmul c d a b s
  | .hfma c d a b => Sys2Proof.Machine.execHfma c d a b s
  | .badd c d a b => Sys2Proof.Machine.execBadd c d a b s
  | .bmul c d a b => Sys2Proof.Machine.execBmul c d a b s
  | .bfma c d a b => Sys2Proof.Machine.execBfma c d a b s
  | .fdot2h c d a b => Sys2Proof.Machine.execFdot2h c d a b s
  | .fdot2b c d a b => Sys2Proof.Machine.execFdot2b c d a b s
  | .cvt c d a dst src => Sys2Proof.Machine.execCvt c d a dst src s
  | .packh c d a b => Sys2Proof.Machine.execPackh c d a b s
  | .packb c d a b => Sys2Proof.Machine.execPackb c d a b s
  | .frcp c d a => Sys2Proof.Machine.execFrcp c d a s
  | .frsq c d a => Sys2Proof.Machine.execFrsq c d a s
  | .fsqrt c d a => Sys2Proof.Machine.execFsqrt c d a s
  | .fex2 c d a => Sys2Proof.Machine.execFex2 c d a s
  | .flg2 c d a => Sys2Proof.Machine.execFlg2 c d a s
  | .fsinp c d a => Sys2Proof.Machine.execFsinp c d a s
  | .fcosp c d a => Sys2Proof.Machine.execFcosp c d a s
  | .ftanh c d a => Sys2Proof.Machine.execFtanh c d a s
  | .vperm c d a b => Sys2Proof.Machine.execVperm c d a b s
  | .vshfl c d a mode k => Sys2Proof.Machine.execVshfl c d a mode k s
  | .vbcast c d a n => Sys2Proof.Machine.execVbcast c d a n s
  | .vred c d a op => Sys2Proof.Machine.execVred c d a op s
  | .vscan c d a excl op => Sys2Proof.Machine.execVscan c d a excl op s
  | .vhperm c d a pat => Sys2Proof.Machine.execVhperm c d a pat s
  | .vrand c d => Sys2Proof.Machine.execVrand c d s
  | .vrandf c d => Sys2Proof.Machine.execVrandf c d s
  | .vrseed c a => Sys2Proof.Machine.execVrseed c a s
  | .ldvB8z c d a col sco ord ch => Sys2Proof.Machine.execLdvB8z c d a col sco ord ch s
  | .ldvB8s c d a col sco ord ch => Sys2Proof.Machine.execLdvB8s c d a col sco ord ch s
  | .ldvB16z c d a col sco ord ch => Sys2Proof.Machine.execLdvB16z c d a col sco ord ch s
  | .ldvB16s c d a col sco ord ch => Sys2Proof.Machine.execLdvB16s c d a col sco ord ch s
  | .ldvB32 c d a col sco ord ch => Sys2Proof.Machine.execLdvB32 c d a col sco ord ch s
  | .ldvB64 c d a col sco ord ch => Sys2Proof.Machine.execLdvB64 c d a col sco ord ch s
  | .ldvB128 c d a col sco ord ch => Sys2Proof.Machine.execLdvB128 c d a col sco ord ch s
  | .stvB8 c d a col sco ord ch => Sys2Proof.Machine.execStvB8 c d a col sco ord ch s
  | .stvB16 c d a col sco ord ch => Sys2Proof.Machine.execStvB16 c d a col sco ord ch s
  | .stvB32 c d a col sco ord ch => Sys2Proof.Machine.execStvB32 c d a col sco ord ch s
  | .stvB64 c d a col sco ord ch => Sys2Proof.Machine.execStvB64 c d a col sco ord ch s
  | .stvB128 c d a col sco ord ch => Sys2Proof.Machine.execStvB128 c d a col sco ord ch s
  | .ldsB32 c d a col sco ord ch => Sys2Proof.Machine.execLdsB32 c d a col sco ord ch s
  | .ldsB64 c d a col sco ord ch => Sys2Proof.Machine.execLdsB64 c d a col sco ord ch s
  | .ldsB128 c d a col sco ord ch => Sys2Proof.Machine.execLdsB128 c d a col sco ord ch s
  | .stsB32 c d a col sco ord ch => Sys2Proof.Machine.execStsB32 c d a col sco ord ch s
  | .stsB64 c d a col sco ord ch => Sys2Proof.Machine.execStsB64 c d a col sco ord ch s
  | .ldlB32 c d a col sco ord ch => Sys2Proof.Machine.execLdlB32 c d a col sco ord ch s
  | .ldlB128 c d a col sco ord ch => Sys2Proof.Machine.execLdlB128 c d a col sco ord ch s
  | .stlB32 c d a col sco ord ch => Sys2Proof.Machine.execStlB32 c d a col sco ord ch s
  | .stlB128 c d a col sco ord ch => Sys2Proof.Machine.execStlB128 c d a col sco ord ch s
  | .atomAddB32 c d a col sco ord ch => Sys2Proof.Machine.execAtomAddB32 c d a col sco ord ch s
  | .atomMinB32 c d a col sco ord ch => Sys2Proof.Machine.execAtomMinB32 c d a col sco ord ch s
  | .atomMaxB32 c d a col sco ord ch => Sys2Proof.Machine.execAtomMaxB32 c d a col sco ord ch s
  | .atomMinuB32 c d a col sco ord ch => Sys2Proof.Machine.execAtomMinuB32 c d a col sco ord ch s
  | .atomMaxuB32 c d a col sco ord ch => Sys2Proof.Machine.execAtomMaxuB32 c d a col sco ord ch s
  | .atomAndB32 c d a col sco ord ch => Sys2Proof.Machine.execAtomAndB32 c d a col sco ord ch s
  | .atomOrB32 c d a col sco ord ch => Sys2Proof.Machine.execAtomOrB32 c d a col sco ord ch s
  | .atomXorB32 c d a col sco ord ch => Sys2Proof.Machine.execAtomXorB32 c d a col sco ord ch s
  | .atomXchgB32 c d a col sco ord ch => Sys2Proof.Machine.execAtomXchgB32 c d a col sco ord ch s
  | .casB32 c d a col sco ord ch => Sys2Proof.Machine.execCasB32 c d a col sco ord ch s
  | .atomfAddF32 c d a col sco ord ch => Sys2Proof.Machine.execAtomfAddF32 c d a col sco ord ch s
  | .atomfAddBf16x2 c d a col sco ord ch => Sys2Proof.Machine.execAtomfAddBf16x2 c d a col sco ord ch s
  | .atomAddB64 c d a col sco ord ch => Sys2Proof.Machine.execAtomAddB64 c d a col sco ord ch s
  | .atomMinB64 c d a col sco ord ch => Sys2Proof.Machine.execAtomMinB64 c d a col sco ord ch s
  | .atomMaxB64 c d a col sco ord ch => Sys2Proof.Machine.execAtomMaxB64 c d a col sco ord ch s
  | .atomMinuB64 c d a col sco ord ch => Sys2Proof.Machine.execAtomMinuB64 c d a col sco ord ch s
  | .atomMaxuB64 c d a col sco ord ch => Sys2Proof.Machine.execAtomMaxuB64 c d a col sco ord ch s
  | .atomAndB64 c d a col sco ord ch => Sys2Proof.Machine.execAtomAndB64 c d a col sco ord ch s
  | .atomOrB64 c d a col sco ord ch => Sys2Proof.Machine.execAtomOrB64 c d a col sco ord ch s
  | .atomXorB64 c d a col sco ord ch => Sys2Proof.Machine.execAtomXorB64 c d a col sco ord ch s
  | .atomXchgB64 c d a col sco ord ch => Sys2Proof.Machine.execAtomXchgB64 c d a col sco ord ch s
  | .casB64 c d a col sco ord ch => Sys2Proof.Machine.execCasB64 c d a col sco ord ch s
  | .atomsAddB32 c d a col sco ord ch => Sys2Proof.Machine.execAtomsAddB32 c d a col sco ord ch s
  | .atomsMinB32 c d a col sco ord ch => Sys2Proof.Machine.execAtomsMinB32 c d a col sco ord ch s
  | .atomsMaxB32 c d a col sco ord ch => Sys2Proof.Machine.execAtomsMaxB32 c d a col sco ord ch s
  | .atomsMinuB32 c d a col sco ord ch => Sys2Proof.Machine.execAtomsMinuB32 c d a col sco ord ch s
  | .atomsMaxuB32 c d a col sco ord ch => Sys2Proof.Machine.execAtomsMaxuB32 c d a col sco ord ch s
  | .atomsAndB32 c d a col sco ord ch => Sys2Proof.Machine.execAtomsAndB32 c d a col sco ord ch s
  | .atomsOrB32 c d a col sco ord ch => Sys2Proof.Machine.execAtomsOrB32 c d a col sco ord ch s
  | .atomsXorB32 c d a col sco ord ch => Sys2Proof.Machine.execAtomsXorB32 c d a col sco ord ch s
  | .atomsXchgB32 c d a col sco ord ch => Sys2Proof.Machine.execAtomsXchgB32 c d a col sco ord ch s
  | .cassB32 c d a col sco ord ch => Sys2Proof.Machine.execCassB32 c d a col sco ord ch s
  | .atomlAddB32 c d a col sco ord ch => Sys2Proof.Machine.execAtomlAddB32 c d a col sco ord ch s
  | .atomlMinB32 c d a col sco ord ch => Sys2Proof.Machine.execAtomlMinB32 c d a col sco ord ch s
  | .atomlMaxB32 c d a col sco ord ch => Sys2Proof.Machine.execAtomlMaxB32 c d a col sco ord ch s
  | .atomlMinuB32 c d a col sco ord ch => Sys2Proof.Machine.execAtomlMinuB32 c d a col sco ord ch s
  | .atomlMaxuB32 c d a col sco ord ch => Sys2Proof.Machine.execAtomlMaxuB32 c d a col sco ord ch s
  | .atomlAndB32 c d a col sco ord ch => Sys2Proof.Machine.execAtomlAndB32 c d a col sco ord ch s
  | .atomlOrB32 c d a col sco ord ch => Sys2Proof.Machine.execAtomlOrB32 c d a col sco ord ch s
  | .atomlXorB32 c d a col sco ord ch => Sys2Proof.Machine.execAtomlXorB32 c d a col sco ord ch s
  | .atomlXchgB32 c d a col sco ord ch => Sys2Proof.Machine.execAtomlXchgB32 c d a col sco ord ch s
  | .caslB32 c d a col sco ord ch => Sys2Proof.Machine.execCaslB32 c d a col sco ord ch s
  | .fence c colmask fkind sco => Sys2Proof.Machine.execFence c colmask fkind sco s
  | .monitor c a col sco ch => Sys2Proof.Machine.execMonitor c a col sco ch s
  | .mwait c d a col sco ord ch => Sys2Proof.Machine.execMwait c d a col sco ord ch s
  | .pf c a col sco ch => Sys2Proof.Machine.execPf c a col sco ch s
  | .cwb c a col sco ch => Sys2Proof.Machine.execCwb c a col sco ch s
  | .cinv c a col sco ch => Sys2Proof.Machine.execCinv c a col sco ch s
  | .barSync c count bar => Sys2Proof.Machine.execBarSync c count bar s
  | .barArrive c count bar => Sys2Proof.Machine.execBarArrive c count bar s
  | .barWait c count bar => Sys2Proof.Machine.execBarWait c count bar s
  | .rte c => Sys2Proof.Machine.execRte c s
  | .brk c code => Sys2Proof.Machine.execBrk c code s
  | .mma c d a acc => Sys2Proof.Machine.execMma c d a acc s
  | .mmas c d a acc => Sys2Proof.Machine.execMmas c d a acc s
  | .macz c acc => Sys2Proof.Machine.execMacz c acc s
  | .macld c d a acc => Sys2Proof.Machine.execMacld c d a acc s
  | .macst c d a acc => Sys2Proof.Machine.execMacst c d a acc s
  | .mepiScale c d a acc => Sys2Proof.Machine.execMepiScale c d a acc s
  | .mepiBiasRow c d a acc => Sys2Proof.Machine.execMepiBiasRow c d a acc s
  | .mepiBiasCol c d a acc => Sys2Proof.Machine.execMepiBiasCol c d a acc s
  | .mepiRelu c d a acc => Sys2Proof.Machine.execMepiRelu c d a acc s
  | .mepiClamp c d a acc => Sys2Proof.Machine.execMepiClamp c d a acc s
  | .mepiAdd c d a acc => Sys2Proof.Machine.execMepiAdd c d a acc s
  | .mepiDeq c d a acc => Sys2Proof.Machine.execMepiDeq c d a acc s
  | .batonTake c d => Sys2Proof.Machine.execBatonTake c d s
  | .batonPass c target => Sys2Proof.Machine.execBatonPass c target s
  | .mquery c d sub => Sys2Proof.Machine.execMquery c d sub s
  | .mqueryFlagsc c d => Sys2Proof.Machine.execMqueryFlagsc c d s
  | .tld c hd sb => Sys2Proof.Machine.execTld c hd sb s
  | .tconst c hd sb => Sys2Proof.Machine.execTconst c hd sb s
  | .tiota c hd sb => Sys2Proof.Machine.execTiota c hd sb s
  | .tmapTr c hd ha => Sys2Proof.Machine.execTmapTr c hd ha s
  | .tmapSlice c hd ha sb => Sys2Proof.Machine.execTmapSlice c hd ha sb s
  | .tmapBcr c hd ha sb => Sys2Proof.Machine.execTmapBcr c hd ha sb s
  | .tmapBcc c hd ha sb => Sys2Proof.Machine.execTmapBcc c hd ha sb s
  | .tmapRevr c hd ha => Sys2Proof.Machine.execTmapRevr c hd ha s
  | .tmapRevc c hd ha => Sys2Proof.Machine.execTmapRevc c hd ha s
  | .tmapShift c hd ha sb => Sys2Proof.Machine.execTmapShift c hd ha sb s
  | .tadd c hd ha hb => Sys2Proof.Machine.execTadd c hd ha hb s
  | .tsub c hd ha hb => Sys2Proof.Machine.execTsub c hd ha hb s
  | .tmul c hd ha hb => Sys2Proof.Machine.execTmul c hd ha hb s
  | .tmax c hd ha hb => Sys2Proof.Machine.execTmax c hd ha hb s
  | .tmin c hd ha hb => Sys2Proof.Machine.execTmin c hd ha hb s
  | .texp c hd ha => Sys2Proof.Machine.execTexp c hd ha s
  | .tlog c hd ha => Sys2Proof.Machine.execTlog c hd ha s
  | .trcp c hd ha => Sys2Proof.Machine.execTrcp c hd ha s
  | .tsig c hd ha => Sys2Proof.Machine.execTsig c hd ha s
  | .tselm c hd ha sb up => Sys2Proof.Machine.execTselm c hd ha sb up s
  | .tscan c hd ha colw => Sys2Proof.Machine.execTscan c hd ha colw s
  | .tred c hd ha op => Sys2Proof.Machine.execTred c hd ha op s
  | .tmma c hd ha hb sb => Sys2Proof.Machine.execTmma c hd ha hb sb s
  | .tcvt c hd ha sb => Sys2Proof.Machine.execTcvt c hd ha sb s
  | .tst c ha sb => Sys2Proof.Machine.execTst c ha sb s
  | .tforce c ha sb => Sys2Proof.Machine.execTforce c ha sb s
  | .tdrop c hd => Sys2Proof.Machine.execTdrop c hd s
  | .tcfg c sb => Sys2Proof.Machine.execTcfg c sb s
  | .tstatCounts c sb => Sys2Proof.Machine.execTstatCounts c sb s
  | .tstatCap c sb => Sys2Proof.Machine.execTstatCap c sb s
  | .tstatNode c ha sb => Sys2Proof.Machine.execTstatNode c ha sb s
  | .tstatFault c sb => Sys2Proof.Machine.execTstatFault c sb s
  | .cpy c d a => Sys2Proof.Machine.execCpy c d a s
  | .cpym c d a => Sys2Proof.Machine.execCpym c d a s
  | .cpyx c d a => Sys2Proof.Machine.execCpyx c d a s
  | .tlwait c a sel => Sys2Proof.Machine.execTlwait c a sel s
  | .tlrd c d sel => Sys2Proof.Machine.execTlrd c d sel s
  | .waitp c a sel => Sys2Proof.Machine.execWaitp c a sel s
  | .bankcfg c a => Sys2Proof.Machine.execBankcfg c a s
  | .fpush c a => Sys2Proof.Machine.execFpush c a s
  | .fpop c d a => Sys2Proof.Machine.execFpop c d a s
  | .portcfg c d a => Sys2Proof.Machine.execPortcfg c d a s
  | .cbarArrive c bar => Sys2Proof.Machine.execCbarArrive c bar s
  | .cbarWait c bar => Sys2Proof.Machine.execCbarWait c bar s
  | .rbind c d a cls => Sys2Proof.Machine.execRbind c d a cls s
  | .rtrace c d a => Sys2Proof.Machine.execRtrace c d a s
  | .rsave c => Sys2Proof.Machine.execRsave c s
  | .rresume c d a => Sys2Proof.Machine.execRresume c d a s
  | .rquery c d sub => Sys2Proof.Machine.execRquery c d sub s
  | .launch c a => Sys2Proof.Machine.execLaunch c a s
  | .tenq c a => Sys2Proof.Machine.execTenq c a s
  | .rnext c d q => Sys2Proof.Machine.execRnext c d q s
  | .recalloc c d a => Sys2Proof.Machine.execRecalloc c d a s
  | .recsend c a => Sys2Proof.Machine.execRecsend c a s
  | .gate c => Sys2Proof.Machine.execGate c s
  | .release c => Sys2Proof.Machine.execRelease c s
  | .qclaim c d a => Sys2Proof.Machine.execQclaim c d a s
  | .pemit c a => Sys2Proof.Machine.execPemit c a s
  | .pxout c d tgt => Sys2Proof.Machine.execPxout c d tgt s
  | .nmv c d a => Sys2Proof.Machine.execNmv c d a s
  | .sleepExpire w => Sys2Proof.Machine.execSleepExpire w s
  | .batonTransfer g => Sys2Proof.Machine.execBatonTransfer g s
  | .matrixCommandStart core => Sys2Proof.Machine.execMatrixCommandStart core s
  | .accumulatorTileFill g t => Sys2Proof.Machine.execAccumulatorTileFill g t s
  | .matrixCommandComplete core => Sys2Proof.Machine.execMatrixCommandComplete core s
  | .demandOutputStep core => Sys2Proof.Machine.execDemandOutputStep core s
  | .demandComplete core => Sys2Proof.Machine.execDemandComplete core s
  | .viewCapture w => Sys2Proof.Machine.execViewCapture w s
  | .bankModeChangeDone cl bank => Sys2Proof.Machine.execBankModeChangeDone cl bank s
  | .fifoPushJoin cl qw => Sys2Proof.Machine.execFifoPushJoin cl qw s
  | .fifoPopServe cl qw => Sys2Proof.Machine.execFifoPopServe cl qw s
  | .creditReturn w port => Sys2Proof.Machine.execCreditReturn w port s
  | .portReadServe cl qw => Sys2Proof.Machine.execPortReadServe cl qw s
  | .copyRequestComplete req => Sys2Proof.Machine.execCopyRequestComplete req s
  | .followOnEnqueue req => Sys2Proof.Machine.execFollowOnEnqueue req s
  | .promisedTimeReached w => Sys2Proof.Machine.execPromisedTimeReached w s
  | .rbindApply req => Sys2Proof.Machine.execRbindApply req s
  | .rayStart req => Sys2Proof.Machine.execRayStart req s
  | .nodeFetchReturn ray => Sys2Proof.Machine.execNodeFetchReturn ray s
  | .rayWriteback ray => Sys2Proof.Machine.execRayWriteback ray s
  | .traversalRequestComplete req => Sys2Proof.Machine.execTraversalRequestComplete req s
  | .nmvRequestComplete req => Sys2Proof.Machine.execNmvRequestComplete req s
  | .pixelWaveLaunch prim bx by' => Sys2Proof.Machine.execPixelWaveLaunch prim bx by' s
  | .aggregatorWindowClose die kdesc => Sys2Proof.Machine.execAggregatorWindowClose die kdesc s
  | .taskStart q => Sys2Proof.Machine.execTaskStart q s
  | .rangeTaskSplit core => Sys2Proof.Machine.execRangeTaskSplit core s
  | .batchTimeout graph node => Sys2Proof.Machine.execBatchTimeout graph node s
  | .batchGroupEnd g => Sys2Proof.Machine.execBatchGroupEnd g s
  | .cohortPlacement cohort cl => Sys2Proof.Machine.execCohortPlacement cohort cl s
  | .waveEnd w => Sys2Proof.Machine.execWaveEnd w s
  | .registerLineFill w line => Sys2Proof.Machine.execRegisterLineFill w line s
  | .wavePromotion core quad => Sys2Proof.Machine.execWavePromotion core quad s
  | .fixedLatencyComplete w op => Sys2Proof.Machine.execFixedLatencyComplete w op s
  | .loadComplete w op => Sys2Proof.Machine.execLoadComplete w op s
  | .storePerformed w op => Sys2Proof.Machine.execStorePerformed w op s
  | .rmwPerformed w op => Sys2Proof.Machine.execRmwPerformed w op s
  | .fenceComplete w op => Sys2Proof.Machine.execFenceComplete w op s
  | .mwaitWake w => Sys2Proof.Machine.execMwaitWake w s
  | .waitPoll w => Sys2Proof.Machine.execWaitPoll w s
  | .trapDelivery w => Sys2Proof.Machine.execTrapDelivery w s
  | .pageWalk core pasid va acc => Sys2Proof.Machine.execPageWalk core pasid va acc s
  | .tlbiGo die value => Sys2Proof.Machine.execTlbiGo die value s
  | .tlbiComplete die => Sys2Proof.Machine.execTlbiComplete die s
  | .preempt core pasid => Sys2Proof.Machine.execPreempt core pasid s
  | .contextHalt core pasid => Sys2Proof.Machine.execContextHalt core pasid s
  | .controlStateSwap core outgoing incoming => Sys2Proof.Machine.execControlStateSwap core outgoing incoming s
  | .shadowStoreDrain core => Sys2Proof.Machine.execShadowStoreDrain core s
  | .restore w core slot => Sys2Proof.Machine.execRestore w core slot s
  | .waveEvict w => Sys2Proof.Machine.execWaveEvict w s
  | .l2LineFill pa => Sys2Proof.Machine.execL2LineFill pa s
  | .packetPromotion die net router port => Sys2Proof.Machine.execPacketPromotion die net router port s
  | .tailFilterReport q => Sys2Proof.Machine.execTailFilterReport q s
  | .launchPacket q => Sys2Proof.Machine.execLaunchPacket q s
  | .launchStart launch => Sys2Proof.Machine.execLaunchStart launch s
  | .launchComplete launch => Sys2Proof.Machine.execLaunchComplete launch s
  | .graphDispatch q => Sys2Proof.Machine.execGraphDispatch q s
  | .drawGraph q => Sys2Proof.Machine.execDrawGraph q s
  | .dependency q => Sys2Proof.Machine.execDependency q s
  | .dependencySatisfied q n => Sys2Proof.Machine.execDependencySatisfied q n s
  | .timelineSignal q => Sys2Proof.Machine.execTimelineSignal q s
  | .timelineWait q => Sys2Proof.Machine.execTimelineWait q s
  | .timelineWaitSatisfied q n => Sys2Proof.Machine.execTimelineWaitSatisfied q n s
  | .handleDeclaration q => Sys2Proof.Machine.execHandleDeclaration q s
  | .noOp q => Sys2Proof.Machine.execNoOp q s
  | .firmwareDefinedPacket q => Sys2Proof.Machine.execFirmwareDefinedPacket q s
  | .queueRestart q => Sys2Proof.Machine.execQueueRestart q s
  | .qcbinv die value => Sys2Proof.Machine.execQcbinv die value s
  | .mbdone die value => Sys2Proof.Machine.execMbdone die value s
  | .mailboxPost w => Sys2Proof.Machine.execMailboxPost w s
  | .mailboxActionApply pasid entry => Sys2Proof.Machine.execMailboxActionApply pasid entry s
  | .contextCreate desc => Sys2Proof.Machine.execContextCreate desc s
  | .windowDerive turel parent win base len perm => Sys2Proof.Machine.execWindowDerive turel parent win base len perm s
  | .windowInvalidate turel win => Sys2Proof.Machine.execWindowInvalidate turel win s
  | .capabilityAccess turel cap size acc value => Sys2Proof.Machine.execCapabilityAccess turel cap size acc value s
  | .doorbellWrite q => Sys2Proof.Machine.execDoorbellWrite q s
  | .queueTableFault q => Sys2Proof.Machine.execQueueTableFault q s
  | .queueErrorNotice q => Sys2Proof.Machine.execQueueErrorNotice q s
  | .partitionCreate part spec => Sys2Proof.Machine.execPartitionCreate part spec s
  | .partitionResize part add remove => Sys2Proof.Machine.execPartitionResize part add remove s
  | .surfWrite die head value => Sys2Proof.Machine.execSurfWrite die head value s
  | .verticalBlank die head => Sys2Proof.Machine.execVerticalBlank die head s
  | .sliceEncodeComplete die head => Sys2Proof.Machine.execSliceEncodeComplete die head s
  | .flitCrcRetry die link => Sys2Proof.Machine.execFlitCrcRetry die link s
  | .linkRetrain die link => Sys2Proof.Machine.execLinkRetrain die link s
  | .linkRecover die link => Sys2Proof.Machine.execLinkRecover die link s
  | .linkDown die link => Sys2Proof.Machine.execLinkDown die link s
  | .cecntClear die k value => Sys2Proof.Machine.execCecntClear die k value s
  | .dramPatrol pa => Sys2Proof.Machine.execDramPatrol pa s
  | .governorTick die => Sys2Proof.Machine.execGovernorTick die s
  | .coolantLimit above => Sys2Proof.Machine.execCoolantLimit above s
  | .coolantShutdown => Sys2Proof.Machine.execCoolantShutdown s
  | .peerRequest req => Sys2Proof.Machine.execPeerRequest req s
  | .peerUnreachable id => Sys2Proof.Machine.execPeerUnreachable id s
  | .hostWrite pa bytes relaxed => Sys2Proof.Machine.execHostWrite pa bytes relaxed s
  | .hostRead pa n => Sys2Proof.Machine.execHostRead pa n s
  | .feataccWrite value => Sys2Proof.Machine.execFeataccWrite value s
  | .shardFetch die cx index => Sys2Proof.Machine.execShardFetch die cx index s
  | .shardVerify die cx index => Sys2Proof.Machine.execShardVerify die cx index s
  | .shardFetchComplete die cx => Sys2Proof.Machine.execShardFetchComplete die cx s
  | .shardScrub die => Sys2Proof.Machine.execShardScrub die s
  | .boot img => Sys2Proof.Machine.execBoot img s
  | .getVersion via param => Sys2Proof.Machine.execGetVersion via param s
  | .getCapabilities via param => Sys2Proof.Machine.execGetCapabilities via param s
  | .negotiateAlgorithms via param => Sys2Proof.Machine.execNegotiateAlgorithms via param s
  | .getDigests via param => Sys2Proof.Machine.execGetDigests via param s
  | .getCertificate via param => Sys2Proof.Machine.execGetCertificate via param s
  | .challenge via param => Sys2Proof.Machine.execChallenge via param s
  | .getMeasurements via param => Sys2Proof.Machine.execGetMeasurements via param s
  | .registerWrite die off value => Sys2Proof.Machine.execRegisterWrite die off value s
  | .eflerAccess hart op => Sys2Proof.Machine.execEflerAccess hart op s
  | .hostAtomic pa wide op => Sys2Proof.Machine.execHostAtomic pa wide op s
  | .peerPortDown port => Sys2Proof.Machine.execPeerPortDown port s
  | .recoveryImage img => Sys2Proof.Machine.execRecoveryImage img s

end Sys2Proof.Machine
end

