-- ==== Sys2Proof/Machine/Issue.lean ====
section
/-!
DEFINITION. The issue of a word: its fetch (R21, R35), when a wave is eligible (R162), which wave a quadrant chooses
(R163, R107), what is checked before a word takes effect (R60, R61, R169, R227, R260, R422), and what the issue leaves
behind it (R37, R163, R167).
-/

namespace Sys2Proof.Machine

/-! Fetch. -/

/-- Why a fetch fails: the cause, and whether the translation is invalid or not present, which the mailbox reports as
KIND 1 (R21, R384). -/
structure FetchFail where
  cause : Cause
  absent : Bool
  addr : Nat
deriving DecidableEq, Repr

/-- The byte address of the word that a PC names (R35). -/
def Wave.wordAddr (w : Wave) (pc : Word) : Nat := w.codebase.toNat + 8 * pc.toNat

/-- The 8 bytes of a word as its core sees them: a change to code memory takes effect as data does, so the bytes that the
core's L1 holds are its own (R35, R148, R159). The fetch fills no line. -/
def State.codeValue (s : State) (core pa : Nat) : Nat :=
  if cacheable pa then leValue (s.l1Byte core) pa 8 else s.homeValue pa 8

/-- Fetches one word (R21, R35). -/
def State.fetchWord (s : State) (w va : Nat) : Except FetchFail DWord × State :=
  let x := s.wave w
  match s.translate (some x.core) (clusterOf x.core) x.pasid va .fetch with
  | (.error .dataLoss, s1) => (.error ⟨.dataLoss, false, va⟩, s1)
  | (.error c, s1) => (.error ⟨.fetchFault, c == .translation, va⟩, s1)
  | (.ok h, s1) => (.ok (BitVec.ofNat 64 (s1.codeValue x.core h.pa)), s1)

/-- The words of an instruction: one word, or a prefix and the word that follows it (R57). -/
structure Words where
  first : DWord
  second : Option DWord
deriving DecidableEq, Repr

/-- Fetches the instruction at a PC: a legal prefix needs the word that follows it (R57, R61). -/
def State.fetch (s : State) (w : Nat) (pc : Word) : Except FetchFail Words × State :=
  let va := (s.wave w).wordAddr pc
  match s.fetchWord w va with
  | (.error e, s1) => (.error e, s1)
  | (.ok a, s1) =>
    if fKind a = 2#2 ∧ (decodePfx a).isSome then
      match s1.fetchWord w (va + 8) with
      | (.error e, s2) => (.error e, s2)
      | (.ok b, s2) => (.ok ⟨a, some b⟩, s2)
    else (.ok ⟨a, none⟩, s1)

/-- The words to issue: those of a word that stays in dispatch have been fetched already (R163). -/
def State.words (s : State) (w : Nat) (pc : Word) : Except FetchFail Words × State :=
  match (s.wave w).heldWords with
  | [a] => (.ok ⟨a, none⟩, s)
  | [a, b] => (.ok ⟨a, some b⟩, s)
  | _ => s.fetch w pc

/-- The words as a list, in ascending address order. -/
def Words.list (u : Words) : List DWord := u.first :: u.second.toList
/-- The word whose header, opcode and predicate govern (R57). -/
def Words.main (u : Words) : DWord := u.second.getD u.first
/-- The control header that governs (R36, R57). -/
def Words.hdr (u : Words) : Hdr := fHdr u.main
def Words.isDual (u : Words) : Bool := fKind u.first == 1
def Words.op (u : Words) : Nat := (fOp u.main).toNat

/-- The instruction that the words encode. -/
noncomputable def Words.decode (u : Words) : Except DecodeError Instr :=
  match Sys2Proof.decode (u.list.flatMap wordBytes) with
  | .ok (i, _) => .ok i
  | .error e => .error e

/-! Legality (R60, R422). -/

/-- Features that a full word needs (R422). -/
def opFeatures (w : DWord) : List Nat :=
  let op := (fOp w).toNat
  let p := (fPay w).toNat
  let on (b : Bool) (k : Nat) : List Nat := if b then [k] else []
  let sel := decide (0x1B3 ≤ op ∧ op ≤ 0x1B5)
  let mem := decide (0x100 ≤ op ∧ op ≤ 0x15F) || decide (0x161 ≤ op ∧ op ≤ 0x165)
  on (decide (0x1C0 ≤ op ∧ op ≤ 0x1C4) || (sel && p % 1024 == 1)) 0 ++
  on (op == 0x1E0 || (sel && decide (8 ≤ p % 1024 ∧ p % 1024 ≤ 31))) 1 ++
  on (decide (0x190 ≤ op ∧ op ≤ 0x1A6)) 2 ++
  on (op == 0x181) 3 ++
  on (op == 0x1D3 || op == 0x1D4) 4 ++
  on (op == 0x1D8 || op == 0x1D9) 5 ++
  on ((mem && natBits p 6 4 == 5) || (op == 0x160 && natBits p 19 17 == 5)) 6 ++
  on (op == 0x0D8 && (natBits p 9 5 == 0x0D || natBits p 9 5 == 0x0E || natBits p 4 0 == 0x0D || natBits p 4 0 == 0x0E)) 8 ++
  on (decide (0x0F8 ≤ op ∧ op ≤ 0x0FA)) 9 ++
  on (op == 0x1D1 || op == 0x1D2) 10 ++
  on (op == 0x1D0) 11

/-- The words need no feature that the driver did not accept; a dual word needs none (R62, R422). -/
def Words.featuresOk (u : Words) (acc : BitVec 64) : Bool :=
  u.isDual || fKind u.main != 0 || (opFeatures u.main).all fun k => acc.getLsbD k

/-- A stochastic rounding mode in a prefix needs its feature, and is checked with the prefix (R60, R422). -/
def Words.roundingOk (u : Words) (acc : BitVec 64) : Bool :=
  u.second.isNone || u.first.extractLsb' 19 3 != 5 || acc.getLsbD 7

/-- The lanes that the predicate of the words enables (R43, R52, R58). -/
def Words.lanes (u : Words) (x : Wave) (run : Lanes) : Lanes :=
  if u.second.isSome then
    let m := x.rm (u.first.extractLsb' 24 4)
    run &&& (if u.first.getLsbD 23 then ~~~m else m)
  else if u.isDual then (if u.first.getLsbD 0 then run &&& x.rm 1 else run)
  else x.enabled run (fCtl u.first)

/-- The mask that the predicate reads, if any. -/
def Words.predMask (u : Words) : List RegId :=
  let m := if u.second.isSome then (u.first.extractLsb' 24 4).toNat
    else if u.isDual then (if u.first.getLsbD 0 then 1 else 0)
    else (u.first.extractLsb' 30 3).toNat
  if m = 0 then [] else [.m m]

/-- A word of the vector class, or one with an unassigned opcode, does nothing when its predicate enables no lane; every
other word is active whenever it issues (R60). -/
def Words.gated (u : Words) : Bool := u.isDual || opVector u.op || !opAssigned u.op
def Words.active (u : Words) (x : Wave) (run : Lanes) : Bool := !u.gated || u.lanes x run != 0

/-- A vector word occupies its quadrant by hands (R17). -/
def Words.byHands (u : Words) : Bool := u.isDual || (opVector u.op && u.op != 5 && u.op != 6) || u.op == 0x09E

/-! Eligibility (R162). -/

/-- Words that an incomplete fence holds back: opcodes 0x100 to 0x165, and DESC, MX and TL words (R156). -/
def Words.fencedOut (u : Words) : Bool :=
  !u.isDual && (decide (0x100 ≤ u.op ∧ u.op ≤ 0x165) || decide (0x180 ≤ u.op ∧ u.op ≤ 0x1E0))

/-- The register lines of a word: for every vector register named, the lines that hold a participating hand (R162). -/
def linesOf (use : Use) (run : Lanes) : List Nat :=
  (use.reads ++ use.writes).flatMap fun r => match r with
    | .v n => ((upTo 4).filter fun j => run.extractLsb' (16 * j) 16 != 0).map fun j => 4 * n + j
    | _ => []

/-- The register lines of the words of a run. -/
noncomputable def Words.linesFor (u : Words) (run : Lanes) : List Nat :=
  match u.decode with
  | .error _ => []
  | .ok i => linesOf (regUse i) run

/-- The lines that a word waits for. -/
noncomputable def State.missingFor (s : State) (w : Nat) (u : Words) (run : Lanes) : List Nat :=
  let gone := (s.core (s.wave w).core).missing
  if gone.isEmpty then [] else (u.linesFor run).filter fun l => gone.contains (w, l)

/-- STALL cycles have passed since the wave's previous issue; the first word has none to wait for (R37). -/
def Wave.stallMet (x : Wave) (now : Nat) (h : Hdr) : Bool :=
  match x.lastIssue with
  | none => true
  | some t => decide (t + h.stall.toNat ≤ now)

/-- A wave of which the core may select a word at all: resident, its launch not ended with an error, its context not
being halted unless the word is in dispatch already, no view being captured for its store, and the groups of its cohort
resident together (R163, R180, R194, R263, R269). -/
def State.selectable (s : State) (w : Nat) : Bool :=
  let x := s.wave w
  x.slot.isSome && x.captures.isEmpty && !s.ended x.launch && (x.holding.isSome || !s.halting x.core x.pasid) &&
    (s.cohort (s.cohortOf w)).groups.all fun g => (s.group g).slot.isSome

/-- Points 2 to 6 of R162 for the words of a wave's head run. -/
noncomputable def State.ready2to6 (s : State) (w : Nat) (run : Lanes) (u : Words) : Bool :=
  let x := s.wave w
  x.holding.isSome ||
    (x.stallMet (s.coreCycle x) u.hdr && x.waitMet u.hdr.wait && x.setfFree u.hdr.setf &&
      !(x.fenced && u.fencedOut) && (s.missingFor w u run).isEmpty)

/-- A wave is eligible (R162). -/
noncomputable def State.eligible (s : State) (w : Nat) : Bool :=
  s.selectable w && match (s.wave w).head with
    | none => false
    | some (run, pc) =>
      match (s.words w pc).1 with
      | .error _ => false
      | .ok u => s.ready2to6 w run u

/-! The choice of a quadrant (R163, R107). -/

/-- The resident waves of a quadrant. -/
def State.inQuad (s : State) (core quad : Nat) : List (Nat × Wave) :=
  s.waves.filter fun e => e.2.core == core && match e.2.slot with
    | some k => k.toNat / 8 == quad
    | none => false

/-- Wave a comes before wave b in R163's order. -/
def Wave.before (a b : Wave) : Bool :=
  let slot (x : Wave) : Nat := match x.slot with
    | some k => k.toNat
    | none => 0
  let last (x : Wave) : Nat := match x.lastIssue with
    | some t => t + 1
    | none => 0
  match a.promoted, b.promoted with
  | some p, some q => decide (p < q ∨ (p = q ∧ slot a < slot b))
  | some _, none => true
  | none, some _ => false
  | none, none =>
    decide (b.selPrio.toNat < a.selPrio.toNat ∨ (a.selPrio = b.selPrio ∧ (last a < last b ∨ (last a = last b ∧ slot a < slot b))))

/-- The first of some waves in R163's order. -/
def bestWave (ws : List (Nat × Wave)) : Option (Nat × Wave) :=
  ws.foldl (fun b e => match b with
    | none => some e
    | some c => if e.2.before c.2 then some e else some c) none

/-- The wave that a quadrant chooses. A word that stays in dispatch is its quadrant's alone; while the quadrant still
dispatches it chooses none; the wave that issued a `yield` in the cycle before gives way (R163, R107). -/
noncomputable def State.choose (s : State) (core quad : Nat) : Option Nat :=
  let ws := s.inQuad core quad
  match ws.find? fun e => e.2.holding.isSome with
  | some e => if s.eligible e.1 then some e.1 else none
  | none =>
    let c := s.core core
    if c.cycle < AMap.getD c.busy quad 0 then none
    else
      let es := ws.filter fun e => s.eligible e.1
      let others := es.filter fun e => !(e.2.yielded && e.2.lastIssue == some (c.cycle - 1))
      (bestWave (if others.isEmpty then es else others)).map fun e => e.1

/-! Before the word takes effect. -/

/-- The writes of an operation that are due and that `sel` selects land, and leave its list (R39, R166). -/
def State.landDue (s : State) (w op now : Nat) (sel : RegWrite → Bool) : State :=
  match AMap.find (s.wave w).flights op with
  | some ⟨.fixed due ws, setf, run, accs⟩ =>
    let here (r : RegWrite × Nat) : Bool := sel r.1 && decide (r.2 ≤ now)
    if !ws.any here then s
    else
      let go := (ws.filter here).map fun r => r.1
      let rest := ws.filter fun r => !here r
      let s1 := (s.landWrites w go).onWave w fun x =>
        { x with flights := AMap.put x.flights op ⟨.fixed due rest, setf, run, accs⟩ }
      s1.mirrorWrites w ⟨.command, 15, run, []⟩ go
  | _ => s

/-- The writes of a wave's fixed-latency words that are due land, and the words that are due complete. Writes of special
registers come first, so that a flag raised in the same cycle stays set (R118). -/
def State.settleWave (s : State) (w now : Nat) : State :=
  let s1 := (s.wave w).flights.foldl (fun s f => s.landDue w f.1 now fun r => match r with
    | .sr _ _ => true
    | _ => false) s
  (s1.wave w).flights.foldl (fun s f => match f.2.kind with
    | .fixed due _ => if due ≤ now then s.complete w f.1 else s.landDue w f.1 now fun _ => true
    | _ => s) s1

/-- A resident wave's sleeps whose die count has come end (R16, R108). -/
def State.wakeSleeps (s : State) (w : Nat) : State :=
  let x := s.wave w
  if x.slot.isNone then s
  else x.sleepers.foldl (fun s z => match z.wait with
    | .sleep t => if t.toNat ≤ (s.dieCycle x).toNat then s.onWave w fun y => y.wake z [] else s
    | _ => s) s

/-- What is due on a core is applied before its quadrants choose: fixed-latency results, and sleeps that are over (R16,
R41, R108). -/
def State.settleDue (s : State) (core : Nat) : State :=
  s.waves.foldl (fun s e =>
    if e.2.core = core then (s.settleWave e.1 (s.core core).cycle).wakeSleeps e.1 else s) s

/-- A run whose fetch fails parks with its PC at the word, or at the prefix (R21, R61). -/
def State.parkFetch (s : State) (w : Nat) (run : Lanes) (pc : Word) (e : FetchFail) : State :=
  let order := (s.wave w).nextOrder
  (s.park w run pc e.cause (BitVec.ofNat 64 e.addr)).onWave w fun x =>
    { x with parked := x.parked.map fun (p : Parked) =>
        if p.order = order ∧ e.absent = true then { p with args := [1] } else p }

/-- The run of a wave whose next word needs a register line that cannot be read parks with data loss at the line's image
(R407). -/
noncomputable def State.lostLine (s : State) (w : Nat) (u : Words) (run : Lanes) : Option Nat :=
  let x := s.wave w
  match AMap.find s.contexts x.pasid.toNat with
  | none => none
  | some c =>
    let at_ (l : Nat) : Nat := waveImageOff x.image + lineOff l
    ((s.missingFor w u run).find? fun l => match s.imagePa x.pasid (at_ l) with
      | some pa => s.sectorLost pa
      | none => false).map fun l => c.desc.image.toNat + at_ l

/-- The register line of a wave's next word that holds an uncorrectable error, with the address of its image (R407). -/
noncomputable def State.upsetLine (s : State) (w : Nat) (u : Words) (run : Lanes) : Option (Nat × Nat) :=
  let x := s.wave w
  match AMap.find s.contexts x.pasid.toNat with
  | none => none
  | some c => ((u.linesFor run).find? fun l => (s.core x.core).upsetLines.contains (w, l)).map fun l =>
      (l, c.desc.image.toNat + waveImageOff x.image + lineOff l)

/-- The error has been met: the line's data is gone, and its registers hold free values from then on (log entry 120). -/
def State.scramble (s : State) (w line : Nat) : State :=
  let n := s.freeCtr
  ({ s with freeCtr := n + 16 }.onCore (s.wave w).core fun c =>
    { c with upsetLines := c.upsetLines.filter fun e => e != (w, line) }).onWave w fun y =>
      (upTo 16).foldl (fun y k =>
        y.wv (BitVec.ofNat 10 (line / 4)) (16 * (line % 4) + k) ((Config.freeValue (n + k)).setWidth 32)) y

/-- A selectable wave looks at its next word: a failing fetch parks its run (R21). -/
noncomputable def State.lookAhead (s : State) (w : Nat) : State :=
  if !s.selectable w then s
  else
    match (s.wave w).head with
    | none => s
    | some (run, pc) =>
      match s.words w pc with
      | (.error e, s1) => s1.parkFetch w run pc e
      | (.ok u, s1) =>
        match s1.lostLine w u run with
        | some a => s1.park w run pc .dataLoss (BitVec.ofNat 64 a)
        | none =>
          match s1.upsetLine w u run with
          | some (l, a) => (s1.scramble w l).park w run pc .dataLoss (BitVec.ofNat 64 a)
          | none => s1

/-- A header report or a fault record of a demand that the word receives: the cause and address of the trap, and the
machine with the report delivered (R227, R260). -/
def State.takeReport (s : State) (w : Nat) (h : Hdr) : Option (Cause × BitVec 64 × State) :=
  let x := s.wave w
  let tile : Option (Cause × BitVec 64 × State) :=
    match x.tileFaults.find? fun f => decide (f.flag.toNat < 12) && h.wait.getLsbD f.flag.toNat with
    | none => none
    | some f =>
      let (_, s1) := s.storeByte x.core x.pasid (f.at_ + 0x1E) 0
      some (.tileFault, f.addr, s1.onWave w fun y =>
        { y with tfault := BitVec.ofNat 32 (256 + f.index % 256), tileFaults := y.tileFaults.erase f })
  match s.reportFor w with
  | some (g, o) => some (.illegalFormat, o.setWidth 64, s.onGroup g fun y => { y with report := none })
  | none => tile

/-! The checking scoreboard (R167, R169). -/

/-- The register that a write goes to; m0 and q0 are constants. -/
def RegWrite.reg : RegWrite → List RegId
  | .v r _ _ => [.v r.toNat]
  | .s r _ => [.s r.toNat]
  | .m r _ => if r = 0 then [] else [.m r.toNat]
  | .mBit r _ _ => if r = 0 then [] else [.m r.toNat]
  | .q r _ => if r = 0 then [] else [.q r.toNat]
  | .sr n _ => [.sr n.toNat]
  | .flags _ => [.sr 0x019]
  | .send _ _ => []

def memRegs (d : MemDest) (n : Nat) : List RegId :=
  match d with
  | .v r => vRegs r (max 1 (n / 4))
  | .s r => sRegs r (max 1 (n / 4))

/-- The registers that a variable-latency operation in flight is to write. -/
def FlightKind.pending : FlightKind → List RegId
  | .result ws => ws.flatMap RegWrite.reg
  | .load n _ d _ _ _ => memRegs d n
  | .rmw n _ d _ _ _ => memRegs d n
  | _ => []

/-- The registers that a sleeping run is to write. -/
def Wait.pending : Wait → List RegId
  | .mwait _ _ _ d _ _ _ _ => sRegs d 1
  | .port _ _ _ d _ _ => oRegs d
  | .recalloc _ d => sRegs d 2
  | .qclaim _ d => sRegs d 2
  | _ => []

/-- The registers with a variable-latency write outstanding: of operations, sleeping runs, upcalls and pops. -/
def State.variable (s : State) (w : Nat) : List RegId :=
  let x := s.wave w
  (x.flights.flatMap fun e => e.2.kind.pending) ++ (x.sleepers.flatMap fun z => z.wait.pending) ++
    (x.parked.flatMap fun p => if p.cause == .upcall then sRegs p.replyTo 4 else []) ++
    (s.cluster (clusterOf x.core)).queues.flatMap fun e => e.2.takers.flatMap fun t => match t with
      | .pop v _ d => if v = w then sRegs d 8 else []
      | _ => []

/-- The registers with a fixed-latency write outstanding. -/
def Wave.fixedPending (x : Wave) : List RegId :=
  x.flights.flatMap fun e => match e.2.kind with
    | .fixed _ ws => ws.flatMap fun r => r.1.reg
    | .query _ d _ _ => sRegs d 1
    | _ => []

/-- The producers that the word's own STALL and WAIT leave early (R167). -/
def Wave.owedAfter (x : Wave) (h : Hdr) : List Owed :=
  ((x.owed.map fun o => { o with left := o.left - h.stall.toNat }).filter fun (o : Owed) =>
    decide (0 < o.left) && !(decide (o.flag.toNat < 12) && h.wait.getLsbD o.flag.toNat))

/-- The first register that the checker objects to (R169). -/
def State.undersized (s : State) (w : Nat) (use : Use) : Option RegId :=
  let x := s.wave w
  let var := s.variable w
  let early := x.owed.map fun (o : Owed) => o.reg
  let fix := x.fixedPending
  match use.reads.find? fun r => early.contains r || var.contains r with
  | some r => some r
  | none => use.writes.find? fun r => var.contains r || fix.contains r

/-- What the checker looks at: a word that its predicate disables reads its mask alone. -/
def Words.use (u : Words) (x : Wave) (run : Lanes) (i : Instr) : Use :=
  if u.lanes x run = 0 ∧ u.op ≠ 0x09E then ⟨u.predMask, []⟩ else regUse i

/-! The issue. -/

/-- A free choice among some writes. -/
def State.pick (s : State) : List RegWrite → List RegWrite × State
  | [] => ([], s)
  | r :: t =>
    let (f, s1) := s.free
    let (rs, s2) := s1.pick t
    (if f.getLsbD 0 then r :: rs else rs, s2)

/-- The results in flight that an early read of a word finds: register by register and lane by lane the old value or the
new (R41, R118, R169; log entry 5). `special` adds the writes of special registers. -/
def State.earlyView (s : State) (w : Nat) (special : Bool) : List RegWrite × State :=
  s.pick ((s.wave w).flights.flatMap fun f => f.2.early ++ if special then f.2.earlySr else [])

/-- Puts back the register of a write, where a word has left it as it read it. -/
def Wave.unread (x : Wave) (old view : Wave) : RegWrite → Wave
  | .v r l _ => if x.rv r l = view.rv r l then x.wv r l (old.rv r l) else x
  | .s r _ => if x.rs r = view.rs r then x.ws r (old.rs r) else x
  | .m r _ => if x.rm r = view.rm r then x.wm r (old.rm r) else x
  | .mBit r _ _ => if x.rm r = view.rm r then x.wm r (old.rm r) else x
  | .q r _ => if x.rq r = view.rq r then x.wq r (old.rq r) else x
  | .sr .. => { x with
      fpctl := old.fpctl, fpstat := old.fpstat, prio := old.prio, age := old.age, late := old.late,
      waitovf := old.waitovf, trapcause := old.trapcause, trapaddr := old.trapaddr, trappc := old.trappc }
  | _ => x

/-- Runs a meaning on what its early reads find; the results in flight land in their own time. -/
def State.readingEarly (s : State) (w : Nat) (special : Bool)
    (f : State → Host.Outcome State Fault Refusal) : Host.Outcome State Fault Refusal :=
  match s.earlyView w special with
  | ([], s1) => f s1
  | (rs, s1) =>
    let old := s1.wave w
    let view := old.landAll rs
    match f (s1.putWave w view) with
    | .next t => .next (t.onWave w fun x => rs.foldl (fun x r => x.unread old view r) x)
    | o => o

/-- Of two fixed-latency writes to one register that are outstanding together the register finally holds either (R169; log
entry 113): a new write takes the place of an older one, or gives way to it. -/
def RegWrite.sameTarget : RegWrite → RegWrite → Bool
  | .v a k _, .v b l _ => a == b && k == l
  | .s a _, .s b _ => a == b
  | .m a _, .m b _ => a == b && a != 0
  | .mBit a k _, .mBit b l _ => a == b && k == l && a != 0
  | .q a _, .q b _ => a == b && a != 0
  | .sr a _, .sr b _ => a == b
  | _, _ => false

/-- The fixed-latency writes that a wave has outstanding. -/
def Wave.outstandingWrites (x : Wave) : List RegWrite :=
  x.flights.flatMap fun e => match e.2.kind with
    | .fixed _ ws => ws.map fun r => r.1
    | _ => []

/-- Settles which of the writes that meet is kept: `old` were outstanding when operation `from_` was to come. -/
def State.settleClash (s : State) (w from_ : Nat) (old : List RegWrite) : State :=
  let x := s.wave w
  let new := { x with flights := x.flights.filter fun e => decide (from_ ≤ e.1) }.outstandingWrites
  let met := new.filter fun r => old.any fun o => r.sameTarget o
  if met.isEmpty then s
  else
    let (keep, s1) := s.pick met
    s1.onWave w fun x => { x with flights := x.flights.map fun e => match e.2.kind with
      | .fixed due ws => (e.1, { e.2 with kind := .fixed due (ws.filter fun r =>
          if e.1 < from_ then !keep.any fun k => k.sameTarget r.1
          else !(met.any fun m => m.sameTarget r.1) || keep.any fun k => k.sameTarget r.1) })
      | _ => e }

/-- The bookkeeping of an issue: its cycle, aging and promotion (R37, R164), the producers still owed (R167), the cycles
that the quadrant dispatches (R17, R163), and the register lines used (R175). -/
noncomputable def State.mark (s : State) (w : Nat) (run : Lanes) (u : Words) : State :=
  let x := s.wave w
  let now := s.coreCycle x
  let hands := ((upTo 16).filter fun k => run.extractLsb' (4 * k) 4 != 0).length
  let n := if u.byHands then max 1 ((hands + 3) / 4) else 1
  let quad := match x.slot with
    | some k => k.toNat / 8
    | none => 0
  let s1 := s.onCore x.core fun c => { c with
    busy := AMap.put c.busy quad (now + n), gated := c.gated + if u.byHands then (16 - hands) * n else 0,
    lineUse := useLast c.lineUse ((u.linesFor run).map fun l => (w, l)) }
  if x.holding.isSome then s1
  else s1.onWave w fun x =>
    { x with lastIssue := some now, yielded := false, aging := 0, promoted := none, owed := x.owedAfter u.hdr }

/-- The fixed-latency results that a word has put in flight, as producers (R167). -/
def Wave.newOwed (x : Wave) (from_ now : Nat) : List Owed :=
  x.flights.flatMap fun e =>
    if e.1 < from_ then []
    else match e.2.kind with
      | .fixed _ ws => ((ws.flatMap fun r => r.1.reg.map fun k => (k, r.2)).eraseDups).map fun r =>
          ⟨r.1, r.2 - now, e.2.flag⟩
      | .query due d _ _ => [⟨.s d.toNat, due - now, e.2.flag⟩]
      | _ => []

/-- After the word: a word that stays in dispatch keeps its fetched words, any other leaves it (R163). Two runs that reduce
into one scalar write it in the order of their issues (R140); of other writes that meet, either is kept. -/
def State.afterIssue (s : State) (before : Wave) (w now : Nat) (u : Words) : State :=
  let s1 := s.onWave w fun x =>
    let held := match x.holding with
      | some (r, p, true) => some (r, p, false)
      | _ => none
    { x with holding := held, heldWords := if held.isSome then u.list else [],
             owed := x.owed ++ x.newOwed before.nextOp now }
  if u.op = 0x0F3 && !u.isDual then s1 else s1.settleClash w before.nextOp before.outstandingWrites

/-- The scope at which a word releases every colour when it issues (R332, R374). -/
def releaseScope : Instr → Option Scope
  | .upcall .. => some .device
  | .barSync .. => some .group
  | .barArrive .. => some .group
  | .cbarArrive .. => some .cohort
  | .launch .. => some .device
  | .tenq .. => some .device
  | .recsend .. => some .device
  | .release .. => some .device
  | .pemit .. => some .device
  | .cpy .. => some .device
  | .cpym .. => some .device
  | .cpyx .. => some .device
  | .rbind .. => some .device
  | .rtrace .. => some .device
  | .nmv .. => some .device
  | _ => none

/-- The words that the front end serves (R361, R365, R373). -/
def usesFrontEnd : Instr → Bool
  | .launch .. => true
  | .tenq .. => true
  | .qclaim .. => true
  | _ => false

/-- A word with a release side waits in dispatch while what its release covers cannot be performed: a pixel whose turn has
not come, or bytes behind a link that retrains (R374, R378, R396). -/
def releaseHeld (s : State) (w : Nat) (i : Instr) : Bool :=
  (usesFrontEnd i && !s.linksSteady) ||
    match releaseScope i with
    | some sco => !s.mayRelease w sco
    | none => false

/-- The words that read a special register: `srd`, `vsrd` and `rte` (R117, R184). -/
def Words.readsSpecial (u : Words) : Bool :=
  !u.isDual && (u.op == 0x018 || u.op == 0x01A || u.op == 0x174)

/-- A word of one run takes effect, once its encoding is legal (R60, R61, R62, R422). -/
noncomputable def State.meaning (s : State) (w : Nat) (run : Lanes) (pc : Word) (u : Words) :
    Host.Outcome State Fault Refusal :=
  let x := s.wave w
  let acc := s.fabric.featacc
  let skip : State := s.onWave w fun y => y.next run (pc + BitVec.ofNat 32 u.list.length)
  match u.decode with
  | .error e =>
    if e.always || !u.roundingOk acc || u.active x run then .next (s.park w run pc .illegal 0) else .next skip
  | .ok i =>
    if !u.roundingOk acc || (!u.featuresOk acc && u.active x run) then .next (s.park w run pc .illegal 0)
    else if u.active x run && releaseHeld s w i then .next (s.onWave w fun y => { y with holding := some (run, pc, true) })
    else s.readingEarly w u.readsSpecial fun s => exec i { s with cur := w }

/-- The register that stall-undersized names for a word, where the context has its producers checked (R168, R169). -/
noncomputable def State.stallUndersized (s : State) (w : Nat) (run : Lanes) (u : Words) : Option RegId :=
  let x := s.wave w
  match u.decode with
  | .error _ => none
  | .ok i => if (s.ctlw x.pasid).getLsbD 0 then s.undersized w (u.use x run i) else none

/-- A word has parked its whole run for a cause (R23). -/
def State.parkedRun (s : State) (before : Wave) (w : Nat) (run : Lanes) (c : Cause) : Bool :=
  (s.wave w).parked.any fun p => p.cause == c && p.members == run && decide (before.nextOrder ≤ p.order)

def outcomeParks (o : Host.Outcome State Fault Refusal) (before : Wave) (w : Nat) (run : Lanes) (c : Cause) :
    Bool :=
  match o with
  | .next t => t.parkedRun before w run c
  | _ => false

/-- THE ISSUE of the words of a wave's head run (R14, R41). Of the causes that park the whole run the first in R183's order
does: illegal instruction; illegal format, that of a report that waits for the word before the word's own (R227); then
the record of a demand (R260), stall-undersized, and what the word itself raises. -/
noncomputable def State.issueWords (s : State) (w : Nat) (run : Lanes) (pc : Word) (u : Words) :
    Host.Outcome State Fault Refusal :=
  let s1 := s.mark w run u
  let x := s1.wave w
  let now := s1.coreCycle x
  let own := s1.meaning w run pc u
  let done (o : Host.Outcome State Fault Refusal) : Host.Outcome State Fault Refusal :=
    match o with
    | .next t => .next (t.afterIssue x w now u)
    | o => o
  if x.holding.isSome || outcomeParks own x w run .illegal then done own
  else
    match s1.takeReport w u.hdr with
    | some (c, a, s2) => done (.next (s2.park w run pc c a))
    | none =>
      if outcomeParks own x w run .illegalFormat then done own
      else
        match s1.stallUndersized w run u with
        | some r => done (.next (s1.park w run pc .stallUndersized (BitVec.ofNat 64 r.field)))
        | none => done own

/-! Words of one cycle whose order R212, R231 and R375 fix. -/

/-- The words of which those that issue in one cycle are taken in ascending sr.waveid order: of a group's `baton.take`, of
its tile words, of a core's `pemit`. -/
inductive TurnClass where
  | baton (group : Nat)
  | tile (group : Nat)
  | emit
deriving DecidableEq, Repr

def Words.turnClass (u : Words) (group : Nat) : Option TurnClass :=
  if u.isDual then none
  else if u.op = 0x186 then some (.baton group)
  else if 0x190 ≤ u.op ∧ u.op ≤ 0x1A6 then some (.tile group)
  else if u.op = 0x1D8 then some .emit
  else none

/-- What a quadrant would issue now: the wave, its run, PC and words. -/
noncomputable def State.wouldIssue (s : State) (core quad : Nat) : Option (Nat × Lanes × Word × Words) :=
  match s.choose core quad with
  | none => none
  | some w =>
    match (s.wave w).head with
    | none => none
    | some (run, pc) =>
      match (s.words w pc).1 with
      | .error _ => none
      | .ok u => some (w, run, pc, u)

/-- The quadrant whose word comes first among those of a core that may issue in this cycle, where the order of the words
is fixed and another's goes before it (R212, R231, R375). -/
noncomputable def State.turnOf (s : State) (core quad : Nat) : Nat :=
  match s.wouldIssue core quad with
  | none => quad
  | some (w, _, _, u) =>
    match u.turnClass (s.wave w).group with
    | none => quad
    | some k => [0, 1, 2, 3].foldl (fun b q =>
        match s.wouldIssue core q, s.wouldIssue core b with
        | some (v, _, _, t), some (y, _, _, _) =>
          if t.turnClass (s.wave v).group = some k ∧ (s.wave v).waveid.toNat < (s.wave y).waveid.toNat then q else b
        | _, _ => b) quad

/-- What a quadrant does with the wave it chooses. -/
noncomputable def State.issueFrom (s : State) (core quad : Nat) : Host.Outcome State Fault Refusal :=
  match s.choose core quad with
  | none => .next s
  | some w =>
    match (s.wave w).head with
    | none => .next s
    | some (run, pc) =>
      match s.words w pc with
      | (.error e, s1) => .next (s1.parkFetch w run pc e)
      | (.ok u, s1) => s1.issueWords w run pc u

/-- A quadrant chooses and issues a word (R163): what is due comes first (R16), then the runs whose fetch fails park. Where
the word of another quadrant must go before its own, that one issues, and this quadrant's turn comes next. -/
noncomputable def State.select (s : State) (core quad : Nat) : Host.Outcome State Fault Refusal :=
  let s1 := s.settleDue core
  let s2 := (s1.inQuad core quad).foldl (fun s e => s.lookAhead e.1) s1
  let q := s2.turnOf core quad
  if q = quad then s2.issueFrom core quad
  else { s2 with agenda := .select core quad :: s2.agenda }.issueFrom core q

end Sys2Proof.Machine
end

