-- ==== Sys2Proof/Machine/Actions.lean ====
section
/-!
DEFINITION. What happens next (log entry 2): the moves of the machine's agents that the agenda lists, and the schedule
of an empty agenda.
-/

namespace Sys2Proof.Machine

/-- An event of the table: neither an instruction word nor a walk micro-operation. -/
def isEvent : Instr → Bool
  | .prefixedPair _ _ => false
  | i => (encodeWords i).isEmpty && (encodeWalk i).isNone

/-- A ray executes the micro-operation at its UPC (R297, R298). -/
def State.walkRay (s : State) (ray : Nat) : Host.Outcome State Fault Refusal :=
  match AMap.find s.rays ray with
  | none => .next s
  | some r =>
    match r.binding with
    | none => .next s
    | some b =>
      match b.prog[r.upc]? with
      | none => .next s
      | some w =>
        match decodeWalk w with
        | none => .next s
        | some i => if r.out || r.fetching then .next s else exec i { s with curRay := ray }

/-! Lines and translations that leave a cache. -/

/-- A 64-byte line leaves an L1, its dirty bytes first written back (R149). -/
def State.evictLine (s : State) (core line : Nat) : State :=
  if s.linkOpen (dieOf core) (s.dieFor (64 * line)) then s.flushRange core (64 * line) 64 else s

/-- A cached translation covers a 4 KiB page. -/
def TlbEntry.covers (e : TlbEntry) (page : Nat) : Bool := page / 2 ^ (e.bits - 12) == e.vpage

/-- A 256-byte line leaves a cluster's cache banks (R267). -/
def State.dropCache (s : State) (cl line : Nat) : State :=
  s.onCluster cl fun c => { c with cache := c.cache.filter fun e => e.1 / 256 != line }

/-- A 256-byte line leaves the L2, its dirty bytes first written to DRAM (R316). -/
def State.evictL2 (s : State) (line : Nat) : State :=
  { s with
    mem := s.l2.foldl (fun (m : Memory) e => if e.1 / 256 = line ∧ e.2.2 = true then m.write e.1 e.2.1 else m) s.mem
    l2 := s.l2.filter fun e => e.1 / 256 != line }

/-- A pointer leaves the walk caches of a die (R190). -/
def State.dropWalk (s : State) (die : Nat) (stage2 : Bool) (level pre : Nat) : State :=
  s.onDie die fun d => { d with walks := d.walks.filter fun e => !(e.stage2 == stage2 && e.level == level && e.pre == pre) }

/-- The register cache holds a line of a wave of its core: the footprint that the wave declared, and lines above it once it
has used them (R161, R175). -/
def State.holdsLine (s : State) (w line : Nat) : Bool :=
  let x := s.wave w
  let c := s.core x.core
  decide (line < 4096) && (decide (line < x.regsDecl) || c.lineUse.contains (w, line)) && !c.missing.contains (w, line)

/-- The lines that a core's register cache holds, of waves that are halted or of those that are not. -/
def State.linesHeld (s : State) (core : Nat) (halted : Bool) : List (Nat × Nat) :=
  (s.waves.filter fun e => e.2.core == core && e.2.slot.isNone == halted).flatMap fun e =>
    ((upTo 4096).filter fun l => s.holdsLine e.1 l).map fun l => (e.1, l)

/-- The lines, or tiles, that replacement takes next: those that a halt has made evictable, then the one least recently
used, one that has not been used before any other (R175). -/
def evictable (halted live used : List (Nat × Nat)) : List (Nat × Nat) :=
  if !halted.isEmpty then halted
  else match live.filter fun e => !used.contains e with
    | [] => (used.filter fun e => live.contains e).take 1
    | l => l

/-- A register line of a core's cache that replacement takes next goes to its image (R175, R194). -/
def State.evictRegLine (s : State) (w line : Nat) : State :=
  let core := (s.wave w).core
  if s.holdsLine w line &&
      (evictable (s.linesHeld core true) (s.linesHeld core false) (s.core core).lineUse).contains (w, line) then
    (s.spillLine w line).onCore core fun c => { c with
      missing := c.missing ++ [(w, line)], lineUse := c.lineUse.filter fun e => e != (w, line) }
  else s

/-- The matrix engine of a group's core runs a command of the group. -/
def State.runs (s : State) (g : Nat) : Bool :=
  match (s.core (s.group g).core).engine with
  | some (h, _) => h == g
  | none => false

/-- The accumulator memory of a core holds a tile of a group: one of those that the group declared, or one it has used
(R161, R175), and no command that runs needs it. -/
def State.holdsTile (s : State) (g t : Nat) : Bool :=
  let y := s.group g
  decide (t < 8) && (decide (t < y.accDecl) || (s.core y.core).tileUse.contains (g, t)) && !y.away.getLsbD t && !s.runs g

/-- The tiles that a core holds, of groups that are halted or of those that are not. -/
def State.tilesHeld (s : State) (core : Nat) (halted : Bool) : List (Nat × Nat) :=
  (s.groups.filter fun e => e.2.core == core && e.2.slot.isNone == halted).flatMap fun e =>
    ((upTo 8).filter fun t => s.holdsTile e.1 t).map fun t => (e.1, t)

/-- An accumulator tile that replacement takes next leaves accumulator memory (R175, R194, R203). -/
def State.evictTile (s : State) (g t : Nat) : State :=
  let core := (s.group g).core
  if s.holdsTile g t &&
      (evictable (s.tilesHeld core true) (s.tilesHeld core false) (s.core core).tileUse).contains (g, t) then
    (s.tileToImage g t).onCore core fun c => { c with tileUse := c.tileUse.filter fun e => e != (g, t) }
  else s

/-! Capacities (R2, R148, R175, R267, R316; log entry 121): at the end of a cycle what exceeds one leaves. -/

/-- Evicts members of what is held, chosen freely among those that replacement may take, until `cap` are left. -/
def State.trim {α : Type} (held take : State → List α) (cap : Nat) (evict : State → α → State) : Nat → State → State
  | 0, s => s
  | n + 1, s =>
    if (held s).length ≤ cap then s
    else
      let (f, s1) := s.free
      match (take s1)[f.toNat % (take s1).length]? with
      | some a => State.trim held take cap evict n (evict s1 a)
      | none => s1

/-- The lines of `size` bytes that some keys lie in. -/
def linesIn (size : Nat) (keys : List Nat) : List Nat := (keys.map fun k => k / size).eraseDups

/-- A core's L1 holds 4,096 lines, its register cache 16,384, its accumulator memory 8 tiles. -/
def State.trimCore (s : State) (core : Nat) : State :=
  let l1 (s : State) : List Nat := linesIn 64 ((s.core core).l1.map fun e => e.1)
  let regs (s : State) : List (Nat × Nat) := s.linesHeld core true ++ s.linesHeld core false
  let tiles (s : State) : List (Nat × Nat) := s.tilesHeld core true ++ s.tilesHeld core false
  let s1 := State.trim l1 l1 4096 (fun s l => s.evictLine core l) ((l1 s).length - 4096) s
  let s2 := State.trim regs
    (fun s => evictable (s.linesHeld core true) (s.linesHeld core false) (s.core core).lineUse) 16384
    (fun s l => s.evictRegLine l.1 l.2) ((regs s1).length - 16384) s1
  State.trim tiles
    (fun s => evictable (s.tilesHeld core true) (s.tilesHeld core false) (s.core core).tileUse) 8
    (fun s l => s.evictTile l.1 l.2) ((tiles s2).length - 8) s2

/-- A cluster's cache banks hold 1,536 lines each (R267). -/
def State.trimCache (s : State) (cl : Nat) : State :=
  let lines (s : State) : List Nat := linesIn 256 ((s.cluster cl).cache.map fun e => e.1)
  let cap := 1536 * s.cacheBanks cl
  State.trim lines lines cap (fun s l => s.dropCache cl l) ((lines s).length - cap) s

/-- A set of a die's L2 holds 16 lines less those whose locations have been retired (R316). -/
def State.trimL2 (s : State) (die : Nat) : State :=
  let lines (s : State) : List Nat := (linesIn 256 (s.l2.map fun e => e.1)).filter fun l => homeDie (256 * l) == die
  ((lines s).map l2Set).eraseDups.foldl (fun s k =>
    let mine (s : State) : List Nat := (lines s).filter fun l => l2Set l == k
    let cap := 16 - AMap.getD (s.die die).retired k 0
    State.trim mine mine cap (fun s l => s.evictL2 l) ((mine s).length - cap) s) s

/-! The networks of a die (R327). -/

/-- The priority of a packet: sr.prio of the wave that it is for, 255 for a service of the die. -/
def State.packetPrio (s : State) : NetSource → BitVec 8
  | .wave w => (s.wave w).prio.setWidth 8
  | .request r => match AMap.find s.reqs r with
    | some q => (s.wave q.wave).prio.setWidth 8
    | none => 0
  | .service => 255

/-- A packet of the up-net enters a die's network at the local port of its source (R322, R324); replies, on the down-net,
come from slices and services. -/
def State.injects (s : State) (die : Nat) (net : Bool) (router : Nat) : NetSource → Bool
  | .wave w => net || (dieOf (s.wave w).core == die && router == coreRouter (s.wave w).core)
  | .request r => net || match AMap.find s.reqs r with
    | some q => q.cluster / 12 == die && (clusterRouters q.cluster).contains router
    | none => false
  | .service => net || [0, 1, 2].any fun j => router == linkRouter j || router == serviceRouter

/-- A packet of one header flit and up to four of data reaches the head of a router's input (R322). `net` is set for the
down-net. -/
def State.headPacket (s : State) (die : Nat) (net : Bool) (router : Nat) (port : BitVec 3) (src : NetSource)
    (out : BitVec 3) (data : Nat) : State :=
  let k := netKey net router port.toNat
  if (AMap.find (s.die die).net k).isSome || decide (4 ≤ die ∨ 50 ≤ router ∨ 4 < data) ||
      (port == 7 && !s.injects die net router src) then s
  else s.onDie die fun d => { d with net := AMap.put d.net k ⟨s.packetPrio src, out, 1 + data, 0, none⟩ }

/-- Head packet a, at input i, goes before head packet b, at input j: the one promoted earliest, the highest class, the
next input after the one served last (R327). -/
def NetHead.before (last i j : Nat) (a b : NetHead) : Bool :=
  let turn (k : Nat) : Nat := (k + 7 - last) % 8
  match a.promoted, b.promoted with
  | some p, some q => decide (p < q ∨ (p = q ∧ turn i < turn j))
  | some _, none => true
  | none, some _ => false
  | none, none =>
    decide (b.prio.toNat / 64 < a.prio.toNat / 64 ∨
      (a.prio.toNat / 64 = b.prio.toNat / 64 ∧ turn i < turn j))

/-- A packet leaves a router's input when its output chooses it, and holds the output for its flits (R327). -/
def State.leavePacket (s : State) (die : Nat) (net : Bool) (router : Nat) (port : BitVec 3) : State :=
  let d := s.die die
  let k := netKey net router port.toNat
  match AMap.find d.net k with
  | none => s
  | some h =>
    let o := outKey net router h.out.toNat
    let last := AMap.getD d.netLast o 7
    let first := (upTo 8).all fun j => j == port.toNat ||
      match AMap.find d.net (netKey net router j) with
      | some g => g.out != h.out || NetHead.before last port.toNat j h g
      | none => true
    if first && decide (AMap.getD d.netHeld o 0 ≤ d.netCycle) then
      s.onDie die fun d => { d with
        net := AMap.del d.net k, netLast := AMap.put d.netLast o port.toNat,
        netHeld := AMap.put d.netHeld o (d.netCycle + h.flits) }
    else s

/-- A network cycle of a die: every head packet has waited one more. -/
def State.netCycle (s : State) (die : Nat) : State :=
  if 4 ≤ die then s
  else s.onDie die fun d => { d with
    netCycle := d.netCycle + 1, net := d.net.map fun e => (e.1, { e.2 with waited := e.2.waited + 1 }) }

/-! Time. -/

/-- The aging counts of a core's waves that are eligible and were not chosen in this cycle; a word in dispatch has issued
(R163, R164). -/
noncomputable def State.ageWaves (s : State) (core : Nat) : State :=
  let now := (s.core core).cycle
  { s with waves := s.waves.map fun e =>
      if e.2.core == core && e.2.slot.isSome && e.2.lastIssue != some now && e.2.holding.isNone && s.eligible e.1 then
        (e.1, { e.2 with aging := e.2.aging + 1 })
      else e }

/-- In the next cycle quadrants choose by the priorities that stand now (R113). -/
def State.takePriorities (s : State) (core : Nat) : State :=
  { s with waves := s.waves.map fun e => if e.2.core == core then (e.1, { e.2 with selPrio := e.2.prio }) else e }

/-- A core cycle ends: its `mquery` words read, the next cycle begins, and what is due in it is applied (R16, R225). -/
noncomputable def State.coreCycleEnd (s : State) (core : Nat) : State :=
  let s1 := (((s.readQueries core).ageWaves core).onCore core fun c => { c with cycle := c.cycle + 1 })
  (((s1.takePriorities core).settleDue core).lateLosses core).trimCore core

/-- A cycle of a die's reference counter ends (R5). -/
def State.dieCycleEnd (s : State) (die : Nat) : State :=
  if 4 ≤ die then s
  else
    let s1 := s.onDie die fun d => { d with counter := d.counter + 1 }
    ((s1.clusters.map fun e => e.1).filter fun c => c / 12 == die).foldl (fun s c => s.trimCache c) (s1.trimL2 die)

/-- One cycle of every core that has been used, and of every die. -/
noncomputable def State.tick (s : State) : State :=
  let cores := ((s.cores.map fun e => e.1) ++ s.waves.map fun e => e.2.core).eraseDups
  [0, 1, 2, 3].foldl (fun s d => s.dieCycleEnd d) (cores.foldl (fun s c => s.coreCycleEnd c) s)

/-! The moves. -/

/-- A move of an agent. Moves that are not possible change nothing (log entry 10). -/
noncomputable def State.act (s : State) : Action → Host.Outcome State Fault Refusal
  | .event i => if isEvent i then exec i s else .next s
  | .select core quad => if core < 576 ∧ quad < 4 then s.select core quad else .next s
  | .walk ray => s.walkRay ray
  | .perform w op lane => .next (s.performLane w op lane)
  | .evictLine core line => .next (s.evictLine core line)
  | .dropTlb core page =>
    .next (s.onCore core fun c => { c with tlb := c.tlb.filter fun e => !e.covers page })
  | .dropClusterTlb cl page =>
    .next (s.onCluster cl fun c => { c with tlb := c.tlb.filter fun e => !e.covers page })
  | .dropWalk die stage2 level pre => .next (s.dropWalk die stage2 level pre)
  | .dropCache cl line => .next (s.dropCache cl line)
  | .evictL2 line => .next (s.evictL2 line)
  | .evictRegLine w line => .next (s.evictRegLine w line)
  | .evictTile g t => .next (s.evictTile g t)
  | .sample core => .next (s.sampleEngine core)
  | .engineStep core => .next (s.engineStep core)
  | .sampleNode req va => .next (s.sampleNode req va)
  | .nmSample req => .next (s.nmSample req)
  | .nmWrite req v n => .next (s.nmWrite req v n)
  | .refusePage pasid va => .next (s.refusePage pasid va)
  | .copyRead req i => .next (s.copyRead req i)
  | .copyWrite req d i => .next (s.copyWrite req d i)
  | .shardByte die cx => .next (s.shardByte die cx)
  | .headPacket die net router port src out data => .next (s.headPacket die net router port src out data)
  | .leavePacket die net router port => .next (s.leavePacket die net router port)
  | .netCycle die => .next (s.netCycle die)
  | .dramError pa => .next (s.dramError pa)
  | .l2Error pa => .next (s.l2Error pa)
  | .l1Error core pa => .next (s.l1Error core pa)
  | .bankError cl off => .next (s.bankError cl off)
  | .lineError w line => .next (s.lineError w line)
  | .dramCorrected pa => .next (s.dramCorrected pa)
  | .exportRange lo len => .next (s.exportRange lo len)
  | .releaseClusters part => .next (s.releaseClusters part)
  | .peerExport id lo len => .next (s.peerExport id.toNat lo len)
  | .scanRow die head => .next (s.scanRow die head)
  | .hartEnter hart pc args => .next (s.hartEnter hart pc args)
  | .hartStep hart => .next (s.hartStep hart)
  | .coreCycle core => .next (s.coreCycleEnd core)
  | .dieCycle die => .next (s.dieCycleEnd die)
  | .tick => .next s.tick

/-! The schedule of an empty agenda (log entry 2). -/

/-- A resident wave with a set to deliver (R25). -/
def State.toDeliver (s : State) : Option Nat :=
  (s.waves.find? fun e => e.2.slot.isSome && e.2.pending.isSome && e.2.activeMembers == 0 && !s.ended e.2.launch).map
    fun e => e.1

/-- The first quadrant with a wave to choose. -/
noncomputable def State.toSelect (s : State) : Option (Nat × Nat) :=
  (s.waves.find? fun e => match e.2.slot with
    | some k => (s.choose e.2.core (k.toNat / 8)).isSome
    | none => false).map fun e => (e.2.core, match e.2.slot with
    | some k => k.toNat / 8
    | none => 0)

/-- Operations complete as soon as they can, register lines fill, waits whose time has come end, and a cycle passes. -/
noncomputable def State.rest (s : State) : Host.Outcome State Fault Refusal :=
  let op (w : Nat) (s : State) (e : Nat × Flight) : Host.Outcome State Fault Refusal :=
    match e.2.kind with
    | .load .. => exec (.loadComplete w e.1) s
    | .rmw .. => exec (.rmwPerformed w e.1) s
    | .fence .. => exec (.fenceComplete w e.1) s
    | .store .. => exec (.storePerformed w e.1) s
    | .cache .. => exec (.storePerformed w e.1) s
    | .pxout => exec (.storePerformed w e.1) s
    | _ => exec (.fixedLatencyComplete w e.1) s
  let bind (o : Host.Outcome State Fault Refusal) (f : State → Host.Outcome State Fault Refusal) :
      Host.Outcome State Fault Refusal :=
    match o with
    | .next t => f t
    | o => o
  let wave (o : Host.Outcome State Fault Refusal) (e : Nat × Wave) : Host.Outcome State Fault Refusal :=
    let o1 := e.2.flights.foldl (fun o f => bind o fun s => op e.1 s f) o
    let o2 := ((s.core e.2.core).missing.filter fun l => l.1 == e.1).foldl
      (fun o l => bind o fun s => exec (.registerLineFill e.1 l.2) s) o1
    bind (bind o2 fun s => exec (.sleepExpire e.1) s) fun s => exec (.mwaitWake e.1) s
  bind (s.waves.foldl wave (.next s)) fun s => .next s.tick

/-- With nothing listed, a pending set is delivered, else a quadrant issues, else operations complete and a cycle
passes. -/
noncomputable def State.idle (s : State) : Host.Outcome State Fault Refusal :=
  let s0 := ((s.waves.map fun e => e.2.core).eraseDups).foldl (fun s c => s.settleDue c) s
  let s1 := s0.waves.foldl (fun s e => s.lookAhead e.1) s0
  match s1.toDeliver with
  | some w => exec (.trapDelivery w) s1
  | none =>
    match s1.toSelect with
    | some (core, quad) => s1.select core quad
    | none => s1.rest

/-- The next move: the first of the agenda, else the schedule of an empty one. -/
noncomputable def State.advance (s : State) : Host.Outcome State Fault Refusal :=
  match s.agenda with
  | [] => s.idle
  | a :: t => { s with agenda := t }.act a

/-! The instruction to run next. -/

/-- Bytes placed at physical addresses, in DRAM, with nothing of them in the L2. -/
def State.place (s : State) (pa : Nat) (bs : List Byte) : State :=
  (upTo bs.length).foldl (fun s k => { s with
    mem := s.mem.write (pa + k) (bs.getD k 0), l2 := AMap.del s.l2 (pa + k),
    lost := AMap.del s.lost ((pa + k) / 64) }) s

/-- Where the instruction is placed: one page of code, virtual and physical address alike. -/
def codePage : Nat := 0x100000

/-- A wave of one ready thread at the first word of the page (log entry 4). -/
def codeWave : Wave :=
  { Wave.blank with
    slot := some 0, launched := 1, threads := [(0, .ready)], codebase := BitVec.ofNat 64 codePage }

/-- The machine in which core 0's first quadrant holds that wave alone, with the page's translation cached and every
feature accepted, about to choose it. -/
def State.withCode (s : State) (bs : List Byte) : State :=
  let s1 := s.place codePage bs
  let s2 := s1.onCore 0 fun c => { c with
    tlb := ⟨0, 0, codePage / 4096, 12, codePage / 4096, false, false, true, false, false, []⟩ :: c.tlb,
    busy := AMap.del c.busy 0, halting := AMap.del c.halting 0, missing := c.missing.filter fun e => e.1 != 0,
    lineUse := c.lineUse.filter fun e => e.1 != 0, upsetLines := c.upsetLines.filter fun e => e.1 != 0 }
  { s2 with
    waves := AMap.put (s2.waves.filter fun e => e.2.core != 0 || e.2.slot.isNone) 0 codeWave,
    groups := AMap.put s2.groups 0 { Group.blank with waves := 1, slot := some 0 },
    launches := AMap.del s2.launches 0, contexts := AMap.del s2.contexts 0,
    fabric := { s2.fabric with featacc := BitVec.allOnes 64, lock := true },
    agenda := [.select 0 0] }

/-- A ray whose program is one micro-word and `done`, about to execute it (log entry 4). -/
def State.withWalk (s : State) (w : BitVec 32) : State :=
  { s with
    rays := AMap.put s.rays 0
      { req := 0, cohort := 0, cluster := 0, pasid := 0, at_ := 0,
        binding := some ⟨⟨0, 0, 0, 0, []⟩, [w, 0x58000000]⟩, org := [0, 0, 0], tmin := 0, dir := [0, 0, 0],
        tmax := 0, flags := 0, cls := 0, upc := 0, status := 1, cause := 0, inst := 0, node := 0, hitt := 0x7F800000,
        prim := 0xFFFFFFFF, hitu := 0, hitv := 0, stack := [], buf := none, kids := [], cand := none, z := false,
        h := false, m := false, savers := [], fetching := false, out := false, depth := 0 },
    agenda := [.walk 0] }

end Sys2Proof.Machine
end

