-- ==== Sys2Proof/Machine/Step.lean ====
section
/-!
DEFINITION. The step function, and the machine in which a given instruction is the next one fetched.
-/

namespace Sys2Proof.Machine

/-- One step of the package: its next move (log entry 2). -/
noncomputable def step (s : State) : Host.Outcome State Fault Refusal := s.advance

/-- The machine that fetches and runs the instruction of these bits next: 32 bits are a walk micro-word, 64 a word,
128 a prefixed pair, numbered from the least significant bit of the first word (log entry 4). -/
def State.withFetchWord (s : State) (nbits w : Nat) : State :=
  if nbits = 32 then s.withWalk (BitVec.ofNat 32 w)
  else s.withCode (wordBytes (BitVec.ofNat 64 w) ++ wordBytes (BitVec.ofNat 64 (w / 2 ^ 64)))

end Sys2Proof.Machine
end

