-- ==== Sys2Proof/Safety.lean ====
section
/-!
DEFINITION. What counts as a safe run, in the terms that claims use: the canonical form of memory, launches without an
error, and waves that still make progress.
-/

namespace Sys2Proof.Machine

/-- Memory is in its one canonical form: addresses strictly rising, no entry equal to what an unlisted address reads
as (log entry 1). -/
def State.MemCanonical (s : State) : Prop := s.mem.wf = true

/-- No launch has ended with an error record (R180, R356). -/
def State.NoError (s : State) : Prop := ∀ l, (s.launch l).error = none

/-- No thread of a wave is parked (R23). -/
def Wave.Unparked (w : Wave) : Prop := w.parked = []

/-- Every launched thread of a wave has exited (R20). -/
def Wave.Over (w : Wave) : Prop := w.lanesIn .exited = w.launched

/-- A step that goes on: neither a fault nor a refusal. -/
def Goes (o : Host.Outcome State Fault Refusal) : Prop := ∃ t, o = .next t

/-- A run of the machine over which no launch ends with an error. -/
def SafeRun : Nat → State → Prop
  | 0, s => s.NoError
  | n + 1, s => s.NoError ∧ ∀ t, step s = .next t → SafeRun n t

end Sys2Proof.Machine
end

