-- ==== Sys2Proof/Certificates/Slice0/Obligations.lean ====
section
/-!
DEFINITION. The statements for the provers. A statement names the rules of the spec it formalises. The terms of the
statements stand in `Sys2Proof.Says`; an instruction's own rule stands in the statement.
-/

namespace Sys2Proof.Says

open Sys2Proof.Machine

/-! The terms of the statements. -/

/-- The wave whose word is executed. -/
abbrev cw (s : State) : Wave := s.wave s.cur

/-- The head run of that wave and its PC (R14), with a lane that the predicate enables (R43). -/
def Runs (s : State) (c : Ctl) (run : Lanes) (pc : Word) : Prop :=
  (cw s).head = some (run, pc) ∧ (cw s).enabled run c ≠ 0

/-- The wave is resident, none of its register lines is away, and the flag that SETF names can rise (R40, R162). -/
def Steady (s : State) (setf : BitVec 4) : Prop :=
  (cw s).slot.isSome ∧ (∀ l, (s.cur, l) ∉ (s.core (cw s).core).missing) ∧
    (setf.toNat ≤ 11 → ((cw s).flag setf.toNat).toNat < 63)

/-- Of the whole machine only wave `k` differs. -/
def OnlyWave (s t : State) (k : Nat) : Prop := { t with waves := s.waves } = s ∧ ∀ j, j ≠ k → t.wave j = s.wave j

/-- Next(T, x): the run is at `pc`, every other thread where it was (R97). -/
def Moves (w x : Wave) (run : Lanes) (pc : Word) : Prop := ∀ l < 64, x.pcOf l = if run.getLsbD l then pc else w.pcOf l

/-- Every completion flag but those of `setf` is unchanged, and that one has risen by 1 (R39). -/
def Raises (w x : Wave) (setf : BitVec 4) : Prop :=
  ∀ i < 12, x.flag i = if i = setf.toNat then w.flag i + 1 else w.flag i

/-- The operation `f` is in flight under the next number, and no other operation has changed. -/
def AddsFlight (w x : Wave) (f : Flight) : Prop :=
  x.nextOp = w.nextOp + 1 ∧ AMap.find x.flights w.nextOp = some f ∧
    ∀ o, o ≠ w.nextOp → AMap.find x.flights o = AMap.find w.flights o

/-- Two waves differ at most in the places of their threads, their flags and their operations in flight. -/
def SameButIssue (w x : Wave) : Prop :=
  { x with pcs := w.pcs, f := w.f, flights := w.flights, nextOp := w.nextOp } = w

/-- A word issues with an operation in flight: the run goes to `pc`, f_SETF rises, and nothing else changes. -/
def Issues (s t : State) (c : Ctl) (run : Lanes) (pc : Word) (f : Flight) : Prop :=
  OnlyWave s t s.cur ∧ Moves (cw s) (cw t) run pc ∧ Raises (cw s) (cw t) c.h.setf ∧ AddsFlight (cw s) (cw t) f ∧
    SameButIssue (cw s) (cw t)

/-- A word of fixed latency issues: its writes are due after `lat` cycles (R39, R41). -/
def IssuesFixed (s t : State) (c : Ctl) (run : Lanes) (pc : Word) (lat : Nat) (ws : List RegWrite) : Prop :=
  Issues s t c run pc
    ⟨.fixed ((s.core (cw s).core).cycle + lat) (ws.map fun r => (r, (s.core (cw s).core).cycle + lat)), c.h.setf, run, []⟩

/-- The machine with some fields of the current wave put back. -/
def restored (t : State) (f : Wave → Wave) : State := t.putWave t.cur (f (cw t))

/-- A word without a result issues, and its threads go where `place` says: it completes one cycle later, which only a
flag can show (R39). -/
def IssuesTo (s t : State) (c : Ctl) (run : Lanes) (place : Nat → Word) : Prop :=
  OnlyWave s t s.cur ∧ (∀ l < 64, (cw t).pcOf l = place l) ∧ SameButIssue (cw s) (cw t) ∧
    if c.h.setf = 15#4 then (cw t).f = (cw s).f ∧ (cw t).flights = (cw s).flights ∧ (cw t).nextOp = (cw s).nextOp
    else Raises (cw s) (cw t) c.h.setf ∧
      AddsFlight (cw s) (cw t) ⟨.fixed ((s.core (cw s).core).cycle + 1) [], c.h.setf, run, []⟩

/-- The same, with the whole run at one PC. -/
def IssuesPlain (s t : State) (c : Ctl) (run : Lanes) (pc : Word) : Prop :=
  IssuesTo s t c run fun l => if run.getLsbD l then pc else (cw s).pcOf l

/-- The machine when `k` more cycles of the current wave's core have passed. -/
def later (s : State) (k : Nat) : State := s.onCore (cw s).core fun c => { c with cycle := c.cycle + k }

/-- An instruction issues, and its result is written `lat` cycles later and not before; `u` is the machine then
(R16, R39, R166). -/
def Completes (i : Instr) (s : State) (lat : Nat) (u : State) : Prop :=
  ∃ t, exec i s = .next t ∧
    (∀ k, k < lat → exec (.fixedLatencyComplete s.cur (cw s).nextOp) (later t k) = .next (later t k)) ∧
    exec (.fixedLatencyComplete s.cur (cw s).nextOp) (later t lat) = .next u

/-- After its completion a word that falls through has changed of its wave only what `g` puts back; the run is at
`pc`, the flags are as before, no operation but its own has come or gone, and beside the wave only time has passed. -/
def Leaves (s u : State) (lat : Nat) (run : Lanes) (pc : Word) (g : Wave → Wave) : Prop :=
  OnlyWave (later s lat) u s.cur ∧ Moves (cw s) (cw u) run pc ∧ (∀ i < 12, (cw u).flag i = (cw s).flag i) ∧
    (∀ o, o ≠ (cw s).nextOp → AMap.find (cw u).flights o = AMap.find (cw s).flights o) ∧
    { g (cw u) with pcs := (cw s).pcs, f := (cw s).f, flights := (cw s).flights, nextOp := (cw s).nextOp } = cw s

/-! Scalar words. -/

/-- The scalar words of one result (R97, R119, R120): control, destination, sources, the latency (R166), and the
result from the values of the sources and of the old destination. -/
def scalarForm : Instr → Option (Ctl × SOp × List SSrc × Nat × (Word → Word → Word → Word))
  | .sadd c d a b => some (c, d, [.op a, .op b], 2, fun x y _ => x + y)
  | .ssub c d a b => some (c, d, [.op a, .op b], 2, fun x y _ => x - y)
  | .smul c d a b => some (c, d, [.op a, .op b], 2, fun x y _ => BitVec.ofInt 32 (x.toInt * y.toInt))
  | .smulh c d a b => some (c, d, [.op a, .op b], 2, fun x y _ => BitVec.ofInt 32 (x.toInt * y.toInt / 2 ^ 32))
  | .sdiv c d a b => some (c, d, [.op a, .op b], 20, fun x y _ =>
      if y = 0 then BitVec.allOnes 32 else BitVec.ofInt 32 (x.toInt.tdiv y.toInt))
  | .sdivu c d a b => some (c, d, [.op a, .op b], 20, fun x y _ =>
      if y = 0 then BitVec.allOnes 32 else BitVec.ofNat 32 (x.toNat / y.toNat))
  | .srem c d a b => some (c, d, [.op a, .op b], 20, fun x y _ =>
      if y = 0 then x else BitVec.ofInt 32 (x.toInt.tmod y.toInt))
  | .sremu c d a b => some (c, d, [.op a, .op b], 20, fun x y _ =>
      if y = 0 then x else BitVec.ofNat 32 (x.toNat % y.toNat))
  | .sand c d a b => some (c, d, [.op a, .op b], 2, fun x y _ => x &&& y)
  | .sor c d a b => some (c, d, [.op a, .op b], 2, fun x y _ => x ||| y)
  | .sxor c d a b => some (c, d, [.op a, .op b], 2, fun x y _ => x ^^^ y)
  | .sshl c d a b => some (c, d, [.op a, .op b], 2, fun x y _ => x <<< (y.toNat % 32))
  | .sshr c d a b => some (c, d, [.op a, .op b], 2, fun x y _ => BitVec.ofNat 32 (x.toNat / 2 ^ (y.toNat % 32)))
  | .ssra c d a b => some (c, d, [.op a, .op b], 2, fun x y _ => BitVec.ofInt 32 (x.toInt / 2 ^ (y.toNat % 32)))
  | .smin c d a b => some (c, d, [.op a, .op b], 2, fun x y _ => if x.toInt ≤ y.toInt then x else y)
  | .smax c d a b => some (c, d, [.op a, .op b], 2, fun x y _ => if x.toInt ≤ y.toInt then y else x)
  | .sminu c d a b => some (c, d, [.op a, .op b], 2, fun x y _ => if x.toNat ≤ y.toNat then x else y)
  | .smaxu c d a b => some (c, d, [.op a, .op b], 2, fun x y _ => if x.toNat ≤ y.toNat then y else x)
  | .saddi c d a i => some (c, d, [.op a, .const (i.signExtend 32)], 2, fun x y _ => x + y)
  | .sandi c d a i => some (c, d, [.op a, .const (i.signExtend 32)], 2, fun x y _ => x &&& y)
  | .sori c d a i => some (c, d, [.op a, .const (i.signExtend 32)], 2, fun x y _ => x ||| y)
  | .sxori c d a i => some (c, d, [.op a, .const (i.signExtend 32)], 2, fun x y _ => x ^^^ y)
  | .sshli c d a i => some (c, d, [.op a], 2, fun x _ _ => x <<< i.toNat)
  | .sshri c d a i => some (c, d, [.op a], 2, fun x _ _ => BitVec.ofNat 32 (x.toNat / 2 ^ i.toNat))
  | .ssrai c d a i => some (c, d, [.op a], 2, fun x _ _ => BitVec.ofInt 32 (x.toInt / 2 ^ i.toNat))
  | .sli c d i => some (c, d, [.const (i.signExtend 32)], 2, fun x _ _ => x)
  | .slui c d i => some (c, d, [], 2, fun _ _ old => BitVec.ofNat 32 (i.toNat * 4096 + old.toNat % 4096))
  | .smov c d a => some (c, d, [.op a], 2, fun x _ _ => x)
  | .sclz c d a => some (c, d, [.op a], 2, fun x _ _ =>
      BitVec.ofNat 32 (((List.range 32).find? fun n => x.getLsbD (31 - n)).getD 32))
  | .spopc c d a => some (c, d, [.op a], 2, fun x _ _ => BitVec.ofNat 32 ((List.range 32).countP fun k => x.getLsbD k))
  | .sbfe c d a len pos => some (c, d, [.op a], 2, fun x _ _ =>
      BitVec.ofNat 32 (x.toNat / 2 ^ pos.toNat % 2 ^ (len.toNat + 1)))
  | _ => none

/-- The value of the n-th source of a word that reads no port. -/
def srcVal (w : Wave) (srcs : List SSrc) (n : Nat) : Word :=
  match srcs[n]? with
  | some (.op (.s r)) => SMap.get w.s r.toNat
  | some (.const x) => x
  | _ => 0

/-- No source is a message port. -/
def noPorts (srcs : List SSrc) : Prop := ∀ o ∈ srcs, ∀ p, o ≠ .op (.n p)

/-- A sleeping run of the wave: members, its word's PC, what it waits for. -/
def SleepsOn (w x : Wave) (run : Lanes) (pc : Word) (wait : Wait) (setf : BitVec 4) : Prop :=
  ∃ z, x.sleepers = w.sleepers ++ [z] ∧ z.members = run ∧ z.pc = pc ∧ z.wait = wait ∧ z.flag = setf ∧
    z.order = w.nextOrder ∧ x.nextOrder = w.nextOrder + 1

/-- The threads of a set are in a state, every other launched thread in the state it had. -/
def Enter (w x : Wave) (ls : Lanes) (st : ThreadState) : Prop :=
  x.threads = w.threads.map fun e => if ls.getLsbD e.1 then (e.1, st) else e

/-! Condition bits and masks. -/

/-- The lanes of a set for which a test holds of some, of all. -/
def someLane (p : Nat → Bool) : Bool := (List.range 64).any p
def allLanes (p : Nat → Bool) : Bool := (List.range 64).all p

/-- The compares of R47. -/
def compares (cc : IntCC) (x y : Word) : Bool :=
  match cc with
  | .eq => decide (x = y)
  | .ne => decide (x ≠ y)
  | .lt => decide (x.toInt < y.toInt)
  | .le => decide (x.toInt ≤ y.toInt)
  | .gt => decide (y.toInt < x.toInt)
  | .ge => decide (y.toInt ≤ x.toInt)
  | .ltu => decide (x.toNat < y.toNat)
  | .leu => decide (x.toNat ≤ y.toNat)
  | .gtu => decide (y.toNat < x.toNat)
  | .geu => decide (y.toNat ≤ x.toNat)

/-- The condition-bit words: control, destination, latency, and the value from the wave and the enabled lanes. -/
def condForm : Instr → Option (Ctl × BitVec 4 × Nat × (Wave → Lanes → Bool))
  | .qany c q a => some (c, q, 3, fun w en => someLane fun l => en.getLsbD l && (w.rm a).getLsbD l)
  | .qall c q a => some (c, q, 3, fun w en => allLanes fun l => !en.getLsbD l || (w.rm a).getLsbD l)
  | .qnone c q a => some (c, q, 3, fun w en => allLanes fun l => !en.getLsbD l || !(w.rm a).getLsbD l)
  | .qcmp c q cc a b => some (c, q, 2, fun w _ => compares cc (w.rs a) (w.rs b))
  | .qcmpi c q cc a i => some (c, q, 2, fun w _ => compares cc (w.rs a) (i.signExtend 32))
  | .qop c q a b o => some (c, q, 2, fun w _ =>
      match o with
      | .and => w.rq a && w.rq b
      | .or => w.rq a || w.rq b
      | .xor => Bool.xor (w.rq a) (w.rq b)
      | .andn => w.rq a && !w.rq b)
  | _ => none

/-- The mask words: control, destination, and the bit of each lane from the wave and the enabled lanes. -/
def maskForm : Instr → Option (Ctl × MReg × (Wave → Lanes → Nat → Bool))
  | .mand c d a b => some (c, d, fun w _ l => (w.rm a).getLsbD l && (w.rm b).getLsbD l)
  | .mor c d a b => some (c, d, fun w _ l => (w.rm a).getLsbD l || (w.rm b).getLsbD l)
  | .mxor c d a b => some (c, d, fun w _ l => Bool.xor ((w.rm a).getLsbD l) ((w.rm b).getLsbD l))
  | .mandn c d a b => some (c, d, fun w _ l => (w.rm a).getLsbD l && !(w.rm b).getLsbD l)
  | .mnot c d a => some (c, d, fun w _ l => !(w.rm a).getLsbD l)
  | .mfroms c d a => some (c, d, fun w _ l =>
      if l < 32 then (SMap.get w.s a.toNat).getLsbD l else (SMap.get w.s (a.toNat + 1)).getLsbD (l - 32))
  | .elect c d => some (c, d, fun _ en l => en.getLsbD l && (List.range l).all fun k => !en.getLsbD k)
  | _ => none

/-- The words that write scalars from masks or pairs: control, destination, and the values of S[d] and, when there is a
second, S[d+1]. -/
def toScalarForm : Instr → Option (Ctl × SReg × (Wave → Word) × Option (Wave → Word))
  | .mtos c d a => some (c, d, fun w => (w.rm a).extractLsb' 0 32, some fun w => (w.rm a).extractLsb' 32 32)
  | .mpopc c d a => some (c, d, fun w => BitVec.ofNat 32 ((List.range 64).countP fun l => (w.rm a).getLsbD l), none)
  | .mffs c d a => some (c, d, fun w =>
      BitVec.ofNat 32 (((List.range 64).find? fun l => (w.rm a).getLsbD l).getD 64), none)
  | .saddp c d a b => some (c, d, fun w => w.rs a + w.rs b, some fun w =>
      SMap.get w.s (a.toNat + 1) + SMap.get w.s (b.toNat + 1) +
        if 2 ^ 32 ≤ (w.rs a).toNat + (w.rs b).toNat then 1 else 0)
  | _ => none

/-! Special registers. -/

/-- What a lane of the wave reads of the special register of a number (R31, R32); none for an unassigned number. -/
def special (s : State) (w : Wave) (l : Nat) : Nat → Option Word
  | 0x000 => some (BitVec.ofNat 32 l)
  | 0x001 => some (BitVec.ofNat 32 (64 * w.waveid.toNat + l))
  | 0x002 => some w.waveid
  | 0x003 => some w.gidx
  | 0x004 => some w.ngroups
  | 0x005 => some w.cidx
  | 0x006 => some (BitVec.ofNat 32 (w.core % 12))
  | 0x007 => some (BitVec.ofNat 32 (w.core / 12 % 12))
  | 0x008 => some (BitVec.ofNat 32 (w.core / 144))
  | 0x010 => some ((s.die (w.core / 144)).counter.extractLsb' 0 32)
  | 0x011 => some (match w.capture with
      | some x => x.extractLsb' 32 32
      | none => (s.die (w.core / 144)).counter.extractLsb' 32 32)
  | 0x018 => some w.fpctl
  | 0x019 => some w.fpstat
  | 0x020 => some w.prio
  | 0x021 => some w.age
  | 0x028 => some w.trapcause
  | 0x029 => some (w.trapaddr.extractLsb' 0 32)
  | 0x02A => some (w.trapaddr.extractLsb' 32 32)
  | 0x02B => some w.trappc
  | 0x02C => some w.tfault
  | 0x030 => some (BitVec.ofNat 32 (w.codebase.toNat / 4096 % 2 ^ 20 * 4096))
  | 0x031 => some (BitVec.ofNat 32 (w.codebase.toNat / 2 ^ 32 % 2 ^ 25))
  | 0x032 => some w.localbase
  | 0x033 => some w.localsize
  | 0x038 => some w.late
  | 0x039 => some w.waitovf
  | 0x03A => some w.rngstream
  | 0x040 => some (s.fabric.featacc.extractLsb' 0 32)
  | 0x041 => some (s.fabric.featacc.extractLsb' 32 32)
  | _ => none

/-- What a write of a special register stores (R31, R33, R34, R117). -/
def filtered (s : State) (w : Wave) (n : Nat) (x : Word) : Word :=
  match n with
  | 0x018 =>
    let drm := x.toNat % 8
    let keep := if drm = 6 ∨ drm = 7 ∨ (drm = 5 ∧ s.fabric.featacc.getLsbD 7 = false) then 0 else drm
    BitVec.ofNat 32 (x.toNat / 256 % 32 * 256 + keep)
  | 0x019 => BitVec.ofNat 32 (x.toNat % 32)
  | 0x020 => BitVec.ofNat 32 (if w.ceiling.toNat < x.toNat % 256 then w.ceiling.toNat else x.toNat % 256)
  | 0x021 => BitVec.ofNat 32 (if x.toNat % 65536 < 64 then 64 else x.toNat % 65536)
  | 0x02A => BitVec.ofNat 32 (x.toNat % 2 ^ 25)
  | _ => x

/-- The words that write a special register: control, number, latency, and the value stored. -/
def specialForm : Instr → Option (Ctl × Nat × Nat × (State → Wave → Word))
  | .swr c a n => some (c, n.toNat, 4, fun s w => filtered s w n.toNat (w.rs a))
  | .setprio c i => some (c, 0x020, 2, fun s w => filtered s w 0x020 (i.setWidth 32))
  | _ => none

/-- The fields of the writable special registers. -/
def withSpecials (w x : Wave) : Wave :=
  { x with fpctl := w.fpctl, fpstat := w.fpstat, prio := w.prio, age := w.age, trapcause := w.trapcause,
           trapaddr := w.trapaddr, trappc := w.trappc, late := w.late, waitovf := w.waitovf }

/-! Control. -/

/-- The words that move the whole run and write nothing: control, and the PC the run goes to (R97, R100, R101). -/
def branchForm : Instr → Option (Ctl × (Wave → Word → Word))
  | .nop c => some (c, fun _ pc => pc + 1)
  | .bra c q n off => some (c, fun w pc => if Bool.xor (w.rq q) n then pc + off.signExtend 32 else pc + 1)
  | .jr c a => some (c, fun w _ => w.rs a)
  | _ => none

/-- The words that write a scalar and move the run: control, destination, value, and the PC (R101, R102). -/
def linkForm : Instr → Option (Ctl × SReg × (Wave → Word → Word) × (Wave → Word → Word))
  | .call c d i => some (c, d, fun _ pc => pc + 1, fun _ pc => pc + i.signExtend 32)
  | .loop c d i => some (c, d, fun w _ => w.rs d - 1, fun w pc =>
      if w.rs d = 1 then pc + 1 else pc + i.signExtend 32)
  | _ => none

/-- Where `split` and `jmpv` send each thread of the run (R103, R104). -/
def divergeForm : Instr → Option (Ctl × (Wave → Lanes → Word → Nat → Word))
  | .split c m mn off => some (c, fun w en pc l =>
      if en.getLsbD l && Bool.xor ((w.rm m).getLsbD l) mn then pc + off.signExtend 32 else pc + 1)
  | .jmpv c a => some (c, fun w en pc l => if en.getLsbD l then w.rv a l else pc + 1)
  | _ => none

/-- A thread set that parks: cause and address, in order after the sets before it; the threads leave the ready set
(R23). -/
def ParkedSet (w x : Wave) (ls : Lanes) (pc : Word) (cause : Cause) (system : Bool) (addr : BitVec 64) : Prop :=
  Enter w x ls .parked ∧ x.nextOrder = w.nextOrder + 1 ∧
    ∃ p, x.parked = w.parked ++ [p] ∧ p.members = ls ∧ p.pc = pc ∧ p.cause = cause ∧ p.system = system ∧
      p.addr = addr ∧ p.order = w.nextOrder ∧ p.active = false

/-- Nothing of the wave differs but its thread states and parked sets. -/
def SameButParked (w x : Wave) : Prop :=
  { x with threads := w.threads, parked := w.parked, nextOrder := w.nextOrder } = w

/-- A user-handled trap can be delivered: the kernel has a handler, and no thread of the run stands between a delivery
and its `rte` (R25, R180). -/
def Handled (w : Wave) (run : Lanes) : Prop := w.trapVec ≠ 0xFFFFFFFF#32 ∧ w.activeMembers &&& run = 0

/-- The words that raise a trap: control, cause, code. -/
def trapForm : Instr → Option (Ctl × Cause × BitVec 16)
  | .trap c code => some (c, .softTrap, code)
  | .brk c code => some (c, .breakpoint, code)
  | _ => none

/-- The trap set of a context's breakpoints is the resident kernel's (R168). -/
def debugs (s : State) (w : Wave) : Bool := (s.ctlw w.pasid).getLsbD 2

/-- The threads that a settled `sync` lets go: when every launched thread is syncing or has exited, the syncing threads
at the least PC (R19). -/
def releasedBySync (w : Wave) (l : Nat) : Bool :=
  let sy := w.lanesIn .syncing
  decide (sy ≠ 0 ∧ sy ||| w.lanesIn .exited = w.launched) && sy.getLsbD l &&
    (List.range 64).all fun k => !sy.getLsbD k || decide ((w.pcOf l).toNat ≤ (w.pcOf k).toNat)

/-! Vector words. -/

/-- The lanes of the run are launched. -/
def Launched (s : State) (run : Lanes) : Prop := run &&& ~~~(cw s).launched = 0

/-- Register r + k in a lane. -/
def rvAt (w : Wave) (r : VReg) (k l : Nat) : Word := w.rv (BitVec.ofNat 10 (r.toNat + k)) l

/-- Byte k of a word as a signed number. -/
def signedByte (x : Word) (k : Nat) : Int :=
  let b := x.toNat / 256 ^ k % 256
  if b < 128 then Int.ofNat b else Int.ofNat b - 256

/-- The vector words that write one register in every enabled lane and raise nothing (R125, R126, R139): control,
destination, latency, and the lane's value. -/
def vecForm : Instr → Option (Ctl × VReg × Nat × (Wave → Nat → Word))
  | .vadd c d a b => some (c, d, 4, fun w l => w.rv a l + w.rv b l)
  | .vsub c d a b => some (c, d, 4, fun w l => w.rv a l - w.rv b l)
  | .vmul c d a b => some (c, d, 6, fun w l => w.rv a l * w.rv b l)
  | .vmulh c d a b => some (c, d, 6, fun w l => BitVec.ofInt 32 ((w.rv a l).toInt * (w.rv b l).toInt / 2 ^ 32))
  | .vmulhu c d a b => some (c, d, 6, fun w l => BitVec.ofNat 32 ((w.rv a l).toNat * (w.rv b l).toNat / 2 ^ 32))
  | .vmad c d a b => some (c, d, 6, fun w l => w.rv a l * w.rv b l + w.rv d l)
  | .vand c d a b => some (c, d, 4, fun w l => w.rv a l &&& w.rv b l)
  | .vor c d a b => some (c, d, 4, fun w l => w.rv a l ||| w.rv b l)
  | .vxor c d a b => some (c, d, 4, fun w l => w.rv a l ^^^ w.rv b l)
  | .vshl c d a b => some (c, d, 4, fun w l => w.rv a l <<< ((w.rv b l).toNat % 32))
  | .vshr c d a b => some (c, d, 4, fun w l => BitVec.ofNat 32 ((w.rv a l).toNat / 2 ^ ((w.rv b l).toNat % 32)))
  | .vsra c d a b => some (c, d, 4, fun w l => BitVec.ofInt 32 ((w.rv a l).toInt / 2 ^ ((w.rv b l).toNat % 32)))
  | .vmin c d a b => some (c, d, 4, fun w l => if (w.rv a l).toInt ≤ (w.rv b l).toInt then w.rv a l else w.rv b l)
  | .vmax c d a b => some (c, d, 4, fun w l => if (w.rv a l).toInt ≤ (w.rv b l).toInt then w.rv b l else w.rv a l)
  | .vminu c d a b => some (c, d, 4, fun w l => if (w.rv a l).toNat ≤ (w.rv b l).toNat then w.rv a l else w.rv b l)
  | .vmaxu c d a b => some (c, d, 4, fun w l => if (w.rv a l).toNat ≤ (w.rv b l).toNat then w.rv b l else w.rv a l)
  | .vaddi c d a i => some (c, d, 4, fun w l => w.rv a l + i.signExtend 32)
  | .vandi c d a i => some (c, d, 4, fun w l => w.rv a l &&& i.signExtend 32)
  | .vori c d a i => some (c, d, 4, fun w l => w.rv a l ||| i.signExtend 32)
  | .vxori c d a i => some (c, d, 4, fun w l => w.rv a l ^^^ i.signExtend 32)
  | .vshli c d a i => some (c, d, 4, fun w l => w.rv a l <<< i.toNat)
  | .vshri c d a i => some (c, d, 4, fun w l => BitVec.ofNat 32 ((w.rv a l).toNat / 2 ^ i.toNat))
  | .vsrai c d a i => some (c, d, 4, fun w l => BitVec.ofInt 32 ((w.rv a l).toInt / 2 ^ i.toNat))
  | .vli c d i => some (c, d, 4, fun _ _ => i.signExtend 32)
  | .vmov c d a => some (c, d, 4, fun w l => w.rv a l)
  | .vmovs c d a => some (c, d, 4, fun w _ => w.rs a)
  | .vclz c d a => some (c, d, 4, fun w l =>
      BitVec.ofNat 32 (((List.range 32).find? fun n => (w.rv a l).getLsbD (31 - n)).getD 32))
  | .vpopc c d a => some (c, d, 4, fun w l => BitVec.ofNat 32 ((List.range 32).countP fun k => (w.rv a l).getLsbD k))
  | .vbfe c d a len pos => some (c, d, 4, fun w l =>
      BitVec.ofNat 32 ((w.rv a l).toNat / 2 ^ pos.toNat % 2 ^ (len.toNat + 1)))
  | .vdot4 c d a b => some (c, d, 6, fun w l =>
      w.rv d l + BitVec.ofInt 32 (signedByte (w.rv a l) 0 * signedByte (w.rv b l) 0 +
        signedByte (w.rv a l) 1 * signedByte (w.rv b l) 1 + signedByte (w.rv a l) 2 * signedByte (w.rv b l) 2 +
        signedByte (w.rv a l) 3 * signedByte (w.rv b l) 3))
  | .vperm c d a b => some (c, d, 8, fun w l => w.rv a ((w.rv b l).toNat % 64))
  | .vshfl c d a mode k => some (c, d, 8, fun w l =>
      if mode = 0 then w.rv a (l ^^^ k.toNat)
      else if mode = 1 then w.rv a (if l < k.toNat then l else l - k.toNat)
      else if mode = 2 then w.rv a (if 63 < l + k.toNat then l else l + k.toNat)
      else w.rv a ((l + k.toNat) % 64))
  | .vbcast c d a n => some (c, d, 8, fun w _ => w.rv a n.toNat)
  | .vhperm c d a pat => some (c, d, 8, fun w l => w.rv a (l / 4 * 4 + pat.toNat / 4 ^ (l % 4) % 4))
  | _ => none

/-- The vector words that write a bit of a mask in every enabled lane and raise nothing (R128). -/
def maskedForm : Instr → Option (Ctl × MReg × (Wave → Nat → Bool))
  | .vcmp c d cc a b => some (c, d, fun w l => compares cc (w.rv a l) (w.rv b l))
  | .vcmpi c d cc a i => some (c, d, fun w l => compares cc (w.rv a l) (i.signExtend 32))
  | _ => none

/-! Floating words. -/

/-- An exact result rounded to f32, to nearest with ties to even (R82, R83). -/
def rounded32 (x : FVal × Flags) : Word × Flags :=
  let r := roundTo fmtF32 .rne false false x.1
  (toF32 r.1, x.2 ||| r.2)

/-- Element k of a register that holds two 16-bit values (R73). -/
def half (F : FloatFmt) (x : Word) (k : Nat) : FVal := F.decode (x.toNat / 65536 ^ k % 65536)

/-- Two exact results rounded to a 16-bit format (R133, R137). -/
def rounded16 (F : FloatFmt) (x y : FVal × Flags) : Word × Flags :=
  let r := roundTo F .rne false false x.1
  let q := roundTo F .rne false false y.1
  (BitVec.ofNat 32 (F.encode r.1 + 65536 * F.encode q.1), x.2 ||| r.2 ||| y.2 ||| q.2)

/-- A word without a prefix computes under RNE, without SAT and FTZ, with its own destination as the addend (R59). -/
def plainEnv (w : Wave) : VEnv := ⟨w, 0, 0, 0, .rne, false, false, none, 0⟩

/-- A lane's value and exceptions; none where the lane raises the illegal-format trap (R136). -/
def laneResult (o : LaneOut) : Option (Word × Flags) := if o.bad then none else some (o.outs.getD 0 0, o.flags)

/-- The vector words that compute with floating values (R129 to R131, R133 to R138): control, destination, latency, and
the lane's value with its exceptions. -/
def floatForm : Instr → Option (Ctl × VReg × Nat × (Wave → Nat → Option (Word × Flags)))
  | .fadd c d a b => some (c, d, 6, fun w l => some (rounded32 (fAdd false (f32 (w.rv a l)) (f32 (w.rv b l)))))
  | .fsub c d a b => some (c, d, 6, fun w l => some (rounded32 (fAdd false (f32 (w.rv a l)) (f32 (w.rv b l)).neg)))
  | .fmul c d a b => some (c, d, 6, fun w l => some (rounded32 (fMul (f32 (w.rv a l)) (f32 (w.rv b l)))))
  | .ffma c d a b => some (c, d, 6, fun w l =>
      some (rounded32 (fFma false (f32 (w.rv a l)) (f32 (w.rv b l)) (f32 (w.rv d l)))))
  | .fmin c d a b => some (c, d, 6, fun w l => some (toF32 (fMin (f32 (w.rv a l)) (f32 (w.rv b l))), 0))
  | .fmax c d a b => some (c, d, 6, fun w l => some (toF32 (fMax (f32 (w.rv a l)) (f32 (w.rv b l))), 0))
  | .fabs c d a => some (c, d, 6, fun w l => some (toF32 (f32 (w.rv a l)).abs, 0))
  | .fneg c d a => some (c, d, 6, fun w l => some (toF32 (f32 (w.rv a l)).neg, 0))
  | .fcpsgn c d a b => some (c, d, 6, fun w l => some (copySign (f32 (w.rv a l)) (w.rv b l), 0))
  | .frnd c d a => some (c, d, 6, fun w l => laneResult ((plainEnv w).roundToWhole l (f32 (w.rv a l))))
  | .hadd c d a b => some (c, d, 6, fun w l =>
      let f k := fAdd false (half fmtF16 (w.rv a l) k) (half fmtF16 (w.rv b l) k)
      some (rounded16 fmtF16 (f 0) (f 1)))
  | .hmul c d a b => some (c, d, 6, fun w l =>
      let f k := fMul (half fmtF16 (w.rv a l) k) (half fmtF16 (w.rv b l) k)
      some (rounded16 fmtF16 (f 0) (f 1)))
  | .hfma c d a b => some (c, d, 6, fun w l =>
      let f k := fFma false (half fmtF16 (w.rv a l) k) (half fmtF16 (w.rv b l) k) (half fmtF16 (w.rv d l) k)
      some (rounded16 fmtF16 (f 0) (f 1)))
  | .badd c d a b => some (c, d, 6, fun w l =>
      let f k := fAdd false (half fmtBf16 (w.rv a l) k) (half fmtBf16 (w.rv b l) k)
      some (rounded16 fmtBf16 (f 0) (f 1)))
  | .bmul c d a b => some (c, d, 6, fun w l =>
      let f k := fMul (half fmtBf16 (w.rv a l) k) (half fmtBf16 (w.rv b l) k)
      some (rounded16 fmtBf16 (f 0) (f 1)))
  | .bfma c d a b => some (c, d, 6, fun w l =>
      let f k := fFma false (half fmtBf16 (w.rv a l) k) (half fmtBf16 (w.rv b l) k) (half fmtBf16 (w.rv d l) k)
      some (rounded16 fmtBf16 (f 0) (f 1)))
  | .fdot2h c d a b => some (c, d, 6, fun w l =>
      some (rounded32 ((plainEnv w).dot2 fmtF16 a b (f32 (w.rv d l)) l)))
  | .fdot2b c d a b => some (c, d, 6, fun w l =>
      some (rounded32 ((plainEnv w).dot2 fmtBf16 a b (f32 (w.rv d l)) l)))
  | .cvt c d a dst src => some (c, d, 6, fun w l => convert dst src .rne false false (w.rv a l))
  | .packh c d a b => some (c, d, 6, fun w l => some (rounded16 fmtF16 (f32 (w.rv a l), 0) (f32 (w.rv b l), 0)))
  | .packb c d a b => some (c, d, 6, fun w l => some (rounded16 fmtBf16 (f32 (w.rv a l), 0) (f32 (w.rv b l), 0)))
  | .frcp c d a => some (c, d, 14, fun w l => laneResult ((plainEnv w).special .rcp l (w.rv a l)))
  | .frsq c d a => some (c, d, 14, fun w l => laneResult ((plainEnv w).special .rsq l (w.rv a l)))
  | .fsqrt c d a => some (c, d, 14, fun w l => laneResult ((plainEnv w).special .sqrt l (w.rv a l)))
  | .fex2 c d a => some (c, d, 14, fun w l => laneResult ((plainEnv w).special .ex2 l (w.rv a l)))
  | .flg2 c d a => some (c, d, 14, fun w l => laneResult ((plainEnv w).special .lg2 l (w.rv a l)))
  | .fsinp c d a => some (c, d, 14, fun w l => laneResult ((plainEnv w).special .sinp l (w.rv a l)))
  | .fcosp c d a => some (c, d, 14, fun w l => laneResult ((plainEnv w).special .cosp l (w.rv a l)))
  | .ftanh c d a => some (c, d, 14, fun w l => laneResult ((plainEnv w).special .tanh l (w.rv a l)))
  | _ => none

/-- The exceptions that sr.fpctl traps (R33). -/
def enables (w : Wave) : BitVec 5 := w.fpctl.extractLsb' 8 5

/-- Bit k of sr.fpstat after some lanes raised their exceptions: it stays set until software writes it (R34). -/
def Accrues (w x : Wave) (raised : Nat → Bool) : Prop :=
  ∀ k, k < 32 → x.fpstat.getLsbD k = (w.fpstat.getLsbD k || (decide (k < 5) && raised k))

/-- An ordered compare of two f32 values, and whether it raises IV (R47, R132). -/
def floatCompares (cc : FloatCC) (x y : FVal) : Bool × Bool :=
  let un := x.isNaN || y.isNaN
  match cc with
  | .oeq => (fOrd x y == some .eq, false)
  | .une => (fOrd x y != some .eq, false)
  | .olt => (fOrd x y == some .lt, un)
  | .ole => (fOrd x y == some .lt || fOrd x y == some .eq, un)
  | .ogt => (fOrd x y == some .gt, un)
  | .oge => (fOrd x y == some .gt || fOrd x y == some .eq, un)
  | .ord => (!un, false)
  | .uno => (un, false)

/-- The values of the enabled lanes, in ascending lane order. -/
def laneValues (w : Wave) (en : Lanes) (a : VReg) : List Word :=
  ((List.range 64).filter fun l => en.getLsbD l).map fun l => w.rv a l

/-- The reduction of some values (R140), and its exceptions. -/
def reduced (op : RedOp) (xs : List Word) : Word × Flags :=
  match op with
  | .add => (BitVec.ofInt 32 (xs.map fun x => x.toInt).sum, 0)
  | .min => (xs.foldl (fun a b => if a.toInt ≤ b.toInt then a else b) (xs.headD 0), 0)
  | .max => (xs.foldl (fun a b => if a.toInt ≤ b.toInt then b else a) (xs.headD 0), 0)
  | .minu => (xs.foldl (fun a b => if a.toNat ≤ b.toNat then a else b) (xs.headD 0), 0)
  | .maxu => (xs.foldl (fun a b => if a.toNat ≤ b.toNat then b else a) (xs.headD 0), 0)
  | .and => (xs.foldl (fun a b => a &&& b) (BitVec.allOnes 32), 0)
  | .or => (xs.foldl (fun a b => a ||| b) 0, 0)
  | .xor => (xs.foldl (fun a b => a ^^^ b) 0, 0)
  | .fadd => rounded32 (exactSum false (xs.map f32))
  | .fmin => (toF32 ((xs.map f32).foldl fMin .nan), 0)
  | .fmax => (toF32 ((xs.map f32).foldl fMax .nan), 0)

/-- A scan's value before its first lane (R141). -/
def identity : RedOp → Word
  | .min => 0x7FFFFFFF
  | .max => 0x80000000
  | .minu => 0xFFFFFFFF
  | .and => 0xFFFFFFFF
  | .fmin => 0x7F800000
  | .fmax => 0xFF800000
  | _ => 0

/-- One step of a scan (R141): the first lane's value, or the running value with the next. -/
def scanStep (op : RedOp) (acc : Option Word) (x : Word) : Word × Flags :=
  match op, acc with
  | .fadd, none => rounded32 (f32 x, 0)
  | .fadd, some p => rounded32 (fAdd false (f32 p) (f32 x))
  | .fmin, none => (toF32 (f32 x), 0)
  | .fmin, some p => (toF32 (fMin (f32 p) (f32 x)), 0)
  | .fmax, none => (toF32 (f32 x), 0)
  | .fmax, some p => (toF32 (fMax (f32 p) (f32 x)), 0)
  | _, none => (x, 0)
  | op, some p => reduced op [p, x]

/-- The running value after some values, and the exceptions on the way. -/
def scanned (op : RedOp) (xs : List Word) : Option Word × Flags :=
  xs.foldl (fun z x => (some (scanStep op z.1 x).1, z.2 ||| (scanStep op z.1 x).2)) (none, 0)

/-- The draw of a lane with `n` draws taken (R95). -/
def drawOf (seed : BitVec 64) (n : Word) (l : Nat) : Word :=
  let z0 := seed + BitVec.ofNat 64 ((n.toNat * 64 + l + 1) * 0x9E3779B97F4A7C15)
  let z1 := (z0 ^^^ (z0 >>> 30)) * 0xBF58476D1CE4E5B9#64
  let z2 := (z1 ^^^ (z1 >>> 27)) * 0x94D049BB133111EB#64
  (z2 ^^^ (z2 >>> 31)).extractLsb' 32 32

/-- The words that take a draw in every enabled lane (R96, R142). -/
def drawForm : Instr → Option (Ctl × VReg × (Word → Word))
  | .vrand c d => some (c, d, fun x => x)
  | .vrandf c d => some (c, d, fun x => toF32 (.fin false (x.toNat / 256) (2 ^ 24)))
  | _ => none

/-! Dual words and prefixed pairs. -/

/-- What a slot computes from its destination and its source (R53): latency, value and exceptions. -/
def slotForm : Slot → Nat × (Word → Word → Option (Word × Flags))
  | .vmov => (4, fun _ a => some (a, 0))
  | .vadd => (4, fun d a => some (d + a, 0))
  | .vsub => (4, fun d a => some (d - a, 0))
  | .vand => (4, fun d a => some (d &&& a, 0))
  | .vor => (4, fun d a => some (d ||| a, 0))
  | .vxor => (4, fun d a => some (d ^^^ a, 0))
  | .vmin => (4, fun d a => some (if d.toInt ≤ a.toInt then d else a, 0))
  | .vmax => (4, fun d a => some (if d.toInt ≤ a.toInt then a else d, 0))
  | .vminu => (4, fun d a => some (if d.toNat ≤ a.toNat then d else a, 0))
  | .vmaxu => (4, fun d a => some (if d.toNat ≤ a.toNat then a else d, 0))
  | .vmul => (6, fun d a => some (d * a, 0))
  | .vshl => (4, fun d a => some (d <<< (a.toNat % 32), 0))
  | .vshr => (4, fun d a => some (BitVec.ofNat 32 (d.toNat / 2 ^ (a.toNat % 32)), 0))
  | .vsra => (4, fun d a => some (BitVec.ofInt 32 (d.toInt / 2 ^ (a.toNat % 32)), 0))
  | .fadd => (6, fun d a => some (rounded32 (fAdd false (f32 d) (f32 a))))
  | .fsub => (6, fun d a => some (rounded32 (fAdd false (f32 d) (f32 a).neg)))
  | .fmul => (6, fun d a => some (rounded32 (fMul (f32 d) (f32 a))))
  | .fmin => (6, fun d a => some (toF32 (fMin (f32 d) (f32 a)), 0))
  | .fmax => (6, fun d a => some (toF32 (fMax (f32 d) (f32 a)), 0))
  | .hadd => (6, fun d a => some (rounded16 fmtF16 (fAdd false (half fmtF16 d 0) (half fmtF16 a 0))
      (fAdd false (half fmtF16 d 1) (half fmtF16 a 1))))
  | .hmul => (6, fun d a => some (rounded16 fmtF16 (fMul (half fmtF16 d 0) (half fmtF16 a 0))
      (fMul (half fmtF16 d 1) (half fmtF16 a 1))))
  | .badd => (6, fun d a => some (rounded16 fmtBf16 (fAdd false (half fmtBf16 d 0) (half fmtBf16 a 0))
      (fAdd false (half fmtBf16 d 1) (half fmtBf16 a 1))))
  | .bmul => (6, fun d a => some (rounded16 fmtBf16 (fMul (half fmtBf16 d 0) (half fmtBf16 a 0))
      (fMul (half fmtBf16 d 1) (half fmtBf16 a 1))))
  | .fabs => (6, fun _ a => some (toF32 (f32 a).abs, 0))
  | .fneg => (6, fun _ a => some (toF32 (f32 a).neg, 0))
  | .vnot => (4, fun _ a => some (~~~a, 0))
  | .cvtF32I32 => (6, fun _ a => convert .f32 .i32 .rne false false a)
  | .cvtI32F32 => (6, fun _ a => convert .i32 .f32 .rtz true false a)

/-- The register that a slot names (R52). -/
def low (r : BitVec 8) : VReg := BitVec.ofNat 10 r.toNat

/-- A dual word's lanes: the run, or under P those that m1 enables (R52). -/
def dualLanes (w : Wave) (run : Lanes) (p : Bool) : Lanes := if p then run &&& w.rm 1 else run

/-- The lanes that a prefix's mask enables (R56). -/
def pairLanes (w : Wave) (run : Lanes) (x : Pfx) : Lanes :=
  run &&& (if x.neg then ~~~w.rm x.mask else w.rm x.mask)

/-- A signed result that wraps, or clamps under SAT (R58). -/
def clamped (sat : Bool) (n : Int) : Word :=
  BitVec.ofInt 32 (if sat then (if n < -(2 ^ 31) then -(2 ^ 31) else if 2 ^ 31 - 1 < n then 2 ^ 31 - 1 else n) else n)

/-- The rounding mode that a prefix names, the wave's under `dyn`; none for the stochastic one (R33, R56, R82). -/
def modeOf (w : Wave) (r : Rnd) : Option RMode :=
  match (if r = .dyn then w.drm else r) with
  | .rne => some .rne
  | .rtz => some .rtz
  | .rdn => some .rdn
  | .rup => some .rup
  | .rna => some .rna
  | _ => none

/-- An f32 operation under a prefix: operands flushed under FTZ, one rounding in the prefix's mode (R58, R83, R86). -/
def prefixed32 (x : Pfx) (m : RMode) (v : FVal × Flags) : Word × Flags :=
  let r := roundTo fmtF32 m x.sat x.ftz v.1
  (toF32 r.1, v.2 ||| r.2)

/-- What a prefix changes of a word (R56, R58): header, destination, latency, and the value of an enabled lane. -/
def pairForm (x : Pfx) (m : RMode) : Instr → Option (Hdr × VReg × Nat × (Wave → Nat → Word × Flags))
  | .vadd c d a b => some (c.h, d, 4, fun w l => (clamped x.sat ((w.rv a l).toInt + (w.rv b l).toInt), 0))
  | .vsub c d a b => some (c.h, d, 4, fun w l => (clamped x.sat ((w.rv a l).toInt - (w.rv b l).toInt), 0))
  | .vmul c d a b => some (c.h, d, 6, fun w l => (clamped x.sat ((w.rv a l).toInt * (w.rv b l).toInt), 0))
  | .vmad c d a b => some (c.h, d, 6, fun w l =>
      (clamped x.sat ((w.rv a l).toInt * (w.rv b l).toInt + (w.rv x.c l).toInt), 0))
  | .vand c d a b => some (c.h, d, 4, fun w l => (w.rv a l &&& w.rv b l, 0))
  | .vmov c d a => some (c.h, d, 4, fun w l => (w.rv a l, 0))
  | .fadd c d a b => some (c.h, d, 6, fun w l => prefixed32 x m
      (fAdd (m == .rdn) (ftzIn x.ftz (f32 (w.rv a l))) (ftzIn x.ftz (f32 (w.rv b l)))))
  | .fmul c d a b => some (c.h, d, 6, fun w l => prefixed32 x m
      (fMul (ftzIn x.ftz (f32 (w.rv a l))) (ftzIn x.ftz (f32 (w.rv b l)))))
  | .ffma c d a b => some (c.h, d, 6, fun w l => prefixed32 x m
      (fFma (m == .rdn) (ftzIn x.ftz (f32 (w.rv a l))) (ftzIn x.ftz (f32 (w.rv b l))) (ftzIn x.ftz (f32 (w.rv x.c l)))))
  | _ => none

/-! Operations and parts of the machine. -/

/-- An operation is over: it is in flight no longer and its flag has fallen; no other operation of the wave has
changed (R39). -/
def Ends (w x : Wave) (o : Nat) (flag : BitVec 4) : Prop :=
  AMap.find x.flights o = none ∧ (∀ p, p ≠ o → AMap.find x.flights p = AMap.find w.flights p) ∧
    ∀ i < 12, x.flag i = if i = flag.toNat ∧ w.flag i ≠ 0 then w.flag i - 1 else w.flag i

/-- Of the whole machine only one group, core, cohort or die differs. -/
def OnlyGroup (s t : State) (g : Nat) : Prop := { t with groups := s.groups } = s ∧ ∀ j, j ≠ g → t.group j = s.group j
def OnlyCore (s t : State) (c : Nat) : Prop := { t with cores := s.cores } = s ∧ ∀ j, j ≠ c → t.core j = s.core j
def OnlyCohort (s t : State) (c : Nat) : Prop :=
  { t with cohorts := s.cohorts } = s ∧ ∀ j, j ≠ c → t.cohort j = s.cohort j
def OnlyDie (s t : State) (d : Nat) : Prop := { t with dies := s.dies } = s ∧ ∀ j, j ≠ d → t.die j = s.die j

/-- Of the whole machine only the clusters differ, and in them only one queue. -/
def OnlyQueue (s t : State) (cl qw : Nat) : Prop :=
  { t with clusters := s.clusters } = s ∧ (∀ k q, k ≠ cl ∨ q ≠ qw → t.queue k q = s.queue k q) ∧
    ∀ k, { t.cluster k with queues := (s.cluster k).queues } = s.cluster k

/-- The machine with its waves, or its clusters, put back. -/
def wavesBack (s t : State) : State := { t with waves := s.waves }
def clustersBack (s t : State) : State := { t with clusters := s.clusters }

/-- A run of the wave sleeps and nothing else of the wave changes but its place and its flag. -/
def SameButSleep (w x : Wave) : Prop :=
  { x with threads := w.threads, sleepers := w.sleepers, nextOrder := w.nextOrder, waitovf := w.waitovf,
           pcs := w.pcs, f := w.f } = w

/-- A run goes to sleep at the word at `pc`, its threads' PCs at `resume`, with what it waits for (R13, R177). -/
def Sleeps (s t : State) (c : Ctl) (run : Lanes) (pc resume : Word) (wait : Wait) : Prop :=
  OnlyWave s t s.cur ∧ Enter (cw s) (cw t) run .sleeping ∧ SleepsOn (cw s) (cw t) run pc wait c.h.setf ∧
    Moves (cw s) (cw t) run resume ∧ Raises (cw s) (cw t) c.h.setf ∧ SameButSleep (cw s) (cw t)

/-- The run parks at the word, with nothing else changed (R23). -/
def Parks (s t : State) (ls : Lanes) (pc : Word) (cause : Cause) (system : Bool) (addr : BitVec 64) : Prop :=
  OnlyWave s t s.cur ∧ SameButParked (cw s) (cw t) ∧ ParkedSet (cw s) (cw t) ls pc cause system addr

/-- The target queue of a port (R285). -/
def portQueue (s : State) (p : Port) : FQueue :=
  s.queue (targetCluster ((cw s).port p.toNat).target) (targetQueue ((cw s).port p.toNat).target)

/-- The value of the n-th source when the source at `k` is the message `e`. -/
def srcWith (w : Wave) (srcs : List SSrc) (k : Nat) (e : QEntry) (n : Nat) : Word :=
  if n = k then e.words.getD 1 0 else srcVal w srcs n

/-! Memory words. -/

/-- The per-lane memory words (R150, R153 to R155): control, space, operation, the registers of the addresses and of
the data, and where the second operand of a compare and swap begins. -/
def laneMemForm : Instr → Option (Ctl × Space × FlightKind × VReg × VReg × Nat)
  | .ldvB8z c d a _ sco ord ch => some (c, .global, .load 1 .zero (.v d) ord sco ch, a, d, 0)
  | .ldvB8s c d a _ sco ord ch => some (c, .global, .load 1 .sign (.v d) ord sco ch, a, d, 0)
  | .ldvB16z c d a _ sco ord ch => some (c, .global, .load 2 .zero (.v d) ord sco ch, a, d, 0)
  | .ldvB16s c d a _ sco ord ch => some (c, .global, .load 2 .sign (.v d) ord sco ch, a, d, 0)
  | .ldvB32 c d a _ sco ord ch => some (c, .global, .load 4 .zero (.v d) ord sco ch, a, d, 0)
  | .ldvB64 c d a _ sco ord ch => some (c, .global, .load 8 .zero (.v d) ord sco ch, a, d, 0)
  | .ldvB128 c d a _ sco ord ch => some (c, .global, .load 16 .zero (.v d) ord sco ch, a, d, 0)
  | .stvB8 c d a col sco ord ch => some (c, .global, .store 1 ord sco ch col, a, d, 0)
  | .stvB16 c d a col sco ord ch => some (c, .global, .store 2 ord sco ch col, a, d, 0)
  | .stvB32 c d a col sco ord ch => some (c, .global, .store 4 ord sco ch col, a, d, 0)
  | .stvB64 c d a col sco ord ch => some (c, .global, .store 8 ord sco ch col, a, d, 0)
  | .stvB128 c d a col sco ord ch => some (c, .global, .store 16 ord sco ch col, a, d, 0)
  | .ldlB32 c d a _ sco ord ch => some (c, .local_, .load 4 .zero (.v d) ord sco ch, a, d, 0)
  | .ldlB128 c d a _ sco ord ch => some (c, .local_, .load 16 .zero (.v d) ord sco ch, a, d, 0)
  | .stlB32 c d a col sco ord ch => some (c, .local_, .store 4 ord sco ch col, a, d, 0)
  | .stlB128 c d a col sco ord ch => some (c, .local_, .store 16 ord sco ch col, a, d, 0)
  | .atomAddB32 c d a col sco ord _ => some (c, .global, .rmw 4 (.op .add) (.v d) ord sco col, a, d, 0)
  | .atomMinB32 c d a col sco ord _ => some (c, .global, .rmw 4 (.op .min) (.v d) ord sco col, a, d, 0)
  | .atomMaxB32 c d a col sco ord _ => some (c, .global, .rmw 4 (.op .max) (.v d) ord sco col, a, d, 0)
  | .atomMinuB32 c d a col sco ord _ => some (c, .global, .rmw 4 (.op .minu) (.v d) ord sco col, a, d, 0)
  | .atomMaxuB32 c d a col sco ord _ => some (c, .global, .rmw 4 (.op .maxu) (.v d) ord sco col, a, d, 0)
  | .atomAndB32 c d a col sco ord _ => some (c, .global, .rmw 4 (.op .and) (.v d) ord sco col, a, d, 0)
  | .atomOrB32 c d a col sco ord _ => some (c, .global, .rmw 4 (.op .or) (.v d) ord sco col, a, d, 0)
  | .atomXorB32 c d a col sco ord _ => some (c, .global, .rmw 4 (.op .xor) (.v d) ord sco col, a, d, 0)
  | .atomXchgB32 c d a col sco ord _ => some (c, .global, .rmw 4 (.op .xchg) (.v d) ord sco col, a, d, 0)
  | .casB32 c d a col sco ord _ => some (c, .global, .rmw 4 .cas (.v d) ord sco col, a, d, 1)
  | .atomfAddF32 c d a col sco ord _ => some (c, .global, .rmw 4 .addF32 (.v d) ord sco col, a, d, 0)
  | .atomfAddBf16x2 c d a col sco ord _ => some (c, .global, .rmw 4 .addBf16x2 (.v d) ord sco col, a, d, 0)
  | .atomAddB64 c d a col sco ord _ => some (c, .global, .rmw 8 (.op .add) (.v d) ord sco col, a, d, 0)
  | .atomMinB64 c d a col sco ord _ => some (c, .global, .rmw 8 (.op .min) (.v d) ord sco col, a, d, 0)
  | .atomMaxB64 c d a col sco ord _ => some (c, .global, .rmw 8 (.op .max) (.v d) ord sco col, a, d, 0)
  | .atomMinuB64 c d a col sco ord _ => some (c, .global, .rmw 8 (.op .minu) (.v d) ord sco col, a, d, 0)
  | .atomMaxuB64 c d a col sco ord _ => some (c, .global, .rmw 8 (.op .maxu) (.v d) ord sco col, a, d, 0)
  | .atomAndB64 c d a col sco ord _ => some (c, .global, .rmw 8 (.op .and) (.v d) ord sco col, a, d, 0)
  | .atomOrB64 c d a col sco ord _ => some (c, .global, .rmw 8 (.op .or) (.v d) ord sco col, a, d, 0)
  | .atomXorB64 c d a col sco ord _ => some (c, .global, .rmw 8 (.op .xor) (.v d) ord sco col, a, d, 0)
  | .atomXchgB64 c d a col sco ord _ => some (c, .global, .rmw 8 (.op .xchg) (.v d) ord sco col, a, d, 0)
  | .casB64 c d a col sco ord _ => some (c, .global, .rmw 8 .cas (.v d) ord sco col, a, d, 2)
  | .atomlAddB32 c d a col sco ord _ => some (c, .local_, .rmw 4 (.op .add) (.v d) ord sco col, a, d, 0)
  | .atomlMinB32 c d a col sco ord _ => some (c, .local_, .rmw 4 (.op .min) (.v d) ord sco col, a, d, 0)
  | .atomlMaxB32 c d a col sco ord _ => some (c, .local_, .rmw 4 (.op .max) (.v d) ord sco col, a, d, 0)
  | .atomlMinuB32 c d a col sco ord _ => some (c, .local_, .rmw 4 (.op .minu) (.v d) ord sco col, a, d, 0)
  | .atomlMaxuB32 c d a col sco ord _ => some (c, .local_, .rmw 4 (.op .maxu) (.v d) ord sco col, a, d, 0)
  | .atomlAndB32 c d a col sco ord _ => some (c, .local_, .rmw 4 (.op .and) (.v d) ord sco col, a, d, 0)
  | .atomlOrB32 c d a col sco ord _ => some (c, .local_, .rmw 4 (.op .or) (.v d) ord sco col, a, d, 0)
  | .atomlXorB32 c d a col sco ord _ => some (c, .local_, .rmw 4 (.op .xor) (.v d) ord sco col, a, d, 0)
  | .atomlXchgB32 c d a col sco ord _ => some (c, .local_, .rmw 4 (.op .xchg) (.v d) ord sco col, a, d, 0)
  | .caslB32 c d a col sco ord _ => some (c, .local_, .rmw 4 .cas (.v d) ord sco col, a, d, 1)
  | _ => none

/-- The uniform memory words (R152, R154): control, operation, the scalars of the address and of the data, and where
the second operand of a compare and swap begins. -/
def uniformMemForm : Instr → Option (Ctl × FlightKind × SReg × SReg × Nat)
  | .ldsB32 c d a _ sco ord ch => some (c, .load 4 .zero (.s d) ord sco ch, a, d, 0)
  | .ldsB64 c d a _ sco ord ch => some (c, .load 8 .zero (.s d) ord sco ch, a, d, 0)
  | .ldsB128 c d a _ sco ord ch => some (c, .load 16 .zero (.s d) ord sco ch, a, d, 0)
  | .stsB32 c d a col sco ord ch => some (c, .store 4 ord sco ch col, a, d, 0)
  | .stsB64 c d a col sco ord ch => some (c, .store 8 ord sco ch col, a, d, 0)
  | .atomsAddB32 c d a col sco ord _ => some (c, .rmw 4 (.op .add) (.s d) ord sco col, a, d, 1)
  | .atomsMinB32 c d a col sco ord _ => some (c, .rmw 4 (.op .min) (.s d) ord sco col, a, d, 1)
  | .atomsMaxB32 c d a col sco ord _ => some (c, .rmw 4 (.op .max) (.s d) ord sco col, a, d, 1)
  | .atomsMinuB32 c d a col sco ord _ => some (c, .rmw 4 (.op .minu) (.s d) ord sco col, a, d, 1)
  | .atomsMaxuB32 c d a col sco ord _ => some (c, .rmw 4 (.op .maxu) (.s d) ord sco col, a, d, 1)
  | .atomsAndB32 c d a col sco ord _ => some (c, .rmw 4 (.op .and) (.s d) ord sco col, a, d, 1)
  | .atomsOrB32 c d a col sco ord _ => some (c, .rmw 4 (.op .or) (.s d) ord sco col, a, d, 1)
  | .atomsXorB32 c d a col sco ord _ => some (c, .rmw 4 (.op .xor) (.s d) ord sco col, a, d, 1)
  | .atomsXchgB32 c d a col sco ord _ => some (c, .rmw 4 (.op .xchg) (.s d) ord sco col, a, d, 1)
  | .cassB32 c d a col sco ord _ => some (c, .rmw 4 .cas (.s d) ord sco col, a, d, 1)
  | _ => none

/-- The lines of a cache-control word: what it does to them (R158). -/
def lineForm : Instr → Option (Ctl × FlightKind × VReg)
  | .cwb c a _ _ _ => some (c, .cache true false false false false, a)
  | .cinv c a _ _ ch => some (c, if ch = .roPath then .cache false false true false false
      else .cache true true false false false, a)
  | _ => none

/-- A load or a store. -/
def asks : FlightKind → Access
  | .load .. => .load
  | .cache .. => .load
  | _ => .store

/-- A read-modify-write reads what it asks to store to (R153, R407). -/
def isRmw : FlightKind → Bool
  | .rmw .. => true
  | _ => false

/-- The address that a lane's registers hold (R144). -/
def laneAddr (w : Wave) (sp : Space) (a : VReg) (l : Nat) : Nat :=
  match sp with
  | .global => (rvAt w a 0 l).toNat + 2 ^ 32 * (rvAt w a 1 l).toNat
  | .local_ => (w.rv a l).toNat

/-- The enabled lanes, ascending, with their addresses. -/
def laneAddresses (w : Wave) (sp : Space) (a : VReg) (en : Lanes) : List (Nat × Nat) :=
  ((List.range 64).filter fun l => en.getLsbD l).map fun l => (l, laneAddr w sp a l)

/-- Every address leads somewhere, and none over PCI Express (R412, R413). -/
def AllResolve (s : State) (rs : List Resolved) : Prop :=
  ∀ r ∈ rs, ∃ p, r.loc = .ok p ∧ s.peerPcie p = false

/-- The accesses of an operation: one for each address in order, not performed yet, each where its address leads. -/
def HasAccesses (pc : Word) (addrs : List (Nat × Nat)) (rs : List Resolved) (accs : List LaneAcc) : Prop :=
  accs.map (fun a => (a.lane, a.va)) = addrs ∧ (accs.map fun a => .ok a.loc) = (rs.map fun r => r.loc) ∧
    ∀ a ∈ accs, a.got = none ∧ a.pc = pc

/-- The data of an access, from consecutive registers of its lane. -/
def HasData (w : Wave) (d : VReg) (d2 : Nat) (accs : List LaneAcc) : Prop :=
  ∀ a ∈ accs, a.data.toNat = (rvAt w d 0 a.lane).toNat + 2 ^ 32 * (rvAt w d 1 a.lane).toNat +
      2 ^ 64 * (rvAt w d 2 a.lane).toNat + 2 ^ 96 * (rvAt w d 3 a.lane).toNat ∧
    a.data2.toNat = (rvAt w d d2 a.lane).toNat + 2 ^ 32 * (rvAt w d (d2 + 1) a.lane).toNat

/-- What word k of a result is: bytes and halves extend, as the form says (R150). -/
def resultWord (n : Nat) (ext : Extend) (v k : Nat) : Word :=
  match n, ext with
  | 1, .sign => (BitVec.ofNat 8 v).signExtend 32
  | 2, .sign => (BitVec.ofNat 16 v).signExtend 32
  | 1, .zero => BitVec.ofNat 32 (v % 2 ^ 8)
  | 2, .zero => BitVec.ofNat 32 (v % 2 ^ 16)
  | _, _ => BitVec.ofNat 32 (v / 2 ^ (32 * k))

/-- Registers that a result of n bytes takes. -/
def regsOf (n : Nat) : Nat := if n = 16 then 4 else if n = 8 then 2 else 1

/-- The sizes of accesses (R144). -/
def sizes : List Nat := [1, 2, 4, 8, 16]

/-- Byte k of a value. -/
def byteOf (v k : Nat) : Byte := BitVec.ofNat 8 (v / 256 ^ k)

/-- Operation o of wave k is the earliest of its wave's, has one access still to perform, and no retraining link holds
it back (R396). -/
def Alone (s : State) (k o : Nat) (f : Flight) (a : LaneAcc) : Prop :=
  AMap.find (s.wave k).flights o = some f ∧ (∀ e ∈ (s.wave k).flights, o ≤ e.1) ∧ f.accs = [a] ∧ a.got = none ∧
    s.pathOpen (s.wave k).core f.kind a.loc = true ∧ (s.wave k).slot.isSome ∧
    ∀ l, (k, l) ∉ (s.core (s.wave k).core).missing

/-- What a read-modify-write stores for n bytes (R153, R155). -/
def rmwRule (f : RmwFn) (n old x x2 : Nat) : Option Nat :=
  let small (a b : Nat) : Bool := decide ((BitVec.ofNat (8 * n) a).toInt < (BitVec.ofNat (8 * n) b).toInt)
  match f with
  | .op .add => some ((old + x) % 2 ^ (8 * n))
  | .op .min => some (if small old x then old else x)
  | .op .max => some (if small old x then x else old)
  | .op .minu => some (min old x)
  | .op .maxu => some (max old x)
  | .op .and => some (old &&& x)
  | .op .or => some (old ||| x)
  | .op .xor => some (old ^^^ x)
  | .op .xchg => some x
  | .cas => if old = x then some x2 else none
  | .addF32 => some (rounded32 (fAdd false (f32 (BitVec.ofNat 32 old)) (f32 (BitVec.ofNat 32 x)))).1.toNat
  | .addBf16x2 => some (rounded16 fmtBf16
      (fAdd false (half fmtBf16 (BitVec.ofNat 32 old) 0) (half fmtBf16 (BitVec.ofNat 32 x) 0))
      (fAdd false (half fmtBf16 (BitVec.ofNat 32 old) 1) (half fmtBf16 (BitVec.ofNat 32 x) 1))).1.toNat

/-- A range of DRAM. -/
def InDram (pa n : Nat) : Prop := pa + n ≤ dramEnd

/-- The value of n bytes at their home, least significant first. -/
def atHome (s : State) (pa n : Nat) : Nat := ((List.range n).map fun k => 256 ^ k * (s.homeByte (pa + k)).toNat).sum

/-- The value of n bytes of a cluster's scratch space. -/
def inScratch (s : State) (cl off n : Nat) : Nat :=
  ((List.range n).map fun k => 256 ^ k * (SMap.get (s.cluster cl).scratch (off + k)).toNat).sum

/-- The byte that a core's plain access sees: its L1's, else its home's (R148). -/
def seenBy (s : State) (core a : Nat) : Byte :=
  match AMap.find (s.core core).l1 a with
  | some b => b.val
  | none => s.homeByte a

/-- A destination may be written: a register, or a port in send mode whose buffer is free and whose credits cover the
messages on their way to it (R286). -/
def CanWrite (w : Wave) : SOp → Prop
  | .s _ => True
  | .n p => (w.port p.toNat).mode = 1 ∧ (w.port p.toNat).full = none ∧ w.sending p ≤ (w.port p.toNat).held

/-- What a destination takes, and the old value of it. -/
def destWrite : SOp → Word → RegWrite
  | .s r, x => .s r x
  | .n p, x => .send p x
def oldOf (w : Wave) : SOp → Word
  | .s r => SMap.get w.s r.toNat
  | .n _ => 0

/-- The cluster and the number of a port's queue (R285). -/
def portCluster (s : State) (p : Port) : Nat := targetCluster ((cw s).port p.toNat).target
def portNumber (s : State) (p : Port) : Nat := targetQueue ((cw s).port p.toNat).target

/-- Operation o of wave k is in flight, and the wave is resident with every register line (R162). -/
def At (s : State) (k o : Nat) (f : Flight) : Prop :=
  AMap.find (s.wave k).flights o = some f ∧ (s.wave k).slot.isSome ∧ ∀ l, (k, l) ∉ (s.core (s.wave k).core).missing

/-- The value of n bytes as a core's plain access sees them. -/
def seenValue (s : State) (core pa n : Nat) : Nat :=
  ((List.range n).map fun k => 256 ^ k * (seenBy s core (pa + k)).toNat).sum

/-- The bytes that `p` names are written at their home and no other: of the machine only memory with its L2 and its lost
sectors, L1s, watches, Efler reservations and the directory may differ, and the watches that a slice holds on a written
sector see it (R316, R321). -/
def HomeWrite (s t : State) (p : Nat → Option Byte) : Prop :=
  { t with waves := s.waves, cores := s.cores, mem := s.mem, l2 := s.l2, lost := s.lost, eflers := s.eflers,
           dir := s.dir } = s ∧
    (∀ x, t.homeByte x = (p x).getD (s.homeByte x)) ∧
    ∀ j, (t.wave j).watch.isSome = (s.wave j).watch.isSome ∧ ∀ u v, (s.wave j).watch = some u →
      (t.wave j).watch = some v → v = { u with written := v.written } ∧
        (u.held = true → (∃ x, x / 64 = u.pa / 64 ∧ (p x).isSome) → v.written = true)

/-! Barriers. -/

/-- A barrier of the current wave's group. -/
def barOf (s : State) (b : BitVec 4) : Barrier := (s.group (cw s).group).bar b

/-- The waves that have arrived once the current one has, and the COUNT that governs: that of the first arrival
(R178). -/
def arrivedNow (s : State) (b : BitVec 4) : BitVec 16 := (barOf s b).arrived ||| BitVec.ofNat 16 (2 ^ (cw s).waveid.toNat)
def countNow (s : State) (count : BitVec 5) (b : BitVec 4) : Nat :=
  if (barOf s b).arrived = 0 then count.toNat else (barOf s b).count

/-- The generation needs more waves: fewer have arrived than COUNT, or than the waves of the group that have not
ended. -/
def barMore (s : State) (count : BitVec 5) (b : BitVec 4) : Bool :=
  let g := s.group (cw s).group
  let need := if countNow s count b = 0
    then g.waves - ((List.range 16).countP fun k => g.ended.getLsbD k) else countNow s count b
  decide (((List.range 16).countP fun k => (arrivedNow s b).getLsbD k) < need)

/-- A barrier of the current wave's group now has these arrivals, COUNT and generation bit, and of all groups nothing
else has changed. -/
def BarIs (s t : State) (b : BitVec 4) (arrived : BitVec 16) (count : Nat) (gen : Bool) : Prop :=
  (t.group (cw s).group).bar b = ⟨arrived, count, gen⟩ ∧ OnlyGroup s (wavesBack s t) (cw s).group ∧
    (∀ k, k ≠ b → (t.group (cw s).group).bar k = (s.group (cw s).group).bar k) ∧
    { t.group (cw s).group with bars := (s.group (cw s).group).bars } = s.group (cw s).group

/-- A query issues, reads when its cycle ends, and completes four cycles after its issue; `u` is the machine then (R225). -/
def CompletesQuery (i : Instr) (c : Ctl) (d : SReg) (sub : MQuery) (clear : Bool) (s : State) (run : Lanes) (pc : Word)
    (u : State) : Prop :=
  ∃ t, exec i s = .next t ∧
    Issues s t c run (pc + 1) ⟨.query ((s.core (cw s).core).cycle + 4) d sub clear, c.h.setf, run, []⟩ ∧
    (∀ k, exec (.fixedLatencyComplete s.cur (cw s).nextOp) (later t k) = .next (later t k)) ∧
    exec (.fixedLatencyComplete s.cur (cw s).nextOp) (later (t.readQuery s.cur (cw s).nextOp) 4) = .next u

/-! Words that give their effect to a group, an engine or a queue. -/

/-- The word stays in dispatch and is taken up again (R163). -/
def Holds (s t : State) (run : Lanes) (pc : Word) : Prop :=
  OnlyWave s t s.cur ∧ cw t = { cw s with holding := some (run, pc, true) }

/-- The machine with its groups put back. -/
def groupsBack (s t : State) : State := { t with groups := s.groups }

/-- The current wave's group. -/
def grp (s : State) : Group := s.group (cw s).group

/-- A word of variable latency issues with its scalar results (R39). -/
def IssuesResult (s t : State) (c : Ctl) (run : Lanes) (pc : Word) (ws : List RegWrite) : Prop :=
  Issues s t c run pc ⟨.result ws, c.h.setf, run, []⟩

/-- The matrix command words (R204): control, opcode, the register of the format word, the descriptor's first scalar,
the tile and the variant. -/
def matrixForm : Instr → Option (Ctl × Nat × Option VReg × SReg × BitVec 3 × Nat)
  | .mma c d a acc => some (c, 0x180, some d, a, acc, 0)
  | .mmas c d a acc => some (c, 0x181, some d, a, acc, 0)
  | .macz c acc => some (c, 0x182, none, 0, acc, 0)
  | .macld c d a acc => some (c, 0x183, some d, a, acc, 0)
  | .macst c d a acc => some (c, 0x184, some d, a, acc, 0)
  | .mepiScale c d a acc => some (c, 0x185, some d, a, acc, 0)
  | .mepiBiasRow c d a acc => some (c, 0x185, some d, a, acc, 1)
  | .mepiBiasCol c d a acc => some (c, 0x185, some d, a, acc, 2)
  | .mepiRelu c d a acc => some (c, 0x185, some d, a, acc, 3)
  | .mepiClamp c d a acc => some (c, 0x185, some d, a, acc, 4)
  | .mepiAdd c d a acc => some (c, 0x185, some d, a, acc, 5)
  | .mepiDeq c d a acc => some (c, 0x185, some d, a, acc, 6)
  | _ => none

/-- Descriptor words of a matrix command (R211). -/
def wordsOf (op : Nat) : Nat :=
  if op = 0x180 then 4 else if op = 0x181 then 5 else if op = 0x182 then 0 else if op = 0x185 then 2 else 3

/-- The format word of every enabled lane. -/
def AllFormat (w : Wave) (en : Lanes) (d : Option VReg) (f : Word) : Prop :=
  match d with
  | some v => ∀ l, l < 64 → en.getLsbD l = true → w.rv v l = f
  | none => f = 0

/-- The current wave holds its group's baton, and no pass is pending (R210). -/
def HoldsBaton (s : State) : Prop :=
  (grp s).baton = some (BitVec.ofNat 4 (cw s).waveid.toNat) ∧ (grp s).pass = none

/-- Of all groups one, and in it only what `f` puts back, differs; the waves apart. -/
def OnlyGroupField (s t : State) (f : Group → Group) : Prop :=
  OnlyGroup s (wavesBack s t) (cw s).group ∧ f (t.group (cw s).group) = grp s

/-- The appends without parameters that always have a shape, or one that depends on their operands: control, handle,
operand handles, kind, variant and the shape from those of the operands (R240, R242, R243). -/
def appendForm : Instr → Option (Ctl × BitVec 6 × BitVec 6 × Option (BitVec 6) × Nat × Nat × (Nat → Nat → Nat → Nat × Nat × Nat))
  | .tmapTr c hd ha => some (c, hd, ha, none, 3, 0, fun t r k => (t, k, r))
  | .tmapRevr c hd ha => some (c, hd, ha, none, 3, 4, fun t r k => (t, r, k))
  | .tmapRevc c hd ha => some (c, hd, ha, none, 3, 5, fun t r k => (t, r, k))
  | .tadd c hd ha hb => some (c, hd, ha, some hb, 4, 0, fun _ r k => (8, r, k))
  | .tsub c hd ha hb => some (c, hd, ha, some hb, 5, 0, fun _ r k => (8, r, k))
  | .tmul c hd ha hb => some (c, hd, ha, some hb, 6, 0, fun _ r k => (8, r, k))
  | .tmax c hd ha hb => some (c, hd, ha, some hb, 7, 0, fun _ r k => (8, r, k))
  | .tmin c hd ha hb => some (c, hd, ha, some hb, 8, 0, fun _ r k => (8, r, k))
  | .texp c hd ha => some (c, hd, ha, none, 9, 0, fun _ r k => (8, r, k))
  | .tlog c hd ha => some (c, hd, ha, none, 10, 0, fun _ r k => (8, r, k))
  | .trcp c hd ha => some (c, hd, ha, none, 11, 0, fun _ r k => (8, r, k))
  | .tsig c hd ha => some (c, hd, ha, none, 12, 0, fun _ r k => (8, r, k))
  | .tscan c hd ha colw => some (c, hd, ha, none, 14, if colw then 1 else 0, fun _ r k => (8, r, k))
  | .tred c hd ha op => some (c, hd, ha, none, 15, op.toNat, fun _ r k => if op.getLsbD 0 then (8, 1, k) else (8, r, 1))
  | _ => none

/-- The appends with parameters: control, handle, operand handles, the first scalar and the number of parameters, kind
and variant. -/
def appendParamForm : Instr → Option (Ctl × BitVec 6 × Option (BitVec 6) × Option (BitVec 6) × SReg × Nat × Nat × Nat)
  | .tld c hd sb => some (c, hd, none, none, sb, 5, 0, 0)
  | .tconst c hd sb => some (c, hd, none, none, sb, 2, 1, 0)
  | .tiota c hd sb => some (c, hd, none, none, sb, 4, 2, 0)
  | .tmapSlice c hd ha sb => some (c, hd, some ha, none, sb, 2, 3, 1)
  | .tmapBcr c hd ha sb => some (c, hd, some ha, none, sb, 1, 3, 2)
  | .tmapBcc c hd ha sb => some (c, hd, some ha, none, sb, 1, 3, 3)
  | .tmapShift c hd ha sb => some (c, hd, some ha, none, sb, 2, 3, 6)
  | .tselm c hd ha sb up => some (c, hd, some ha, none, sb, 2, 13, if up then 1 else 0)
  | .tmma c hd ha hb sb => some (c, hd, some ha, some hb, sb, 1, 16, 0)
  | .tcvt c hd ha sb => some (c, hd, some ha, none, sb, 1, 17, 0)
  | _ => none

/-- The shape that the parameters of an append give, from the tag, rows and columns of its operands; none where the
word is illegal format (R235, R237, R240 to R242, R245, R246). -/
def paramShape (i : Instr) (p : Nat → Nat) (t r k t2 r2 k2 : Nat) : Option (Nat × Nat × Nat) :=
  let rows (x : Nat) : Nat := x % 65536
  let cols (x : Nat) : Nat := x / 65536
  let block (x : Nat) : Bool := x == 0x0D || x == 0x0E
  match i with
  | .tld .. =>
    let tag := p 4 % 32
    let al := if tag = 0x08 then 4 else if tag = 0x0B ∨ tag = 0x0C then 1 else 2
    if tag ∈ [0x08, 0x09, 0x0A, 0x0B, 0x0C] ∧ p 0 % al = 0 ∧ p 1 < 2 ^ 25 ∧ rows (p 2) ≠ 0 ∧ cols (p 2) ≠ 0 ∧ p 3 % al = 0
    then some (tag, rows (p 2), cols (p 2)) else none
  | .tconst .. => if rows (p 0) ≠ 0 ∧ cols (p 0) ≠ 0 then some (8, rows (p 0), cols (p 0)) else none
  | .tiota .. => if rows (p 0) ≠ 0 ∧ cols (p 0) ≠ 0 then some (8, rows (p 0), cols (p 0)) else none
  | .tmapSlice .. =>
    if rows (p 1) ≠ 0 ∧ cols (p 1) ≠ 0 ∧ rows (p 0) < r ∧ cols (p 0) < k ∧ rows (p 0) + rows (p 1) ≤ r ∧
        cols (p 0) + cols (p 1) ≤ k ∧ (block t → cols (p 0) % 32 = 0 ∧ cols (p 1) % 32 = 0)
    then some (t, rows (p 1), cols (p 1)) else none
  | .tmapBcr .. => if r = 1 ∧ rows (p 0) ≠ 0 ∧ cols (p 0) = 0 then some (t, rows (p 0), k) else none
  | .tmapBcc .. => if k = 1 ∧ ¬block t ∧ rows (p 0) ≠ 0 ∧ cols (p 0) = 0 then some (t, r, rows (p 0)) else none
  | .tmapShift .. => some (8, r, k)
  | .tselm .. => some (8, r, k)
  | .tmma .. =>
    let code (x : Nat) : Nat := if x = 0x09 then 1 else if x = 0x0A then 2 else if x = 0x0B then 3
      else if x = 0x0C then 4 else 0
    let mix := (t = 0x09 ∧ t2 = 0x09) ∨ (t = 0x0A ∧ t2 = 0x0A) ∨ (t ∈ [0x0B, 0x0C] ∧ t2 ∈ [0x0B, 0x0C])
    if k = r2 ∧ mix ∧ p 0 % 8192 = code t + 16 * code t2 ∧ p 0 < 16384 then some (8, r, k2) else none
  | .tcvt .. =>
    let tag := p 0 % 32
    if tag ∈ [0x09, 0x0A, 0x0B, 0x0C] ∧ p 0 / 32 % 8 ≤ 4 ∧ p 0 < 512 then some (tag, r, k) else none
  | _ => none

/-- The tag, rows and columns of a handle's node. -/
def nodeOf (g : Group) (h : Option (BitVec 6)) : Option Node :=
  match h with
  | some k => (AMap.find g.handles k.toNat).bind fun n => AMap.find g.nodes n
  | none => none
def tagOf (n : Option Node) : Nat := (n.map fun x => x.tag.toNat).getD 8
def rowsOf (n : Option Node) : Nat := (n.map fun x => x.rows).getD 1
def colsOf (n : Option Node) : Nat := (n.map fun x => x.cols).getD 1

/-- An append may take a node: a free one of the group and of the core, and for a view a range (R256, R264). -/
def RoomFor (s : State) (kind idx : Nat) : Prop :=
  idx < 256 ∧ AMap.find (grp s).nodes idx = none ∧ (∀ k, k < idx → (AMap.find (grp s).nodes k).isSome) ∧
    s.coreNodes (grp s).core < 512 ∧ (kind = 0 → (grp s).ranges.length < 32)

/-- Handle `hd`, so far unused, names a new node at `idx` with its operands, whose references have risen; the word
completes a cycle later (R238, R255). -/
def Appends (s t : State) (c : Ctl) (run : Lanes) (pc : Word) (hd : BitVec 6) (idx kind sub : Nat)
    (sh : Nat × Nat × Nat) (opa opb : Option Nat) (ps : List Word) : Prop :=
  IssuesPlain s (groupsBack s t) c run (pc + 1) ∧
    OnlyGroupField s t (fun g => { g with
      nodes := (grp s).nodes, handles := (grp s).handles, ranges := (grp s).ranges, nodeAge := (grp s).nodeAge }) ∧
    AMap.find (grp t).handles hd.toNat = some idx ∧
    (∀ h, h ≠ hd.toNat → AMap.find (grp t).handles h = AMap.find (grp s).handles h) ∧
    (∃ n, AMap.find (grp t).nodes idx = some n ∧ n.kind.toNat = kind ∧ n.sub.toNat = sub ∧ n.tag.toNat = sh.1 ∧
      n.rows = sh.2.1 ∧ n.cols = sh.2.2 ∧ n.opa = opa ∧ n.opb = opb ∧ n.param = ps ∧ n.refs = 1 ∧ n.kept = false ∧
      n.captured = false ∧ n.apc = pc ∧ n.age = (grp s).nodeAge) ∧
    (∀ j, j ≠ idx → AMap.find (grp t).nodes j = (AMap.find (grp s).nodes j).map fun n =>
      { n with refs := n.refs + (if opa = some j then 1 else 0) + (if opb = some j then 1 else 0) }) ∧
    (kind ≠ 0 → (grp t).ranges = (grp s).ranges)

/-- A demand's region lies in its node and its bytes are aligned (R235, R237, R247): parameters of `tst` (address pair,
origin, shape, stride) or of `tforce` (offset, origin, shape, stride). -/
def RegionFits (n : Node) (p : Nat → Nat) (o : Nat) (size : Option Nat) : Prop :=
  let tag := n.tag.toNat
  let al := if tag = 0x08 then 4 else if tag = 0x0B ∨ tag = 0x0C then 1 else 2
  let rows := p (o + 1) % 65536
  let cols := p (o + 1) / 65536
  let bytes := if tag = 0x08 then 4 * cols else if tag = 0x0B ∨ tag = 0x0C then cols else 2 * cols
  tag ∈ [0x08, 0x09, 0x0A, 0x0B, 0x0C] ∧ rows ≠ 0 ∧ cols ≠ 0 ∧ p o % 65536 + rows ≤ n.rows ∧
    p o / 65536 + cols ≤ n.cols ∧ p 0 % al = 0 ∧ p (o + 2) % al = 0 ∧ bytes ≤ p (o + 2) ∧
    match size with
    | some z => p 0 < 2 ^ 23 ∧ p 0 + (rows - 1) * p (o + 2) + bytes ≤ z
    | none => p 1 < 2 ^ 25

/-! Requests, timelines and queues of a cluster. -/

/-- The words that ask an engine (R273, R277, R279, R280, R308, R403): control, destination, descriptor, its words, the
kind of the request and its timeline. -/
def requestForm : Instr → Option (Ctl × SReg × SReg × Nat × ((Nat → Nat) → ReqKind) × ((Nat → Nat) → Timeline))
  | .cpy c d a => some (c, d, a, 8, fun _ => .copy, fun _ => .copy)
  | .cpym c d a => some (c, d, a, 10, fun p => .multi (BitVec.ofNat 48 (p 8 + 2 ^ 32 * p 9)), fun _ => .copy)
  | .cpyx c d a => some (c, d, a, 16, fun _ => .follow, fun _ => .copy)
  | .rbind c d a cls => some (c, d, a, 5, fun _ => .bind cls, fun _ => .trav)
  | .rtrace c d a => some (c, d, a, 5, fun _ => .trace false, fun _ => .trav)
  | .rresume c d a => some (c, d, a, 5, fun _ => .trace true, fun _ => .trav)
  | .nmv c d a => some (c, d, a, 8, fun _ => .nmv, fun p => .nmv (BitVec.ofNat 5 (p 6 % 32)))
  | _ => none

/-- A copy descriptor is right (R277): the parameters, the end of local space for the source and for the destination,
and whether the destination must be local. -/
def CopyOk (p : Nat → Nat) (size dsize : Nat) (must : Bool) : Prop :=
  let rows := p 5 % 2 ^ 16
  p 1 < 2 ^ 25 ∧ p 3 < 2 ^ 25 ∧ 0 < p 4 ∧ p 4 < 2 ^ 24 ∧ rows ≠ 0 ∧ p 5 / 2 ^ 19 % 4 = 0 ∧ p 5 < 2 ^ 23 ∧
    ((p 5).testBit 21 = true → p 1 = 0 ∧ p 0 + (rows - 1) * p 6 + p 4 ≤ size) ∧
    (must = true → (p 5).testBit 22 = true) ∧
    ((p 5).testBit 22 = true → p 3 = 0 ∧ p 2 + (rows - 1) * p 7 + p 4 ≤ dsize)

/-- The clusters of the context's partition (R389). -/
def inPartition (s : State) (k : Nat) : Prop :=
  ∃ x y, AMap.find s.contexts (cw s).pasid.toNat = some x ∧ AMap.find s.parts x.desc.part.toNat = some y ∧
    k ∈ y.spec.clusters

/-- A request's descriptor is right (R277, R279, R280, R309, R310, R401). -/
def RequestOk (s : State) (i : Instr) (p : Nat → Nat) : Prop :=
  let size := (cw s).localsize.toNat
  match i with
  | .cpy .. => CopyOk p size size false
  | .cpym .. => CopyOk p size 0x600000 true ∧ p 9 < 2 ^ 16 ∧
      ∀ k, k < 48 → (p 8 + 2 ^ 32 * p 9).testBit k = true → inPartition s k
  | .cpyx .. => CopyOk p size size true ∧ HoldsBaton s ∧ p 8 < 2 ^ 16 ∧ p 8 % 512 = 0x180 ∧
      p 8 / 2 ^ 12 < (s.cohort (s.cohortOf s.cur)).count ∧ p 9 ∈ [0x11, 0x22, 0xA55] ∧ p 14 = 0 ∧ p 15 = 0 ∧
      p 10 % 16 = 0 ∧ p 11 % 16 = 0 ∧ 32 ≤ p 12 ∧ p 12 ≤ 65536 ∧ p 12 % 32 = 0 ∧ p 13 < 2 ∧
      (let row := if p 9 = 0xA55 then p 12 else 2 * p 12
       p 10 < 2 ^ 23 ∧ p 11 < 2 ^ 23 ∧ p 10 + 128 * row ≤ size ∧ p 11 + 128 * row ≤ size)
  | .rbind .. => p 0 % 64 = 0 ∧ p 1 < 2 ^ 25 ∧ p 2 % 4 = 0 ∧ p 3 < 2 ^ 25 ∧ 1 ≤ p 4 ∧ p 4 ≤ 64
  | .rtrace .. => p 0 % 256 = 0 ∧ p 1 < 2 ^ 25 ∧ 0 < p 2 ∧ p 2 < 2 ^ 16 ∧ p 3 % 16 = 0 ∧ p 4 < 2 ^ 25
  | .rresume .. => p 0 % 256 = 0 ∧ p 1 < 2 ^ 25 ∧ 0 < p 2 ∧ p 2 < 2 ^ 16 ∧ p 3 % 16 = 0 ∧ p 4 < 2 ^ 25
  | .nmv .. =>
    let vecs := p 6 / 2 ^ 8 + 1
    p 0 % 256 = 0 ∧ p 1 < 2 ^ 25 ∧ 0 < p 2 ∧ p 2 < 2 ^ 16 ∧ 32 ≤ p 3 ∧ p 3 ≤ 65536 ∧ p 3 % 32 = 0 ∧
      p 4 % 16 = 0 ∧ p 4 + 2 * p 3 * vecs ≤ size ∧ p 5 % 16 = 0 ∧ p 5 + 4 * p 2 * vecs ≤ size ∧
      p 6 < 2 ^ 11 ∧ p 6 / 2 ^ 5 % 8 = 0 ∧ p 6 % 32 ≤ 23 ∧ p 7 < 2 ^ 14 ∧
      (p 7 % 2 ^ 13 = 0x13 ∨ (p 7 % 2 ^ 13 = 0x17 ∨ p 7 % 2 ^ 13 = 0x19) ∧ s.fabric.featacc.getLsbD 8 = true)
  | _ => False

/-- The current wave's cohort, and what its timeline of a selector holds. -/
def cohortNow (s : State) : Nat := (grp s).cohort
def timeline (s : State) (sel : Timeline) : Tl := (s.cohort (cohortNow s)).tl sel

/-- A 64-bit value has reached a 32-bit one (R274). -/
def hasReached (v : Nat) (m : Word) : Prop := (v + 2 ^ 32 - m.toNat) % 2 ^ 32 < 2 ^ 31

/-- A failure record of a timeline covers a wait for a value (R276). -/
def Covers (s : State) (sel : Timeline) (m : Word) (cause : Cause) (addr : Nat) : Prop :=
  ∃ n, (timeline s sel).fail = some (n, cause, addr) ∧ hasReached m.toNat (BitVec.ofNat 32 n)

/-- A run parks at its wait as a system-service set with a failure record's cause and address (R276). -/
def ParksOnFailure (s t : State) (run : Lanes) (pc : Word) (sel : Timeline) (cause : Cause) (addr : Nat) : Prop :=
  OnlyWave s t s.cur ∧ SameButParked (cw s) (cw t) ∧ Enter (cw s) (cw t) run .parked ∧
    ∃ p, (cw t).parked.getLast? = some p ∧ p.members = run ∧ p.pc = pc ∧ p.cause = cause ∧ p.system = true ∧
      p.addr = BitVec.ofNat 64 addr ∧ p.onTl = some sel

/-- The machine with its requests, cohorts and counters put back. -/
def requestsBack (s t : State) : State :=
  { t with reqs := s.reqs, cohorts := s.cohorts, nextId := s.nextId, freeCtr := s.freeCtr }

/-- The cluster whose core runs the current wave. -/
def clusterNow (s : State) : Nat := (cw s).core / 12

/-- A queue word names a bank in FIFO mode, with no change on its way (R271, R283). -/
def IsFifo (s : State) (cl qw : Nat) : Prop :=
  SMap.get (s.cluster cl).modes (qw / 16) = 2#2 ∧ AMap.find (s.cluster cl).changing (qw / 16) = none

/-- `portcfg` gives a port a configuration and completes in four cycles, which only a flag can show (R166, R285). -/
def IsConfigured (s t : State) (c : Ctl) (run : Lanes) (pc : Word) (p : Port) (q : PortSt) : Prop :=
  OnlyWave s t s.cur ∧ Moves (cw s) (cw t) run (pc + 1) ∧ (cw t).port p.toNat = q ∧
    (∀ k, k ≠ p.toNat → (cw t).port k = (cw s).port k) ∧
    { cw t with
      ports := (cw s).ports, pcs := (cw s).pcs, f := (cw s).f, flights := (cw s).flights, nextOp := (cw s).nextOp } = cw s ∧
    if c.h.setf = 15#4 then (cw t).f = (cw s).f ∧ (cw t).flights = (cw s).flights ∧ (cw t).nextOp = (cw s).nextOp
    else Raises (cw s) (cw t) c.h.setf ∧
      AddsFlight (cw s) (cw t) ⟨.fixed ((s.core (cw s).core).cycle + 4) [], c.h.setf, run, []⟩

/-! Graphs. -/

/-- Of a machine's graphs only one has changed. -/
def OnlyGraph (s t : State) (g : Nat) (y : Graph) : Prop :=
  AMap.find t.graphs g = some y ∧ ∀ j, j ≠ g → AMap.find t.graphs j = AMap.find s.graphs j

/-- Records of a node, and whether an allocation for a node succeeds: below its own reserve, or while the records and
reserves of all nodes leave a slot (R370). -/
def recordsOf (y : Graph) (n : Nat) : Nat := y.slots.countP fun e => decide (e.2.node = n)
def Admits (y : Graph) (n : Nat) (nd : GNode) : Prop :=
  recordsOf y n < nd.reserve ∨
    ((List.range y.nodes.length).map fun m => max (recordsOf y m) ((y.nodes[m]?.map fun d => d.reserve).getD 0)).sum <
      y.nslot

/-! Rays. -/

/-- The current ray walks in the engine. -/
def Walking (s : State) (r : Ray) : Prop :=
  AMap.find s.rays s.curRay = some r ∧ r.out = false ∧ r.fetching = false

/-- A micro-operation makes of the current ray `n`, and changes nothing else. -/
def Becomes (i : Instr) (s : State) (n : Ray) : Prop :=
  ∃ t, exec i s = .next t ∧ AMap.find t.rays s.curRay = some n ∧
    (∀ k, k ≠ s.curRay → AMap.find t.rays k = AMap.find s.rays k) ∧ { t with rays := s.rays } = s

/-- A ray suspends with a STATUS, a CAUSE and a UPC (R304, R305). -/
def suspended (r : Ray) (status cause : BitVec 8) (upc : Nat) : Ray :=
  { r with status := status, cause := cause, upc := upc, fetching := false, out := true, depth := r.stack.length }

/-- UPC advances; one that reaches the program's length is error 0x06 with the record as before (R299). -/
def stepped (r n : Ray) : Ray :=
  if r.upc + 1 < ((r.binding.map fun b => b.prog.length).getD 0) then { n with upc := r.upc + 1 }
  else suspended r 6 6 r.upc

/-- Clears the transient state (R297). -/
def cleared (r : Ray) : Ray := { r with buf := none, kids := [], cand := none, z := false, h := false, m := false }

/-- The children from last to first, as stack entries. -/
def asEntries (ks : List (Word × Nat × Nat)) : List (BitVec 64) := (ks.map fun k => BitVec.ofNat 64 k.2.2).reverse

/-- The value of some bytes of a node, least significant first. -/
def inNode (b : List Byte) (off n : Nat) : Nat := ((List.range n).map fun k => 256 ^ k * (b.getD (off + k) 0).toNat).sum

/-- The f32 nearest an exact value (R83). -/
def once (x : FVal) : FVal := (roundTo fmtF32 .rne false false x).1

/-! Engines. -/

/-- Operation o of wave k is over, and nothing else of any wave has changed. -/
def Completed (s t : State) (k o : Nat) (f : Flight) : Prop :=
  Ends (s.wave k) (t.wave k) o f.flag ∧
    { t.wave k with f := (s.wave k).f, flights := (s.wave k).flights } = s.wave k ∧ ∀ j, j ≠ k → t.wave j = s.wave j

/-- Of all groups only g differs, and in it only what `f` puts back. -/
def OnlyInGroup (s t : State) (g : Nat) (f : Group → Group) : Prop :=
  f (t.group g) = s.group g ∧ ∀ j, j ≠ g → t.group j = s.group j

/-- Of all cores only c differs, and in it only what `f` puts back. -/
def OnlyInCore (s t : State) (c : Nat) (f : CoreSt → CoreSt) : Prop :=
  f (t.core c) = s.core c ∧ ∀ j, j ≠ c → t.core j = s.core j

/-- Group g sits in slot k of a core with commands, and no context is halted there. -/
def Serves (s : State) (core g k : Nat) (c : Cmd) (rest : List Cmd) : Prop :=
  (AMap.find s.groups g).isSome ∧ (s.group g).core = core ∧ (s.group g).slot = some (BitVec.ofNat 3 k) ∧ k < 8 ∧
    (s.group g).queue = c :: rest ∧ (s.core core).halting = []

/-- The engine of a core works on the head command of group g, due at a cycle. -/
def Engaged (s : State) (core g due : Nat) (c : Cmd) (rest : List Cmd) : Prop :=
  (s.core core).engine = some (g, due) ∧ (s.group g).queue = c :: rest

/-- Cycles of a matrix command on an idle engine (R209). -/
def commandCycles (c : Cmd) : Nat :=
  let af := c.format.toNat % 16
  let bf := c.format.toNat / 16 % 16
  let t := if af = 7 ∧ bf = 7 then 32 else if af = 1 ∨ af = 2 then 128 else 64
  let blocks := (c.desc.getD 2 0).toNat / 32 - c.step
  if c.op = 0x180 then 24 + blocks * t else if c.op = 0x181 then 24 + blocks * t / 2
  else if c.op = 0x182 then 40 else 152

/-- A signed byte of a cluster's scratch space. -/
def signedAt (s : State) (cl a : Nat) : Int := (SMap.get (s.cluster cl).scratch a).toInt

/-- The head command of a group is retired: its place frees and its operation is over; the engine is idle, having served
the group's slot (R205, R208). -/
def IsRetired (s t : State) (core g k : Nat) (c : Cmd) (rest : List Cmd) (f : Flight) (o : Nat) : Prop :=
  (t.group g).queue = rest ∧ Completed s t c.wave o f ∧ (t.core core).engine = none ∧ (t.core core).lastSlot = k ∧
    OnlyInCore s t core fun x => { x with engine := (s.core core).engine, lastSlot := (s.core core).lastSlot }

/-! Requests. -/

/-- A request is the next of its timeline, nobody sleeps, and its cohort has a resident group. -/
def NextDone (s : State) (r : Nat) (q : Req) : Prop :=
  AMap.find s.reqs r = some q ∧ (AMap.find s.cohorts q.cohort).isSome ∧
    q.n = ((s.cohort q.cohort).tl q.sel).value + 1 ∧ ((s.cohort q.cohort).tl q.sel).done = [] ∧
    (∀ e ∈ s.waves, e.2.sleepers = []) ∧ ∃ g ∈ (s.cohort q.cohort).groups, (s.group g).slot.isSome

/-- A request completes: it is gone, its timeline has reached its number, and of its cohort nothing else differs but
what `f` puts back (R273). -/
def Finishes (s t : State) (r : Nat) (q : Req) (f : Cohort → Cohort) : Prop :=
  AMap.find t.reqs r = none ∧ (∀ k, k ≠ r → AMap.find t.reqs k = AMap.find s.reqs k) ∧
    (t.cohort q.cohort).tl q.sel = { (s.cohort q.cohort).tl q.sel with value := q.n } ∧
    (∀ z, z ≠ q.sel → (t.cohort q.cohort).tl z = (s.cohort q.cohort).tl z) ∧
    { f (t.cohort q.cohort) with
      copy := (s.cohort q.cohort).copy, trav := (s.cohort q.cohort).trav, nmv := (s.cohort q.cohort).nmv } =
      s.cohort q.cohort ∧
    ∀ j, j ≠ q.cohort → t.cohort j = s.cohort j

/-- The words of a request's descriptor as numbers, and an address of two of them. -/
def descWord (q : Req) (k : Nat) : Nat := (q.desc.getD k 0).toNat
def descAddr (q : Req) (k : Nat) : Nat := descWord q k + 2 ^ 32 * (descWord q (k + 1) % 2 ^ 25)

/-- No request of the same timeline is earlier. -/
def FirstInOrder (s : State) (q : Req) : Prop := ∀ e ∈ s.reqs, e.2.cohort = q.cohort → e.2.sel = q.sel → q.n ≤ e.2.n

/-! Launches. -/

/-- Of a machine's launches only `l` has changed. -/
def OnlyLaunch (s t : State) (l : Nat) (x : Launch) : Prop :=
  AMap.find t.launches l = some x ∧ ∀ j, j ≠ l → AMap.find t.launches j = AMap.find s.launches j

/-- A retired packet may start: every earlier one has started, or has completed when it carries BARRIER, and those it
comes after have completed (R341, R348, R349). -/
def MayStart (f : FQ) (n : Nat) (p : Packet) : Prop :=
  AMap.find f.packets n = some p ∧ (∀ e ∈ f.packets, e.1 < n → e.2.started = true ∧ p.barrier = false) ∧
    ∀ m ∈ p.after, AMap.find f.packets m = none

/-- No packet of a queue but n starts by its turn alone: those that have not started are launches, graphs, dependencies and
waits (R349). -/
def Quiet (f : FQ) (n : Nat) : Prop :=
  ∀ e ∈ f.packets, e.1 ≠ n → e.2.started = true ∨ (∃ l, e.2.kind = .launch l) ∨ (∃ es, e.2.kind = .dependency es) ∨
    ∃ a v, e.2.kind = .wait a v

/-- A packet that waits for nothing but its turn starts as it is retired: every packet of its queue has started, and it does
not carry BARRIER (R348, R349). -/
def AtOnce (f : FQ) (barrier : Bool) : Bool := f.packets.all fun e => e.2.started && !barrier

/-- The machine with its launches and numbers put back. -/
def launchesBack (s t : State) : State := { t with launches := s.launches, nextId := s.nextId }

/-- A launch has not ended with an error. -/
def Alive (s : State) (l : Nat) : Prop := s.ended l = false

/-- Bytes [pa, pa + n) of a value, as a write at home names them. -/
def bytesAt (pa n v : Nat) (x : Nat) : Option Byte := if pa ≤ x ∧ x < pa + n then some (byteOf v (x - pa)) else none

/-- Of the queues of the front ends only q differs. -/
def OnlyFq (s t : State) (q : Nat) (f : FQ) : Prop := t.fq q = f ∧ ∀ j, j ≠ q → t.fq j = s.fq j

/-! Events of cores and dies. -/

/-- Bytes are written at their home and nothing else of the machine changes but watches, reservations, the L2 and lost
sectors. -/
def HomeOnly (s t : State) (p : Nat → Option Byte) : Prop :=
  HomeWrite s t p ∧ t.cores = s.cores ∧ ∀ j, { t.wave j with watch := (s.wave j).watch } = s.wave j

/-- The only sleeping run of a wave wakes: its threads are ready, its flag has fallen, and nothing else of the wave
changes (R13). -/
def Wakes (w x : Wave) (z : Sleeper) : Prop :=
  Enter w x z.members .ready ∧ x.sleepers = [] ∧
    (∀ i, i < 12 → x.flag i = if i = z.flag.toNat ∧ w.flag i ≠ 0 then w.flag i - 1 else w.flag i) ∧
    { x with threads := w.threads, sleepers := w.sleepers, f := w.f } = w

/-- A wave may be promoted (R164). -/
def MayRise (core quad : Nat) (x : Wave) (k : BitVec 5) : Prop :=
  x.slot = some k ∧ x.core = core ∧ k.toNat / 8 = quad ∧ x.promoted = none ∧ x.holding = none ∧ x.age.toNat ≤ x.aging

/-- No read of a wave waits at a queue, and no allocation of it at a graph. -/
def NoLine (s : State) (w : Nat) : Prop :=
  (∀ c ∈ s.clusters, ∀ q ∈ c.2.queues, ∀ k ∈ q.2.takers, ∀ o b, k ≠ .read w o b) ∧
    ∀ e ∈ s.graphs, ∀ u ∈ e.2.waiters, u.2.1 ≠ w

/-- A translation enters a TLB that holds `cap` of those of its set; where they are all there, one of them leaves (R190). -/
def Takes (same : TlbEntry → Bool) (cap : Nat) (e : TlbEntry) (l l' : List TlbEntry) : Prop :=
  if (l.filter same).length < cap then l' = e :: l else ∃ v ∈ l.filter same, l' = e :: l.erase v

/-- An invalidation of one context's pages, or of every context's, names a cached translation (R192). -/
def Named (ctl : Nat) (page : Nat) (e : TlbEntry) : Bool :=
  let n := 2 ^ (e.bits - 12)
  let pages := ctl / 2 ^ 8 % 2 ^ 32
  (ctl.testBit 2 || decide (e.pasid.toNat = ctl / 2 ^ 44 % 2 ^ 20)) &&
    (decide (pages = 0) || decide (e.vpage * n < page + pages ∧ page < e.vpage * n + n))

/-- And a pointer of stage 1 that a walk cache holds, which serves a range of pages (R190). -/
def NamedPointer (ctl : Nat) (page : Nat) (e : WalkEntry) : Bool :=
  let n := 2 ^ (9 * e.level)
  let pages := ctl / 2 ^ 8 % 2 ^ 32
  !e.stage2 && (ctl.testBit 2 || decide (e.pasid.toNat = ctl / 2 ^ 44 % 2 ^ 20)) &&
    (decide (pages = 0) || decide (e.pre * n < page + pages ∧ page < e.pre * n + n))

/-! Queues. -/

/-- What two writes at home name: the second, else the first. -/
def thenBytes (p r : Nat → Option Byte) (x : Nat) : Option Byte := (r x).or (p x)

/-- The front end reads packet `p` whole at RDIDX of a packet queue that is open (R344, R348 to R350). -/
def ReadsPacket (s : State) (q : Nat) (p : Pkt) (s3 : State) : Prop :=
  s.linksSteady = true ∧ ∃ c s1 s2 h, s.openQueue q = (some (.ok c), s1) ∧ c.kind = false ∧
    p.slot = c.ring + 64 * (c.rdidx % 2 ^ c.log2n) ∧ s1.feWords (keyPasid q) p.slot 1 = (.ok [h], s2) ∧
    p.type = h % 2 ^ 8 ∧ p.flags = h / 2 ^ 8 % 2 ^ 8 ∧ p.size = h / 2 ^ 16 % 2 ^ 16 ∧ p.tag = h / 2 ^ 32 % 2 ^ 32 ∧
    p.type ≠ 0 ∧ (p.type < 9 ∨ 0x80 ≤ p.type) ∧ 1 ≤ p.size ∧ p.size ≤ 16 ∧ p.flags < 4 ∧
    c.rdidx % 2 ^ c.log2n + p.size ≤ 2 ^ c.log2n ∧ (s2.fq q).coversSlots c c.rdidx p.size = true ∧
    s2.feWords (keyPasid q) p.slot (8 * p.size) = (.ok p.words, s3)

/-- The bytes of a packet at an offset, least significant first. -/
def partOf (p : Pkt) (off n : Nat) : Nat := p.words.getD (off / 8) 0 / 2 ^ (8 * (off % 8)) % 2 ^ (8 * n)

/-- Packet `p` is retired: TYPE takes 0, it has the next number of the queue's timeline, and RDIDX has moved past it
(R349). `s4` is the machine with the 0 written. -/
def RetiresPacket (s t : State) (q : Nat) (p : Pkt) (r : Packet) : Prop :=
  ∃ s4 c, s4 = (s.feStore (keyPasid q) p.slot 1 0).2 ∧ (s4.fq q).qcb = some c ∧
    HomeOnly { s4 with queues := t.queues } t (bytesAt ((s4.fq q).at_ + 8) 8 ((c.rdidx + p.size) % 2 ^ 64)) ∧
    OnlyFq s4 t q { s4.fq q with
      tl := { (s4.fq q).tl with accepted := (s.fq q).tl.accepted + 1 },
      packets := AMap.put (s4.fq q).packets ((s.fq q).tl.accepted + 1) r,
      qcb := some { c with rdidx := (c.rdidx + p.size) % 2 ^ 64 } }

/-- Retiring finds what it needs: the front end holds the QCB, which lies in DRAM, the packet's slot can be written, no run
sleeps, and of the queue's packets, which come before it, none starts by its turn alone. -/
def MayRetire (s : State) (q : Nat) (p : Pkt) : Prop :=
  (s.fq q).qcb.isSome ∧ InDram (s.fq q).at_ 128 ∧ (s.feStore (keyPasid q) p.slot 1 0).1 = none ∧
    (∀ e ∈ s.waves, e.2.sleepers = []) ∧ (∀ e ∈ (s.fq q).packets, e.1 ≤ (s.fq q).tl.accepted) ∧
    Quiet (s.fq q) ((s.fq q).tl.accepted + 1)

/-- A graph packet is retired, and a graph of its queue that may start does so then (R349, R369). -/
def GraphRetires (s t : State) (q l : Nat) (p : Pkt) : Prop :=
  ∃ r, RetiresPacket s r q p ⟨.launch l, p.flags % 2 == 1, false, []⟩ ∧ t = r.startGraphs q ∧
    (s.fabric.lock = false → t = r)

/-- Packet n of a queue is over: it is the next of its timeline, QTL takes its number (R349). -/
def PacketDone (s t : State) (q n : Nat) : Prop :=
  HomeOnly { s with queues := t.queues } t (bytesAt ((s.fq q).at_ + 0x28) 8 n) ∧
    OnlyFq s t q { s.fq q with packets := AMap.del (s.fq q).packets n, tl := { (s.fq q).tl with value := n } }

/-- Packet n is the next to complete, and the queue's control block lies in DRAM. -/
def NextOf (s : State) (q n : Nat) : Prop :=
  (s.fq q).tl.done = [] ∧ n = (s.fq q).tl.value + 1 ∧ n < 2 ^ 64 ∧ InDram (s.fq q).at_ 128

/-! Mailboxes, capabilities, partitions. -/

/-- The firmware runs (R420). -/
def Firmware (s : State) : Prop := s.fabric.boot = .running

/-- KIND and CODE of a mailbox entry (R384). -/
def mailKind (p : Parked) : Nat × Nat :=
  match p.cause with
  | .upcall => (0, p.addr.toNat % 64)
  | .translation => (1, 0x21)
  | .fetchFault => (if p.args = [] then 2 else 1, 0x20)
  | .access => (2, 0x22)
  | .dataLoss => (3, 0x24)
  | _ => (4, 0x09)

/-- A capability as R386 lays it out: its window, generation and offset; the reserved bits are 0. -/
def capability (win : Nat) (gen : Word) (off : Nat) : BitVec 128 :=
  BitVec.ofNat 128 (2 ^ 96 * win + 2 ^ 64 * gen.toNat + off)

/-- Of the Turel cores only k differs. -/
def OnlyTurel (s t : State) (k : Nat) (x : Turel) : Prop :=
  { t with turels := s.turels } = s ∧ t.turel k = x ∧ ∀ j, j ≠ k → t.turel j = s.turel j

/-- The bank-mode word of a partition, 0x00555555 where its creator gives none (R389). -/
def bankWord (p : PartSpec) : Nat := (p.bankWord.getD 0x00555555).toNat

/-- A cluster has taken a bank-mode word (R267, R389): code 3 keeps a bank's mode. -/
def TakesBanks (s t : State) (word k : Nat) : Prop :=
  (∀ b, b < 16 → (SMap.get (t.cluster k).modes b).toNat =
    if word / 4 ^ b % 4 = 3 then (SMap.get (s.cluster k).modes b).toNat else word / 4 ^ b % 4) ∧
    (t.cluster k).scratch = [] ∧ (t.cluster k).queues = [] ∧ (t.cluster k).cache = [] ∧ (t.cluster k).changing = [] ∧
    (t.cluster k).tlb = (s.cluster k).tlb

/-! The package. -/

/-- Link j of a die has become `l`, at both of its ends, and nothing else has changed (R324). -/
def LinkIs (s t : State) (die j : Nat) (l : Link) : Prop :=
  { t with dies := s.dies } = s ∧
    t.die die = { s.die die with links := AMap.put (s.die die).links j l } ∧
    t.die ((die + j + 1) % 4) = { s.die ((die + j + 1) % 4) with
      links := AMap.put (s.die ((die + j + 1) % 4)).links (2 - j) l } ∧
    ∀ d, d ≠ die → d ≠ (die + j + 1) % 4 → t.die d = s.die d

/-- The primitives of streams that waited for a link have crossed those that are open (R379, R396). -/
def Cross (s t : State) : Prop :=
  ∀ k, AMap.find t.prims k = (AMap.find s.prims k).map fun (p : Prim) =>
    { p with reached := [0, 1, 2, 3].filter fun d => p.reached.contains d || t.linkOpen p.die d }

/-- A link of a die as its register table has it: up, with no retry, until it is changed. -/
def linkOf (s : State) (die j : Nat) : Link := (AMap.find (s.die die).links j).getD ⟨.up, 0, 0⟩

/-- The bytes of a value. -/
def listOf (v n : Nat) : List Byte := (List.range n).map fun k => byteOf v k

/-- A peer has been answered, and nothing else has changed (R412). -/
def Answers (s t : State) (id code : Nat) (bs : List Byte) : Prop :=
  { t with peers := s.peers } = s ∧ t.peer id = { s.peer id with replies := (s.peer id).replies ++ [(code, bs)] } ∧
    ∀ j, j ≠ id → t.peer j = s.peer j

/-- Every byte of a range is exported (R412). -/
def Exported (s : State) (pa n : Nat) : Prop := ∀ k, k < n → ∃ r ∈ s.fabric.exported, r.1 ≤ pa + k ∧ pa + k < r.1 + r.2

/-- DRAM that reads without an error (R407). -/
def Sound (s : State) (pa n : Nat) : Prop := InDram pa n ∧ 1 ≤ n ∧ ∀ k, k < n → s.sectorLost (pa + k) = false

/-- An Efler hart. -/
def hartOf (s : State) (h : Nat) : Efler := (AMap.find s.eflers h).getD Efler.reset

/-- The directory has a line at a hart, or as its own (R318). -/
def HoldsLine (s : State) (h pa : Nat) : Prop :=
  AMap.find s.dir (pa / 64) = some (.owned h) ∨ ∃ hs, AMap.find s.dir (pa / 64) = some (.shared hs) ∧ h ∈ hs

/-- Of the harts and their directory only hart h has changed, and the directory's line of an address. -/
def OnlyHart (s t : State) (h pa : Nat) (e : Efler) : Prop :=
  { t with eflers := s.eflers, dir := s.dir } = s ∧ hartOf t h = e ∧ (∀ j, j ≠ h → hartOf t j = hartOf s j) ∧
    ∀ k, k ≠ pa / 64 → AMap.find t.dir k = AMap.find s.dir k

/-- Shard context k of a die has become `c`, and of the machine nothing else but memory may differ. -/
def ShardIs (s t : State) (die k : Nat) (c : Shard) : Prop :=
  t.die die = { s.die die with shards := AMap.put (s.die die).shards k c } ∧ ∀ d, d ≠ die → t.die d = s.die d

/-- The package's firmware is loaded (R420): it runs, its digest, that of the image with its signature, and its version are
measured (log entry 16), and each Turel core has its root window over all of memory. -/
def Loaded (s t : State) (img : FwImage) : Prop :=
  { t with fabric := s.fabric, turels := s.turels } = s ∧
    t.fabric = { s.fabric with
      boot := .running, fwVersion := img.version,
      fwDigest := sha512 (Config.imageBytes img.signature img.body) } ∧
    (∀ k, k < 16 → t.turel k = ⟨[(0, ⟨0, 2 ^ 57, 0, 15, 0, true⟩)], 0, false⟩) ∧ ∀ k, 16 ≤ k → t.turel k = s.turel k
/-- Words whose bits the spec writes out field by field, with the instructions that they encode (R36, R42, R46, R52, R57;
the worked encodings of the sections on words, issue, the matrix engine, copies, traversal, ranges and stacks). -/
noncomputable def workedWords : List (List DWord × Instr) :=
  [([0x1001_7C28_00C0_2134#64], .stvB32 ⟨⟨2, 0x002, 15⟩, false, 0⟩ 12 8 2 .die .release .dflt),
   ([0x4000_F841_0260_0C16#64], .dualWord ⟨0, 0x001, 15⟩ .vadd 4 9 .fmul 6 11 false),
   ([0x8000_7800_19C8_0680#64, 0x2002_7B0C_00A0_2C0C#64],
     .prefixedPair ⟨9, true, true, .rtz, false, false, 13⟩ (.ffma ⟨⟨4, 0x004, 15⟩, false, 0⟩ 10 11 12)),
   ([0x3000_0380_0080_1C00#64], .frcp ⟨⟨6, 0, 0⟩, false, 0⟩ 8 7),
   ([0x1008_3601_4280_4100#64], .mma ⟨⟨2, 0x010, 6⟩, false, 5⟩ 0x28 0x10 2),
   ([0x0800_16C0_0280_4000#64], .cpy ⟨⟨1, 0, 2⟩, false, 0⟩ 0x28 0x10),
   ([0x0000_2F04_0280_4000#64], .rtrace ⟨⟨0, 0, 5⟩, false, 0⟩ 0x28 0x10),
   ([0x0000_0F48_0140_0003#64], .rnext ⟨⟨0, 0, 1⟩, false, 0⟩ 0x14 3),
   ([0x0000_2780_0280_4000#64], .nmv ⟨⟨0, 0, 4⟩, false, 0⟩ 0x28 0x10)]

/-- Walk micro-words that the spec writes out (R299, R308). -/
noncomputable def workedWalks : List (BitVec 32 × Instr) :=
  [(0x0800_0000#32, .ldn), (0x4A00_0009#32, .brc .l false 9), (0x48C0_0000#32, .brc .z true 0),
   (0x5800_0000#32, .wDone)]

/-- Hands of a run that have a member (R17). -/
def handsOf (run : Lanes) : Nat := (List.range 16).countP fun k => run.extractLsb' (4 * k) 4 != 0

/-- A wave and its quadrant when a word has been chosen: the quadrant dispatches for n cycles, a vector word's idle hands
are counted, the register lines it names are the latest used, and the wave's issue is noted (R17, R37, R163, R164, R167,
R175). -/
noncomputable def noted (s : State) (core quad w n : Nat) (run : Lanes) (u : Words) : State :=
  let c := s.core core
  let x := s.wave w
  { s with
    cores := AMap.put s.cores core { c with
      busy := AMap.put c.busy quad (c.cycle + n), gated := c.gated + (if u.byHands then (16 - handsOf run) * n else 0),
      lineUse := useLast c.lineUse ((u.linesFor run).map fun l => (w, l)) }
    waves := AMap.put s.waves w { x with
      lastIssue := some c.cycle, yielded := false, aging := 0, promoted := none, owed := x.owedAfter u.hdr }
    cur := w }

end Sys2Proof.Says

open Sys2Proof Sys2Proof.Machine Sys2Proof.Says

/-! The statements. -/

/-- Scalar words (R97, R119, R120, R166): the destination takes the result at the end of the latency, and the frame. -/
def Obligations.ScalarWordResult : Prop :=
  ∀ (i : Instr) (c : Ctl) (d : SReg) (srcs : List SSrc) (lat : Nat) (f : Word → Word → Word → Word) (s : State)
    (run : Lanes) (pc : Word),
    scalarForm i = some (c, .s d, srcs, lat, f) → noPorts srcs → Runs s c run pc → Steady s c.h.setf →
    ∃ u, Completes i s lat u ∧
      (cw u).rs d = f (srcVal (cw s) srcs 0) (srcVal (cw s) srcs 1) ((cw s).rs d) ∧
      (∀ r, r ≠ d → (cw u).rs r = (cw s).rs r) ∧
      Leaves s u lat run (pc + 1) fun x => { x with s := (cw s).s }

/-- Condition bits (R47, R48, R114 to R116): q0 stays 1. -/
def Sys2Proof.Says.ConditionWordResult : Prop :=
  ∀ (i : Instr) (c : Ctl) (q : BitVec 4) (lat : Nat) (f : Wave → Lanes → Bool) (s : State) (run : Lanes) (pc : Word),
    condForm i = some (c, q, lat, f) → Runs s c run pc → Steady s c.h.setf →
    ∃ u, Completes i s lat u ∧
      (cw u).rq q = (if q = 0 then true else f (cw s) ((cw s).enabled run c)) ∧
      (∀ r, r ≠ q → (cw u).rq r = (cw s).rq r) ∧
      Leaves s u lat run (pc + 1) fun x => { x with q := (cw s).q }

/-- Masks (R112, R121): m0 stays all ones. -/
def Sys2Proof.Says.MaskWordResult : Prop :=
  ∀ (i : Instr) (c : Ctl) (d : MReg) (f : Wave → Lanes → Nat → Bool) (s : State) (run : Lanes) (pc : Word),
    maskForm i = some (c, d, f) → Runs s c run pc → Steady s c.h.setf →
    ∃ u, Completes i s 2 u ∧
      (∀ l, l < 64 → ((cw u).rm d).getLsbD l = (if d = 0 then true else f (cw s) ((cw s).enabled run c) l)) ∧
      (∀ r, r ≠ d → (cw u).rm r = (cw s).rm r) ∧
      Leaves s u 2 run (pc + 1) fun x => { x with m := (cw s).m }

/-- Scalars from masks, and the sum of pairs (R120, R121). -/
def Sys2Proof.Says.MaskToScalarResult : Prop :=
  ∀ (i : Instr) (c : Ctl) (d : SReg) (f : Wave → Word) (g : Option (Wave → Word)) (s : State) (run : Lanes) (pc : Word),
    toScalarForm i = some (c, d, f, g) → wellFormed i = true → Runs s c run pc → Steady s c.h.setf →
    ∃ u, Completes i s 2 u ∧
      (cw u).rs d = f (cw s) ∧
      (∀ h, g = some h → (cw u).rs (d + 1) = h (cw s)) ∧
      (∀ r, r ≠ d → (g = none ∨ r ≠ d + 1) → (cw u).rs r = (cw s).rs r) ∧
      Leaves s u 2 run (pc + 1) fun x => { x with s := (cw s).s }

/-- A word whose predicate enables no lane of its run has no effect and writes no flag; the run goes to the next word
(R43, R97). `vsel`, opcode 0x9E, is the exception (R127), and a
barrier's COUNT above the group's wave count is illegal all the same (R60, R179). -/
def Obligations.PredicatedOffWord : Prop :=
  ∀ (i : Instr) (c : Ctl) (op : BitVec 9) (p : BitVec 30) (s : State) (run : Lanes) (pc : Word),
    encParts i = some (c, op, p) → op ≠ 0x09E → (cw s).head = some (run, pc) → (cw s).enabled run c = 0 →
    (∀ k b, i = .barSync c k b ∨ i = .barArrive c k b → k.toNat ≤ (grp s).waves) →
    ∃ t, exec i s = .next t ∧ OnlyWave s t s.cur ∧ Moves (cw s) (cw t) run (pc + 1) ∧
      { cw t with pcs := (cw s).pcs } = cw s

/-- `srd` reads a wave-scope special register; a read of sr.cycle.lo captures the counter (R31, R32, R117). -/
def Sys2Proof.Says.SpecialRegisterRead : Prop :=
  ∀ (c : Ctl) (d : SReg) (n : BitVec 12) (s : State) (run : Lanes) (pc : Word),
    wellFormed (.srd c d n) = true → Runs s c run pc → Steady s c.h.setf →
    ∃ u, Completes (.srd c d n) s 4 u ∧
      some ((cw u).rs d) = special s (cw s) 0 n.toNat ∧
      (∀ r, r ≠ d → (cw u).rs r = (cw s).rs r) ∧
      (cw u).capture = (if n = 0x010#12 then some (s.die ((cw s).core / 144)).counter else (cw s).capture) ∧
      Leaves s u 4 run (pc + 1) fun x => { x with s := (cw s).s, capture := (cw s).capture }

/-- `vsrd` gives every enabled lane the wave's value, or the lane's own (R31, R32, R117). -/
def Sys2Proof.Says.SpecialRegisterReadByLane : Prop :=
  ∀ (c : Ctl) (d : VReg) (n : BitVec 12) (s : State) (run : Lanes) (pc : Word),
    wellFormed (.vsrd c d n) = true → Runs s c run pc → Steady s c.h.setf → run &&& ~~~(cw s).launched = 0 →
    ∃ u, Completes (.vsrd c d n) s 4 u ∧
      (∀ l, l < 64 → ((cw s).enabled run c).getLsbD l = true → some ((cw u).rv d l) = special s (cw s) l n.toNat) ∧
      (∀ r l, l < 64 → r ≠ d ∨ ((cw s).enabled run c).getLsbD l = false → (cw u).rv r l = (cw s).rv r l) ∧
      (cw u).capture = (if n = 0x010#12 then some (s.die ((cw s).core / 144)).counter else (cw s).capture) ∧
      Leaves s u 4 run (pc + 1) fun x => { x with v := (cw s).v, capture := (cw s).capture }

/-- `swr` and `setprio` store what the write filter gives, and it is what a later read finds (R31, R33, R34, R113, R117,
R118). -/
def Obligations.SpecialRegisterWrite : Prop :=
  ∀ (i : Instr) (c : Ctl) (n lat : Nat) (f : State → Wave → Word) (s : State) (run : Lanes)
    (pc : Word),
    specialForm i = some (c, n, lat, f) → wellFormed i = true → Runs s c run pc → Steady s c.h.setf →
    ∃ u, Completes i s lat u ∧
      special u (cw u) 0 n = some (f s (cw s)) ∧
      (∀ m l, m ≠ n → special u (cw u) l m = special s (cw s) l m) ∧
      Leaves s u lat run (pc + 1) (withSpecials (cw s))

/-- `nop`, `bra` and `jr` (R97, R100, R101). -/
def Sys2Proof.Says.BranchWordMovesRun : Prop :=
  ∀ (i : Instr) (c : Ctl) (f : Wave → Word → Word) (s : State) (run : Lanes) (pc : Word),
    branchForm i = some (c, f) → Runs s c run pc →
    ∃ t, exec i s = .next t ∧ IssuesPlain s t c run (f (cw s) pc)

/-- `call` and `loop` (R101, R102). -/
def Sys2Proof.Says.LinkWordResult : Prop :=
  ∀ (i : Instr) (c : Ctl) (d : SReg) (f g : Wave → Word → Word) (s : State) (run : Lanes) (pc : Word),
    linkForm i = some (c, d, f, g) → Runs s c run pc → Steady s c.h.setf →
    ∃ u, Completes i s 2 u ∧ (cw u).rs d = f (cw s) pc ∧ (∀ r, r ≠ d → (cw u).rs r = (cw s).rs r) ∧
      Leaves s u 2 run (g (cw s) pc) fun x => { x with s := (cw s).s }

/-- `split` and `jmpv` send each thread of the run to its own place (R103, R104). -/
def Obligations.DivergeWordPlacesThreads : Prop :=
  ∀ (i : Instr) (c : Ctl) (f : Wave → Lanes → Word → Nat → Word) (s : State) (run : Lanes) (pc : Word),
    divergeForm i = some (c, f) → Runs s c run pc →
    ∃ t, exec i s = .next t ∧
      IssuesTo s t c run fun l =>
        if run.getLsbD l then f (cw s) ((cw s).enabled run c) pc l else (cw s).pcOf l

/-- `sync` and `exit` (R19, R105, R106): the run is syncing, or has exited and left the active trap set; then, if no
launched thread holds the others up, the syncing threads at the least PC go on. -/
def Obligations.SyncAndExitSettle : Prop :=
  ∀ (c : Ctl) (s : State) (run : Lanes) (pc : Word), Runs s c run pc →
    (∃ t w1, exec (.sync c) s = .next t ∧ Enter (cw s) w1 run .syncing ∧
      { w1 with threads := (cw s).threads } = cw s ∧
      (cw t).threads = (w1.threads.map fun e => if e.1 < 64 ∧ releasedBySync w1 e.1 then (e.1, .ready) else e) ∧
      IssuesTo s (restored t fun x => { x with threads := (cw s).threads }) c run fun l =>
        if releasedBySync w1 l then (cw s).pcOf l + 1 else (cw s).pcOf l) ∧
    (∃ t w1, exec (.exit c) s = .next t ∧ Enter (cw s) w1 run .exited ∧
      { w1 with threads := (cw s).threads } = cw s ∧
      (cw t).threads = (w1.threads.map fun e => if e.1 < 64 ∧ releasedBySync w1 e.1 then (e.1, .ready) else e) ∧
      (cw t).parked = (((cw s).parked.map fun p =>
        if p.active then { p with members := p.members &&& ~~~run } else p).filter fun p => p.members ≠ 0) ∧
      IssuesTo s (restored t fun x => { x with threads := (cw s).threads, parked := (cw s).parked }) c run fun l =>
        if releasedBySync w1 l then (cw s).pcOf l + 1 else (cw s).pcOf l)

/-- `yield` only moves its run on; the core takes note of it for its next choice (R107). -/
def Sys2Proof.Says.YieldOnlyMovesOn : Prop :=
  ∀ (c : Ctl) (s : State) (run : Lanes) (pc : Word), Runs s c run pc →
    ∃ t, exec (.yield c) s = .next t ∧ (cw t).yielded = true ∧ (cw t).aging = 0 ∧
      IssuesPlain s (restored t fun x => { x with yielded := (cw s).yielded, aging := (cw s).aging }) c run (pc + 1)

/-- `sleep` with a count of 0 goes on; else its run sleeps at the next word until the die counter has grown by the
count (R108). -/
def Sys2Proof.Says.SleepWaitsForCount : Prop :=
  ∀ (c : Ctl) (a : SReg) (i : BitVec 10) (s : State) (run : Lanes) (pc : Word), Runs s c run pc →
    ((cw s).rs a + i.signExtend 32 = 0 →
      ∃ t, exec (.sleep c a i) s = .next t ∧ IssuesPlain s t c run (pc + 1)) ∧
    ((cw s).rs a + i.signExtend 32 ≠ 0 →
      ∃ t, exec (.sleep c a i) s = .next t ∧ Enter (cw s) (cw t) run .sleeping ∧
        SleepsOn (cw s) (cw t) run pc
          (.sleep ((s.die ((cw s).core / 144)).counter + ((cw s).rs a + i.signExtend 32).setWidth 64)) 15 ∧
        IssuesPlain s (restored t fun x => { x with
          threads := (cw s).threads, sleepers := (cw s).sleepers, nextOrder := (cw s).nextOrder }) c run (pc + 1))

/-- `trap` and `brk` park their run at the word, for the user's handler or, for a breakpoint of a debugged context, for
the resident kernel (R23, R109, R186). -/
def Sys2Proof.Says.TrapWordParks : Prop :=
  ∀ (i : Instr) (c : Ctl) (cause : Cause) (code : BitVec 16) (s : State) (run : Lanes) (pc : Word),
    trapForm i = some (c, cause, code) → Runs s c run pc →
    Handled (cw s) run ∨ (cause = .breakpoint ∧ debugs s (cw s) = true) →
    ∃ t, exec i s = .next t ∧ OnlyWave s t s.cur ∧ SameButParked (cw s) (cw t) ∧
      ParkedSet (cw s) (cw t) run pc cause (cause == .breakpoint && debugs s (cw s)) (code.setWidth 64)

/-- A trap that no handler can take ends the launch: the first error is recorded, with the cause of the trap, or double
trap when the run stands between a delivery and its `rte` (R25, R180). -/
def Sys2Proof.Says.UnhandledTrapEndsLaunch : Prop :=
  ∀ (i : Instr) (c : Ctl) (cause : Cause) (code : BitVec 16) (s : State) (run : Lanes) (pc : Word),
    trapForm i = some (c, cause, code) → Runs s c run pc → (cause = .breakpoint → debugs s (cw s) = false) →
    ¬ Handled (cw s) run → (s.launch (s.errLaunch (cw s).launch)).error = none →
    ∃ t e, exec i s = .next t ∧ (t.launch (s.errLaunch (cw s).launch)).error = some e ∧
      e.cause = (if (cw s).activeMembers &&& run ≠ 0 then 0x30#8 else cause.code) ∧ e.pc = pc ∧
      e.addr = code.setWidth 64 ∧ e.gidx = (cw s).gidx ∧ e.cidx = (cw s).cidx ∧ e.lref = (s.launch (cw s).launch).lref ∧
      t.ended (cw s).launch = true ∧ ParkedSet (cw s) (cw t) run pc cause false (code.setWidth 64) ∧
      { t with waves := s.waves, launches := s.launches } = s

/-- Delivery of the oldest pending user-handled set of a resident wave (R25, R181): save words, trap registers, and the
members ready at the trap vector. -/
def Sys2Proof.Says.TrapDeliveryEntersHandler : Prop :=
  ∀ (s : State) (k : Nat) (p : Parked),
    (s.wave k).pending = some p → (s.wave k).activeMembers = 0 → (s.wave k).slot.isSome →
    s.ended (s.wave k).launch = false →
    ∃ t, exec (.trapDelivery k) s = .next t ∧ OnlyWave s t k ∧
      (t.wave k).trapcause = p.cause.code.setWidth 32 ∧ (t.wave k).trapaddr = BitVec.ofNat 64 (p.addr.toNat % 2 ^ 57) ∧
      (t.wave k).trappc = p.pc ∧
      (∀ l, l < 64 → SMap.get (t.wave k).save l =
        if p.members.getLsbD l then (s.wave k).pcOf l else SMap.get (s.wave k).save l) ∧
      Moves (s.wave k) (t.wave k) p.members (s.wave k).trapVec ∧ Enter (s.wave k) (t.wave k) p.members .ready ∧
      (t.wave k).parked = ((s.wave k).parked.map fun q => if q.order = p.order then { q with active := true } else q) ∧
      { t.wave k with trapcause := (s.wave k).trapcause, trapaddr := (s.wave k).trapaddr, trappc := (s.wave k).trappc,
                      save := (s.wave k).save, pcs := (s.wave k).pcs, threads := (s.wave k).threads,
                      parked := (s.wave k).parked, delivered := (s.wave k).delivered } = s.wave k

/-- `rte` returns the members of the active set that execute it, each to its save word moved by what the handler added
to sr.trappc; it is illegal for any other run (R184). -/
def Sys2Proof.Says.RteReturnsFromHandler : Prop :=
  ∀ (c : Ctl) (s : State) (run : Lanes) (pc : Word), Runs s c run pc →
    (run &&& ~~~(cw s).activeMembers = 0 →
      ∃ t, exec (.rte c) s = .next t ∧
        (cw t).parked = (((cw s).parked.map fun p =>
          if p.active then { p with members := p.members &&& ~~~run } else p).filter fun p => p.members ≠ 0) ∧
        IssuesTo s (restored t fun x => { x with parked := (cw s).parked }) c run fun l =>
          if run.getLsbD l then SMap.get (cw s).save l + ((cw s).trappc - (cw s).delivered) else (cw s).pcOf l) ∧
    (run &&& ~~~(cw s).activeMembers ≠ 0 → Handled (cw s) run →
      ∃ t, exec (.rte c) s = .next t ∧ OnlyWave s t s.cur ∧ SameButParked (cw s) (cw t) ∧
        ParkedSet (cw s) (cw t) run pc .illegal false 0)

/-- `upcall` captures its four arguments and parks its run at the next word for the resident kernel, after a release of
every colour at device scope (R24, R110). -/
def Obligations.UpcallParksForKernel : Prop :=
  ∀ (c : Ctl) (d a : SReg) (chan : BitVec 6) (s : State) (run : Lanes) (pc : Word), Runs s c run pc →
    ∃ t, exec (.upcall c d a chan) s = .next t ∧ OnlyWave (s.releaseAll s.cur .device) t s.cur ∧
      Raises (cw (s.releaseAll s.cur .device)) (cw t) c.h.setf ∧
      Moves (cw (s.releaseAll s.cur .device)) (cw t) run (pc + 1) ∧
      ParkedSet (cw (s.releaseAll s.cur .device)) (cw t) run (pc + 1) .upcall true (chan.setWidth 64) ∧
      ∃ p, (cw t).parked = (cw (s.releaseAll s.cur .device)).parked ++ [p] ∧ p.replyTo = d ∧ p.flag = c.h.setf ∧
        p.args = (List.range 4).map fun k => SMap.get (cw (s.releaseAll s.cur .device)).s (a.toNat + k)

/-- Integer and cross-lane vector words (R122, R125, R126, R139): every enabled lane takes its value at the end of the
latency, no other lane or register changes. -/
def Obligations.VectorWordResult : Prop :=
  ∀ (i : Instr) (c : Ctl) (d : VReg) (lat : Nat) (f : Wave → Nat → Word) (s : State) (run : Lanes) (pc : Word),
    vecForm i = some (c, d, lat, f) → Runs s c run pc → Steady s c.h.setf → Launched s run →
    ∃ u, Completes i s lat u ∧
      (∀ l, l < 64 → ((cw s).enabled run c).getLsbD l = true → (cw u).rv d l = f (cw s) l) ∧
      (∀ r l, l < 64 → r ≠ d ∨ ((cw s).enabled run c).getLsbD l = false → (cw u).rv r l = (cw s).rv r l) ∧
      Leaves s u lat run (pc + 1) fun x => { x with v := (cw s).v }

/-- `vaddp` adds pairs of registers as 64-bit values (R126), and `vsel` writes every lane of its run, as its predicate
selects (R127). -/
def Obligations.PairSumAndSelectResult : Prop :=
  (∀ (c : Ctl) (d a b : VReg) (s : State) (run : Lanes) (pc : Word),
    wellFormed (.vaddp c d a b) = true → Runs s c run pc → Steady s c.h.setf → Launched s run →
    ∃ u, Completes (.vaddp c d a b) s 4 u ∧
      (∀ l, l < 64 → ((cw s).enabled run c).getLsbD l = true →
        (rvAt (cw u) d 0 l).toNat + 2 ^ 32 * (rvAt (cw u) d 1 l).toNat =
          ((rvAt (cw s) a 0 l).toNat + 2 ^ 32 * (rvAt (cw s) a 1 l).toNat +
            ((rvAt (cw s) b 0 l).toNat + 2 ^ 32 * (rvAt (cw s) b 1 l).toNat)) % 2 ^ 64) ∧
      (∀ r l, l < 64 → (r ≠ d ∧ r.toNat ≠ d.toNat + 1) ∨ ((cw s).enabled run c).getLsbD l = false →
        (cw u).rv r l = (cw s).rv r l) ∧
      Leaves s u 4 run (pc + 1) fun x => { x with v := (cw s).v }) ∧
  (∀ (c : Ctl) (d a b : VReg) (s : State) (run : Lanes) (pc : Word),
    (cw s).head = some (run, pc) → run ≠ 0 → Steady s c.h.setf → Launched s run →
    ∃ u, Completes (.vsel c d a b) s 4 u ∧
      (∀ l, l < 64 → run.getLsbD l = true → (cw u).rv d l =
        if ((cw s).enabled run c).getLsbD l then (cw s).rv a l else (cw s).rv b l) ∧
      (∀ r l, l < 64 → r ≠ d ∨ run.getLsbD l = false → (cw u).rv r l = (cw s).rv r l) ∧
      Leaves s u 4 run (pc + 1) fun x => { x with v := (cw s).v })

/-- `vcmp` and `vcmpi` write the bits of the enabled lanes; m0 stays all ones (R28, R128). -/
def Sys2Proof.Says.VectorCompareResult : Prop :=
  ∀ (i : Instr) (c : Ctl) (d : MReg) (f : Wave → Nat → Bool) (s : State) (run : Lanes) (pc : Word),
    maskedForm i = some (c, d, f) → Runs s c run pc → Steady s c.h.setf →
    ∃ u, Completes i s 6 u ∧
      (∀ l, l < 64 → ((cw u).rm d).getLsbD l =
        if d = 0 then true else if ((cw s).enabled run c).getLsbD l then f (cw s) l else ((cw s).rm d).getLsbD l) ∧
      (∀ r, r ≠ d → (cw u).rm r = (cw s).rm r) ∧
      Leaves s u 6 run (pc + 1) fun x => { x with m := (cw s).m }

/-- Floating vector words that raise no trap (R34, R122, R129 to R138): values, accrued flags, and the frame. -/
def Obligations.FloatWordResult : Prop :=
  ∀ (i : Instr) (c : Ctl) (d : VReg) (lat : Nat) (f : Wave → Nat → Option (Word × Flags)) (s : State) (run : Lanes)
    (pc : Word),
    floatForm i = some (c, d, lat, f) → Runs s c run pc → Steady s c.h.setf → Launched s run →
    (∀ l, l < 64 → ((cw s).enabled run c).getLsbD l = true →
      ∃ r g, f (cw s) l = some (r, g) ∧ g &&& enables (cw s) = 0) →
    ∃ u, Completes i s lat u ∧
      (∀ l, l < 64 → ((cw s).enabled run c).getLsbD l = true →
        ∃ g, f (cw s) l = some ((cw u).rv d l, g)) ∧
      (∀ r l, l < 64 → r ≠ d ∨ ((cw s).enabled run c).getLsbD l = false → (cw u).rv r l = (cw s).rv r l) ∧
      Accrues (cw s) (cw u) (fun k => someLane fun l => ((cw s).enabled run c).getLsbD l &&
        match f (cw s) l with
        | some r => r.2.getLsbD k
        | none => false) ∧
      Leaves s u lat run (pc + 1) fun x => { x with v := (cw s).v, fpstat := (cw s).fpstat }

/-- Lanes that raise an exception that sr.fpctl traps park as a set of cause 0x0C and are not written; the others of
the run go on (R34, R122). -/
def Sys2Proof.Says.FloatTrapParksLanes : Prop :=
  ∀ (i : Instr) (c : Ctl) (d : VReg) (lat : Nat) (f : Wave → Nat → Option (Word × Flags)) (s : State) (run : Lanes)
    (pc : Word) (bad : Lanes),
    floatForm i = some (c, d, lat, f) → Runs s c run pc → Handled (cw s) run →
    (∀ l, l < 64 → ((cw s).enabled run c).getLsbD l = true → (f (cw s) l).isSome) →
    (∀ l, l < 64 → bad.getLsbD l = (((cw s).enabled run c).getLsbD l &&
      match f (cw s) l with
      | some r => r.2 &&& enables (cw s) != 0
      | none => false)) → bad ≠ 0 →
    ∃ t p, exec i s = .next t ∧ OnlyWave s t s.cur ∧ (cw t).parked = (cw s).parked ++ [p] ∧ p.members = bad ∧
      p.pc = pc ∧ p.cause = .fpException ∧ p.system = false ∧
      (∀ k, k < 64 → p.addr.getLsbD k = (decide (k < 5) && someLane fun l => bad.getLsbD l &&
        match f (cw s) l with
        | some r => r.2.getLsbD k
        | none => false)) ∧
      Enter (cw s) (cw t) bad .parked ∧ Moves (cw s) (cw t) (run &&& ~~~bad) (pc + 1) ∧
      (∀ r l, l < 64 → (cw t).rv r l = (cw s).rv r l)

/-- `cvt` of a reserved or impossible value parks its lane with an illegal-format trap (R136). -/
def Sys2Proof.Says.ConvertFormatTrapParksLanes : Prop :=
  ∀ (c : Ctl) (d a : VReg) (dst src : Fmt) (s : State) (run : Lanes) (pc : Word),
    Runs s c run pc → Handled (cw s) run →
    (∀ l, l < 64 → ((cw s).enabled run c).getLsbD l = true →
      convert dst src .rne false false ((cw s).rv a l) = none) →
    ∃ t, exec (.cvt c d a dst src) s = .next t ∧ OnlyWave s t s.cur ∧
      ParkedSet (cw s) (cw t) ((cw s).enabled run c) pc .illegalFormat false 0 ∧
      Moves (cw s) (cw t) (run &&& ~~~(cw s).enabled run c) (pc + 1) ∧ (∀ r l, l < 64 → (cw t).rv r l = (cw s).rv r l)

/-- `fcmp` (R47, R132), when no lane traps. -/
def Sys2Proof.Says.FloatCompareResult : Prop :=
  ∀ (c : Ctl) (d : MReg) (cc : FloatCC) (a b : VReg) (s : State) (run : Lanes) (pc : Word),
    Runs s c run pc → Steady s c.h.setf →
    ((enables (cw s)).getLsbD 0 = false ∨ ∀ l, l < 64 → ((cw s).enabled run c).getLsbD l = true →
      (floatCompares cc (f32 ((cw s).rv a l)) (f32 ((cw s).rv b l))).2 = false) →
    ∃ u, Completes (.fcmp c d cc a b) s 6 u ∧
      (∀ l, l < 64 → ((cw u).rm d).getLsbD l =
        if d = 0 then true
        else if ((cw s).enabled run c).getLsbD l then (floatCompares cc (f32 ((cw s).rv a l)) (f32 ((cw s).rv b l))).1
        else ((cw s).rm d).getLsbD l) ∧
      (∀ r, r ≠ d → (cw u).rm r = (cw s).rm r) ∧
      Accrues (cw s) (cw u) (fun k => decide (k = 0) && someLane fun l => ((cw s).enabled run c).getLsbD l &&
        (floatCompares cc (f32 ((cw s).rv a l)) (f32 ((cw s).rv b l))).2) ∧
      Leaves s u 6 run (pc + 1) fun x => { x with m := (cw s).m, fpstat := (cw s).fpstat }

/-- `vred` reduces the enabled lanes into a scalar, and `vscan` forms running results in ascending lane order (R140,
R141), when nothing traps. -/
def Obligations.ReductionAndScanResult : Prop :=
  (∀ (c : Ctl) (d : SReg) (a : VReg) (op : RedOp) (s : State) (run : Lanes) (pc : Word),
    Runs s c run pc → Steady s c.h.setf →
    (reduced op (laneValues (cw s) ((cw s).enabled run c) a)).2 &&& enables (cw s) = 0 →
    ∃ u, Completes (.vred c d a op) s 12 u ∧
      (cw u).rs d = (reduced op (laneValues (cw s) ((cw s).enabled run c) a)).1 ∧
      (∀ r, r ≠ d → (cw u).rs r = (cw s).rs r) ∧
      Accrues (cw s) (cw u) (fun k => (reduced op (laneValues (cw s) ((cw s).enabled run c) a)).2.getLsbD k) ∧
      Leaves s u 12 run (pc + 1) fun x => { x with s := (cw s).s, fpstat := (cw s).fpstat }) ∧
  (∀ (c : Ctl) (d a : VReg) (excl : Bool) (op : RedOp) (s : State) (run : Lanes) (pc : Word),
    Runs s c run pc → Steady s c.h.setf → Launched s run →
    (scanned op (laneValues (cw s) ((cw s).enabled run c) a)).2 &&& enables (cw s) = 0 →
    ∃ u, Completes (.vscan c d a excl op) s 12 u ∧
      (∀ l, l < 64 → ((cw s).enabled run c).getLsbD l = true → (cw u).rv d l =
        ((scanned op (((List.range (if excl then l else l + 1)).filter fun k =>
          ((cw s).enabled run c).getLsbD k).map fun k => (cw s).rv a k)).1).getD (identity op)) ∧
      (∀ r l, l < 64 → r ≠ d ∨ ((cw s).enabled run c).getLsbD l = false → (cw u).rv r l = (cw s).rv r l) ∧
      Accrues (cw s) (cw u) (fun k => (scanned op (laneValues (cw s) ((cw s).enabled run c) a)).2.getLsbD k) ∧
      Leaves s u 12 run (pc + 1) fun x => { x with v := (cw s).v, fpstat := (cw s).fpstat })

/-- Random draws (R94 to R96, R142, R143): each enabled lane takes the draw its count has reached and counts it; `vrseed`
sets the seed and clears the counts. -/
def Obligations.RandomWordResult : Prop :=
  (∀ (i : Instr) (c : Ctl) (d : VReg) (f : Word → Word) (s : State) (run : Lanes) (pc : Word),
    drawForm i = some (c, d, f) → Runs s c run pc → Steady s c.h.setf → Launched s run →
    ∃ u, Completes i s 8 u ∧
      (∀ l, l < 64 → ((cw s).enabled run c).getLsbD l = true →
        (cw u).rv d l = f (drawOf (cw s).seed (SMap.get (cw s).draws l) l)) ∧
      (∀ l, l < 64 → SMap.get (cw u).draws l =
        SMap.get (cw s).draws l + if ((cw s).enabled run c).getLsbD l then 1 else 0) ∧
      (∀ r l, l < 64 → r ≠ d ∨ ((cw s).enabled run c).getLsbD l = false → (cw u).rv r l = (cw s).rv r l) ∧
      Leaves s u 8 run (pc + 1) fun x => { x with v := (cw s).v, draws := (cw s).draws }) ∧
  (∀ (c : Ctl) (a : SReg) (s : State) (run : Lanes) (pc : Word),
    wellFormed (.vrseed c a) = true → Runs s c run pc →
    ∃ t, exec (.vrseed c a) s = .next t ∧ OnlyWave s t s.cur ∧ Moves (cw s) (cw t) run (pc + 1) ∧
      (cw t).seed = (cw s).rs (a + 1) ++ (cw s).rs a ∧ (∀ l, SMap.get (cw t).draws l = 0) ∧
      { cw t with seed := (cw s).seed, draws := (cw s).draws, pcs := (cw s).pcs, f := (cw s).f,
                  flights := (cw s).flights, nextOp := (cw s).nextOp } = cw s)

/-- The bits of a value that is no NaN are its own encoding, in every floating format (R73 to R76). -/
def Sys2Proof.Says.FloatBitsRoundTrip : Prop :=
  (∀ x : Word, (f32 x).isNaN = false → toF32 (f32 x) = x) ∧
  (∀ b, b < 2 ^ 16 → (fmtF16.decode b).isNaN = false → fmtF16.encode (fmtF16.decode b) = b) ∧
  (∀ b, b < 2 ^ 16 → (fmtBf16.decode b).isNaN = false → fmtBf16.encode (fmtBf16.decode b) = b) ∧
  (∀ b, b < 2 ^ 8 → (fmtE4m3.decode b).isNaN = false → fmtE4m3.encode (fmtE4m3.decode b) = b) ∧
  (∀ b, b < 2 ^ 8 → (fmtE5m2.decode b).isNaN = false → fmtE5m2.encode (fmtE5m2.decode b) = b)

/-- Rounding a magnitude `n / d`, an exact multiple of `2^q` or between two, picks the multiple each mode names (R82,
R84): the nearest with ties to even, toward zero, down, up, the nearest with ties away, or up with the probability the
draw decides. -/
def Sys2Proof.Says.RoundingPicksMultiple : Prop :=
  ∀ (neg : Bool) (n d : Nat) (q : Int) (draw : Word), 0 < d →
    let x := if 0 ≤ q then n else n * 2 ^ (-q).toNat
    let y := if 0 ≤ q then d * 2 ^ q.toNat else d
    let k (m : RMode) : Nat := (roundSig m neg n d q).1
    (∀ m, (k m * y ≤ x ∧ x < (k m + 1) * y) ∨ (x < k m * y ∧ k m * y < x + y)) ∧
    (∀ m, (roundSig m neg n d q).2 = decide (k .rtz * y ≠ x)) ∧
    (2 * k .rne * y ≤ 2 * x + y ∧ 2 * x ≤ 2 * k .rne * y + y) ∧
    (2 * k .rne * y = 2 * x + y ∨ 2 * x = 2 * k .rne * y + y → k .rne % 2 = 0) ∧
    (2 * k .rna * y ≤ 2 * x + y ∧ 2 * x < 2 * k .rna * y + y) ∧
    (k .rtz * y ≤ x) ∧
    (if neg then x ≤ k .rdn * y ∧ k .rup * y ≤ x else k .rdn * y ≤ x ∧ x ≤ k .rup * y) ∧
    (k (.sto draw) = k .rtz ∨ k (.sto draw) = k .rtz + 1) ∧
    (k (.sto draw) = k .rtz + 1 ↔ 2 ^ 32 * y ≤ (x - k .rtz * y) * 2 ^ 32 + draw.toNat * y)

/-- A dual word (R52 to R55): both slots read before either writes, each enabled lane takes both results, and the word
completes with the later slot. -/
def Sys2Proof.Says.DualWordResult : Prop :=
  ∀ (h : Hdr) (opH opL : Slot) (dH aH dL aL : BitVec 8) (p : Bool) (s : State) (run : Lanes) (pc : Word),
    wellFormed (.dualWord h opH dH aH opL dL aL p) = true → (cw s).head = some (run, pc) →
    dualLanes (cw s) run p ≠ 0 → Steady s h.setf → Launched s run → enables (cw s) = 0 →
    ∃ u, Completes (.dualWord h opH dH aH opL dL aL p) s (max (slotForm opH).1 (slotForm opL).1) u ∧
      (∀ l, l < 64 → (dualLanes (cw s) run p).getLsbD l = true →
        ((slotForm opH).2 ((cw s).rv (low dH) l) ((cw s).rv (low aH) l)).map (fun r => r.1) = some ((cw u).rv (low dH) l) ∧
        ((slotForm opL).2 ((cw s).rv (low dL) l) ((cw s).rv (low aL) l)).map (fun r => r.1) = some ((cw u).rv (low dL) l)) ∧
      (∀ r l, l < 64 → (r ≠ low dH ∧ r ≠ low dL) ∨ (dualLanes (cw s) run p).getLsbD l = false →
        (cw u).rv r l = (cw s).rv r l) ∧
      Accrues (cw s) (cw u) (fun k => someLane fun l => (dualLanes (cw s) run p).getLsbD l &&
        (((slotForm opH).2 ((cw s).rv (low dH) l) ((cw s).rv (low aH) l)).any (fun r => r.2.getLsbD k) ||
         ((slotForm opL).2 ((cw s).rv (low dL) l) ((cw s).rv (low aL) l)).any fun r => r.2.getLsbD k)) ∧
      Leaves s u (max (slotForm opH).1 (slotForm opL).1) run (pc + 1)
        fun x => { x with v := (cw s).v, fpstat := (cw s).fpstat }

/-- A prefixed pair (R56 to R58): the prefix's mask enables lanes, ZERO clears the others of the run, SAT clamps, C is
the fourth operand, RND and FTZ govern the one rounding, and the run goes on two words later. -/
def Sys2Proof.Says.PrefixedPairResult : Prop :=
  ∀ (x : Pfx) (i : Instr) (m : RMode) (h : Hdr) (d : VReg) (lat : Nat) (f : Wave → Nat → Word × Flags) (s : State)
    (run : Lanes) (pc : Word),
    modeOf (cw s) x.rnd = some m → pairForm x m i = some (h, d, lat, f) → (cw s).head = some (run, pc) →
    pairLanes (cw s) run x ≠ 0 → Steady s h.setf → Launched s run → enables (cw s) = 0 →
    ∃ u, Completes (.prefixedPair x i) s lat u ∧
      (∀ l, l < 64 → (pairLanes (cw s) run x).getLsbD l = true → (cw u).rv d l = (f (cw s) l).1) ∧
      (∀ l, l < 64 → run.getLsbD l = true → (pairLanes (cw s) run x).getLsbD l = false →
        (cw u).rv d l = if x.zero then 0 else (cw s).rv d l) ∧
      (∀ r l, l < 64 → r ≠ d ∨ run.getLsbD l = false → (cw u).rv r l = (cw s).rv r l) ∧
      Accrues (cw s) (cw u) (fun k => someLane fun l =>
        (pairLanes (cw s) run x).getLsbD l && (f (cw s) l).2.getLsbD k) ∧
      Leaves s u lat run (pc + 2) fun y => { y with v := (cw s).v, fpstat := (cw s).fpstat }

/-- Message ports (R98, R286). A source that names a receive port takes the oldest message, A before B; a run without a
message sleeps in the queue's order; a destination that names a send port uses a credit or fills the port's buffer; a
port in another mode, or a full buffer, is the port fault on the whole run with nothing taken. -/
def Obligations.PortWordResult : Prop :=
  (∀ (i : Instr) (c : Ctl) (d : SOp) (srcs pre rest : List SSrc) (lat : Nat) (f : Word → Word → Word → Word) (p : Port)
    (e : QEntry) (es : List QEntry) (s : State) (run : Lanes) (pc : Word),
    scalarForm i = some (c, d, srcs, lat, f) → srcs = pre ++ [.op (.n p)] ++ rest → noPorts pre → noPorts rest →
    Runs s c run pc → Steady s c.h.setf → ((cw s).port p.toNat).mode = 2 → CanWrite (cw s) d →
    (portQueue s p).takers = [] → (portQueue s p).entries = e :: es →
    ∃ t, exec i s = .next t ∧
      Issues s (clustersBack s t) c run (pc + 1) ⟨.result [destWrite d
        (f (srcWith (cw s) srcs pre.length e 0) (srcWith (cw s) srcs pre.length e 1) (oldOf (cw s) d))],
        c.h.setf, run, []⟩ ∧
      OnlyQueue s (wavesBack s t) (portCluster s p) (portNumber s p) ∧ (portQueue t p).entries = es ∧
      (portQueue t p).pushes = (portQueue s p).pushes ∧ (portQueue t p).takers = []) ∧
  (∀ (i : Instr) (c : Ctl) (d : SOp) (lat : Nat) (f : Word → Word → Word → Word) (p q : Port) (e g : QEntry)
    (es gs : List QEntry) (s : State) (run : Lanes) (pc : Word),
    scalarForm i = some (c, d, [.op (.n p), .op (.n q)], lat, f) → Runs s c run pc → Steady s c.h.setf →
    ((cw s).port p.toNat).mode = 2 → ((cw s).port q.toNat).mode = 2 → CanWrite (cw s) d →
    (portQueue s p).takers = [] → (portQueue s q).takers = [] → (portQueue s p).entries = e :: es →
    (if portCluster s p = portCluster s q ∧ portNumber s p = portNumber s q then es = g :: gs
     else (portQueue s q).entries = g :: gs) →
    ((cw s).port p.toNat).target.toNat < 2 ^ 14 → ((cw s).port q.toNat).target.toNat < 2 ^ 14 →
    ∃ t, exec i s = .next t ∧
      Issues s (clustersBack s t) c run (pc + 1) ⟨.result [destWrite d
        (f (e.words.getD 1 0) (g.words.getD 1 0) (oldOf (cw s) d))], c.h.setf, run, []⟩ ∧
      (∀ k n, ¬(k = portCluster s p ∧ n = portNumber s p) → ¬(k = portCluster s q ∧ n = portNumber s q) →
        t.queue k n = s.queue k n) ∧ (∀ k, { t.cluster k with queues := (s.cluster k).queues } = s.cluster k) ∧
      (portQueue t q).entries = gs ∧
      ((portCluster s p ≠ portCluster s q ∨ portNumber s p ≠ portNumber s q) → (portQueue t p).entries = es)) ∧
  (∀ (i : Instr) (c : Ctl) (d : SOp) (srcs pre rest : List SSrc) (lat : Nat) (f : Word → Word → Word → Word) (p : Port)
    (s : State) (run : Lanes) (pc : Word),
    scalarForm i = some (c, d, srcs, lat, f) → srcs = pre ++ [.op (.n p)] ++ rest → noPorts pre → noPorts rest →
    Runs s c run pc → Steady s c.h.setf → ((cw s).port p.toNat).mode = 2 → CanWrite (cw s) d →
    (portQueue s p).takers ≠ [] ∨ (portQueue s p).entries = [] →
    ∃ t o a b va vb, exec i s = .next t ∧
      (if pre = [] then va = none ∧ ∃ y, vb = some y ∧ ∀ x z, o.eval x y z = f x (srcVal (cw s) srcs 1) z
        else va = some (srcVal (cw s) srcs 0) ∧ vb = none ∧
          ∀ y z, o.eval (srcVal (cw s) srcs 0) y z = f (srcVal (cw s) srcs 0) y z) ∧
      Sleeps s (clustersBack s t) c run pc (pc + 1) (.port o a b d va vb) ∧
      OnlyQueue s (wavesBack s t) (portCluster s p) (portNumber s p) ∧
      portQueue t p = { portQueue s p with
        takers := (portQueue s p).takers ++ [.read s.cur (cw s).nextOrder (decide (pre.length = 1))] }) ∧
  (∀ (i : Instr) (c : Ctl) (srcs : List SSrc) (lat : Nat) (f : Word → Word → Word → Word) (p : Port) (s : State)
    (run : Lanes) (pc : Word),
    scalarForm i = some (c, .n p, srcs, lat, f) → noPorts srcs → Runs s c run pc → Steady s c.h.setf →
    CanWrite (cw s) (.n p) →
    ∃ u, Completes i s lat u ∧
      Leaves s (clustersBack s u) lat run (pc + 1) (fun x => { x with ports := (cw s).ports }) ∧
      (∀ k, k ≠ p.toNat → (cw u).port k = (cw s).port k) ∧
      (((cw s).port p.toNat).held = 0 → (later s lat).clusters = u.clusters ∧
        (cw u).port p.toNat = { (cw s).port p.toNat with
          full := some (f (srcVal (cw s) srcs 0) (srcVal (cw s) srcs 1) 0) }) ∧
      (((cw s).port p.toNat).held ≠ 0 →
        (cw u).port p.toNat = { (cw s).port p.toNat with held := ((cw s).port p.toNat).held - 1 } ∧
        OnlyQueue (later s lat) (wavesBack (later s lat) u) (portCluster s p) (portNumber s p) ∧
        portQueue u p = { portQueue s p with pushes := (portQueue s p).pushes ++ [⟨⟨[((cw s).port p.toNat).hdr,
          f (srcVal (cw s) srcs 0) (srcVal (cw s) srcs 1) 0, 0, 0, 0, 0, 0, 0], some (s.cur, p.toNat, ((cw s).port p.toNat).resv)⟩, none⟩] })) ∧
  (∀ (i : Instr) (c : Ctl) (d : SOp) (srcs : List SSrc) (lat : Nat) (f : Word → Word → Word → Word) (p : Port) (s : State)
    (run : Lanes) (pc : Word),
    scalarForm i = some (c, d, srcs, lat, f) → Runs s c run pc → Handled (cw s) run →
    (∃ pre rest, srcs = pre ++ [.op (.n p)] ++ rest ∧ ((cw s).port p.toNat).mode ≠ 2 ∧
        ∀ q, .op (.n q) ∈ pre → ((cw s).port q.toNat).mode = 2) ∨
      (d = .n p ∧ (((cw s).port p.toNat).mode ≠ 1 ∨ ((cw s).port p.toNat).full.isSome) ∧
        ∀ q, .op (.n q) ∈ srcs → ((cw s).port q.toNat).mode = 2) →
    ∃ t, exec i s = .next t ∧ Parks s t run pc .portFault false (BitVec.ofNat 64 p.toNat))

/-- A per-lane memory word whose addresses all lead somewhere (R144, R146, R150, R153, R154, R158) puts one operation in
flight with an access for each enabled lane: its address and its data as they stand at issue. Resolving the addresses
comes first, `s1` being the machine after it. -/
def Sys2Proof.Says.LaneMemoryWordIssues : Prop :=
  (∀ (i : Instr) (c : Ctl) (sp : Space) (k : FlightKind) (a d : VReg) (d2 : Nat) (s s1 : State) (rs : List Resolved)
    (run : Lanes) (pc : Word),
    laneMemForm i = some (c, sp, k, a, d, d2) → Runs s c run pc →
    s.resolveAll s.cur sp k.size (asks k) (isRmw k) (laneAddresses (cw s) sp a ((cw s).enabled run c)) = (rs, s1) →
    AllResolve s1 rs → Steady s1 c.h.setf →
    ∃ t accs, exec i s = .next t ∧ Issues s1 t c run (pc + 1) ⟨k, c.h.setf, (cw s).enabled run c, accs⟩ ∧
      HasAccesses pc (laneAddresses (cw s) sp a ((cw s).enabled run c)) rs accs ∧ HasData (cw s) d d2 accs ∧
      (sp = .local_ → s1 = s ∧ ∀ x ∈ accs, x.loc = .scratch ((cw s).localbase.toNat + x.va))) ∧
  (∀ (i : Instr) (c : Ctl) (k : FlightKind) (a : VReg) (s s1 : State) (rs : List Resolved) (run : Lanes) (pc : Word),
    lineForm i = some (c, k, a) → Runs s c run pc →
    s.resolveAll s.cur .global 64 .load false
      ((laneAddresses (cw s) .global a ((cw s).enabled run c)).map fun x => (x.1, x.2 / 64 * 64)) = (rs, s1) →
    AllResolve s1 rs → Steady s1 c.h.setf →
    ∃ t accs, exec i s = .next t ∧ Issues s1 t c run (pc + 1) ⟨k, c.h.setf, (cw s).enabled run c, accs⟩ ∧
      HasAccesses pc ((laneAddresses (cw s) .global a ((cw s).enabled run c)).map fun x => (x.1, x.2 / 64 * 64)) rs accs)

/-- A uniform memory word whose address leads somewhere (R152, R154) makes one access of the whole run. -/
def Sys2Proof.Says.UniformMemoryWordIssues : Prop :=
  ∀ (i : Instr) (c : Ctl) (k : FlightKind) (a d : SReg) (d2 : Nat) (s s1 : State) (p : Loc) (addr : Nat) (run : Lanes)
    (pc : Word),
    uniformMemForm i = some (c, k, a, d, d2) → Runs s c run pc →
    addr = (SMap.get (cw s).s a.toNat).toNat + 2 ^ 32 * (SMap.get (cw s).s (a.toNat + 1)).toNat →
    s.resolve s.cur .global addr k.size (asks k) (isRmw k) = (.ok p, s1) → s1.peerPcie p = false → Steady s1 c.h.setf →
    ∃ t data data2, exec i s = .next t ∧
      Issues s1 t c run (pc + 1) ⟨k, c.h.setf, run, [⟨64, p, data, data2, none, addr, pc⟩]⟩ ∧
      (∀ j, j < 4 → data.toNat / 2 ^ (32 * j) % 2 ^ 32 = (SMap.get (cw s).s (d.toNat + j)).toNat) ∧
      (∀ j, j < 2 → data2.toNat / 2 ^ (32 * j) % 2 ^ 32 = (SMap.get (cw s).s (d.toNat + d2 + j)).toNat)

/-- Addresses that fault (R144 to R146, R183, R412): misalignment comes first, an offset beyond the local space is an
access fault; a read-modify-write of a lost sector, and a read of local bytes with an uncorrectable error, is a data
loss (R407); the lanes of a cause park together with the address of the lowest, the others go on; a uniform access parks
its run; PCI Express carries only add, exchange and compare-and-swap. -/
def Obligations.FaultingAddressesPark : Prop :=
  (∀ (s : State) (w addr n : Nat) (sp : Space) (acc : Access) (rmw : Bool), addr % n ≠ 0 →
    s.resolve w sp addr n acc rmw = (.error .misalignment, s)) ∧
  (∀ (s : State) (w addr n : Nat) (acc : Access) (rmw : Bool), addr % n = 0 →
    (acc = .load ∨ rmw = true → ((s.wave w).localbase.toNat + addr) / 64 ∉ (s.cluster ((s.wave w).core / 12)).upset) →
    s.resolve w .local_ addr n acc rmw = (if addr < 2 ^ 23 ∧ addr + n ≤ (s.wave w).localsize.toNat
      then .ok (.scratch ((s.wave w).localbase.toNat + addr)) else .error .access, s)) ∧
  (∀ (s : State) (w addr n : Nat) (acc : Access) (rmw : Bool), addr % n = 0 → 2 ^ 57 ≤ addr →
    s.resolve w .global addr n acc rmw = (.error .access, s)) ∧
  (∀ (s : State) (w addr n : Nat) (acc : Access) (rmw : Bool), addr % n = 0 → addr < 2 ^ 23 →
    addr + n ≤ (s.wave w).localsize.toNat → acc = .load ∨ rmw = true →
    ((s.wave w).localbase.toNat + addr) / 64 ∈ (s.cluster ((s.wave w).core / 12)).upset →
    (s.resolve w .local_ addr n acc rmw).1 = .error .dataLoss) ∧
  (∀ (s s1 : State) (w addr n : Nat) (h : Hit), addr % n = 0 →
    s.translate (some (s.wave w).core) ((s.wave w).core / 12) (s.wave w).pasid addr .store = (.ok h, s1) →
    s1.aliasHit w addr n = false → s1.sectorLost h.pa = true →
    s.resolve w .global addr n .store true = (.error .dataLoss, s1) ∧
    s.resolve w .global addr n .store false = (.ok (.mem h.pa), s1)) ∧
  (∀ (i : Instr) (c : Ctl) (sp : Space) (k : FlightKind) (a d : VReg) (d2 : Nat) (s s1 : State) (rs : List Resolved)
    (run bad : Lanes) (pc : Word) (cause : Cause) (first : Nat),
    laneMemForm i = some (c, sp, k, a, d, d2) → Runs s c run pc →
    s.resolveAll s.cur sp k.size (asks k) (isRmw k) (laneAddresses (cw s) sp a ((cw s).enabled run c)) = (rs, s1) →
    cause ∈ [.misalignment, .translation, .access, .dataLoss] →
    (∀ r ∈ rs, if bad.getLsbD r.lane then r.loc = .error cause else ∃ p, r.loc = .ok p ∧ s1.peerPcie p = false) →
    bad ≠ 0 → bad &&& ~~~(cw s).enabled run c = 0 →
    (bad.getLsbD first = true ∧ ∀ l, l < first → bad.getLsbD l = false) →
    Steady s1 c.h.setf → (cause = .misalignment → Handled (cw s1) bad) →
    ∃ t accs, exec i s = .next t ∧ OnlyWave s1 t s.cur ∧
      ParkedSet (cw s1) (cw t) bad pc cause (decide (cause ≠ .misalignment))
        (BitVec.ofNat 64 (laneAddr (cw s) sp a first)) ∧
      Moves (cw s1) (cw t) (run &&& ~~~bad) (pc + 1) ∧ Raises (cw s1) (cw t) c.h.setf ∧
      AddsFlight (cw s1) (cw t) ⟨k, c.h.setf, (cw s).enabled run c &&& ~~~bad, accs⟩ ∧
      accs.map (fun x => (x.lane, x.va)) = (laneAddresses (cw s) sp a ((cw s).enabled run c &&& ~~~bad)) ∧
      HasData (cw s) d d2 accs ∧
      { cw t with
        pcs := (cw s1).pcs, f := (cw s1).f, flights := (cw s1).flights, nextOp := (cw s1).nextOp,
        threads := (cw s1).threads, parked := (cw s1).parked, nextOrder := (cw s1).nextOrder } = cw s1) ∧
  (∀ (i : Instr) (c : Ctl) (k : FlightKind) (a d : SReg) (d2 : Nat) (s s1 : State) (addr : Nat) (run : Lanes) (pc : Word)
    (cause : Cause),
    uniformMemForm i = some (c, k, a, d, d2) → Runs s c run pc →
    addr = (SMap.get (cw s).s a.toNat).toNat + 2 ^ 32 * (SMap.get (cw s).s (a.toNat + 1)).toNat →
    s.resolve s.cur .global addr k.size (asks k) (isRmw k) = (.error cause, s1) →
    cause ∈ [.misalignment, .translation, .access, .dataLoss] → (cause = .misalignment → Handled (cw s1) run) →
    ∃ t, exec i s = .next t ∧ Parks s1 t run pc cause (decide (cause ≠ .misalignment)) (BitVec.ofNat 64 addr)) ∧
  (∀ (f : RmwFn) (s : State) (r : Resolved) (p : Loc), r.loc = .ok p → s.peerPcie p = true →
    s.pcieFilter f [r] = [{ r with loc := if f ∈ [.op .add, .op .xchg, .cas] then .ok p else .error .access }])

/-- A load completes (R39, R148, R150, R152): the values its accesses read reach the registers of each lane, bytes and
halves extended as the form says; an access still to perform reads its cluster's scratch space, its core's L1 over the
home, or with `l2Direct` the home. Memory is unchanged. -/
def Sys2Proof.Says.LoadCompletionWritesRegisters : Prop :=
  (∀ (s : State) (k o n : Nat) (ext : Extend) (d : VReg) (ord : LdOrd) (sco : Scope) (ch : Chan) (f : Flight),
    At s k o f → f.kind = .load n ext (.v d) ord sco ch → n ∈ sizes → (f.accs.map fun a => a.lane).Nodup →
    (∀ a ∈ f.accs, a.lane < 64 ∧ (s.wave k).launched.getLsbD a.lane = true ∧ ∃ v, a.got = some v ∧ v.toNat < 256 ^ n) →
    ∃ t, exec (.loadComplete k o) s = .next t ∧ OnlyWave s t k ∧ Ends (s.wave k) (t.wave k) o f.flag ∧
      (∀ a ∈ f.accs, ∀ v, a.got = some v → ∀ j, j < regsOf n →
        rvAt (t.wave k) d j a.lane = resultWord n ext v.toNat j) ∧
      (∀ r l, l < 64 → (∀ a ∈ f.accs, ∀ j, j < regsOf n → ¬(a.lane = l ∧ r = BitVec.ofNat 10 (d.toNat + j))) →
        (t.wave k).rv r l = (s.wave k).rv r l) ∧
      { t.wave k with v := (s.wave k).v, f := (s.wave k).f, flights := (s.wave k).flights } = s.wave k) ∧
  (∀ (s : State) (k o n : Nat) (ext : Extend) (d : SReg) (ord : LdOrd) (sco : Scope) (ch : Chan) (f : Flight)
    (a : LaneAcc) (v : BitVec 128),
    At s k o f → f.kind = .load n ext (.s d) ord sco ch → n ∈ sizes → f.accs = [a] → a.got = some v →
    v.toNat < 256 ^ n →
    ∃ t, exec (.loadComplete k o) s = .next t ∧ OnlyWave s t k ∧ Ends (s.wave k) (t.wave k) o f.flag ∧
      (∀ j, j < regsOf n → (t.wave k).rs (d + BitVec.ofNat 8 j) = resultWord n ext v.toNat j) ∧
      (∀ r, (∀ j, j < regsOf n → r ≠ d + BitVec.ofNat 8 j) → (t.wave k).rs r = (s.wave k).rs r) ∧
      { t.wave k with s := (s.wave k).s, f := (s.wave k).f, flights := (s.wave k).flights } = s.wave k) ∧
  (∀ (s : State) (k o n : Nat) (ext : Extend) (d : VReg) (ord : LdOrd) (sco : Scope) (ch : Chan) (f : Flight)
    (a : LaneAcc) (v : Nat),
    Alone s k o f a → f.kind = .load n ext (.v d) ord sco ch → n ∈ sizes → a.lane < 64 →
    (s.wave k).launched.getLsbD a.lane = true →
    ((∃ off, a.loc = .scratch off ∧ (ord = .acquire → atL2 sco = false) ∧
        v = inScratch s (clusterOf (s.wave k).core) off n) ∨
      (∃ pa, a.loc = .mem pa ∧ InDram pa n ∧ pa % n = 0 ∧ ord = .plain ∧
        ((ch = .dflt ∧ v = seenValue s (s.wave k).core pa n) ∨
         (ch = .l2Direct ∧ v = atHome s pa n ∧
            ∀ x, pa / 4 ≤ x / 4 → x / 4 * 4 < pa + n → AMap.find (s.core (s.wave k).core).l1 x = none)))) →
    ∃ t, exec (.loadComplete k o) s = .next t ∧ { t with waves := s.waves, cores := s.cores } = s ∧
      (∀ j, j ≠ k → t.wave j = s.wave j) ∧ Ends (s.wave k) (t.wave k) o f.flag ∧
      (∀ j, j < regsOf n → rvAt (t.wave k) d j a.lane = resultWord n ext v j) ∧
      (∀ r l, l < 64 → (∀ j, j < regsOf n → ¬(a.lane = l ∧ r = BitVec.ofNat 10 (d.toNat + j))) →
        (t.wave k).rv r l = (s.wave k).rv r l) ∧
      (∀ x, t.homeByte x = s.homeByte x) ∧ (∀ j x, seenBy t j x = seenBy s j x) ∧
      { t.wave k with v := (s.wave k).v, f := (s.wave k).f, flights := (s.wave k).flights } = s.wave k)

/-- A store is performed (R148 to R150, R152): the bytes [pa, pa + n) take the data, in the scratch space, in the core's
L1 for a plain store, or at their home with `l2Direct`, which takes the dirty bytes of its granule along (R331); every
other byte stays as it was, and the written bits of the
watches on the sector rise (R321). -/
def Sys2Proof.Says.StorePerformedWritesBytes : Prop :=
  (∀ (s : State) (k o n off : Nat) (ord : StOrd) (sco : Scope) (ch : Chan) (col : BitVec 3) (f : Flight) (a : LaneAcc),
    Alone s k o f a → f.kind = .store n ord sco ch col → n ∈ sizes → a.loc = .scratch off →
    (ord = .release → atL2 sco = false) →
    ∃ t, exec (.storePerformed k o) s = .next t ∧ OnlyWave s (clustersBack s t) k ∧
      Ends (s.wave k) (t.wave k) o f.flag ∧
      { t.wave k with f := (s.wave k).f, flights := (s.wave k).flights } = s.wave k ∧
      (∀ c x, SMap.get (t.cluster c).scratch x =
        if c = clusterOf (s.wave k).core ∧ off ≤ x ∧ x < off + n then byteOf a.data.toNat (x - off)
        else SMap.get (s.cluster c).scratch x) ∧
      (∀ c, { t.cluster c with scratch := (s.cluster c).scratch } = s.cluster c)) ∧
  (∀ (s : State) (k o n pa : Nat) (sco : Scope) (col : BitVec 3) (f : Flight) (a : LaneAcc),
    Alone s k o f a → f.kind = .store n .plain sco .dflt col → n ∈ sizes → a.loc = .mem pa → InDram pa n → pa % n = 0 →
    ∃ t, exec (.storePerformed k o) s = .next t ∧ { t with waves := s.waves, cores := s.cores } = s ∧
      Ends (s.wave k) (t.wave k) o f.flag ∧
      (∀ x, seenBy t (s.wave k).core x =
        if pa ≤ x ∧ x < pa + n then byteOf a.data.toNat (x - pa) else seenBy s (s.wave k).core x) ∧
      (∀ x, t.homeByte x = s.homeByte x) ∧ (∀ j, j ≠ (s.wave k).core → t.core j = s.core j) ∧
      (∀ j, (t.wave j).watch = (s.wave j).watch.map fun u =>
        if u.pa / 64 = pa / 64 ∧ (s.wave j).core = (s.wave k).core ∧ (s.wave j).slot.isSome then
          { u with written := true } else u) ∧
      (∀ j, j ≠ k → { t.wave j with watch := (s.wave j).watch } = s.wave j) ∧
      { t.wave k with f := (s.wave k).f, flights := (s.wave k).flights, watch := (s.wave k).watch } = s.wave k) ∧
  (∀ (s : State) (k o n pa : Nat) (sco : Scope) (col : BitVec 3) (f : Flight) (a : LaneAcc),
    Alone s k o f a → (f.kind = .store n .plain sco .l2Direct col ∨ f.kind = .store n .plain sco .stream col ∨
      (f.kind = .pxout ∧ n = 4 ∧ s.pixelTurn k = true)) → n ∈ sizes → a.loc = .mem pa → InDram pa n → pa % n = 0 →
    AMap.sorted (s.core (s.wave k).core).l1 = true →
    ∃ t, exec (.storePerformed k o) s = .next t ∧ Ends (s.wave k) (t.wave k) o f.flag ∧
      HomeWrite s t (fun x => if pa ≤ x ∧ x < pa + n then some (byteOf a.data.toNat (x - pa))
        else if pa / 4 = x / 4 then ((AMap.find (s.core (s.wave k).core).l1 x).filter fun b => b.dirty).map fun b => b.val
        else none) ∧
      (∀ j, j ≠ k → { t.wave j with watch := (s.wave j).watch } = s.wave j) ∧
      { t.wave k with f := (s.wave k).f, flights := (s.wave k).flights, watch := (s.wave k).watch } = s.wave k) ∧
  (∀ (s : State) (k o pa : Nat) (wr inv : Bool) (f : Flight) (a : LaneAcc),
    Alone s k o f a → f.kind = .cache wr inv false false false → a.loc = .mem pa → InDram (pa / 64 * 64) 64 →
    AMap.sorted (s.core (s.wave k).core).l1 = true →
    ∃ t, exec (.storePerformed k o) s = .next t ∧ Ends (s.wave k) (t.wave k) o f.flag ∧
      HomeWrite s t (fun x => match AMap.find (s.core (s.wave k).core).l1 x with
        | some b => if wr && b.dirty && x / 64 == pa / 64 then some b.val else none
        | none => none) ∧
      (∀ x, AMap.find (t.core (s.wave k).core).l1 x =
        if inv && x / 64 == pa / 64 then none
        else (AMap.find (s.core (s.wave k).core).l1 x).map fun b =>
          if wr && x / 64 == pa / 64 then { b with dirty := false } else b) ∧
      (∀ j, j ≠ k → { t.wave j with watch := (s.wave j).watch } = s.wave j) ∧
      { t.wave k with f := (s.wave k).f, flights := (s.wave k).flights, watch := (s.wave k).watch } = s.wave k)

/-- A read-modify-write is performed (R153 to R155): the old value goes to the destination and the result to memory in
one action, at the scratch bank or at the home; a compare-and-swap that fails stores nothing. -/
def Obligations.RmwPerformedSwapsValue : Prop :=
  ∀ (s : State) (k o n old : Nat) (fn : RmwFn) (dest : MemDest) (ord : RmwOrd) (sco : Scope) (col : BitVec 3)
    (f : Flight) (a : LaneAcc) (new : Option Nat),
    Alone s k o f a → f.kind = .rmw n fn dest ord sco col → (n = 4 ∨ (n = 8 ∧ fn ≠ .addF32 ∧ fn ≠ .addBf16x2)) →
    (ord = .relaxed ∨ atL2 sco = false) →
    ((∃ off, a.loc = .scratch off ∧ old = inScratch s (clusterOf (s.wave k).core) off n) ∨
      (∃ pa, a.loc = .mem pa ∧ InDram pa n ∧ pa % n = 0 ∧ old = atHome s pa n ∧
        ∀ j, j < n → AMap.find (s.core (s.wave k).core).l1 (pa + j) = none)) →
    (match dest with
      | .v _ => a.lane < 64 ∧ (s.wave k).launched.getLsbD a.lane = true
      | .s _ => n = 4) →
    new = rmwRule fn n old (a.data.toNat % 256 ^ n) (a.data2.toNat % 256 ^ n) →
    ∃ t, exec (.rmwPerformed k o) s = .next t ∧ Ends (s.wave k) (t.wave k) o f.flag ∧
      (match dest with
        | .v d => (∀ j, j < regsOf n → rvAt (t.wave k) d j a.lane = BitVec.ofNat 32 (old / 2 ^ (32 * j))) ∧
            (t.wave k).s = (s.wave k).s ∧
            ∀ r l, l < 64 → (∀ j, j < regsOf n → ¬(a.lane = l ∧ r = BitVec.ofNat 10 (d.toNat + j))) →
              (t.wave k).rv r l = (s.wave k).rv r l
        | .s d => (t.wave k).rs d = BitVec.ofNat 32 old ∧ (t.wave k).v = (s.wave k).v ∧
            ∀ r, r ≠ d → (t.wave k).rs r = (s.wave k).rs r) ∧
      { t.wave k with
        v := (s.wave k).v, s := (s.wave k).s, f := (s.wave k).f, flights := (s.wave k).flights,
        watch := (s.wave k).watch } = s.wave k ∧
      (∀ j, j ≠ k → { t.wave j with watch := (s.wave j).watch } = s.wave j) ∧
      (match a.loc with
        | .scratch off => { t with waves := s.waves, clusters := s.clusters } = s ∧
            ∀ c x, SMap.get (t.cluster c).scratch x =
              if c = clusterOf (s.wave k).core ∧ off ≤ x ∧ x < off + n ∧ new.isSome then byteOf (new.getD 0) (x - off)
              else SMap.get (s.cluster c).scratch x
        | .mem pa => HomeWrite s t fun x => if pa ≤ x ∧ x < pa + n then new.map (fun v => byteOf v (x - pa)) else none)

/-- Fences (R149, R156): a fence is an operation of its wave; when the earlier operations are over it completes, and at
cohort scope or wider a release writes the dirty bytes of its colours home and an acquire drops what is then clean; while
an earlier load is in flight it stays. -/
def Obligations.FenceOrdersAndCompletes : Prop :=
  (∀ (c : Ctl) (cols : BitVec 8) (fk : FenceKind) (sco : Scope) (s : State) (run : Lanes) (pc : Word),
    Runs s c run pc → Steady s c.h.setf →
    ∃ t, exec (.fence c cols fk sco) s = .next t ∧
      Issues s t c run (pc + 1) ⟨.fence fk sco cols, c.h.setf, (cw s).launched, []⟩) ∧
  (∀ (s : State) (k o : Nat) (fk : FenceKind) (sco : Scope) (cols : BitVec 8) (f : Flight),
    At s k o f → f.kind = .fence fk sco cols → (∀ e ∈ (s.wave k).flights, o ≤ e.1) →
    (s.canRelease (s.wave k).core cols = true) → AMap.sorted (s.core (s.wave k).core).l1 = true →
    (∀ e ∈ (s.core (s.wave k).core).l1, e.2.dirty = true → InDram e.1 1) →
    ∃ t, exec (.fenceComplete k o) s = .next t ∧ Ends (s.wave k) (t.wave k) o f.flag ∧
      { t.wave k with f := (s.wave k).f, flights := (s.wave k).flights, watch := (s.wave k).watch } = s.wave k ∧
      (∀ j, j ≠ k → { t.wave j with watch := (s.wave j).watch } = s.wave j) ∧
      HomeWrite s t (fun x => match AMap.find (s.core (s.wave k).core).l1 x with
        | some b => if atL2 sco && fk != .acquire && b.dirty && cols.getLsbD b.colour.toNat then some b.val else none
        | none => none) ∧
      (∀ x, AMap.find (t.core (s.wave k).core).l1 x =
        match AMap.find (s.core (s.wave k).core).l1 x with
        | none => none
        | some b =>
          let dirty := b.dirty && !(atL2 sco && fk != .acquire && cols.getLsbD b.colour.toNat)
          if atL2 sco && fk != .release && !dirty then none else some { b with dirty := dirty })) ∧
  (∀ (s : State) (k o p : Nat) (fk : FenceKind) (sco : Scope) (cols : BitVec 8) (f g : Flight) (n : Nat) (ext : Extend)
    (dest : MemDest) (ord : LdOrd) (sco2 : Scope) (ch : Chan),
    AMap.find (s.wave k).flights o = some f → f.kind = .fence fk sco cols → (p, g) ∈ (s.wave k).flights → p < o →
    g.kind = .load n ext dest ord sco2 ch → exec (.fenceComplete k o) s = .next s)

/-- Waits on memory and prefetches (R157, R158, R177, R321). `monitor` arms the wave's watch; `mwait` completes with the
word's value when the watched sector was written or the word differs, else its run sleeps; where an earlier access of
its run to the word is still to be performed, it sleeps until its read may be made (R159); the written bit wakes it;
`pf` brings a line into the cache its path names and never faults. -/
def Obligations.WatchWaitAndPrefetch : Prop :=
  (∀ (c : Ctl) (a : SReg) (col : BitVec 3) (sco : Scope) (ch : Chan) (s s1 : State) (addr pa : Nat) (run : Lanes)
    (pc : Word),
    Runs s c run pc →
    addr = (SMap.get (cw s).s a.toNat).toNat + 2 ^ 32 * (SMap.get (cw s).s (a.toNat + 1)).toNat →
    s.resolve s.cur .global addr 4 .load false = (.ok (.mem pa), s1) →
    ∃ t held, exec (.monitor c a col sco ch) s = .next t ∧ (cw t).watch = some ⟨addr, pa, false, held⟩ ∧
      IssuesPlain s1 (restored t fun x => { x with watch := (cw s1).watch }) c run (pc + 1)) ∧
  (∀ (c : Ctl) (d a : SReg) (col : BitVec 3) (sco : Scope) (s s1 : State) (addr pa : Nat) (run : Lanes)
    (pc : Word) (written : Bool),
    Runs s c run pc → Steady s1 c.h.setf →
    addr = (SMap.get (cw s).s a.toNat).toNat + 2 ^ 32 * (SMap.get (cw s).s (a.toNat + 1)).toNat →
    s.resolve s.cur .global addr 4 .load false = (.ok (.mem pa), s1) → InDram pa 4 → pa % 4 = 0 →
    (cw s).mayRead (cw s).nextOp run pa d .plain sco .dflt = true →
    written = (match (cw s).watch with
      | some u => u.pa / 64 == pa / 64 && match (cw s1).watch with
        | some u1 => u1.written
        | none => false
      | none => false) →
    ∃ t held, exec (.mwait c d a col sco .plain .dflt) s = .next t ∧ { t with waves := s1.waves, cores := s1.cores } = s1 ∧
      (∀ j, j ≠ s.cur → t.wave j = s1.wave j) ∧ Moves (cw s1) (cw t) run (pc + 1) ∧ Raises (cw s1) (cw t) c.h.setf ∧
      (cw t).watch = (if (cw s).watch.any (fun u => u.pa / 64 == pa / 64)
        then (cw s1).watch.map fun u => { u with written := false } else some ⟨addr, pa, false, held⟩) ∧
      (if written = true ∨ BitVec.ofNat 32 (seenValue s1 (cw s1).core pa 4) ≠ (cw s).rs d then
        AddsFlight (cw s1) (cw t)
          ⟨.result [.s d (BitVec.ofNat 32 (seenValue s1 (cw s1).core pa 4))], c.h.setf, run, []⟩ ∧
        { cw t with
          watch := (cw s1).watch, pcs := (cw s1).pcs, f := (cw s1).f, flights := (cw s1).flights,
          nextOp := (cw s1).nextOp } = cw s1
      else
        Enter (cw s1) (cw t) run .sleeping ∧
        SleepsOn (cw s1) (cw t) run pc (.mwait addr pa ((cw s).rs d) d .plain sco .dflt none) c.h.setf ∧
        SameButSleep (cw s1) { cw t with watch := (cw s1).watch })) ∧
  (∀ (c : Ctl) (d a : SReg) (col : BitVec 3) (sco : Scope) (ord : LdOrd) (ch : Chan) (s s1 : State) (addr pa : Nat)
    (run : Lanes) (pc : Word),
    Runs s c run pc → Steady s1 c.h.setf →
    addr = (SMap.get (cw s).s a.toNat).toNat + 2 ^ 32 * (SMap.get (cw s).s (a.toNat + 1)).toNat →
    s.resolve s.cur .global addr 4 .load false = (.ok (.mem pa), s1) →
    (cw s).mayRead (cw s).nextOp run pa d ord sco ch = false →
    ∃ t held, exec (.mwait c d a col sco ord ch) s = .next t ∧ OnlyWave s1 t s.cur ∧
      (cw t).watch = (if (cw s).watch.any (fun u => u.pa / 64 == pa / 64) then (cw s1).watch
        else some ⟨addr, pa, false, held⟩) ∧
      Moves (cw s1) (cw t) run (pc + 1) ∧ Raises (cw s1) (cw t) c.h.setf ∧ Enter (cw s1) (cw t) run .sleeping ∧
      SleepsOn (cw s1) (cw t) run pc (.mwait addr pa ((cw s).rs d) d ord sco ch (some (cw s).nextOp)) c.h.setf ∧
      SameButSleep (cw s1) { cw t with watch := (cw s1).watch }) ∧
  (∀ (s : State) (k pa va : Nat) (z : Sleeper) (old : Word) (d : SReg) (sco : Scope) (u : Watch),
    (s.wave k).sleepers = [z] → z.wait = .mwait va pa old d .plain sco .dflt none → z.entry = true →
    (s.wave k).slot.isSome → (s.wave k).watch = some u → u.written = true → InDram pa 4 → pa % 4 = 0 →
    ∃ t, exec (.mwaitWake k) s = .next t ∧ { t with waves := s.waves, cores := s.cores } = s ∧
      (∀ j, j ≠ k → t.wave j = s.wave j) ∧ (t.wave k).rs d = BitVec.ofNat 32 (seenValue s (s.wave k).core pa 4) ∧
      (∀ r, r ≠ d → (t.wave k).rs r = (s.wave k).rs r) ∧ Enter (s.wave k) (t.wave k) z.members .ready ∧
      (t.wave k).sleepers = [] ∧ (t.wave k).watch = some { u with written := false } ∧
      (∀ i, i < 12 → (t.wave k).flag i =
        if i = z.flag.toNat ∧ (s.wave k).flag i ≠ 0 then (s.wave k).flag i - 1 else (s.wave k).flag i) ∧
      { t.wave k with
        s := (s.wave k).s, threads := (s.wave k).threads, sleepers := (s.wave k).sleepers, watch := (s.wave k).watch,
        f := (s.wave k).f } = s.wave k) ∧
  (∀ (c : Ctl) (a : VReg) (col : BitVec 3) (sco : Scope) (ch : Chan) (s : State) (run : Lanes) (pc : Word),
    Runs s c run pc →
    ∃ t, exec (.pf c a col sco ch) s = .next t ∧
      { t with
        waves := s.waves, cores := s.cores, clusters := s.clusters, mem := s.mem, l2 := s.l2, lost := s.lost,
        eflers := s.eflers, dir := s.dir, dies := s.dies, peers := s.peers, freeCtr := s.freeCtr } = s ∧
      (∀ l, l < 64 → (cw t).pcOf l = if run.getLsbD l then pc + 1 else (cw s).pcOf l) ∧
      { cw t with
        pcs := (cw s).pcs, f := (cw s).f, flights := (cw s).flights, nextOp := (cw s).nextOp,
        watch := (cw s).watch } = cw s ∧
      (∀ j, j ≠ s.cur → { t.wave j with watch := (s.wave j).watch } = s.wave j) ∧
      (∀ l va pa s1, laneAddresses (cw s) .global a ((cw s).enabled run c) = [(l, va)] →
        s.resolve s.cur .global (va / 64 * 64) 64 .load false = (.ok (.mem pa), s1) → InDram pa 64 →
        (ch = .dflt → ∀ x, x / 64 = pa / 64 → (AMap.find (t.core (cw s).core).l1 x).isSome) ∧
        (ch = .l2Direct → s1.sectorLost pa = false → ∀ x, x / 64 = pa / 64 → (AMap.find t.l2 x).isSome)))

/-- Group barriers (R178, R179). `bar.sync` arrives and sleeps at its word until the generation completes, `bar.arrive`
arrives and goes on, `bar.wait` sleeps for the generation in which its wave last arrived; the last arrival flips the
generation bit, clears the counts and lets every run go on; a COUNT above the group's waves is illegal, whatever the
predicate enables (R60). An arrival is a release of all colours at group scope. -/
def Obligations.GroupBarrierWords : Prop :=
  (∀ (c : Ctl) (count : BitVec 5) (b : BitVec 4) (s r : State) (run : Lanes) (pc : Word),
    Runs s c run pc → r = s.releaseAll s.cur .group → count.toNat ≤ (s.group (cw s).group).waves →
    (cw r).waveid.toNat < 16 → (cw r).waveid = (cw s).waveid → (cw r).group = (cw s).group →
    barMore r count b = true →
    (∃ t, exec (.barSync c count b) s = .next t ∧ Sleeps r { t with groups := r.groups } c run pc pc
        (.bar b (barOf r b).gen) ∧ BarIs r t b (arrivedNow r b) (countNow r count b) (barOf r b).gen) ∧
    (∃ t, exec (.barArrive c count b) s = .next t ∧
        IssuesPlain r { t with groups := r.groups } c run (pc + 1) ∧
        BarIs r t b (arrivedNow r b) (countNow r count b) (barOf r b).gen)) ∧
  (∀ (c : Ctl) (count : BitVec 5) (b : BitVec 4) (s r : State) (run : Lanes) (pc : Word),
    Runs s c run pc → r = s.releaseAll s.cur .group → count.toNat ≤ (s.group (cw s).group).waves →
    (cw r).waveid.toNat < 16 → (cw r).waveid = (cw s).waveid → (cw r).group = (cw s).group → barMore r count b = false →
    (∀ e ∈ r.waves, e.2.sleepers = []) → Steady r c.h.setf →
    (∃ t, exec (.barSync c count b) s = .next t ∧ BarIs r t b 0 0 (!(barOf r b).gen) ∧
        Moves (cw r) (cw t) run (pc + 1) ∧ (∀ i, i < 12 → (cw t).flag i = (cw r).flag i) ∧
        Enter (cw r) (cw t) run .ready ∧ (∀ j, j ≠ s.cur → t.wave j = r.wave j) ∧
        { cw t with threads := (cw r).threads, pcs := (cw r).pcs, f := (cw r).f, nextOrder := (cw r).nextOrder } = cw r) ∧
    (∃ t, exec (.barArrive c count b) s = .next t ∧ BarIs r t b 0 0 (!(barOf r b).gen) ∧
        IssuesPlain r { t with groups := r.groups } c run (pc + 1))) ∧
  (∀ (c : Ctl) (count : BitVec 5) (b : BitVec 4) (s : State) (run : Lanes) (pc : Word),
    Runs s c run pc →
    ∃ t, exec (.barWait c count b) s = .next t ∧
      if (barOf s b).arrived.getLsbD (cw s).waveid.toNat
      then Sleeps s t c run pc pc (.bar b (barOf s b).gen) else IssuesPlain s t c run (pc + 1)) ∧
  (∀ (i : Instr) (c : Ctl) (count : BitVec 5) (b : BitVec 4) (s : State) (run : Lanes) (pc : Word),
    (i = .barSync c count b ∨ i = .barArrive c count b) → (cw s).head = some (run, pc) → run ≠ 0 →
    (s.group (cw s).group).waves < count.toNat → Handled (cw s) run →
    ∃ t, exec i s = .next t ∧ Parks s t run pc .illegal false 0)

/-- Matrix command words (R163, R206, R210, R211, R215). A legal command of the baton's holder enters its group's queue
with the format word that every enabled lane agrees on and its descriptor block; a bad format or descriptor word, a
wave that does not hold the baton, and lanes that disagree trap in this order; with seven commands queued the word stays
in dispatch. -/
def Obligations.MatrixWordEnqueues : Prop :=
  ∀ (i : Instr) (c : Ctl) (op : Nat) (d : Option VReg) (a : SReg) (acc : BitVec 3) (sub : Nat) (s : State) (run : Lanes)
    (pc : Word), matrixForm i = some (c, op, d, a, acc, sub) → Runs s c run pc →
    (∀ f, AllFormat (cw s) ((cw s).enabled run c) d f →
      (formatOk s.fabric.featacc op sub f = true →
        (descBad op sub (grp s).localsize.toNat f ((cw s).block a (wordsOf op)) = none →
          (HoldsBaton s → (grp s).queue.length ≤ 6 → Steady s c.h.setf →
            ∃ t q, exec i s = .next t ∧
              Issues s (groupsBack s t) c run (pc + 1) ⟨.command, c.h.setf, run, []⟩ ∧
              (grp t).queue = (grp s).queue ++ [q] ∧ q.op.toNat = op ∧ q.acc = acc ∧ q.sub.toNat = sub ∧ q.wave = s.cur ∧
              q.format = f ∧ q.flag = c.h.setf ∧ q.opId = some (cw s).nextOp ∧ q.pc = pc ∧
              q.desc = ((List.range (wordsOf op)).map fun k => SMap.get (cw s).s (a.toNat + k)) ∧ q.follow = false ∧
              OnlyGroupField s t fun g => { g with queue := (grp s).queue }) ∧
          (HoldsBaton s → 7 ≤ (grp s).queue.length → s.halting (cw s).core (cw s).pasid = false →
            ∃ t, exec i s = .next t ∧ Holds s t run pc) ∧
          (¬ HoldsBaton s → Handled (cw s) run → ∃ t, exec i s = .next t ∧ Parks s t run pc .baton false 0)) ∧
        (∀ k, descBad op sub (grp s).localsize.toNat f ((cw s).block a (wordsOf op)) = some k → Handled (cw s) run →
          ∃ t, exec i s = .next t ∧ Parks s t run pc .illegalFormat false (BitVec.ofNat 64 k))) ∧
      (formatOk s.fabric.featacc op sub f = false → Handled (cw s) run →
        ∃ t, exec i s = .next t ∧ Parks s t run pc .illegalFormat false 0)) ∧
    (∀ v l k, d = some v → ((cw s).enabled run c).getLsbD l = true → ((cw s).enabled run c).getLsbD k = true → l < 64 →
      k < 64 → (∀ j, j < l → ((cw s).enabled run c).getLsbD j = false) → (cw s).rv v k ≠ (cw s).rv v l →
      formatOk s.fabric.featacc op sub ((cw s).rv v l) = true →
      descBad op sub (grp s).localsize.toNat ((cw s).rv v l) ((cw s).block a (wordsOf op)) = none → HoldsBaton s →
      Handled (cw s) run → ∃ t, exec i s = .next t ∧ Parks s t run pc .formatDivergence false 0)

/-- The baton and the engine's status (R210, R212, R213, R225). `baton.take` takes a free baton and says whether its wave
holds it; `baton.pass` of the holder records where the baton goes once the outstanding operations are over; `mquery`
reads, and `mquery.flagsc` reads and clears the sticky flags, when every completion of the cycle has been applied, and both
complete four cycles after issue. -/
def Obligations.BatonAndQueryWords : Prop :=
  (∀ (c : Ctl) (d : SReg) (s : State) (run : Lanes) (pc : Word), Runs s c run pc → Steady s c.h.setf →
    ∃ u, Completes (.batonTake c d) s 4 u ∧
      Leaves s (groupsBack s u) 4 run (pc + 1) (fun x => { x with s := (cw s).s }) ∧
      OnlyGroupField (later s 4) u (fun g => { g with baton := (grp s).baton }) ∧
      (grp u).baton = (if (grp s).baton = none then some (BitVec.ofNat 4 (cw s).waveid.toNat) else (grp s).baton) ∧
      (cw u).rs d = (if (grp u).baton = some (BitVec.ofNat 4 (cw s).waveid.toNat) then 1 else 0) ∧
      ∀ r, r ≠ d → (cw u).rs r = (cw s).rs r) ∧
  (∀ (c : Ctl) (to_ : PassTarget) (s : State) (run : Lanes) (pc : Word), Runs s c run pc →
    ((∀ n, to_ = .wave n → n.toNat < (grp s).waves) →
      (HoldsBaton s → Steady s c.h.setf →
        ∃ t, exec (.batonPass c to_) s = .next t ∧
          Issues s (groupsBack s t) c run (pc + 1) ⟨.command, c.h.setf, run, []⟩ ∧ (grp t).pass = some to_ ∧
          (grp t).passOp = some (s.cur, (cw s).nextOp) ∧
          OnlyGroupField s t fun g => { g with pass := (grp s).pass, passOp := (grp s).passOp }) ∧
      (¬ HoldsBaton s → Handled (cw s) run →
        ∃ t, exec (.batonPass c to_) s = .next t ∧ Parks s t run pc .baton false 0)) ∧
    (∀ n, to_ = .wave n → (grp s).waves ≤ n.toNat → Handled (cw s) run →
      ∃ t, exec (.batonPass c to_) s = .next t ∧ Parks s t run pc .illegal false 0)) ∧
  (∀ (c : Ctl) (d : SReg) (sub : MQuery) (s : State) (run : Lanes) (pc : Word), Runs s c run pc → Steady s c.h.setf →
    ∃ u, CompletesQuery (.mquery c d sub) c d sub false s run pc u ∧ Leaves s u 4 run (pc + 1) (fun x => { x with s := (cw s).s }) ∧
      (∀ r, r ≠ d → (cw u).rs r = (cw s).rs r) ∧
      match sub with
      | .baton => ((cw u).rs d).toNat = (match (grp s).baton with
          | some w => w.toNat
          | none => 255) + if (grp s).pass.isSome then 256 else 0
      | .outstanding => (grp s).queue.length + s.followOns (cw s).group < 2 ^ 32 →
          ((cw u).rs d).toNat = (grp s).queue.length + s.followOns (cw s).group
      | .queued => (grp s).queue.length < 2 ^ 32 → ((cw u).rs d).toNat = (grp s).queue.length
      | .flags => (cw u).rs d = (grp s).sticky.setWidth 32) ∧
  (∀ (c : Ctl) (d : SReg) (s : State) (run : Lanes) (pc : Word), Runs s c run pc → Steady s c.h.setf →
    ∃ u, CompletesQuery (.mqueryFlagsc c d) c d .flags true s run pc u ∧
      Leaves s (groupsBack s u) 4 run (pc + 1) (fun x => { x with s := (cw s).s }) ∧
      (cw u).rs d = (grp s).sticky.setWidth 32 ∧ (grp u).sticky = 0 ∧ (∀ r, r ≠ d → (cw u).rs r = (cw s).rs r) ∧
      OnlyGroupField (later s 4) u fun g => { g with sticky := (grp s).sticky }) ∧
  (∀ (s : State) (k o due : Nat) (d : SReg) (sub : MQuery) (clear : Bool) (f : Flight),
    AMap.find (s.wave k).flights o = some f → f.kind = .query due d sub clear →
    AMap.find ((s.readQuery k o).wave k).flights o =
      some { f with kind := .fixed due [(.s d (s.mqueryValue (s.wave k).group sub), due)] } ∧
    ((s.readQuery k o).group (s.wave k).group).sticky = if clear then 0 else (s.group (s.wave k).group).sticky)

/-- Appends (R235, R237, R238, R240 to R246, R255, R256): a new node with its operands, its parameters and its shape
takes the lowest free entry of the group's table; a handle without a node is illegal, parameters that give no shape are
illegal format, and a full table is the chrysalis-full trap. -/
def Obligations.AppendWordMakesNode : Prop :=
  (∀ (i : Instr) (c : Ctl) (hd ha : BitVec 6) (hb : Option (BitVec 6)) (kind sub idx : Nat)
    (sh : Nat → Nat → Nat → Nat × Nat × Nat) (na : Nat) (a : Node) (s : State) (run : Lanes) (pc : Word),
    appendForm i = some (c, hd, ha, hb, kind, sub, sh) → Runs s c run pc →
    AMap.find (grp s).handles ha.toNat = some na → AMap.find (grp s).nodes na = some a →
    (∀ k, hb = some k → ∃ nb b, AMap.find (grp s).handles k.toNat = some nb ∧ AMap.find (grp s).nodes nb = some b ∧
      b.rows = a.rows ∧ b.cols = a.cols) →
    (kind = 3 → sub ≠ 4 → a.tag ≠ 0x0D ∧ a.tag ≠ 0x0E) → AMap.find (grp s).handles hd.toNat = none →
    RoomFor s kind idx →
    ∃ t, exec i s = .next t ∧
      Appends s t c run pc hd idx kind sub (sh a.tag.toNat a.rows a.cols) (some na)
        (hb.bind fun k => AMap.find (grp s).handles k.toNat) []) ∧
  (∀ (i : Instr) (c : Ctl) (hd : BitVec 6) (ha hb : Option (BitVec 6)) (sb : SReg) (n kind sub idx : Nat)
    (sh : Nat × Nat × Nat) (s : State) (run : Lanes) (pc : Word),
    appendParamForm i = some (c, hd, ha, hb, sb, n, kind, sub) → Runs s c run pc →
    (ha.isSome → (nodeOf (grp s) ha).isSome) → (hb.isSome → (nodeOf (grp s) hb).isSome) →
    paramShape i (fun k => (SMap.get (cw s).s (sb.toNat + k)).toNat) (tagOf (nodeOf (grp s) ha)) (rowsOf (nodeOf (grp s) ha))
      (colsOf (nodeOf (grp s) ha)) (tagOf (nodeOf (grp s) hb)) (rowsOf (nodeOf (grp s) hb)) (colsOf (nodeOf (grp s) hb)) =
        some sh →
    AMap.find (grp s).handles hd.toNat = none → RoomFor s kind idx →
    ∃ t, exec i s = .next t ∧
      Appends s t c run pc hd idx kind sub sh (ha.bind fun k => AMap.find (grp s).handles k.toNat)
        (hb.bind fun k => AMap.find (grp s).handles k.toNat)
        ((List.range n).map fun k => SMap.get (cw s).s (sb.toNat + k))) ∧
  (∀ (i : Instr) (c : Ctl) (hd ha : BitVec 6) (hb : Option (BitVec 6)) (kind sub : Nat)
    (sh : Nat → Nat → Nat → Nat × Nat × Nat) (s : State) (run : Lanes) (pc : Word),
    appendForm i = some (c, hd, ha, hb, kind, sub, sh) → Runs s c run pc → Handled (cw s) run →
    (AMap.find (grp s).handles ha.toNat = none ∨ ∃ k, hb = some k ∧ AMap.find (grp s).handles k.toNat = none) →
    ∃ t, exec i s = .next t ∧ Parks s t run pc .illegal false 0) ∧
  (∀ (c : Ctl) (hd : BitVec 6) (sb : SReg) (s : State) (run : Lanes) (pc : Word), Runs s c run pc →
    Handled (cw s) run →
    ((((cw s).rs sb).toNat % 65536 = 0 ∨ ((cw s).rs sb).toNat / 65536 = 0) →
      ∃ t, exec (.tconst c hd sb) s = .next t ∧ Parks s t run pc .illegalFormat false 1) ∧
    ((((cw s).rs sb).toNat % 65536 ≠ 0 ∧ ((cw s).rs sb).toNat / 65536 ≠ 0) →
      (∀ k, k < 256 → (AMap.find (grp s).nodes k).isSome) →
      ∃ t, exec (.tconst c hd sb) s = .next t ∧ Parks s t run pc .chrysalisFull false 0))

/-- Demands, handles and status (R233, R247, R252, R254, R255, R256, R266). A demand of the baton's holder names a
completion flag, enters the queue with its node, set and trap enables, and holds its node; `tdrop` releases what its
handle names; `tcfg` sets the group's configuration; `tstat` reads. -/
def Obligations.DemandAndStatusWords : Prop :=
  (∀ (tst : Bool) (c : Ctl) (ha : BitVec 6) (sb : SReg) (ni : Nat) (n : Node) (s : State) (run : Lanes) (pc : Word),
    Runs s c run pc → Steady s c.h.setf → c.h.setf.toNat ≤ 11 → AMap.find (grp s).handles ha.toNat = some ni →
    AMap.find (grp s).nodes ni = some n → ni < 256 → (grp s).tcfg.on = true → HoldsBaton s → (grp s).queue.length ≤ 6 →
    (grp s).ranges = [] →
    RegionFits n (fun k => (SMap.get (cw s).s (sb.toNat + k)).toNat) (if tst then 2 else 1)
      (if tst then none else some (grp s).localsize.toNat) →
    ∃ t q, exec (if tst then .tst c ha sb else .tforce c ha sb) s = .next t ∧
      Issues s (groupsBack s t) c run (pc + 1) ⟨.command, c.h.setf, run, []⟩ ∧
      (grp t).queue = (grp s).queue ++ [q] ∧ q.op.toNat = (if tst then 0x1A2 else 0x1A3) ∧ q.flag = c.h.setf ∧
      q.opId = some (cw s).nextOp ∧ q.pc = pc ∧ q.wave = s.cur ∧
      q.format.toNat = ni + 256 * (grp s).tcfg.set.toNat + 4096 * (enables (cw s)).toNat ∧
      q.desc = ((List.range (if tst then 5 else 4)).map fun k => SMap.get (cw s).s (sb.toNat + k)) ∧
      AMap.find (grp t).nodes ni = some { n with refs := n.refs + 1 } ∧
      (∀ j, j ≠ ni → AMap.find (grp t).nodes j = AMap.find (grp s).nodes j) ∧
      OnlyGroupField s t fun g => { g with queue := (grp s).queue, nodes := (grp s).nodes }) ∧
  (∀ (tst : Bool) (c : Ctl) (ha : BitVec 6) (sb : SReg) (s : State) (run : Lanes) (pc : Word),
    Runs s c run pc → Handled (cw s) run → (c.h.setf = 15 ∨ AMap.find (grp s).handles ha.toNat = none) →
    ∃ t, exec (if tst then .tst c ha sb else .tforce c ha sb) s = .next t ∧ Parks s t run pc .illegal false 0) ∧
  (∀ (c : Ctl) (hd : BitVec 6) (s : State) (run : Lanes) (pc : Word), Runs s c run pc →
    ∃ t, exec (.tdrop c hd) s = .next t ∧ IssuesPlain s (groupsBack s t) c run (pc + 1) ∧
      AMap.find (grp t).handles hd.toNat = none ∧
      (∀ h, h ≠ hd.toNat → AMap.find (grp t).handles h = AMap.find (grp s).handles h) ∧
      OnlyGroupField s t (fun g => { g with
        nodes := (grp s).nodes, handles := (grp s).handles, ranges := (grp s).ranges }) ∧
      (AMap.find (grp s).handles hd.toNat = none → (grp t).nodes = (grp s).nodes ∧ (grp t).ranges = (grp s).ranges) ∧
      (∀ k n, AMap.find (grp s).handles hd.toNat = some k → AMap.find (grp s).nodes k = some n → 1 < n.refs →
        AMap.find (grp t).nodes k = some { n with refs := n.refs - 1 } ∧ (grp t).ranges = (grp s).ranges ∧
        ∀ j, j ≠ k → AMap.find (grp t).nodes j = AMap.find (grp s).nodes j) ∧
      (∀ k n, AMap.find (grp s).handles hd.toNat = some k → AMap.find (grp s).nodes k = some n → n.refs ≤ 1 →
        n.opa = none → n.opb = none →
        AMap.find (grp t).nodes k = none ∧ (grp t).ranges = (grp s).ranges.filter (fun e => decide (e.2.node ≠ k)) ∧
        ∀ j, j ≠ k → AMap.find (grp t).nodes j = AMap.find (grp s).nodes j)) ∧
  (∀ (c : Ctl) (sb : SReg) (s : State) (run : Lanes) (pc : Word) (p : Nat → Nat), Runs s c run pc →
    p = (fun k => (SMap.get (cw s).s (sb.toNat + k)).toNat) →
    (p 0 < 16 → (s.die ((cw s).core / 144)).seqset.getLsbD (p 0) = true → p 1 % 256 = 0 → p 2 % 256 = 0 →
      (∀ e ∈ (grp s).nodes, e.2.captured = false) → p 1 + p 2 ≤ (grp s).localsize.toNat → p 3 % 64 = 0 → p 4 < 2 ^ 25 →
      1 ≤ p 5 → p 5 ≤ 256 →
      ∃ t, exec (.tcfg c sb) s = .next t ∧ IssuesPlain s (groupsBack s t) c run (pc + 1) ∧
        (grp t).tcfg = ⟨true, BitVec.ofNat 4 (p 0), p 1 / 256, p 2 / 256, p 3 + 2 ^ 32 * p 4, p 5,
          if p 3 + 2 ^ 32 * p 4 = (grp s).tcfg.farea then (grp s).tcfg.next % p 5 else 0⟩ ∧
        OnlyGroupField s t fun g => { g with tcfg := (grp s).tcfg }) ∧
    ((16 ≤ p 0 ∨ (s.die ((cw s).core / 144)).seqset.getLsbD (p 0) = false) → Handled (cw s) run →
      ∃ t, exec (.tcfg c sb) s = .next t ∧ Parks s t run pc .illegalFormat false 1)) ∧
  (∀ (c : Ctl) (sb : SReg) (s : State) (run : Lanes) (pc : Word), Runs s c run pc → Steady s c.h.setf →
    (∃ t, exec (.tstatCounts c sb) s = .next t ∧ IssuesResult s t c run (pc + 1) [.s sb (BitVec.ofNat 32
      ((grp s).nodes.length + 2 ^ 9 * (512 - s.coreNodes (grp s).core) + 2 ^ 19 * (grp s).handles.length +
        2 ^ 26 * (grp s).ranges.length))]) ∧
    (∃ t, exec (.tstatCap c sb) s = .next t ∧ IssuesResult s t c run (pc + 1) [.s sb (BitVec.ofNat 32
      (((grp s).nodes.filter fun e => e.2.captured).map fun e => e.2.units).sum)]) ∧
    (∀ ha, AMap.find (grp s).handles ha.toNat = none →
      ∃ t, exec (.tstatNode c ha sb) s = .next t ∧ IssuesResult s t c run (pc + 1) [.s sb 0, .s (sb + 1) 0]) ∧
    (∀ (ha : BitVec 6) (k : Nat) (n : Node), AMap.find (grp s).handles ha.toNat = some k → AMap.find (grp s).nodes k = some n →
      ∃ t, exec (.tstatNode c ha sb) s = .next t ∧ IssuesResult s t c run (pc + 1)
        [.s sb (BitVec.ofNat 32 (n.rows + 2 ^ 16 * n.cols)), .s (sb + 1) (BitVec.ofNat 32 (n.kind.toNat +
          2 ^ 8 * n.sub.toNat + 2 ^ 16 * n.tag.toNat + 2 ^ 24 * (1 + (if n.kept then 2 else 0) +
            (if n.captured then 4 else 0) + if (grp s).ranges.any (fun e => e.2.node == k) then 8 else 0)))]) ∧
    ((cw s).tfault.getLsbD 8 = false →
      ∃ t, exec (.tstatFault c sb) s = .next t ∧
        IssuesResult s t c run (pc + 1) ((List.range 16).map fun k => .s (sb + BitVec.ofNat 8 k) 0)) ∧
    (∀ bs s1, (cw s).tfault.getLsbD 8 = true →
      s.loadBytes (cw s).core (cw s).pasid ((grp s).tcfg.farea + 64 * ((cw s).tfault.toNat % 256)) 64 = (.ok bs, s1) →
      Steady s1 c.h.setf →
      ∃ t, exec (.tstatFault c sb) s = .next t ∧ IssuesResult s1 t c run (pc + 1)
        ((List.range 16).map fun k => .s (sb + BitVec.ofNat 8 k) (BitVec.ofNat 32 ((bs.getD (4 * k) 0).toNat +
          2 ^ 8 * (bs.getD (4 * k + 1) 0).toNat + 2 ^ 16 * (bs.getD (4 * k + 2) 0).toNat +
          2 ^ 24 * (bs.getD (4 * k + 3) 0).toNat)))))

/-- Request words (R273 to R275, R277, R279, R280, R308 to R310, R401, R403). A right descriptor becomes the next request
of its timeline, after a release of every colour at device scope; S[D] takes its number and S[D+1] a promised time; with
256 requests outstanding the word stays in dispatch, and a `cpym` that names no cluster is complete at once. The promised
time is open (log entry 12). -/
def Sys2Proof.Says.RequestWordIsNumbered : Prop :=
  ∀ (i : Instr) (c : Ctl) (d a : SReg) (n : Nat) (kind : (Nat → Nat) → ReqKind) (sel : (Nat → Nat) → Timeline)
    (s r : State) (run : Lanes) (pc : Word) (p : Nat → Nat),
    requestForm i = some (c, d, a, n, kind, sel) → Runs s c run pc → r = s.releaseAll s.cur .device →
    p = (fun k => (SMap.get (cw s).s (a.toNat + k)).toNat) → RequestOk s i p → r.nextId = s.nextId →
    (kind p ≠ .multi 0 → s.reqs.countP (fun e => decide (e.2.cohort = cohortNow s ∧ e.2.sel = sel p)) < 256 → Steady r c.h.setf →
      ∃ t q v, exec i s = .next t ∧
        IssuesResult r (requestsBack r t) c run (pc + 1)
          [.s d (BitVec.ofNat 32 ((timeline r (sel p)).accepted + 1)), .s (d + 1) v] ∧
        t.nextId = r.nextId + 1 ∧ AMap.find t.reqs r.nextId = some q ∧
        (∀ k, k ≠ r.nextId → AMap.find t.reqs k = AMap.find r.reqs k) ∧
        q.kind = kind p ∧ q.sel = sel p ∧ q.desc = ((List.range n).map fun k => SMap.get (cw s).s (a.toNat + k)) ∧
        q.n = (timeline r (sel p)).accepted + 1 ∧ q.cohort = cohortNow r ∧ q.cluster = clusterNow r ∧ q.wave = r.cur ∧
        q.pasid = (cw r).pasid ∧ q.pc = pc ∧ q.failed = false ∧ q.written = [] ∧ q.next = 0 ∧
        timeline t (sel p) = { timeline r (sel p) with accepted := (timeline r (sel p)).accepted + 1 } ∧
        (∀ z, z ≠ sel p → (t.cohort (cohortNow r)).tl z = (r.cohort (cohortNow r)).tl z) ∧
        ∀ j, j ≠ cohortNow r → t.cohort j = r.cohort j) ∧
    (kind p = .multi 0 → s.reqs.countP (fun e => decide (e.2.cohort = cohortNow s ∧ e.2.sel = sel p)) < 256 →
      Steady r c.h.setf → (timeline r (sel p)).accepted = (timeline r (sel p)).value → (timeline r (sel p)).done = [] →
      AMap.find r.reqs r.nextId = none → (∀ e ∈ r.waves, e.2.sleepers = []) →
      (∃ g ∈ (r.cohort (cohortNow r)).groups, (r.group g).slot.isSome) →
      ∃ t v, exec i s = .next t ∧
        IssuesResult r (requestsBack r t) c run (pc + 1)
          [.s d (BitVec.ofNat 32 ((timeline r (sel p)).accepted + 1)), .s (d + 1) v] ∧
        t.nextId = r.nextId + 1 ∧ (∀ k, AMap.find t.reqs k = AMap.find r.reqs k) ∧
        timeline t (sel p) = { timeline r (sel p) with
          accepted := (timeline r (sel p)).accepted + 1, value := (timeline r (sel p)).accepted + 1 } ∧
        (∀ z, z ≠ sel p → (t.cohort (cohortNow r)).tl z = (r.cohort (cohortNow r)).tl z) ∧
        ∀ j, j ≠ cohortNow r → t.cohort j = r.cohort j) ∧
    (256 ≤ s.reqs.countP (fun e => decide (e.2.cohort = cohortNow s ∧ e.2.sel = sel p)) →
      ∃ t, exec i s = .next t ∧ Holds s t run pc)

/-- Descriptors that are not right (R270, R277, R279, R308): the first wrong word's number, one more than its place; a
cluster outside the partition is refused with an access fault. -/
def Sys2Proof.Says.BadDescriptorsTrap : Prop :=
  (∀ (c : Ctl) (d a : SReg) (s : State) (run : Lanes) (pc : Word) (p : Nat → Nat) (k v : Nat), Runs s c run pc →
    p = (fun k => (SMap.get (cw s).s (a.toNat + k)).toNat) → Handled (cw s) run →
    CopyOk (fun j => if j = k then v else p j) (cw s).localsize.toNat (cw s).localsize.toNat false →
    ((k = 4 ∧ (p 4 = 0 ∨ 2 ^ 24 ≤ p 4)) ∨ (k = 1 ∧ 2 ^ 25 ≤ p 1) ∨ (k = 3 ∧ 2 ^ 25 ≤ p 3) ∨
      (k = 5 ∧ 2 ^ 23 ≤ p 5 ∧ (p 5).testBit 21 = v.testBit 21 ∧ (p 5).testBit 22 = v.testBit 22 ∧ p 5 % 2 ^ 16 = v % 2 ^ 16)) →
    (k = 4 → (p 5).testBit 21 = false ∧ (p 5).testBit 22 = false) →
    ∃ t, exec (.cpy c d a) s = .next t ∧ Parks s t run pc .illegalFormat false (BitVec.ofNat 64 (k + 1))) ∧
  (∀ (resume : Bool) (c : Ctl) (d a : SReg) (s : State) (run : Lanes) (pc : Word) (p : Nat → Nat), Runs s c run pc →
    p = (fun k => (SMap.get (cw s).s (a.toNat + k)).toNat) → Handled (cw s) run →
    p 0 % 256 = 0 → p 1 < 2 ^ 25 → (p 2 = 0 ∨ 2 ^ 16 ≤ p 2) →
    ∃ t, exec (if resume then .rresume c d a else .rtrace c d a) s = .next t ∧ Parks s t run pc .illegalFormat false 3) ∧
  (∀ (c : Ctl) (d a : SReg) (s : State) (run : Lanes) (pc : Word) (p : Nat → Nat) (k : Nat), Runs s c run pc →
    p = (fun k => (SMap.get (cw s).s (a.toNat + k)).toNat) →
    CopyOk p (cw s).localsize.toNat 0x600000 true → p 9 < 2 ^ 16 → k < 48 → (p 8 + 2 ^ 32 * p 9).testBit k = true →
    ¬ inPartition s k → (∀ j, j < k → (p 8 + 2 ^ 32 * p 9).testBit j = true → inPartition s j) →
    ∃ t, exec (.cpym c d a) s = .next t ∧ Parks s t run pc .access true (BitVec.ofNat 64 k))

/-- Words of timelines and rays (R187, R274, R276, R281, R282, R311, R312). `tlwait` goes on with an acquire once the
timeline has reached the value, parks on a failure record that covers it, else sleeps at the next word; `tlrd` reads the
value; `waitp` does the same from its promised time on, where a late-promise handler ends a wait with a trap; `rquery`
counts; `rsave` marks the rays of its cluster that it is to save. -/
def Obligations.TimelineAndRayWords : Prop :=
  (∀ (c : Ctl) (a : SReg) (sel : Timeline) (s : State) (run : Lanes) (pc : Word), Runs s c run pc →
    (hasReached (timeline s sel).value ((cw s).rs a) → (∀ cause addr, ¬ Covers s sel ((cw s).rs a) cause addr) →
      ∃ t, exec (.tlwait c a sel) s = .next t ∧ IssuesPlain (s.acquire (cw s).core) t c run (pc + 1)) ∧
    (∀ cause addr, hasReached (timeline s sel).value ((cw s).rs a) → Covers s sel ((cw s).rs a) cause addr →
      ∃ t, exec (.tlwait c a sel) s = .next t ∧ ParksOnFailure s t run pc sel cause addr) ∧
    (¬ hasReached (timeline s sel).value ((cw s).rs a) →
      ∃ t, exec (.tlwait c a sel) s = .next t ∧ Sleeps s t c run pc (pc + 1) (.timeline sel ((cw s).rs a)))) ∧
  (∀ (c : Ctl) (d : SReg) (sel : Timeline) (s : State) (run : Lanes) (pc : Word), Runs s c run pc →
    Steady s c.h.setf →
    ∃ t, exec (.tlrd c d sel) s = .next t ∧ IssuesResult s t c run (pc + 1)
      [.s d (BitVec.ofNat 32 (timeline s sel).value), .s (d + 1) (BitVec.ofNat 32 ((timeline s sel).value / 2 ^ 32))]) ∧
  (∀ (c : Ctl) (a : SReg) (sel : Timeline) (s : State) (run : Lanes) (pc m q : Word) (now : BitVec 64),
    Runs s c run pc → m = (cw s).rs a → q = SMap.get (cw s).s (a.toNat + 1) →
    now = (s.die ((cw s).core / 144)).counter →
    (¬ hasReached now.toNat q →
      ∃ t, exec (.waitp c a sel) s = .next t ∧
        Sleeps s t c run pc (pc + 1) (.promise sel m q true ((cw s).core / 144))) ∧
    (hasReached now.toNat q → hasReached (timeline s sel).value m → (∀ cause addr, ¬ Covers s sel m cause addr) →
      ∃ t, exec (.waitp c a sel) s = .next t ∧ IssuesPlain (s.acquire (cw s).core) t c run (pc + 1)) ∧
    (∀ cause addr, hasReached now.toNat q → hasReached (timeline s sel).value m → Covers s sel m cause addr →
      ∃ t, exec (.waitp c a sel) s = .next t ∧ ParksOnFailure s t run pc sel cause addr) ∧
    (hasReached now.toNat q → ¬ hasReached (timeline s sel).value m → (s.ctlw (cw s).pasid).getLsbD 1 = true →
      Handled (cw s) run →
      ∃ t, exec (.waitp c a sel) s = .next t ∧
        Parks s t run pc .latePromise false (BitVec.ofNat 64 ((now.toNat + 2 ^ 32 - q.toNat) % 2 ^ 32))) ∧
    (hasReached now.toNat q → ¬ hasReached (timeline s sel).value m → (s.ctlw (cw s).pasid).getLsbD 1 = false →
      ∃ t, exec (.waitp c a sel) s = .next t ∧
        Sleeps s t c run pc (pc + 1) (.promise sel m q false ((cw s).core / 144)))) ∧
  (∀ (c : Ctl) (d : SReg) (sub : RQuery) (s : State) (run : Lanes) (pc : Word), Runs s c run pc → Steady s c.h.setf →
    ∃ t, exec (.rquery c d sub) s = .next t ∧ IssuesResult s t c run (pc + 1) [.s d (BitVec.ofNat 32 (match sub with
      | .inflight => s.rays.countP (fun e => e.2.cohort == cohortNow s) +
          (s.reqs.map fun e => match e.2.kind with
            | .trace _ => if e.2.cohort = cohortNow s then e.2.count - e.2.next else 0
            | _ => 0).sum
      | .outstanding => s.reqs.countP fun e => decide (e.2.cohort = cohortNow s ∧ e.2.sel = .trav)
      | .bound => (((s.cohort (cohortNow s)).classes.filter fun e => e.1 / 8 == clusterNow s).map fun e => 2 ^ (e.1 % 8)).sum))]) ∧
  (∀ (c : Ctl) (s : State) (run : Lanes) (pc : Word), Runs s c run pc → Steady s c.h.setf →
    ((∃ e ∈ s.rays, e.2.cohort = cohortNow s ∧ e.2.cluster = clusterNow s) →
      ∃ t, exec (.rsave c) s = .next t ∧
        Issues s { t with rays := s.rays, reqs := s.reqs } c run (pc + 1) ⟨.command, c.h.setf, run, []⟩ ∧
        (∀ k, AMap.find t.rays k = (AMap.find s.rays k).map fun (y : Ray) =>
          if y.cohort = cohortNow s ∧ y.cluster = clusterNow s
          then { y with savers := (s.cur, (cw s).nextOp) :: y.savers } else y) ∧
        ∀ k, AMap.find t.reqs k = (AMap.find s.reqs k).map fun (y : Req) => match y.kind with
          | .trace _ => if y.cohort = cohortNow s ∧ y.cluster = clusterNow s
            then { y with savers := (s.cur, (cw s).nextOp) :: y.savers } else y
          | _ => y) ∧
    ((∀ e ∈ s.rays, ¬ (e.2.cohort = cohortNow s ∧ e.2.cluster = clusterNow s) ∧ (s.cur, (cw s).nextOp) ∉ e.2.savers) → s.reqs = [] →
      ∃ t, exec (.rsave c) s = .next t ∧ { t with waves := s.waves } = s ∧ (∀ j, j ≠ s.cur → t.wave j = s.wave j) ∧
        Moves (cw s) (cw t) run (pc + 1) ∧ (∀ i, i < 12 → (cw t).flag i = (cw s).flag i) ∧
        AMap.find (cw t).flights (cw s).nextOp = none ∧ (cw t).nextOp = (cw s).nextOp + 1))

/-- Words of banks, queues, ports and cohort barriers (R271, R283 to R286, R288). `bankcfg` starts a change of mode, which
an allocation or a queue in use refuses; `fpush` and `fpop` wait in the queue's order; `portcfg` binds a port, for
sending with reserved entries; `cbar.arrive` and `cbar.wait` arrive at the cohort barrier and wait for its generation. -/
def Obligations.BankQueuePortWords : Prop :=
  (∀ (c : Ctl) (a : SReg) (s : State) (run : Lanes) (pc : Word) (v b : Nat), Runs s c run pc →
    v = ((cw s).rs a).toNat → b = v % 16 → AMap.find (s.cluster (clusterNow s)).changing b = none →
    (v < 48 → v / 16 = (SMap.get (s.cluster (clusterNow s)).modes b).toNat →
      ∃ t, exec (.bankcfg c a) s = .next t ∧ IssuesPlain s t c run (pc + 1)) ∧
    (v < 48 → v / 16 ≠ (SMap.get (s.cluster (clusterNow s)).modes b).toNat →
      (SMap.get (s.cluster (clusterNow s)).modes b = 1 → s.bankAllocated (clusterNow s) b = false) →
      (SMap.get (s.cluster (clusterNow s)).modes b = 2 → s.bankQueued (clusterNow s) b = false) →
      (SMap.get (s.cluster (clusterNow s)).modes b = 0 → (s.cluster (clusterNow s)).cache = []) → Steady s c.h.setf →
      ∃ t, exec (.bankcfg c a) s = .next t ∧
        Issues s (clustersBack s t) c run (pc + 1) ⟨.command, c.h.setf, run, []⟩ ∧
        AMap.find (t.cluster (clusterNow s)).changing b = some (BitVec.ofNat 2 (v / 16), s.cur, (cw s).nextOp) ∧
        (∀ k, k ≠ b → AMap.find (t.cluster (clusterNow s)).changing k = AMap.find (s.cluster (clusterNow s)).changing k) ∧
        { t.cluster (clusterNow s) with changing := (s.cluster (clusterNow s)).changing } = s.cluster (clusterNow s) ∧
        ∀ k, k ≠ clusterNow s → t.cluster k = s.cluster k) ∧
    (v < 48 → v / 16 ≠ (SMap.get (s.cluster (clusterNow s)).modes b).toNat →
      ((SMap.get (s.cluster (clusterNow s)).modes b = 1 ∧ s.bankAllocated (clusterNow s) b = true) ∨
        (SMap.get (s.cluster (clusterNow s)).modes b = 2 ∧ s.bankQueued (clusterNow s) b = true)) →
      ∃ t, exec (.bankcfg c a) s = .next t ∧ Parks s t run pc .access true (BitVec.ofNat 64 (b * 0x60000))) ∧
    (48 ≤ v → Handled (cw s) run → ∃ t, exec (.bankcfg c a) s = .next t ∧ Parks s t run pc .illegalFormat false 1)) ∧
  (∀ (c : Ctl) (a : SReg) (s : State) (run : Lanes) (pc : Word) (v : Nat), Runs s c run pc → v = ((cw s).rs a).toNat →
    (v < 256 → IsFifo s (clusterNow s) v → Steady s c.h.setf →
      (∃ t, exec (.fpush c a) s = .next t ∧
        Issues s (clustersBack s t) c run (pc + 1) ⟨.command, c.h.setf, run, []⟩ ∧
        OnlyQueue s (wavesBack s t) (clusterNow s) v ∧
        t.queue (clusterNow s) v = { s.queue (clusterNow s) v with pushes := (s.queue (clusterNow s) v).pushes ++
          [⟨⟨(List.range 8).map fun k => SMap.get (cw s).s ((a + 1).toNat + k), none⟩, some (s.cur, (cw s).nextOp)⟩] }) ∧
      ∀ d, ∃ t, exec (.fpop c d a) s = .next t ∧
        Issues s (clustersBack s t) c run (pc + 1) ⟨.command, c.h.setf, run, []⟩ ∧
        OnlyQueue s (wavesBack s t) (clusterNow s) v ∧
        t.queue (clusterNow s) v = { s.queue (clusterNow s) v with
          takers := (s.queue (clusterNow s) v).takers ++ [.pop s.cur (cw s).nextOp d] }) ∧
    (v < 256 → ¬ IsFifo s (clusterNow s) v → ∀ i, i = .fpush c a ∨ (∃ d, i = .fpop c d a) →
      ∃ t, exec i s = .next t ∧ Parks s t run pc .access true (BitVec.ofNat 64 v)) ∧
    (256 ≤ v → Handled (cw s) run → ∀ i, i = .fpush c a ∨ (∃ d, i = .fpop c d a) →
      ∃ t, exec i s = .next t ∧ Parks s t run pc .illegalFormat false 1)) ∧
  (∀ (c : Ctl) (p : Port) (a : SReg) (s : State) (run : Lanes) (pc tgt hdr : Word) (v : Nat), Runs s c run pc →
    v = ((cw s).rs a).toNat → tgt = SMap.get (cw s).s (a.toNat + 1) → hdr = SMap.get (cw s).s (a.toNat + 2) →
    ((cw s).port p.toNat).mode = 0 → tgt.toNat < 2 ^ 14 → tgt.toNat / 2 ^ 8 % 16 ≤ 11 → Steady s c.h.setf →
    (v = 0 → hdr = 0 →
      ∃ t, exec (.portcfg c p a) s = .next t ∧
        IsConfigured s t c run pc p PortSt.unconfigured) ∧
    (v = 2 → hdr = 0 → inPartition s (targetCluster tgt) → IsFifo s (targetCluster tgt) (targetQueue tgt) →
      ∃ t, exec (.portcfg c p a) s = .next t ∧ IsConfigured s t c run pc p ⟨2, 0, 0, none, tgt, 0, 0⟩) ∧
    (v % 4 = 1 → 0 < v / 4 → v < 256 → inPartition s (targetCluster tgt) →
      IsFifo s (targetCluster tgt) (targetQueue tgt) →
      (s.queue (targetCluster tgt) (targetQueue tgt)).reserved + v / 4 ≤ 768 →
      ∃ t u, exec (.portcfg c p a) s = .next t ∧ t.nextId = s.nextId + 1 ∧ u = { t with nextId := s.nextId } ∧
        IsConfigured s (clustersBack s u) c run pc p ⟨1, v / 4, v / 4, none, tgt, hdr, s.nextId⟩ ∧
        OnlyQueue s (wavesBack s u) (targetCluster tgt) (targetQueue tgt) ∧
        t.queue (targetCluster tgt) (targetQueue tgt) = { s.queue (targetCluster tgt) (targetQueue tgt) with
          resv := (s.queue (targetCluster tgt) (targetQueue tgt)).resv ++ [⟨s.nextId, s.cur, p.toNat, v / 4, 0, false, none⟩] }) ∧
    ((v = 2 ∧ hdr = 0 ∨ v % 4 = 1 ∧ 0 < v / 4 ∧ v < 256) →
      (¬ inPartition s (targetCluster tgt) ∨ ¬ IsFifo s (targetCluster tgt) (targetQueue tgt)) →
      ∃ t, exec (.portcfg c p a) s = .next t ∧ Parks s t run pc .access true (BitVec.ofNat 64 tgt.toNat)) ∧
    (v % 4 = 3 → Handled (cw s) run →
      ∃ t, exec (.portcfg c p a) s = .next t ∧ Parks s t run pc .illegalFormat false 1)) ∧
  (∀ (c : Ctl) (b : BitVec 4) (s r : State) (run : Lanes) (pc : Word), Runs s c run pc →
    r = s.releaseAll s.cur .cohort →
    ((∃ e ∈ r.cohortWaves (r.cohortOf r.cur), e.1 ≠ r.cur ∧ e.2 = r.wave e.1 ∧ e.2.arrivals.getLsbD b.toNat = false) →
      ∃ t, exec (.cbarArrive c b) s = .next t ∧
        IssuesPlain r (restored t fun x => { x with arrivals := (cw r).arrivals }) c run (pc + 1) ∧
        (cw t).arrivals = (cw r).arrivals ||| BitVec.ofNat 16 (2 ^ b.toNat)) ∧
    (r.cohortWaves (r.cohortOf r.cur) = [(r.cur, cw r)] → (cw r).slot.isSome → (cw r).sleepers = [] →
      ∃ t, exec (.cbarArrive c b) s = .next t ∧
        IssuesPlain r (restored { t with cohorts := r.cohorts } fun x => { x with arrivals := (cw r).arrivals })
          c run (pc + 1) ∧
        (cw t).arrivals = (cw r).arrivals &&& ~~~BitVec.ofNat 16 (2 ^ b.toNat) ∧
        OnlyCohort r (wavesBack r t) (r.cohortOf r.cur) ∧
        (t.cohort (r.cohortOf r.cur)).bars.getLsbD b.toNat = !(r.cohort (r.cohortOf r.cur)).bars.getLsbD b.toNat)) ∧
  (∀ (c : Ctl) (b : BitVec 4) (s : State) (run : Lanes) (pc : Word), Runs s c run pc →
    ((cw s).arrivals.getLsbD b.toNat = true →
      ∃ t, exec (.cbarWait c b) s = .next t ∧
        Sleeps s t c run pc (pc + 1) (.cbar b (if (s.cohort (cohortNow s)).bars.getLsbD b.toNat then 1 else 0))) ∧
    ((cw s).arrivals.getLsbD b.toNat = false →
      ∃ t, exec (.cbarWait c b) s = .next t ∧ IssuesPlain (s.acquire (cw s).core) t c run (pc + 1)))

/-- Words that start work (R361, R364 to R366, R373). A right `launch` puts its child into the window of its kernel
descriptor; `tenq` writes a task's record and `qclaim` claims slots, each going on with its result, waiting for room, or
refused; `rnext` takes the next chunk of its cohort's range. `r` is the machine after the descriptor is read and the
release at device scope. -/
def Obligations.ChildAndTaskWords : Prop :=
  (∀ (c : Ctl) (a : SReg) (s s1 r : State) (run : Lanes) (pc : Word) (p : Nat → Nat) (k : KDesc) (addr : Nat)
    (child : Child), Runs s c run pc → p = (fun k => (SMap.get (cw s).s (a.toNat + k)).toNat) →
    addr = p 0 + 2 ^ 32 * p 1 → p 0 % 64 = 0 → p 1 < 2 ^ 25 → p 2 ≠ 0 → p 3 < 2 ^ 11 → p 4 % 8 = 0 → p 5 < 2 ^ 25 →
    s.vet (cw s).pasid 0 addr 0 = (.ok k, s1) → p 3 ≤ 64 * k.waves → r = s1.releaseAll s.cur .device →
    child = ⟨(cw s).launch, p 2, p 3, p 4 + 2 ^ 32 * p 5,
      [6, 7, 8, 9, 10, 11, 12, 13].map fun k => SMap.get (cw s).s (a.toNat + k)⟩ →
    ((∀ e ∈ r.windows, ¬(e.2.die = (cw s).core / 144 ∧ e.2.pasid = (cw s).pasid ∧ e.2.kdesc = addr)) →
      ∃ t v, exec (.launch c a) s = .next t ∧
        IssuesResult r { t with windows := r.windows, nextId := r.nextId } c run (pc + 1) [] ∧
        t.nextId = r.nextId + 1 ∧ (∀ j, j ≠ r.nextId → AMap.find t.windows j = AMap.find r.windows j) ∧
        v = r.homeValue ((r.fq (r.launch (cw s).launch).root).at_ + 0x48) 4 ∧
        AMap.find t.windows r.nextId = some ⟨(cw s).core / 144, (cw s).pasid, addr, k,
          (r.die ((cw s).core / 144)).counter.toNat, if v = 0 then 2048 else v, [child]⟩) ∧
    (∀ i y, AMap.find r.windows i = some y → y.die = (cw s).core / 144 → y.pasid = (cw s).pasid → y.kdesc = addr →
      r.windows.find? (fun e => decide (e.2.die = (cw s).core / 144 ∧ e.2.pasid = (cw s).pasid ∧ e.2.kdesc = addr)) =
        some (i, y) → y.children.length < 4095 →
      ∃ t, exec (.launch c a) s = .next t ∧ IssuesResult r { t with windows := r.windows } c run (pc + 1) [] ∧
        (∀ j, j ≠ i → AMap.find t.windows j = AMap.find r.windows j) ∧
        AMap.find t.windows i = some { y with children := y.children ++ [child] })) ∧
  (∀ (c : Ctl) (a : SReg) (s s1 : State) (run : Lanes) (pc : Word) (p : Nat → Nat) (x : Nat → Word) (key pa : Nat)
    (qc : Qcb), Runs s c run pc → x = (fun k => SMap.get (cw s).s (a.toNat + k)) → p = (fun k => (x k).toNat) →
    p 0 < 256 → p 14 = 0 → p 15 = 0 → p 16 = 0 → p 2 / 2 ^ 21 = 0 → p 2 / 4 % 64 = 0 → 1 ≤ p 2 / 2 ^ 16 % 32 →
    p 2 / 2 ^ 16 % 32 ≤ 16 → (p 2 % 4 = 0 ∨ p 2 % 4 = 1 ∧ p 13 ≠ 0) →
    key = 2 ^ 28 * ((cw s).core / 144) + 256 * (cw s).pasid.toNat + p 0 → s.findQueue key = (.qcb pa, s1) →
    qc = s1.readQcb pa →
    (∀ r l s2, qc.kind = true → (qc.wridx + 1 + 2 ^ 64 - qc.rdidx) % 2 ^ 64 ≤ 2 ^ qc.log2n →
      r = s1.releaseAll s.cur .device → l = (r.launch (cw s).launch).lref →
      r.feStores (cw s).pasid (qc.ring + 64 * (qc.wridx % 2 ^ qc.log2n))
        [p 1 + 2 ^ 32 * p 2, p 3 + 2 ^ 32 * p 4, p 5 + 2 ^ 32 * p 6, p 7 + 2 ^ 32 * p 8, p 9 + 2 ^ 32 * p 10,
          p 11 + 2 ^ 32 * p 12, p 13 + 2 ^ 32 * (l.toNat % 2 ^ 32), l.toNat / 2 ^ 32] = (none, s2) →
      ∃ t, exec (.tenq c a) s = .next t ∧ IssuesResult (s2.homeStore (pa + 0x10) 8 (qc.wridx + 1)) t c run (pc + 1) []) ∧
    (qc.kind = true → 2 ^ qc.log2n < (qc.wridx + 1 + 2 ^ 64 - qc.rdidx) % 2 ^ 64 →
      ∃ t, exec (.tenq c a) s = .next t ∧
        Sleeps s1 t c run pc (pc + 1) (.tenq ((List.range 17).map x))) ∧
    (qc.kind = false → ∃ t, exec (.tenq c a) s = .next t ∧ Parks s1 t run pc .access true 0)) ∧
  (∀ (c : Ctl) (d a : SReg) (s s1 : State) (run : Lanes) (pc : Word) (v n key pa : Nat) (qc : Qcb), Runs s c run pc →
    v = ((cw s).rs a).toNat → v < 2 ^ 13 → n = v / 2 ^ 8 → 1 ≤ n → n ≤ 16 →
    key = 2 ^ 28 * ((cw s).core / 144) + 256 * (cw s).pasid.toNat + v % 256 → s.findQueue key = (.qcb pa, s1) →
    qc = s1.readQcb pa →
    (qc.kind = false → qc.err = false → (qc.wridx + n + 2 ^ 64 - qc.rdidx) % 2 ^ 64 ≤ 2 ^ qc.log2n →
      ∃ t, exec (.qclaim c d a) s = .next t ∧ IssuesResult (s1.homeStore (pa + 0x10) 8 (qc.wridx + n)) t c run (pc + 1)
        [.s d (BitVec.ofNat 32 qc.wridx), .s (d + 1) (BitVec.ofNat 32 (qc.wridx / 2 ^ 32))]) ∧
    (qc.kind = false → qc.err = false → 2 ^ qc.log2n < (qc.wridx + n + 2 ^ 64 - qc.rdidx) % 2 ^ 64 →
      ∃ t, exec (.qclaim c d a) s = .next t ∧ Sleeps s1 t c run pc (pc + 1) (.qclaim ((cw s).rs a) d)) ∧
    ((qc.kind = true ∨ qc.err = true) →
      ∃ t, exec (.qclaim c d a) s = .next t ∧ Parks s1 t run pc .access true 0)) ∧
  (∀ (c : Ctl) (d : SReg) (q : BitVec 4) (s : State) (run : Lanes) (pc : Word), Runs s c run pc → Steady s c.h.setf →
    ((s.cohort (cohortNow s)).task = none → ∃ t, exec (.rnext c d q) s = .next t ∧
      IssuesResult s t c run (pc + 1) [.s d 0, .s (d + 1) 0, .q q true]) ∧
    (∀ k hi, (s.cohort (cohortNow s)).task = some k →
      hi = (if k.cur.toNat < k.hi.toNat then min (k.cur.toNat + k.grain.toNat) k.hi.toNat else k.cur.toNat) →
      ∃ t, exec (.rnext c d q) s = .next t ∧
        IssuesResult s { t with cohorts := s.cohorts } c run (pc + 1)
          [.s d k.cur, .s (d + 1) (BitVec.ofNat 32 hi), .q q (decide (k.cur.toNat = hi))] ∧
        OnlyCohort s (wavesBack s t) (cohortNow s) ∧
        t.cohort (cohortNow s) = { s.cohort (cohortNow s) with task := some { k with cur := BitVec.ofNat 32 hi } }))

/-- Words of early launches, work graphs and pixels (R368, R370, R371, R375, R378). `gate` goes on or waits; `release`
counts its group once; `recalloc` takes a free slot while its node may; `recsend` commits a record to its node's batch;
`pemit` hands a drawn primitive to the raster unit; `pxout` writes the pixels of its block that lie in its target. -/
def Obligations.GraphAndPixelWords : Prop :=
  (∀ (c : Ctl) (s : State) (run : Lanes) (pc : Word), Runs s c run pc →
    (((s.launch (cw s).launch).gate = none ∨ ∃ p, (s.launch (cw s).launch).gate = some p ∧
        (AMap.find s.launches p = none ∨ (s.launch p).ngroups ≤ (s.launch p).releasedGroups)) →
      ∃ t, exec (.gate c) s = .next t ∧ IssuesPlain (s.acquire (cw s).core) t c run (pc + 1)) ∧
    (∀ p, (s.launch (cw s).launch).gate = some p → (AMap.find s.launches p).isSome →
      (s.launch p).releasedGroups < (s.launch p).ngroups →
      ∃ t, exec (.gate c) s = .next t ∧ Sleeps s t c run pc (pc + 1) .gate)) ∧
  (∀ (c : Ctl) (s r : State) (run : Lanes) (pc : Word), Runs s c run pc → r = s.releaseAll s.cur .device →
    ((grp r).released = true → ∃ t, exec (.release c) s = .next t ∧ IssuesPlain r t c run (pc + 1)) ∧
    ((grp r).released = false → (∀ e ∈ r.waves, ∀ z ∈ e.2.sleepers, z.wait ≠ .gate) →
      ∃ t, exec (.release c) s = .next t ∧
        IssuesPlain r { t with groups := r.groups, launches := r.launches } c run (pc + 1) ∧
        t.group (cw r).group = { grp r with released := true } ∧ (∀ g, g ≠ (cw r).group → t.group g = r.group g) ∧
        t.launch (grp r).launch =
          { r.launch (grp r).launch with releasedGroups := (r.launch (grp r).launch).releasedGroups + 1 } ∧
        ∀ l, l ≠ (grp r).launch → t.launch l = r.launch l)) ∧
  (∀ (c : Ctl) (d a : SReg) (s : State) (run : Lanes) (pc : Word) (v g : Nat) (y : Graph) (nd : GNode),
    Runs s c run pc → v = ((cw s).rs a).toNat → v < 256 → s.graphOf s.cur = some g → AMap.find s.graphs g = some y →
    y.nodes[v]? = some nd →
    (Admits y v nd → (∀ e ∈ y.waiters, e.1 ≠ v) → y.slots.length < y.nslot → Steady s c.h.setf →
      ∃ t k, exec (.recalloc c d a) s = .next t ∧ k < y.nslot ∧ AMap.find y.slots k = none ∧
        IssuesResult s { t with graphs := s.graphs, freeCtr := s.freeCtr } c run (pc + 1)
          [.s d (BitVec.ofNat 32 (y.pool + 256 * k)), .s (d + 1) (BitVec.ofNat 32 ((y.pool + 256 * k) / 2 ^ 32))] ∧
        OnlyGraph s t g { y with slots := AMap.put y.slots k ⟨v, some (cw s).group, none, none⟩ }) ∧
    ((¬ Admits y v nd ∨ ∃ e ∈ y.waiters, e.1 = v) →
      ∃ t, exec (.recalloc c d a) s = .next t ∧
        Sleeps s { t with graphs := s.graphs } c run pc (pc + 1) (.recalloc ((cw s).rs a) d) ∧
        OnlyGraph s t g { y with waiters := y.waiters ++ [(v, s.cur, (cw s).nextOrder)] })) ∧
  (∀ (c : Ctl) (a : SReg) (s r : State) (run : Lanes) (pc : Word) (g k : Nat) (y : Graph) (sl : RecSlot) (nd : GNode)
    (ks : List Nat) (since : Nat),
    Runs s c run pc → s.graphOf s.cur = some g → AMap.find s.graphs g = some y → r = s.releaseAll s.cur .device →
    r.graphs = s.graphs → AMap.find y.slots k = some sl → sl.commit = none →
    (SMap.get (cw s).s a.toNat).toNat + 2 ^ 32 * (SMap.get (cw s).s (a.toNat + 1)).toNat = y.pool + 256 * k →
    y.nodes[sl.node]? = some nd →
    (AMap.find y.pending sl.node = some (ks, since) ∧ ks ≠ [] ∨
      AMap.find y.pending sl.node = none ∧ ks = [] ∧ since = (r.die y.die).counter.toNat) →
    ks.length + 1 < nd.batch →
    ∃ t, exec (.recsend c a) s = .next t ∧ IssuesResult r { t with graphs := r.graphs } c run (pc + 1) [] ∧
      OnlyGraph r t g { y with
        slots := AMap.put y.slots k { sl with commit := some y.commits }, commits := y.commits + 1,
        pending := AMap.put y.pending sl.node (ks ++ [k], since) }) ∧
  (∀ (c : Ctl) (a : SReg) (s r : State) (run : Lanes) (pc : Word) (p : Nat → Word) (g n cm slot : Nat) (y : Graph)
    (nd : GNode) (ks : List (Nat × Nat)) (tri : Tri),
    Runs s c run pc → p = (fun k => SMap.get (cw s).s (a.toNat + k)) → (s.launch (cw s).launch).kind = .batch g n ks →
    AMap.find s.graphs g = some y → y.draw = true → y.nodes[n]? = some nd → nd.nkind = 1 → (p 8).toNat < 64 → p 9 = 0 →
    ks[(p 8).toNat]? = some (slot, cm) → r = s.releaseAll s.cur .device → r.graphs = s.graphs → r.prims = s.prims →
    (triOf [p 0, p 1, p 2, p 3, p 4, p 5] = some tri → tri.area ≠ 0 →
      ∃ t, exec (.pemit c a) s = .next t ∧
        IssuesResult r { t with graphs := r.graphs, prims := r.prims, nextId := r.nextId } c run (pc + 1) [] ∧
        OnlyGraph r t g { y with prims := y.prims + 1 } ∧ t.nextId = r.nextId + 1 ∧
        AMap.find t.prims r.nextId = some ⟨g, n, cm, y.prims, [p 0, p 1, p 2, p 3, p 4, p 5], [p 6, p 7], [],
          decide (nd.cls = 1), (cw s).core / 144, [0, 1, 2, 3].filter fun k => s.linkOpen ((cw s).core / 144) k⟩ ∧
        ∀ j, j ≠ r.nextId → AMap.find t.prims j = AMap.find r.prims j) ∧
    ((triOf [p 0, p 1, p 2, p 3, p 4, p 5] = none ∨ triOf [p 0, p 1, p 2, p 3, p 4, p 5] = some tri ∧ tri.area = 0) →
      ∃ t, exec (.pemit c a) s = .next t ∧ IssuesResult r { t with graphs := r.graphs } c run (pc + 1) [] ∧
        OnlyGraph r t g { y with prims := y.prims + 1 })) ∧
  (∀ (c : Ctl) (d : VReg) (tgt : BitVec 3) (s s1 : State) (run : Lanes) (pc : Word) (g prim bx by' : Nat) (y : Graph)
    (z : Target) (px : List (Nat × Nat)) (rs : List Resolved),
    Runs s c run pc → (s.launch (cw s).launch).kind = .pixel prim bx by' → s.graphOf s.cur = some g →
    AMap.find s.graphs g = some y → y.targets[tgt.toNat]? = some z → z.width ≠ 0 →
    px = (((List.range 64).filter fun l => ((cw s).enabled run c).getLsbD l &&
        decide (8 * bx + l % 8 < z.width ∧ 8 * by' + l / 8 < z.height)).map fun l =>
      (l, z.base + z.pitch * (8 * by' + l / 8) + 4 * (8 * bx + l % 8))) →
    s.resolveAll s.cur .global 4 .store false px = (rs, s1) → AllResolve s1 rs → Steady s1 c.h.setf →
    ∃ t accs, exec (.pxout c d tgt) s = .next t ∧
      Issues s1 t c run (pc + 1) ⟨.pxout, c.h.setf, (cw s).enabled run c, accs⟩ ∧ HasAccesses pc px rs accs ∧
      ∀ x ∈ accs, x.data.toNat = ((cw s).rv d x.lane).toNat)

/-- The walk micro-operations (R296, R297, R299, R303, R304) on the current ray: what each does to NODE, the stack, the
children, the candidate, the hit and Z, H, M; where the ray goes on; and where it suspends, with error 0x03 for a stack
above 24 entries, 0x04 for no marker and 0x05 for a node that is not loaded. -/
def Obligations.WalkOperationsOnRay : Prop :=
  ∀ (s : State) (r : Ray), Walking s r →
    Becomes .wnop s (stepped r r) ∧
    Becomes .ldn s (if r.savers = [] then { cleared r with fetching := true } else suspended r 5 0 r.upc) ∧
    (∀ i, i = .tbox ∨ i = .ttri ∨ (∃ m k n, i = .xform m k n) → r.buf = none → Becomes i s (suspended r 6 5 r.upc)) ∧
    (∀ b, r.buf = some b →
      Becomes .tbox s (
        let ks := (List.range r.layout.nslot).filterMap fun k => (r.layout.child r.node b k).bind fun a =>
          (r.boxTest (r.layout.box b k)).map fun t => (toF32 t, k, a)
        stepped r { r with kids := ks, z := decide (ks = []) }) ∧
      Becomes .ttri s (
        let c := if (b.getD (r.layout.leafBit / 8) 0).getLsbD (r.layout.leafBit % 8) then r.leafHit r.layout b else none
        stepped r { r with
          cand := c.map fun x => (toF32 x.1, x.2.1, toF32 x.2.2.1, toF32 x.2.2.2), h := decide (c ≠ none) }) ∧
      ∀ (m k n : BitVec 9) (o d : Nat → Word), o = (fun i => r.org.getD i 0) → d = (fun i => r.dir.getD i 0) →
        (20 < r.stack.length → Becomes (.xform m k n) s (suspended r 6 3 r.upc)) ∧
        (r.stack.length ≤ 20 → Becomes (.xform m k n) s (
          let e (i j : Nat) : FVal := f32 (BitVec.ofNat 32 (inNode b (m.toNat + 16 * i + 4 * j) 4))
          let dot (i : Nat) (v : Nat → Word) : FVal :=
            xAdd (xAdd (xMul (e i 0) (f32 (v 0))) (xMul (e i 1) (f32 (v 1)))) (xMul (e i 2) (f32 (v 2)))
          stepped r { r with
            stack := r.stack ++ [o 1 ++ o 0, d 0 ++ o 2, d 2 ++ d 1,
              BitVec.ofNat 64 (2 ^ 63 + r.inst.toNat)],
            org := [0, 1, 2].map fun i => toF32 (once (xAdd (dot i o) (e i 3))),
            dir := [0, 1, 2].map fun i => toF32 (once (dot i d)), inst := BitVec.ofNat 16 (inNode b k.toNat 2),
            node := inNode b n.toNat 8 % 2 ^ 57, buf := none }))) ∧
    (∃ ks, Becomes .wSort s (stepped r { r with kids := ks }) ∧ ks.Perm r.kids ∧
      (ks.Pairwise fun x y => fLt (f32 y.1) (f32 x.1) = false) ∧
      ∀ v, (ks.filter fun k => fOrd (f32 k.1) v == some .eq) = r.kids.filter fun k => fOrd (f32 k.1) v == some .eq) ∧
    Becomes .pushc s (if r.stack.length + r.kids.length ≤ 24
      then stepped r { r with stack := r.stack ++ asEntries r.kids, kids := [], z := true }
      else suspended r 6 3 r.upc) ∧
    (r.kids = [] → Becomes .wNext s (stepped r { r with z := true })) ∧
    (∀ k ks, r.kids = k :: ks → Becomes .wNext s (if r.stack.length + ks.length ≤ 24
      then stepped r { r with node := k.2.2, stack := r.stack ++ asEntries ks, kids := [], z := false, buf := none }
      else suspended r 6 3 r.upc)) ∧
    ((r.h = false ∨ r.cand = none) → Becomes .wHit s (stepped r r)) ∧
    (∀ t p u v n, r.h = true → r.cand = some (t, p, u, v) →
      n = { r with hitt := t, prim := p, hitu := u, hitv := v, h := false } →
      Becomes .wHit s (if r.flags.getLsbD 0 then suspended n 2 0 r.upc else stepped r n)) ∧
    (r.stack = [] → Becomes .wPop s (stepped r { r with z := true, m := false })) ∧
    (∀ es (e : BitVec 64), r.stack = es ++ [e] → Becomes .wPop s (stepped r (if e.toNat / 2 ^ 62 = 2
      then { r with m := true, z := false }
      else { r with node := e.toNat % 2 ^ 57, stack := es, z := false, m := false, buf := none }))) ∧
    (∀ (cond : WalkCond) (neg : Bool) (tgt : BitVec 6) (holds : Bool), holds = (match cond with
        | .al => true
        | .z => r.z
        | .h => r.h
        | .m => r.m
        | .l => (r.buf.map fun b => (b.getD (r.layout.leafBit / 8) 0).getLsbD (r.layout.leafBit % 8)).getD false) →
      Becomes (.brc cond neg tgt) s (if holds = neg then stepped r r
        else if r.upc < tgt.toNat then { r with upc := tgt.toNat }
        else if r.savers = [] then { cleared r with upc := tgt.toNat }
        else suspended r 5 0 tgt.toNat)) ∧
    (∀ code, Becomes (.callout code) s (suspended (cleared r) 4 code (r.upc + 1))) ∧
    Becomes .wDone s (suspended r 2 0 r.upc) ∧
    (∀ es (a b c e : BitVec 64), r.stack = es ++ [a, b, c, e] → e.toNat / 2 ^ 62 = 2 →
      Becomes .ipop s (stepped r { r with
        stack := es, org := [a.extractLsb' 0 32, a.extractLsb' 32 32, b.extractLsb' 0 32],
        dir := [b.extractLsb' 32 32, c.extractLsb' 0 32, c.extractLsb' 32 32], inst := e.extractLsb' 0 16, m := false })) ∧
    ((r.stack.length < 4 ∨ ∃ es e, r.stack = es ++ [e] ∧ e.toNat / 2 ^ 62 ≠ 2) →
      Becomes .ipop s (suspended r 6 4 r.upc)) ∧
    Becomes .cull s (
      let ks := r.kids.filter fun k => !fLt (fMin (f32 r.tmax) (f32 r.hitt)) (f32 k.1)
      stepped r { r with kids := ks, z := decide (ks = []) }) ∧
    (∀ v, Becomes (.sett .tmax v) s (stepped r { r with tmax := toF32 (fMin (f32 r.tmax) (f32 r.hitt)) })) ∧
    ∀ v, Becomes (.sett .term v) s (stepped r { r with
      flags := BitVec.ofNat 8 (r.flags.toNat / 2 * 2 + if v then 1 else 0) })

/-- The matrix engine (R203, R205, R207 to R210, R213, R220). An idle engine takes the head command of the next slot
round from the last it served, samples its operands and is due after the command's cycles; a tile that lies in the group
image comes back from it, or ends its command's launch for data loss; `macz` clears its tile when due; a pending pass
moves the baton once no operation is outstanding, and completes. -/
def Obligations.MatrixEngineEvents : Prop :=
  (∀ (s : State) (core g k : Nat) (c : Cmd) (rest : List Cmd), Serves s core g k c rest →
    (s.core core).engine = none → c.snap = none → (s.group g).away = 0 → c.op ∈ [0x180, 0x181, 0x182, 0x183, 0x184, 0x185] →
    (c.op ∈ [0x180, 0x181] →
      (blockStep (c.format.toNat % 16) (c.format.toNat / 16 % 16) (c.format.toNat / 256 % 16)).isSome) →
    (∀ m ∈ c.marks, ∀ e ∈ (s.wave m.1).flights, m.2 ≤ e.1) →
    (∀ e ∈ s.groups, ∀ j, e.2.core = core → e.2.slot = some j → e.2.queue ≠ [] →
      (k + 15 - (s.core core).lastSlot % 8) % 8 ≤ (j.toNat + 15 - (s.core core).lastSlot % 8) % 8 ∧
        (j.toNat = k → e.1 = g)) →
    ∃ t snap, exec (.matrixCommandStart core) s = .next t ∧ { t with groups := s.groups, cores := s.cores } = s ∧
      (t.core core).engine = some (g, (s.core core).cycle + commandCycles c) ∧
      (t.group g).queue = { c with snap := some snap } :: rest ∧
      (∀ r ∈ c.regions (s.group g).localbase.toNat, ∀ a, r.1 ≤ a → a < r.1 + r.2 →
        SMap.get snap a = SMap.get (s.cluster (core / 12)).scratch a) ∧
      OnlyInGroup s t g (fun x => { x with queue := (s.group g).queue }) ∧
      OnlyInCore s t core fun x => { x with engine := none, tileUse := (s.core core).tileUse }) ∧
  (∀ (s u : State) (g : Nat) (n : BitVec 3) (c : Cmd) (rest : List Cmd), (s.group g).queue = c :: rest →
    (s.group g).away.getLsbD n.toNat = true → c.acc = n → c.op.toNat < 0x190 →
    u = s.useImage (s.group g).pasid (groupImageOff (s.group g).image + 65536 * n.toNat) 65536 false →
    (s.lostTile g n.toNat = none →
      ∃ t, exec (.accumulatorTileFill g n) s = .next t ∧ { t with groups := u.groups, cores := u.cores } = u ∧
        (∀ i j, i < 128 → j < 128 → SMap.get (t.group g).acc (16384 * n.toNat + 128 * i + j) =
          BitVec.ofNat 32 (u.imageRead (u.group g).pasid
            (groupImageOff (u.group g).image + 65536 * n.toNat + 512 * i + 4 * j) 4)) ∧
        (∀ a, a / 16384 ≠ n.toNat → SMap.get (t.group g).acc a = SMap.get (u.group g).acc a) ∧
        (∀ k, k < 8 → (t.group g).away.getLsbD k = ((u.group g).away.getLsbD k && decide (k ≠ n.toNat))) ∧
        OnlyInGroup u t g (fun x => { x with acc := (u.group g).acc, away := (u.group g).away }) ∧
        OnlyInCore u t (s.group g).core fun x => { x with tileUse := (u.core (s.group g).core).tileUse }) ∧
    (∀ a, s.lostTile g n.toNat = some a → (s.launch (s.errLaunch (s.group g).launch)).error = none →
      ∃ t, exec (.accumulatorTileFill g n) s = .next t ∧ { t with launches := s.launches } = s ∧
        (t.launch (s.errLaunch (s.group g).launch)).error = some ⟨0x24, c.pc, BitVec.ofNat 64 a,
          (s.launch (s.group g).launch).lref, BitVec.ofNat 32 (2 ^ 24 * c.wid.toNat), 0, 0⟩)) ∧
  (∀ (s : State) (core g k due o : Nat) (c : Cmd) (rest : List Cmd) (f : Flight), Engaged s core g due c rest →
    (s.group g).slot = some (BitVec.ofNat 3 k) → k < 8 → due ≤ (s.core core).cycle → c.op = 0x182 → c.snap = some [] →
    (s.group g).report = none → c.opId = some o → c.req = none → At s c.wave o f → f.kind = .command → f.accs = [] →
    ∃ t, exec (.matrixCommandComplete core) s = .next t ∧
      { t with groups := s.groups, cores := s.cores, waves := s.waves } = s ∧ IsRetired s t core g k c rest f o ∧
      (∀ a, SMap.get (t.group g).acc a = if a / 16384 = c.acc.toNat then 0 else SMap.get (s.group g).acc a) ∧
      OnlyInGroup s t g fun x => { x with acc := (s.group g).acc, queue := (s.group g).queue }) ∧
  (∀ (s : State) (g w o : Nat) (to_ : PassTarget) (f : Flight), (s.group g).pass = some to_ → (s.group g).queue = [] →
    (∀ e ∈ s.reqs, e.2.kind = .follow → e.2.group ≠ g) → (s.group g).passOp = some (w, o) → At s w o f →
    f.kind = .command → f.accs = [] →
    ∃ t, exec (.batonTransfer g) s = .next t ∧ { t with groups := s.groups, waves := s.waves } = s ∧
      (t.group g).pass = none ∧ (t.group g).passOp = none ∧
      (t.group g).baton = (match to_ with
        | .free => none
        | .wave n => if (s.group g).ended.getLsbD n.toNat then none else some n) ∧
      OnlyInGroup s t g (fun x => { x with baton := (s.group g).baton, pass := (s.group g).pass, passOp := (s.group g).passOp }) ∧
      Completed s t w o f)

/-- An int8 product on the matrix engine is exact (R217, R219): with the operands as they lie in the local space, element
(i, j) of the tile becomes its old value, or 0 under INIT, plus the sum of the products of row i of A and row j of B,
modulo 2^32, negated under NEG; every other tile is as it was, and no exception is raised. -/
def Obligations.Int8ProductIsExact : Prop :=
  ∀ (s : State) (core g k due o n base : Nat) (c : Cmd) (rest : List Cmd) (f : Flight), Engaged s core g due c rest →
    (s.group g).slot = some (BitVec.ofNat 3 k) → k < 8 → due ≤ (s.core core).cycle → c.op = 0x180 →
    (c.format = 0xA55 ∨ c.format = 0x2A55) → c.step = 0 → c.bad = none → base = (s.group g).localbase.toNat →
    (c.desc.getD 2 0).toNat = 32 * n → c.snap = some (regionBytes (s.cluster (core / 12)).scratch (c.regions base)) →
    (s.group g).report = none → c.opId = some o → c.req = none → At s c.wave o f → f.kind = .command → f.accs = [] →
    ∃ t, exec (.matrixCommandComplete core) s = .next t ∧
      { t with groups := s.groups, cores := s.cores, waves := s.waves } = s ∧ IsRetired s t core g k c rest f o ∧
      (∀ i j, i < 128 → j < 128 → SMap.get (t.group g).acc (16384 * c.acc.toNat + 128 * i + j) = BitVec.ofInt 32 (
        (if (c.desc.getD 3 0).getLsbD 0 then 0 else
          (SMap.get (s.group g).acc (16384 * c.acc.toNat + 128 * i + j)).toInt) +
        (if c.format = 0x2A55 then -1 else 1) * ((List.range (32 * n)).map fun q =>
          signedAt s (core / 12) (base + (c.desc.getD 0 0).toNat + 32 * n * i + q) *
            signedAt s (core / 12) (base + (c.desc.getD 1 0).toNat + 32 * n * j + q)).sum)) ∧
      (∀ a, a / 16384 ≠ c.acc.toNat → SMap.get (t.group g).acc a = SMap.get (s.group g).acc a) ∧
      OnlyInGroup s t g fun x => { x with acc := (s.group g).acc, queue := (s.group g).queue }

/-- Demands and captures (R240, R248 to R250, R263). A step of a `tforce` of a constant node writes the constant in every
place of its region and no other byte; when every step is written the demand completes, its node keeps the region and
the demand's reference is released; views that a held store touches are captured once the group's stores are performed,
which lets the word go. -/
def Obligations.DemandEvents : Prop :=
  (∀ (s u : State) (core g due cl base r0 c0 rows cols stride : Nat) (c : Cmd) (rest : List Cmd) (n : Node),
    Engaged s core g due c rest → c.op = 0x1A3 → AMap.find (s.group g).nodes (c.format.toNat % 256) = some n →
    n.kind = 1 → n.tag = 8 → n.kept = false → n.prog = 0 → cl = core / 12 → base = (s.group g).localbase.toNat →
    (c.desc.getD 1 0).toNat = r0 + 65536 * c0 → (c.desc.getD 2 0).toNat = rows + 65536 * cols → r0 < 128 → c0 < 128 →
    0 < rows → 0 < cols → r0 + rows ≤ 128 → c0 + cols ≤ 128 → stride = (c.desc.getD 3 0).toNat → 4 * cols ≤ stride →
    u = s.sampleEngine core →
    ∃ t, exec (.demandOutputStep core) s = .next t ∧ { t with groups := u.groups, clusters := u.clusters } = u ∧
      (∀ i j k, i < rows → j < cols → k < 4 →
        SMap.get (t.cluster cl).scratch (base + (c.desc.getD 0 0).toNat + i * stride + 4 * j + k) =
          byteOf (toF32 (f32 (n.param.getD 1 0))).toNat k) ∧
      (∀ a, (∀ i j k, i < rows → j < cols → k < 4 → a ≠ base + (c.desc.getD 0 0).toNat + i * stride + 4 * j + k) →
        SMap.get (t.cluster cl).scratch a = SMap.get (s.cluster cl).scratch a) ∧
      { t.cluster cl with scratch := (s.cluster cl).scratch } = s.cluster cl ∧ (∀ j, j ≠ cl → t.cluster j = s.cluster j) ∧
      AMap.find (t.group g).nodes (c.format.toNat % 256) = some { n with prog := 1 } ∧
      (∀ m, m ≠ c.format.toNat % 256 → AMap.find (t.group g).nodes m = AMap.find (s.group g).nodes m) ∧
      OnlyInGroup u t g fun x => { x with nodes := (u.group g).nodes }) ∧
  (∀ (s : State) (core g k due o r0 c0 rows cols : Nat) (c : Cmd) (rest : List Cmd) (n : Node) (f : Flight),
    Engaged s core g due c rest → c.op = 0x1A3 → AMap.find (s.group g).nodes (c.format.toNat % 256) = some n →
    (s.group g).slot = some (BitVec.ofNat 3 k) → k < 8 → n.prog = 1 →
    (c.desc.getD 1 0).toNat = r0 + 65536 * c0 → (c.desc.getD 2 0).toNat = rows + 65536 * cols → r0 < 128 → c0 < 128 →
    0 < rows → 0 < cols → r0 + rows ≤ 128 → c0 + cols ≤ 128 → 1 < n.refs → c.opId = some o → c.req = none →
    At s c.wave o f → f.kind = .command → f.accs = [] →
    ∃ t, exec (.demandComplete core) s = .next t ∧
      { t with groups := s.groups, cores := s.cores, waves := s.waves } = s ∧ IsRetired s t core g k c rest f o ∧
      AMap.find (t.group g).nodes (c.format.toNat % 256) = some { n with
        prog := 0, refs := n.refs - 1, kept := true,
        keep := [c.desc.getD 0 0, c.desc.getD 1 0, c.desc.getD 2 0, c.desc.getD 3 0] } ∧
      (∀ m, m ≠ c.format.toNat % 256 → AMap.find (t.group g).nodes m = AMap.find (s.group g).nodes m) ∧
      OnlyInGroup s t g fun x => { x with nodes := (s.group g).nodes, queue := (s.group g).queue }) ∧
  (∀ (s s1 : State) (w g v u : Nat) (n : Node), g = (s.wave w).group → (s.wave w).captures = [v] →
    (∀ e ∈ s.waves, e.2.group = g → e.2.flights = []) → AMap.find (s.group g).nodes v = some n →
    (s.group g).captureRoom n.units = some u → s.captureRows g n (256 * u) (upTo n.rows) = some s1 →
    ∃ t, exec (.viewCapture w) s = .next t ∧ { t with groups := s1.groups, waves := s1.waves } = s1 ∧
      OnlyInGroup s1 t g (fun x => { x with nodes := (s1.group g).nodes, ranges := (s1.group g).ranges }) ∧
      AMap.find (t.group g).nodes v = some { n with captured := true, capu := u } ∧
      (∀ m, m ≠ v → AMap.find (t.group g).nodes m = AMap.find (s1.group g).nodes m) ∧
      (t.group g).ranges = ((s1.group g).ranges.filter fun e => decide (e.2.node ≠ v)) ∧
      t.wave w = { s1.wave w with captures := [] } ∧ ∀ j, j ≠ w → t.wave j = s1.wave j)

/-- Banks, queues and ports as they act (R267, R271, R283, R284, R286). A bank's change ends with its new mode, its
scratch bytes 0 and its queues empty; a push joins its queue while an entry is free, a message always; the oldest pop
gets the oldest entry's eight words, the oldest sleeping read the oldest message's data; a credit that returns lets a
buffered message go, or is held. -/
def Obligations.BankAndQueueEvents : Prop :=
  (∀ (s : State) (cl w o : Nat) (b : BitVec 4) (m : BitVec 2) (f : Flight),
    AMap.find (s.cluster cl).changing b.toNat = some (m, w, o) → At s w o f → f.kind = .command → f.accs = [] →
    ∃ t, exec (.bankModeChangeDone cl b) s = .next t ∧ { t with clusters := s.clusters, waves := s.waves } = s ∧
      Completed s t w o f ∧ SMap.get (t.cluster cl).modes b.toNat = m ∧
      (∀ k, k ≠ b.toNat → SMap.get (t.cluster cl).modes k = SMap.get (s.cluster cl).modes k ∧
        AMap.find (t.cluster cl).changing k = AMap.find (s.cluster cl).changing k) ∧
      AMap.find (t.cluster cl).changing b.toNat = none ∧
      (∀ a, SMap.get (t.cluster cl).scratch a = if a / 0x60000 = b.toNat then 0 else SMap.get (s.cluster cl).scratch a) ∧
      (∀ n, t.queue cl n = if n / 16 = b.toNat then ⟨[], [], [], []⟩ else s.queue cl n) ∧
      { t.cluster cl with
        modes := (s.cluster cl).modes, changing := (s.cluster cl).changing, scratch := (s.cluster cl).scratch,
        queues := (s.cluster cl).queues } = s.cluster cl ∧ ∀ k, k ≠ cl → t.cluster k = s.cluster k) ∧
  (∀ (s : State) (cl : Nat) (qw : BitVec 8) (q : FQueue) (p : QPush) (ps : List QPush),
    q = s.queue cl qw.toNat → q.pushes = p :: ps →
    (∀ w o f, p.entry.port = none → p.op = some (w, o) → At s w o f → f.kind = .command → f.accs = [] →
      q.entries.countP (fun e => decide (e.port = none)) + (q.resv.map fun r => r.cred).sum < 768 →
      ∃ t, exec (.fifoPushJoin cl qw) s = .next t ∧ OnlyQueue s (wavesBack s t) cl qw.toNat ∧ Completed s t w o f ∧
        t.queue cl qw.toNat = { q with entries := q.entries ++ [p.entry], pushes := ps }) ∧
    (∀ w k n, p.entry.port = some (w, k, n) → p.op = none → s.linkOpen ((s.wave w).core / 144) (cl / 12) = true →
      ∃ t, exec (.fifoPushJoin cl qw) s = .next t ∧ OnlyQueue s t cl qw.toNat ∧
        t.queue cl qw.toNat = { q with entries := q.entries ++ [p.entry], pushes := ps })) ∧
  (∀ (s : State) (cl w o : Nat) (qw : BitVec 8) (d : SReg) (q : FQueue) (e : QEntry) (es : List QEntry)
    (ts : List QTaker) (f : Flight),
    q = s.queue cl qw.toNat → q.entries = e :: es → q.takers = .pop w o d :: ts → (∀ r ∈ q.resv, r.closing = false) →
    e.port = none → e.words.length = 8 → At s w o f → f.kind = .command → f.accs = [] →
    ∃ t, exec (.fifoPopServe cl qw) s = .next t ∧ OnlyQueue s (wavesBack s t) cl qw.toNat ∧
      t.queue cl qw.toNat = { q with entries := es, takers := ts } ∧ Ends (s.wave w) (t.wave w) o f.flag ∧
      (∀ k, k < 8 → (t.wave w).rs (d + BitVec.ofNat 8 k) = e.words.getD k 0) ∧
      (∀ r, (∀ k, k < 8 → r ≠ d + BitVec.ofNat 8 k) → (t.wave w).rs r = (s.wave w).rs r) ∧
      { t.wave w with s := (s.wave w).s, f := (s.wave w).f, flights := (s.wave w).flights } = s.wave w ∧
      ∀ j, j ≠ w → t.wave j = s.wave j) ∧
  (∀ (s : State) (cl w order : Nat) (qw : BitVec 8) (second : Bool) (q : FQueue) (e : QEntry) (es : List QEntry)
    (ts : List QTaker) (z : Sleeper) (g : SAlu) (a b : SSrc) (d : SReg) (va vb : Option Word) (x : Word),
    q = s.queue cl qw.toNat → q.entries = e :: es → q.takers = .read w order second :: ts →
    (∀ r ∈ q.resv, r.closing = false) → (s.wave w).slot.isSome → (s.wave w).sleepers = [z] → z.order = order → z.entry = true →
    z.wait = .port g a b (.s d) va vb → (if second then va else vb) = some x →
    ∃ t, exec (.portReadServe cl qw) s = .next t ∧ OnlyQueue s (wavesBack s t) cl qw.toNat ∧
      t.queue cl qw.toNat = { q with
        entries := es, takers := ts,
        resv := q.resv.map fun r => if e.port.map (fun x => x.2.2) = some r.id then { r with owed := r.owed + 1 } else r } ∧
      (t.wave w).rs d = (if second then g.eval x (e.words.getD 1 0) ((s.wave w).rs d)
        else g.eval (e.words.getD 1 0) x ((s.wave w).rs d)) ∧
      (∀ r, r ≠ d → (t.wave w).rs r = (s.wave w).rs r) ∧ Enter (s.wave w) (t.wave w) z.members .ready ∧
      (t.wave w).sleepers = [] ∧
      (∀ i, i < 12 → (t.wave w).flag i =
        if i = z.flag.toNat ∧ (s.wave w).flag i ≠ 0 then (s.wave w).flag i - 1 else (s.wave w).flag i) ∧
      { t.wave w with
        s := (s.wave w).s, threads := (s.wave w).threads, sleepers := (s.wave w).sleepers, f := (s.wave w).f } =
        s.wave w ∧ ∀ j, j ≠ w → t.wave j = s.wave j) ∧
  (∀ (s : State) (w cl qw : Nat) (p : BitVec 3) (r : QResv) (ps : PortSt),
    s.owing w p.toNat = some (cl, qw) → s.linkOpen (cl / 12) ((s.wave w).core / 144) = true →
    (s.queue cl qw).resv = [r] → r.wave = w → r.port = p.toNat → 0 < r.owed → r.closing = false →
    (s.wave w).slot.isSome → ps = (s.wave w).port p.toNat →
    ∃ t, exec (.creditReturn w p) s = .next t ∧ OnlyQueue s (wavesBack s t) cl qw ∧
      (ps.full = none → t.queue cl qw = { s.queue cl qw with
          resv := [{ r with owed := r.owed - 1, buffered := none }] } ∧
        (t.wave w).port p.toNat = { ps with held := ps.held + 1 }) ∧
      (∀ v, ps.full = some v → t.queue cl qw = { s.queue cl qw with
          resv := [{ r with owed := r.owed - 1, buffered := none }],
          pushes := (s.queue cl qw).pushes ++ [⟨⟨[ps.hdr, v, 0, 0, 0, 0, 0, 0], some (w, p.toNat, ps.resv)⟩, none⟩] } ∧
        (t.wave w).port p.toNat = { ps with full := none }) ∧
      (∀ k, k ≠ p.toNat → (t.wave w).port k = (s.wave w).port k) ∧
      { t.wave w with ports := (s.wave w).ports } = s.wave w ∧ ∀ j, j ≠ w → t.wave j = s.wave j)

/-- Copies, follow-ons and promised times (R272, R273, R278, R280 to R282). A copy within the local space moves every
byte of its rows and no other, and its timeline advances; a follow-on enters its group's queue once the copy is
performed; at its promised time a `waitp` ends when the timeline has reached its value and else waits for that. -/
def Obligations.CopyAndPromiseEvents : Prop :=
  (∀ (s : State) (r rows rowb base : Nat) (q : Req) (src dst : Nat → Nat → Nat), NextDone s r q → q.kind = .copy →
    q.queued = false → q.read = [] → q.written = [] → s.streamOpen r q none = true → (descWord q 5).testBit 21 = true →
    (descWord q 5).testBit 22 = true → descWord q 1 = 0 → descWord q 3 = 0 → rows = descWord q 5 % 2 ^ 16 →
    rowb = descWord q 4 % 2 ^ 24 → base = (s.cohort q.cohort).base →
    src = (fun i j => base + descWord q 0 + i * descWord q 6 + j) →
    dst = (fun i j => base + descWord q 2 + i * descWord q 7 + j) →
    (∀ i j i' j', i < rows → i' < rows → j < rowb → j' < rowb → src i j ≠ dst i' j' ∧ (dst i j = dst i' j' → i = i' ∧ j = j')) →
    ∃ t, exec (.copyRequestComplete r) s = .next t ∧
      { t with reqs := s.reqs, cohorts := s.cohorts, clusters := s.clusters } = s ∧ Finishes s t r q (fun x => x) ∧
      (∀ i j, i < rows → j < rowb →
        SMap.get (t.cluster q.cluster).scratch (dst i j) = SMap.get (s.cluster q.cluster).scratch (src i j)) ∧
      (∀ a, (∀ i j, i < rows → j < rowb → a ≠ dst i j) →
        SMap.get (t.cluster q.cluster).scratch a = SMap.get (s.cluster q.cluster).scratch a) ∧
      { t.cluster q.cluster with scratch := (s.cluster q.cluster).scratch } = s.cluster q.cluster ∧
      ∀ k, k ≠ q.cluster → t.cluster k = s.cluster k) ∧
  (∀ (s s1 : State) (r g : Nat) (q q1 : Req) (c : Cmd), AMap.find s.reqs r = some q → q.kind = .follow →
    q.queued = false → s.copyRest r = (true, s1) → AMap.find s1.reqs r = some q1 → q1.failed = false →
    g ∈ (s1.cohort q1.cohort).groups →
    (∀ j ∈ (s1.cohort q1.cohort).groups, (s1.group j).index = descWord q1 8 / 2 ^ 12 % 16 ↔ j = g) → (s1.group g).slot.isSome →
    (s1.group g).queue.length < 7 →
    c = ⟨BitVec.ofNat 9 (descWord q1 8 % 2 ^ 9), BitVec.ofNat 3 (descWord q1 8 / 2 ^ 9 % 8), 0, true, q1.wave, q1.wid,
      q1.desc.getD 9 0, 15, [10, 11, 12, 13, 14].map fun k => q1.desc.getD k 0, none, q1.pc, [], some r, none, 0, none⟩ →
    ∃ t, exec (.followOnEnqueue r) s = .next t ∧ { t with groups := s1.groups, reqs := s1.reqs } = s1 ∧
      t.group g = { s1.group g with queue := (s1.group g).queue ++ [c] } ∧ (∀ j, j ≠ g → t.group j = s1.group j) ∧
      AMap.find t.reqs r = some { q1 with queued := true } ∧ ∀ k, k ≠ r → AMap.find t.reqs k = AMap.find s1.reqs k) ∧
  (∀ (s : State) (w : Nat) (z : Sleeper) (sel : Timeline) (m q : Word) (tl : Tl), (s.wave w).sleepers = [z] →
    z.entry = true → (s.wave w).slot.isSome → z.wait = .promise sel m q true ((s.wave w).core / 144) →
    hasReached (s.die ((s.wave w).core / 144)).counter.toNat q →
    tl = (s.cohort (s.group (s.wave w).group).cohort).tl sel →
    (hasReached tl.value m → tl.fail = none →
      ∃ t, exec (.promisedTimeReached w) s = .next t ∧ OnlyWave (s.acquire (s.wave w).core) t w ∧
        Enter (s.wave w) (t.wave w) z.members .ready ∧ (t.wave w).sleepers = [] ∧
        (∀ i, i < 12 → (t.wave w).flag i =
          if i = z.flag.toNat ∧ (s.wave w).flag i ≠ 0 then (s.wave w).flag i - 1 else (s.wave w).flag i) ∧
        { t.wave w with threads := (s.wave w).threads, sleepers := (s.wave w).sleepers, f := (s.wave w).f } = s.wave w) ∧
    (¬ hasReached tl.value m → (s.ctlw (s.wave w).pasid).getLsbD 1 = false →
      ∃ t, exec (.promisedTimeReached w) s = .next t ∧ OnlyWave s t w ∧
        t.wave w = { s.wave w with
          sleepers := [{ z with wait := .promise sel m q false ((s.wave w).core / 144) }] }))

/-- The traversal and the near-bank engine (R273, R294, R299, R304, R305, R309, R310, R402 to R404). `rbind` binds its
class to a right layout and program; a record that is read starts as a ray with its initial values; a node that comes
back is loaded, a fault suspends the ray with STATUS 3; a suspended ray's record is written back and counted; a request
whose rays are all done writes its summary and completes; a near-bank request writes every result. What the engines'
loads and stores give is `engineBytes`, `nodeBytes` and `engineStore`. -/
def Obligations.TraversalEvents : Prop :=
  (∀ (s s1 s2 : State) (r n : Nat) (cls : BitVec 3) (q : Req) (bs ps : List Byte), NextDone s2 r q →
    AMap.find s.reqs r = some q → q.kind = .bind cls → FirstInOrder s q → n = descWord q 4 % 2 ^ 7 →
    s.engineBytes q.cluster q.pasid (descAddr q 0) 64 = (some (.ok bs), s1) →
    s1.engineBytes q.cluster q.pasid (descAddr q 2) (4 * n) = (some (.ok ps), s2) → layoutBad bs = none →
    (∀ k, k < n → walkWordOk (Layout.ofBytes bs) n (BitVec.ofNat 32 (inNode ps (4 * k) 4)) = true) →
    ∃ t, exec (.rbindApply r) s = .next t ∧ { t with reqs := s2.reqs, cohorts := s2.cohorts } = s2 ∧
      Finishes s2 t r q (fun x => { x with classes := (s2.cohort q.cohort).classes }) ∧
      AMap.find (t.cohort q.cohort).classes (8 * q.cluster + cls.toNat) =
        some ⟨Layout.ofBytes bs, (List.range n).map fun k => BitVec.ofNat 32 (inNode ps (4 * k) 4)⟩ ∧
      ∀ k, k ≠ 8 * q.cluster + cls.toNat → AMap.find (t.cohort q.cohort).classes k = AMap.find (s2.cohort q.cohort).classes k) ∧
  (∀ (s s1 : State) (r at' : Nat) (q : Req) (bs : List Byte) (b : Binding) (w : Nat → Word),
    AMap.find s.reqs r = some q → q.kind = .trace false → FirstInOrder s q → q.next < descWord q 2 % 2 ^ 16 →
    s.rays.countP (fun e => decide (e.2.cluster = q.cluster)) < 256 → q.savers = [] →
    at' = descAddr q 0 + 256 * q.next → s.engineBytes q.cluster q.pasid at' 256 = (some (.ok bs), s1) →
    AMap.find s1.reqs r = some q → w = (fun o => BitVec.ofNat 32 (inNode bs o 4)) → (bs.getD 0x21 0).toNat < 8 →
    (bs.getD 0x20 0).toNat < 8 → (bs.getD 0x22 0).toNat < 64 → inNode bs 0x28 8 < 2 ^ 57 →
    AMap.find (s1.cohort q.cohort).classes (8 * q.cluster + (bs.getD 0x21 0).toNat) = some b →
    ∃ t, exec (.rayStart r) s = .next t ∧ { t with rays := s1.rays, reqs := s1.reqs, nextId := s1.nextId } = s1 ∧
      t.nextId = s1.nextId + 1 ∧ AMap.find t.reqs r = some { q with next := q.next + 1 } ∧
      (∀ k, k ≠ r → AMap.find t.reqs k = AMap.find s1.reqs k) ∧
      (∀ k, k ≠ s1.nextId → AMap.find t.rays k = AMap.find s1.rays k) ∧
      ∃ y, AMap.find t.rays s1.nextId = some y ∧ y.req = r ∧ y.cohort = q.cohort ∧ y.cluster = q.cluster ∧
        y.pasid = q.pasid ∧ y.at_ = at' ∧ y.binding = some b ∧ y.org = [w 0, w 4, w 8] ∧ y.tmin = w 0x0C ∧
        y.dir = [w 0x10, w 0x14, w 0x18] ∧ y.tmax = w 0x1C ∧ y.flags = bs.getD 0x20 0 ∧ y.cls = bs.getD 0x21 0 ∧
        y.node = inNode bs 0x28 8 ∧ y.status = 1 ∧ y.cause = 0 ∧ y.upc = 0 ∧ y.stack = [] ∧ y.inst = 0 ∧
        y.hitt = 0x7F800000 ∧ y.prim = 0xFFFFFFFF ∧ y.hitu = 0 ∧ y.hitv = 0 ∧ y.buf = none ∧ y.kids = [] ∧
        y.cand = none ∧ y.z = false ∧ y.h = false ∧ y.m = false ∧ y.fetching = false ∧ y.out = false ∧ y.savers = []) ∧
  (∀ (s s1 : State) (k : Nat) (y : Ray), AMap.find s.rays k = some y → y.fetching = true → y.out = false →
    (∀ bs, s.nodeBytes y.cluster y.pasid y.node (16 * (y.layout.geom % 64)) = (.ok bs, s1) →
      ∃ t got, exec (.nodeFetchReturn k) s = .next t ∧ { t with rays := s1.rays, freeCtr := s1.freeCtr } = s1 ∧
        got.length = bs.length ∧ (∀ g, (∀ i, (y.node + i) / 4 = g → got.getD i 0 = bs.getD i 0) ∨
          ∀ i, i < bs.length → (y.node + i) / 4 = g → got.getD i 0 =
            (AMap.find (((AMap.find s1.reqs y.req).map fun q => q.read).getD []) (y.node + i)).getD (bs.getD i 0)) ∧
        AMap.find t.rays k = some (stepped y { y with buf := some got, fetching := false }) ∧
        ∀ j, j ≠ k → AMap.find t.rays j = AMap.find s1.rays j) ∧
    (∀ c, s.nodeBytes y.cluster y.pasid y.node (16 * (y.layout.geom % 64)) = (.error c, s1) →
      ∃ t, exec (.nodeFetchReturn k) s = .next t ∧ { t with rays := s1.rays } = s1 ∧
        AMap.find t.rays k = some (suspended y 3 c.code y.upc) ∧
        ∀ j, j ≠ k → AMap.find t.rays j = AMap.find s1.rays j)) ∧
  (∀ (s s1 s2 : State) (k : Nat) (y : Ray) (q : Req), AMap.find s.rays k = some y → y.out = true → y.savers = [] →
    s.engineMapped y.cluster y.pasid y.at_ 256 = (true, s1) →
    s1.engineStore y.cluster y.pasid y.at_ y.bytes = (none, s2) → AMap.find s2.reqs y.req = some q →
    ∃ t, exec (.rayWriteback k) s = .next t ∧ { t with rays := s2.rays, reqs := s2.reqs } = s2 ∧
      AMap.find t.rays k = none ∧ (∀ j, j ≠ k → AMap.find t.rays j = AMap.find s2.rays j) ∧
      AMap.find t.reqs y.req = some { q with
        counts := q.counts.set (y.status.toNat - 2) (q.counts.getD (y.status.toNat - 2) 0 + 1) } ∧
      (∀ j, j ≠ y.req → AMap.find t.reqs j = AMap.find s2.reqs j) ∧
      (y.org.length = 3 → y.dir.length = 3 → y.bytes.length = 256 ∧ y.bytes.getD 0x20 0 = y.flags ∧
        y.bytes.getD 0x22 0 = BitVec.ofNat 8 y.upc ∧ y.bytes.getD 0x23 0 = BitVec.ofNat 8 y.depth ∧
        y.bytes.getD 0x24 0 = y.status ∧ y.bytes.getD 0x25 0 = y.cause)) ∧
  (∀ (s s1 s2 : State) (r : Nat) (resume : Bool) (q : Req), AMap.find s.reqs r = some q → q.kind = .trace resume →
    descWord q 2 % 2 ^ 16 ≤ q.next → (∀ e ∈ s.rays, e.2.req ≠ r) →
    (descAddr q 3 = 0 → NextDone s r q →
      ∃ t, exec (.traversalRequestComplete r) s = .next t ∧ { t with reqs := s.reqs, cohorts := s.cohorts } = s ∧
        Finishes s t r q (fun x => x)) ∧
    (descAddr q 3 ≠ 0 → s.engineMapped q.cluster q.pasid (descAddr q 3) 16 = (true, s1) →
      s1.engineStore q.cluster q.pasid (descAddr q 3) ((List.range 12).map (fun k =>
        byteOf (q.counts.getD (k / 2) 0) (k % 2)) ++ [0, 0, 0, 0]) = (none, s2) → NextDone s2 r q →
      ∃ t, exec (.traversalRequestComplete r) s = .next t ∧ { t with reqs := s2.reqs, cohorts := s2.cohorts } = s2 ∧
        Finishes s2 t r q (fun x => x))) ∧
  (∀ (s s1 : State) (r rows vecs base pa : Nat) (e : TlbEntry) (q : Req), AMap.find s.reqs r = some q →
    q.kind = .nmv → rows = descWord q 2 % 2 ^ 16 → vecs = descWord q 6 / 2 ^ 8 % 8 + 1 →
    s.lookup none q.cluster q.pasid (descAddr q 0) .load = (.ok e, s1) → e.r = true → e.bits = 30 →
    pa = e.ppage * 2 ^ 30 + descAddr q 0 % 2 ^ 30 → descAddr q 0 % 2 ^ 30 + 256 * rows * nmChunks q.desc ≤ 2 ^ 30 →
    pa < dramEnd → (s1.die (homeDie pa)).near.getLsbD (pa % 0x9000000000 / 0x180000000) = true →
    6 * homeDie pa + pa % 0x9000000000 % 0x180000000 / 2 ^ 30 = descWord q 6 % 32 → q.read = s1.nmVectors q →
    q.weights = none → q.written = [] → s1.linkOpen (q.cluster / 12) (homeDie pa) = true →
    s1.lost = [] → NextDone s1 r q → base = (s1.cohort q.cohort).base →
    ∃ t, exec (.nmvRequestComplete r) s = .next t ∧
      { t with reqs := s1.reqs, cohorts := s1.cohorts, clusters := s1.clusters } = s1 ∧ Finishes s1 t r q (fun x => x) ∧
      (∀ n v k, n < rows → v < vecs → k < 4 →
        SMap.get (t.cluster q.cluster).scratch (base + descWord q 5 + 4 * (rows * v + n) + k) = byteOf
          (nmResult q.desc (fun o => s1.mem.read (pa + o)) (SMap.get q.read) base v n).toNat k) ∧
      (∀ a, (a < base + descWord q 5 ∨ base + descWord q 5 + 4 * rows * vecs ≤ a) →
        SMap.get (t.cluster q.cluster).scratch a = SMap.get (s1.cluster q.cluster).scratch a) ∧
      { t.cluster q.cluster with scratch := (s1.cluster q.cluster).scratch } = s1.cluster q.cluster ∧
      ∀ j, j ≠ q.cluster → t.cluster j = s1.cluster j)

/-- Launches (R10, R20, R28, R31, R268, R269, R341, R346, R349, R351, R361, R362). A queued launch starts with the
ceiling of its queue; a closed window starts its children in their order; a cohort that can be placed puts its waves on
their slots with their first state; a wave whose threads have exited leaves; a launch of which nothing is left completes:
its cores' dirty bytes go home, and its queue's timeline and QTL advance. -/
def Obligations.LaunchEvents : Prop :=
  (∀ (s : State) (l q n : Nat) (x : Launch) (p : Packet), AMap.find s.launches l = some x → x.queue = some (q, n) →
    x.kind = .grid → x.started = false → x.handles = [] → s.fabric.lock = true → MayStart (s.fq q) n p →
    s.linksSteady = true → s.queueOn q = true → Quiet (s.fq q) n →
    ∃ t, exec (.launchStart l) s = .next t ∧
      { t with launches := s.launches, queues := s.queues } = s.freshCaches ∧
      (∀ k a b, AMap.find (t.cluster k).cache a = some b → t.homeByte a = b) ∧
      OnlyLaunch s t l { x with started := true, ceil := s.ceilOf q, prio := min x.kd.prio (s.ceilOf q) } ∧
      OnlyFq s t q { s.fq q with packets := AMap.put (s.fq q).packets n { p with started := true } }) ∧
  (∀ (s : State) (die i : Nat) (y : Window), s.windows = [(i, y)] → y.die = die →
    (4096 ≤ y.children.length ∨ y.since + y.timeout ≤ (s.die die).counter.toNat) → (∀ c ∈ y.children, c.parent < s.nextId) →
    ∃ t, exec (.aggregatorWindowClose die y.kdesc) s = .next t ∧
      { launchesBack s t with windows := s.windows, clusters := s.clusters } = s ∧
      t.clusters = (if y.children = [] then s else s.freshCaches).clusters ∧ t.windows = [] ∧ t.nextId = s.nextId + y.children.length ∧
      (∀ j, (j < s.nextId ∨ s.nextId + y.children.length ≤ j) → AMap.find t.launches j = AMap.find s.launches j) ∧
      ∀ k c, y.children[k]? = some c → ∃ x p, AMap.find t.launches (s.nextId + k) = some x ∧ p = s.launch c.parent ∧
        x.kind = .child c.signal ∧ x.parent = some c.parent ∧ x.root = p.root ∧ x.lref = p.lref ∧ x.pasid = y.pasid ∧
        x.die = die ∧ x.kd = y.kd ∧ x.kaddr = y.kdesc ∧ x.ngroups = c.ngroups ∧
        x.threads = (if c.threads = 0 then 64 * y.kd.waves else c.threads) ∧ x.args = c.args ∧
        x.ceil = s.ceilOf p.root ∧ x.prio = min y.kd.prio (s.ceilOf p.root) ∧ x.started = true ∧ x.nextCohort = 0 ∧
        x.behind = if k = 0 then none else some (s.nextId + k - 1)) ∧
  (∀ (s t : State) (l cl : Nat) (x : Launch), AMap.find s.launches l = some x → x.started = true → Alive s l →
    x.nextCohort < x.cohorts → x.behind = none → (∀ a b c, x.kind ≠ .pixel a b c) → cl ∈ s.clustersOf x.pasid →
    s.placeCohort l cl ((List.range 12).map fun k => 12 * cl + k) = some t →
    exec (.cohortPlacement l cl) s = .next t ∧
    ∀ core slot ws base, x.kd.groups = 1 → x.nextCohort < x.ngroups → x.kind = .grid → x.threads ≤ 64 → 0 < x.threads →
      s.spots ((List.range 12).map fun k => 12 * cl + k) 1 (64 * x.kd.regs) x.kd.acc x.pasid 1 [] =
        some [⟨core, slot, [ws]⟩] → s.allocBase cl (256 * x.kd.local_) = some base →
      ∃ h g w, AMap.find t.cohorts s.nextId = some h ∧ h.groups = [s.nextId + 1] ∧ h.count = 1 ∧ h.cluster = cl ∧ h.base = base ∧
        h.size = 256 * x.kd.local_ ∧ h.cidx = x.nextCohort ∧ h.launch = l ∧ h.pasid = x.pasid ∧
        h.copy = ⟨0, 0, [], none⟩ ∧ h.trav = ⟨0, 0, [], none⟩ ∧ h.bars = 0 ∧ h.classes = [] ∧
        AMap.find t.groups (s.nextId + 1) = some g ∧ g.core = core ∧ g.waves = 1 ∧ g.ended = 0 ∧ g.bars = [] ∧
        g.slot = some (BitVec.ofNat 3 slot) ∧ g.launch = l ∧ g.cohort = s.nextId ∧ g.localbase = BitVec.ofNat 32 base ∧
        g.localsize = BitVec.ofNat 32 (256 * x.kd.local_) ∧ g.baton = none ∧ g.queue = [] ∧ g.nodes = [] ∧
        AMap.find t.waves (s.nextId + 2) = some w ∧ w.core = core ∧ w.slot = some (BitVec.ofNat 5 ws) ∧
        w.group = s.nextId + 1 ∧ w.launch = l ∧ w.pasid = x.pasid ∧
        (∀ i, i < 64 → w.launched.getLsbD i = decide (i < x.threads) ∧ (i < x.threads → w.pcOf i = x.entry)) ∧
        (∀ i, i < 8 → SMap.get w.s i = x.args.getD i 0) ∧ w.waveid = 0 ∧ w.gidx = BitVec.ofNat 32 x.nextCohort ∧
        w.cidx = BitVec.ofNat 32 x.nextCohort ∧ w.ngroups = BitVec.ofNat 32 x.ngroups ∧
        w.codebase = BitVec.ofNat 64 x.kd.code ∧ w.localbase = BitVec.ofNat 32 base ∧
        w.localsize = BitVec.ofNat 32 (256 * x.kd.local_) ∧ w.trapVec = x.kd.trapvec ∧
        w.prio = BitVec.ofNat 32 x.prio ∧ w.ceiling = BitVec.ofNat 8 x.ceil ∧ w.fpctl = 0 ∧ w.fpstat = 0 ∧
        w.parked = [] ∧ w.sleepers = [] ∧ w.flights = [] ∧
        t.launch l = { x with nextCohort := x.nextCohort + 1, cores := (x.cores ++ [core]).eraseDups }) ∧
  (∀ (s : State) (w v : Nat) (x : Wave), AMap.find s.waves w = some x → x.lanesIn .exited = x.launched →
    x.flights = [] → x.tileFaults = [] → x.ports = [] → s.reportFor w = none → (s.group x.group).bars = [] →
    (∀ c ∈ s.clusters, ∀ q ∈ c.2.queues, ∀ k ∈ q.2.takers, ∀ o b, k ≠ .read w o b) →
    (∀ e ∈ s.graphs, ∀ u ∈ e.2.waiters, u.2.1 ≠ w) → (s.group x.group).baton ≠ some (BitVec.ofNat 4 x.waveid.toNat) →
    v ≠ w → (AMap.find s.waves v).isSome → (s.wave v).group = x.group → (s.wave v).arrivals = 0 →
    (s.wave v).waveid.toNat < (s.group x.group).waves → (s.group x.group).waves ≤ 16 → (s.wave v).waveid ≠ x.waveid →
    (s.group x.group).ended.getLsbD (s.wave v).waveid.toNat = false → x.waveid.toNat < 16 →
    (∀ i, (s.group x.group).waves ≤ i → (s.group x.group).ended.getLsbD i = false) →
    x.waveid.toNat < (s.group x.group).waves →
    ∃ t, exec (.waveEnd w) s = .next t ∧ { t with waves := s.waves, groups := s.groups, cores := s.cores } = s ∧
      AMap.find t.waves w = none ∧ (∀ j, j ≠ w → AMap.find t.waves j = AMap.find s.waves j) ∧
      t.group x.group = { s.group x.group with
        ended := (s.group x.group).ended ||| BitVec.ofNat 16 (2 ^ x.waveid.toNat) } ∧
      (∀ g, g ≠ x.group → t.group g = s.group g) ∧
      t.core x.core = { s.core x.core with
        missing := ((s.core x.core).missing.filter fun e => decide (e.1 ≠ w)),
        lineUse := ((s.core x.core).lineUse.filter fun e => decide (e.1 ≠ w)),
        upsetLines := ((s.core x.core).upsetLines.filter fun e => decide (e.1 ≠ w)),
        draining := ((s.core x.core).draining.filter fun j => decide (j ≠ w)) } ∧
      ∀ c, c ≠ x.core → t.core c = s.core c) ∧
  (∀ (s r : State) (l q n : Nat) (x : Launch), AMap.find s.launches l = some x → x.started = true → x.kind = .grid →
    x.cohorts ≤ x.nextCohort → (∀ e ∈ s.groups, e.2.launch ≠ l) → (∀ e ∈ s.launches, e.2.parent ≠ some l) →
    (∀ e ∈ s.windows, ∀ c ∈ e.2.children, c.parent ≠ l) → (∀ e ∈ s.graphs, e.2.launch ≠ l) → x.queue = some (q, n) →
    x.handles = [] → x.error = none → r = x.cores.foldl (fun s c => s.release c 0xFF) s → InDram ((s.fq q).at_ + 0x28) 8 →
    (s.fq q).tl.done = [] → n = (s.fq q).tl.value + 1 → (∀ e ∈ s.waves, e.2.sleepers = []) → s.linksSteady = true →
    Quiet (s.fq q) n → (∀ e ∈ s.reqs, (s.cohort e.2.cohort).launch ≠ l) →
    ∃ t, exec (.launchComplete l) s = .next t ∧
      HomeOnly { r with launches := t.launches, queues := t.queues } t (bytesAt ((s.fq q).at_ + 0x28) 8 n) ∧
      OnlyFq s t q { s.fq q with packets := AMap.del (s.fq q).packets n, tl := { (s.fq q).tl with value := n } } ∧
      AMap.find t.launches l = none ∧ ∀ j, j ≠ l → AMap.find t.launches j = AMap.find s.launches j)

/-- Tasks, graphs and pixels (R364, R367, R371, R372, R375 to R377). The next record of a task queue becomes a launch of
one group with the record's fields; a range task with work left splits in the middle of its chunks; a batch launches
when its time is out, its group with the table of its records; an ended batch group frees its records; a covered block of
an emitted primitive becomes a pixel wave with its coordinates and weights. -/
def Obligations.TaskAndGraphEvents : Prop :=
  (∀ (s s1 s2 s3 : State) (q n l : Nat) (qc : Qcb) (ws : List Nat) (r : Nat → Nat) (k : KDesc) (x : Launch),
    s.linksSteady = true → s.openQueue q = (some (.ok qc), s1) → qc.kind = true → s1.fabric.lock = true →
    s1.feWords (keyPasid q) (qc.ring + 64 * (qc.rdidx % 2 ^ qc.log2n)) 8 = (.ok ws, s2) → ws.length = 8 →
    r = (fun i => ws.getD (i / 2) 0 / 2 ^ (32 * (i % 2)) % 2 ^ 32) → r 1 / 2 ^ 21 = 0 → r 1 / 4 % 64 = 0 →
    1 ≤ r 1 / 2 ^ 16 % 32 → r 1 / 2 ^ 16 % 32 ≤ 16 → (r 1 % 4 = 0 ∨ r 1 % 4 = 1 ∧ r 12 ≠ 0) → r 15 = 0 →
    s2.vet (keyPasid q) qc.tkdesc qc.tkdesc 0 = (.ok k, s3) → n = (s3.fq q).tl.accepted + 1 → l = s3.nextId →
    x = { Launch.blank with
      lref := BitVec.ofNat 64 (r 13 + 2 ^ 32 * r 14), pasid := keyPasid q, die := keyDie q, kind := .task,
      queue := some (q, n), root := q, kd := { k with groups := 1, waves := r 1 / 2 ^ 16 % 32 }, kaddr := qc.tkdesc,
      threads := 64 * (r 1 / 2 ^ 16 % 32), entry := BitVec.ofNat 32 (r 0),
      args := (List.range 8).map fun i => BitVec.ofNat 32 (r (2 + i)), ceil := qc.ceil,
      prio := min (r 1 / 2 ^ 8 % 2 ^ 8) qc.ceil, started := true,
      task := if r 1 % 4 = 1 then some ⟨BitVec.ofNat 32 (r 10), BitVec.ofNat 32 (r 11), BitVec.ofNat 32 (r 12)⟩ else none } →
    exec (.taskStart q) s = .next ((({ s3.freshCaches with
      launches := AMap.put s3.launches l x, nextId := l + 1 } : State).onFq q fun f => { f with
        tl := { f.tl with accepted := n },
        packets := AMap.put f.packets n ⟨.launch l, false, true, []⟩ }).advanceQueue q 1)) ∧
  (∀ (s t : State) (core h m : Nat) (k : TaskReg) (p : Launch), s.taskQueued (core / 12) = false →
    (s.usedGroupSlots core []).length < 8 → s.splitTask (core / 12) = some (h, k) → k.chunks = 2 * m ∨ k.chunks + 1 = 2 * m →
    k.cur.toNat + k.grain.toNat * m < k.hi.toNat → p = s.launch (s.cohort h).launch →
    ((s.addLaunch { p with
        parent := some (s.cohort h).launch, queue := none, error := none, reported := false, nextCohort := 0,
        endedGroups := 0, releasedGroups := 0, cores := [],
        task := some ⟨BitVec.ofNat 32 (k.cur.toNat + k.grain.toNat * m), k.hi, k.grain⟩ }).onCohort h fun c =>
      { c with task := some { k with hi := BitVec.ofNat 32 (k.cur.toNat + k.grain.toNat * m) } }).placeCohort s.nextId
        (core / 12) [core] = some t →
    exec (.rangeTaskSplit core) s = .next t) ∧
  (∀ (s s2 : State) (g node table l : Nat) (y : Graph) (nd : GNode) (ks : List Nat) (since : Nat) (p : Launch)
    (r0 : RecSlot) (cm : Nat),
    AMap.find s.graphs g = some y → y.nodes[node]? = some nd → AMap.find y.pending node = some (ks, since) →
    ks ≠ [] → ks.length ≤ nd.batch → since + nd.timeout ≤ (s.die y.die).counter.toNat → Alive s y.launch →
    p = s.launch y.launch → table = y.btab + 512 * ks.headD 0 → AMap.find y.slots (ks.headD 0) = some r0 →
    r0.commit = some cm → s.feStores p.pasid table (ks.map fun k => y.pool + 256 * k) = (none, s2) → l = s2.nextId →
    s2.graphs = s.graphs → s.linksSteady = true →
    ∃ t x, exec (.batchTimeout g node) s = .next t ∧ { launchesBack s2 t with graphs := s2.graphs } = s2.freshCaches ∧
      OnlyLaunch s2 t l x ∧ t.nextId = l + 1 ∧ (∃ cs, x.kind = .batch g node (ks.zip cs) ∧ cs.length = ks.length) ∧
      x.parent = some y.launch ∧ x.root = p.root ∧ x.pasid = p.pasid ∧ x.kd = { p.kd with waves := nd.waves } ∧
      x.ngroups = 1 ∧ x.threads = 64 * nd.waves ∧ x.entry = nd.entry ∧ x.started = true ∧ x.nextCohort = 0 ∧
      x.args = [BitVec.ofNat 32 table, BitVec.ofNat 32 (table / 2 ^ 32), BitVec.ofNat 32 ks.length, BitVec.ofNat 32 node,
        BitVec.ofNat 32 cm, BitVec.ofNat 32 (cm / 2 ^ 32), 0, 0] ∧
      ∃ y', OnlyGraph s2 t g y' ∧ AMap.find y'.pending node = none ∧
        (∀ k, AMap.find y'.slots k = (AMap.find y.slots k).map fun r => if k ∈ ks then { r with batch := some l } else r) ∧
        { y' with pending := y.pending, slots := y.slots } = y) ∧
  (∀ (s : State) (g k n : Nat) (ks : List (Nat × Nat)) (y : Group) (gr : Graph), AMap.find s.groups g = some y →
    (s.launch y.launch).kind = .batch k n ks → (∀ i, i < y.waves → y.ended.getLsbD i = true) → y.waves ≤ 16 →
    y.released = true → AMap.find s.graphs k = some gr → gr.waiters = [] → (s.cohort y.cohort).groups = [g] →
    (∀ e ∈ s.reqs, e.2.cohort ≠ y.cohort) →
    ∃ t, exec (.batchGroupEnd g) s = .next t ∧
      { t with groups := s.groups, launches := s.launches, cohorts := s.cohorts, graphs := s.graphs } = s ∧
      AMap.find t.groups g = none ∧ (∀ j, j ≠ g → AMap.find t.groups j = AMap.find s.groups j) ∧
      AMap.find t.cohorts y.cohort = none ∧ (∀ j, j ≠ y.cohort → AMap.find t.cohorts j = AMap.find s.cohorts j) ∧
      t.launch y.launch = { s.launch y.launch with endedGroups := (s.launch y.launch).endedGroups + 1 } ∧
      (∀ j, j ≠ y.launch → t.launch j = s.launch j) ∧
      OnlyGraph s t k { gr with slots := gr.slots.filter fun e =>
        !(decide (e.2.owner = some g ∧ e.2.commit = none) || decide (e.2.batch = some y.launch)) }) ∧
  (∀ (s : State) (prim bx by' die : Nat) (p : Prim) (y : Graph) (tri : Tri) (nd : GNode) (root : Launch),
    AMap.find s.prims prim = some p → AMap.find s.graphs p.graph = some y → triOf p.pts = some tri →
    y.nodes[p.node]? = some nd → root = s.launch y.launch → s.regionDie root.pasid bx by' = some die →
    tri.blockCover bx by' ≠ 0 → bx < 8192 → by' < 8192 → (bx, by') ∉ p.launched → Alive s y.launch → p.ordered = false →
    die ∈ p.reached →
    ∃ t x, exec (.pixelWaveLaunch prim bx by') s = .next t ∧ { launchesBack s t with prims := s.prims } = s.freshCaches ∧
      OnlyLaunch s t s.nextId x ∧ t.nextId = s.nextId + 1 ∧ x.kind = .pixel prim bx by' ∧ x.parent = some y.launch ∧
      x.die = die ∧ x.kd = nd.pix ∧ x.ngroups = 1 ∧ x.threads = 64 ∧ x.entry = 0 ∧ x.started = true ∧
      x.args = p.attr ++ [0, 0, 0, 0, 0, 0] ∧
      (∀ l, l < 64 → x.cover.getLsbD l = tri.covers (8 * bx + l % 8) (8 * by' + l / 8)) ∧
      (∀ l, l < 64 → x.cover.getLsbD l = true →
        (0, l, BitVec.ofNat 32 (8 * bx + l % 8 + 65536 * (8 * by' + l / 8))) ∈ x.vregs ∧
        (1, l, tri.weight 1 (8 * bx + l % 8) (8 * by' + l / 8)) ∈ x.vregs ∧
        (2, l, tri.weight 2 (8 * bx + l % 8) (8 * by' + l / 8)) ∈ x.vregs) ∧
      AMap.find t.prims prim = some { p with launched := (bx, by') :: p.launched } ∧
      ∀ k, k ≠ prim → AMap.find t.prims k = AMap.find s.prims k)

/-- Waits (R108, R177). A run that sleeps in `sleep` wakes when its die's counter has reached its time, and not before; a
run without a wait-table entry is polled every 1,024 core cycles: it wakes when its timeline has reached the value, and
else takes an entry that is free or polls again. -/
def Sys2Proof.Says.WaitEvents : Prop :=
  (∀ (s : State) (w : Nat) (z : Sleeper) (u : BitVec 64), (s.wave w).slot.isSome → (s.wave w).sleepers = [z] →
    z.wait = .sleep u →
    ∃ t, exec (.sleepExpire w) s = .next t ∧ OnlyWave s t w ∧
      if u.toNat ≤ (s.die ((s.wave w).core / 144)).counter.toNat then Wakes (s.wave w) (t.wave w) z
      else t.wave w = s.wave w) ∧
  (∀ (s : State) (w due : Nat) (z : Sleeper) (sel : Timeline) (v : Word), (s.wave w).slot.isSome →
    (s.wave w).sleepers = [z] → (s.wave w).parked = [] → z.wait = .timeline sel v → z.poll = some due →
    due ≤ (s.core (s.wave w).core).cycle →
    ∃ t, exec (.waitPoll w) s = .next t ∧
      (hasReached ((s.cohort (s.group (s.wave w).group).cohort).tl sel).value v →
        ((s.cohort (s.group (s.wave w).group).cohort).tl sel).fail = none →
        { t with waves := s.waves, cores := s.cores } = s ∧ (∀ j, j ≠ w → t.wave j = s.wave j) ∧
          Wakes (s.wave w) { t.wave w with late := (s.wave w).late } z ∧ (t.wave w).late = (s.wave w).late ∧
          OnlyInCore s t (s.wave w).core (fun c => { c with l1 := (s.core (s.wave w).core).l1 }) ∧
          (t.core (s.wave w).core).l1 = (s.core (s.wave w).core).l1.filter fun e => e.2.dirty) ∧
      (¬ hasReached ((s.cohort (s.group (s.wave w).group).cohort).tl sel).value v →
        OnlyWave s t w ∧ { t.wave w with sleepers := (s.wave w).sleepers } = s.wave w ∧
          (t.wave w).sleepers = [if s.waitEntries (s.wave w).core < 32 then { z with entry := true, poll := none }
            else { z with poll := some (due + 1024) }]))

/-- Translation (R190, R192, R193). A walk that succeeds fills the core's and the cluster's TLB, and a hit needs none; a
write of GO starts an invalidation, and is ignored while one runs; the invalidation takes the named translations from the
TLBs of the die, or of every die, and GO reads 0, once no access is pending. -/
def Sys2Proof.Says.TranslationEvents : Prop :=
  (∀ (s s1 : State) (core : Nat) (pasid : BitVec 20) (va : BitVec 64) (acc : Access) (e : TlbEntry), core < 576 →
    va.toNat < 2 ^ 57 → (∀ e ∈ (s.core core).tlb, e.serves pasid va.toNat acc = false) →
    (∀ e ∈ (s.cluster (core / 12)).tlb, e.serves pasid va.toNat acc = false) →
    s.walk (some (core / 144)) pasid va.toNat acc = (.ok e, s1) →
    ∃ t, exec (.pageWalk core pasid va acc) s = .next t ∧
      { t with cores := s1.cores, clusters := s1.clusters, freeCtr := s1.freeCtr } = s1 ∧
      Takes (fun _ => true) 128 e (s1.core core).tlb (t.core core).tlb ∧
      Takes (fun o => decide (o.vpage % 512 = e.vpage % 512)) 8 e (s1.cluster (core / 12)).tlb
        (t.cluster (core / 12)).tlb ∧
      OnlyInCore s1 t core (fun c => { c with tlb := (s1.core core).tlb }) ∧
      { t.cluster (core / 12) with tlb := (s1.cluster (core / 12)).tlb } = s1.cluster (core / 12) ∧
      ∀ k, k ≠ core / 12 → t.cluster k = s1.cluster k) ∧
  (∀ (s : State) (core : Nat) (pasid : BitVec 20) (va : BitVec 64) (acc : Access) (e : TlbEntry),
    e ∈ (s.core core).tlb → e.serves pasid va.toNat acc = true → exec (.pageWalk core pasid va acc) s = .next s) ∧
  (∀ (s : State) (die : Nat) (v : BitVec 64), die < 4 →
    ((s.die die).tlbiCtl.getLsbD 0 = true → exec (.tlbiGo die v) s = .next s) ∧
    ((s.die die).tlbiCtl.getLsbD 0 = false → ∃ t, exec (.tlbiGo die v) s = .next t ∧ OnlyDie s t die ∧
      t.die die = { s.die die with tlbiCtl := v &&& 0xFFFFF1FFFFFFFF07#64 })) ∧
  (∀ (s : State) (die ctl page : Nat) (named : Nat → Bool), ctl = (s.die die).tlbiCtl.toNat → ctl.testBit 0 = true →
    ctl.testBit 40 = false → page = (s.die die).tlbiAddr.toNat / 2 ^ 12 % 2 ^ 45 →
    (∀ e ∈ s.waves, ∀ f ∈ e.2.flights, ∀ a ∈ f.2.accs, a.got.isSome) →
    (∀ d, named d = (decide (d = die) || ctl.testBit 1)) →
    ∃ t, exec (.tlbiComplete die) s = .next t ∧
      { t with cores := s.cores, clusters := s.clusters, dies := s.dies } = s ∧
      { t.die die with walks := (s.die die).walks } = { s.die die with tlbiCtl := (s.die die).tlbiCtl &&& ~~~1#64 } ∧
      (∀ d, d ≠ die → { t.die d with walks := (s.die d).walks } = s.die d) ∧
      (∀ d, (t.die d).walks = (s.die d).walks.filter fun e => !(named d && NamedPointer ctl page e)) ∧
      (∀ c, (t.core c).tlb = (s.core c).tlb.filter fun e => !(named (c / 144) && Named ctl page e)) ∧
      (∀ c, { t.core c with tlb := (s.core c).tlb } = s.core c) ∧
      (∀ c, (t.cluster c).tlb = (s.cluster c).tlb.filter fun e => !(named (c / 12) && Named ctl page e)) ∧
      ∀ c, { t.cluster c with tlb := (s.cluster c).tlb } = s.cluster c)

/-- Halts and restores (R194 to R201). A pre-emption stops the context on its core; with no word in dispatch, no command
and no page draining the halt is complete; the swap puts the waves out of their slots and their pages into the shadow
store, which drains; an idle wave is evicted with the time left to its `sleep`; a restored wave has the state that its page
gives, and a wave in the resume slot moves to a placement slot. -/
def Obligations.HaltEvents : Prop :=
  (∀ (s : State) (core w : Nat) (pasid : BitVec 20) (x : Wave), (w, x) ∈ s.waves → x.core = core → x.pasid = pasid →
    x.slot.isSome → AMap.find (s.core core).halting pasid.toNat = none →
    ∃ t, exec (.preempt core pasid) s = .next t ∧ { t with cores := s.cores } = s ∧
      (∀ k, t.core k = if k ∈ s.gang core pasid ∧ AMap.find (s.core k).halting pasid.toNat = none then
        { s.core k with halting := AMap.put (s.core k).halting pasid.toNat false } else s.core k) ∧
      t.core core = { s.core core with halting := AMap.put (s.core core).halting pasid.toNat false } ∧
      ∀ e ∈ s.groups, ∀ f ∈ s.groups, e.2.core = core → e.2.pasid = pasid → f.2.pasid = pasid → e.2.slot.isSome →
        f.2.slot.isSome → e.2.cohort = f.2.cohort → (AMap.find (t.core f.2.core).halting pasid.toNat).isSome) ∧
  (∀ (s : State) (core : Nat) (pasid : BitVec 20), AMap.find (s.core core).halting pasid.toNat = some false →
    (s.core core).draining = [] →
    ((∃ e ∈ s.waves, e.2.core = core ∧ e.2.pasid = pasid ∧ e.2.slot.isSome ∧ e.2.holding.isSome) →
      exec (.contextHalt core pasid) s = .next s) ∧
    ((∀ e ∈ s.waves, e.2.holding = none) → (s.core core).engine = none →
      ∃ t, exec (.contextHalt core pasid) s = .next t ∧ OnlyCore s t core ∧
        t.core core = { s.core core with halting := AMap.put (s.core core).halting pasid.toNat true })) ∧
  (∀ (s r : State) (core w g : Nat) (outgoing incoming : BitVec 20),
    AMap.find (s.core core).halting outgoing.toNat = some true → (s.core core).draining = [] → outgoing ≠ incoming →
    (s.resident core outgoing).map (fun e => e.1) = [w] →
    (s.groups.filter fun e => e.2.core == core && e.2.pasid == outgoing && e.2.slot.isSome).map (fun e => e.1) = [g] →
    r = ((s.leaveSlot w).onGroup g fun y => { y with slot := none }).saveGroup g →
    ∃ t, exec (.controlStateSwap core outgoing incoming) s = .next t ∧
      t = (r.saveCohort (s.group g).cohort).onCore core fun c => { c with
        halting := AMap.del c.halting outgoing.toNat, draining := [w] }) ∧
  (∀ (s : State) (core w : Nat), (s.core core).draining = [w] →
    ∃ t, exec (.shadowStoreDrain core) s = .next t ∧
      t = (s.savePage w).onCore core fun c => { c with draining := [] }) ∧
  (∀ (s : State) (w : Nat) (x : Wave) (z : Sleeper) (u : BitVec 64), AMap.find s.waves w = some x → x.slot.isSome →
    x.lanesIn .ready = 0 → x.lanesIn .syncing = 0 → x.sleepers = [z] → z.wait = .sleep u → x.holding = none →
    (s.core x.core).draining = [] → AMap.find (s.core x.core).halting x.pasid.toNat = none → NoLine s w →
    ∃ t, exec (.waveEvict w) s = .next t ∧
      { t with waves := s.waves, cores := s.cores, nextId := s.nextId } = s ∧ t.nextId = s.nextId + 1 ∧
      t.core x.core = { s.core x.core with draining := [w] } ∧ (∀ c, c ≠ x.core → t.core c = s.core c) ∧
      (∀ j, j ≠ w → t.wave j = s.wave j) ∧
      t.wave w = { x with
        slot := none, preempted := s.nextId, promoted := none, watch := x.watch.map fun v => { v with held := false },
        sleepers := [{ z with
          entry := false,
          wait := .sleep (BitVec.ofNat 64 (u.toNat - (s.die (x.core / 144)).counter.toNat)) }] }) ∧
  (∀ (s : State) (w core : Nat) (slot : BitVec 5) (x : Wave), AMap.find s.waves w = some x → x.slot = some 31#5 →
    x.core = core → slot ≠ 31#5 → (∀ e ∈ s.waves, ¬(e.2.core = core ∧ e.2.slot = some slot)) →
    ∃ t, exec (.restore w core slot) s = .next t ∧ OnlyWave s t w ∧ t.wave w = { x with slot := some slot }) ∧
  (∀ (s : State) (w core : Nat) (slot : BitVec 5) (x : Wave) (rd : Nat → Nat → Nat), AMap.find s.waves w = some x →
    x.slot = none → x.corrupt = none → x.core = core → core / 12 = (s.cohort (s.group x.group).cohort).cluster →
    (∀ e ∈ s.waves, ¬(e.2.core = core ∧ e.2.slot = some slot)) → slot ≠ 31#5 →
    AMap.find (s.core core).halting x.pasid.toNat = none → (s.group x.group).slot.isSome → (s.group x.group).core = core →
    w ∉ (s.core core).draining → (rd = fun o n => s.imageRead x.pasid (266240 * x.image + 262144 + o) n) →
    pageOk rd = true → (s.group x.group).image = rd 0x1B4 4 → (s.launch x.launch).lref.toNat = rd 0x1C8 8 →
    rd 0x190 8 % 2 = 0 → (∀ k, k < 64 → rd (0xA00 + 24 * k + 12) 1 = 0) → (s.group x.group).tcfg.on = false →
    (∀ e ∈ x.flights, ∀ a b d, e.2.kind ≠ .fence a b d) → (∀ e ∈ s.waves, e.2.sleepers = []) →
    (∀ e ∈ s.graphs, e.2.waiters = []) →
    ∃ t, exec (.restore w core slot) s = .next t ∧ OnlyWave s { t with launches := s.launches } w ∧
      (t.launch x.launch = { s.launch x.launch with cores := ((s.launch x.launch).cores ++ [core]).eraseDups }) ∧
      (∀ l, l ≠ x.launch → t.launch l = s.launch l) ∧ (t.wave w).slot = some slot ∧
      (t.wave w).parked = [] ∧ (t.wave w).sleepers = [] ∧ (t.wave w).watch = none ∧ (t.wave w).launch = x.launch ∧
      (∀ l, l < 64 → (t.wave w).pcOf l = BitVec.ofNat 32 (rd (4 * l) 4) ∧
        ((t.wave w).stateOf l).code = BitVec.ofNat 8 (rd (256 + l) 1)) ∧
      (∀ r : SReg, (t.wave w).rs r = BitVec.ofNat 32 (rd (512 + 4 * r.toNat) 4)) ∧
      (∀ m : BitVec 4, m ≠ 0 → SMap.get (t.wave w).m m.toNat = BitVec.ofNat 64 (rd (1536 + 8 * m.toNat) 8)) ∧
      (t.wave w).fpctl = BitVec.ofNat 32 (rd 0x158 4) ∧ (t.wave w).trappc = BitVec.ofNat 32 (rd 0x180 4) ∧
      (t.wave w).v = x.v ∧ (t.wave w).flights = x.flights ∧ (t.wave w).group = x.group ∧ (t.wave w).launched = x.launched)

/-- Lines and promotion (R164, R171, R175, R316, R327). A register line comes back from the image; a line fills into the
L2 where its bytes are not valid; of the waves old enough the oldest is promoted, at most once in four cycles; a packet
that has waited 64 network cycles is promoted, at most once in five for its output. -/
def Sys2Proof.Says.LineAndPromotionEvents : Prop :=
  (∀ (s u : State) (w r q : Nat) (x : Wave), x = s.wave w → x.slot.isSome → r < 1024 → q < 4 →
    (w, 4 * r + q) ∈ (s.core x.core).missing →
    u = s.useImage x.pasid (266240 * x.image + 4096 * (r / 16) + 256 * (r % 16) + 64 * q) 64 false → u.wave w = x →
    ∃ t, exec (.registerLineFill w (4 * r + q)) s = .next t ∧ { t with waves := u.waves, cores := u.cores } = u ∧
      (∀ j, j ≠ w → t.wave j = u.wave j) ∧ { t.wave w with v := x.v } = x ∧
      (∀ k, k < 16 → x.launched.getLsbD (16 * q + k) = true → (t.wave w).rv (BitVec.ofNat 10 r) (16 * q + k) =
        BitVec.ofNat 32 (s.imageRead x.pasid
          (266240 * x.image + 4096 * (r / 16) + 256 * (r % 16) + 64 * q + 4 * k) 4)) ∧
      (∀ y l, l < 64 → (y ≠ BitVec.ofNat 10 r ∨ l / 16 ≠ q) → (t.wave w).rv y l = x.rv y l) ∧
      t.core x.core = { u.core x.core with
        missing := (u.core x.core).missing.filter fun e => decide (e ≠ (w, 4 * r + q)) } ∧
      ∀ c, c ≠ x.core → t.core c = u.core c) ∧
  (∀ (s : State) (pa : Nat), pa < dramEnd → s.sectorLost pa = false →
    ∃ t, exec (.l2LineFill pa) s = .next t ∧ { t with l2 := s.l2 } = s ∧
      ∀ a, AMap.find t.l2 a = match AMap.find s.l2 a with
        | some b => some b
        | none => if a / 64 = pa / 64 then some (s.mem.read a, false) else none) ∧
  (∀ (s : State) (core w : Nat) (quad : BitVec 2) (x : Wave) (k : BitVec 5), AMap.sorted s.waves = true →
    (w, x) ∈ s.waves → MayRise core quad.toNat x k →
    (∀ e ∈ s.waves, ∀ j, e.1 ≠ w → MayRise core quad.toNat e.2 j →
      e.2.aging < x.aging ∨ (e.2.aging = x.aging ∧ k.toNat < j.toNat)) →
    (∀ n, AMap.find (s.core core).lastPromotion quad.toNat = some n → (s.core core).cycle < n + 4 →
      exec (.wavePromotion core quad) s = .next s) ∧
    ((∀ n, AMap.find (s.core core).lastPromotion quad.toNat = some n → n + 4 ≤ (s.core core).cycle) →
      ∃ t, exec (.wavePromotion core quad) s = .next t ∧ { t with waves := s.waves, cores := s.cores } = s ∧
        t.wave w = { x with promoted := some (s.core core).cycle } ∧ (∀ j, j ≠ w → t.wave j = s.wave j) ∧
        t.core core = { s.core core with
          lastPromotion := AMap.put (s.core core).lastPromotion quad.toNat (s.core core).cycle } ∧
        ∀ c, c ≠ core → t.core c = s.core c)) ∧
  (∀ (s : State) (die router k o : Nat) (net : Bool) (port : BitVec 3) (h : NetHead),
    k = (if net then 512 else 0) + 8 * router + port.toNat → o = (if net then 512 else 0) + 8 * router + h.out.toNat →
    AMap.find (s.die die).net k = some h →
    ((h.waited < 64 ∨ h.promoted.isSome ∨
        ∃ n, AMap.find (s.die die).netPromo o = some n ∧ (s.die die).netCycle < n + 5) →
      exec (.packetPromotion die net router port) s = .next s) ∧
    (64 ≤ h.waited → h.promoted = none →
      (∀ n, AMap.find (s.die die).netPromo o = some n → n + 5 ≤ (s.die die).netCycle) →
      ∃ t, exec (.packetPromotion die net router port) s = .next t ∧ OnlyDie s t die ∧
        t.die die = { s.die die with
          net := AMap.put (s.die die).net k { h with promoted := some (s.die die).netCycle },
          netPromo := AMap.put (s.die die).netPromo o (s.die die).netCycle }))

/-- Packets as they are read (R348 to R351, R354, R355). A launch packet that passes its checks becomes a launch with the
packet's fields; a no-op completes at once, or waits with its BARRIER; a dependency, a wait, a signal and a handle
declaration wait in the list; a firmware packet is told to the firmware as it starts, and one that names bytes outside the
partition (which bytes it names is open, log entry 21) is error 0x07; a reserved type is error 0x01 with RDIDX where it was. -/
def Obligations.PacketsRetire : Prop :=
  (∀ (s s1 s2 s3 s4 : State) (q l : Nat) (p : Pkt) (k : KDesc) (hs : List (Nat × Bool)) (x : Launch),
    ReadsPacket s q p s1 → p.type = 1 → p.size ≤ 2 → partOf p 0x10 4 ≠ 0 → partOf p 0x14 4 ≤ 64 * k.waves →
    partOf p 0x14 4 < 2 ^ 11 → partOf p 0x38 4 ≤ 16 → (partOf p 0x38 4 = 0 ∨ p.size = 2) → partOf p 0x3C 4 = 0 →
    (∀ i, i < partOf p 0x38 4 → partOf p (0x40 + 4 * i) 4 < 512) →
    hs = ((List.range (partOf p 0x38 4)).map fun i =>
      (partOf p (0x40 + 4 * i) 4 % 256, decide (partOf p (0x40 + 4 * i) 4 / 256 = 1))) →
    s1.vet (keyPasid q) p.slot (partOf p 8 8) 0 = (.ok k, s2) →
    s2.checkHandles q p.slot ((List.range (partOf p 0x38 4)).map fun i => partOf p (0x40 + 4 * i) 4) = (none, s3) →
    l = s3.nextId →
    x = { Launch.blank with
      lref := BitVec.ofNat 64 (2 ^ 32 * p.tag + 2 ^ 20 * (q % 256) + (keyPasid q).toNat), pasid := keyPasid q,
      die := q / 2 ^ 28, queue := some (q, (s3.fq q).tl.accepted + 1), root := q, kd := k, kaddr := partOf p 8 8,
      ngroups := partOf p 0x10 4, threads := if partOf p 0x14 4 = 0 then 64 * k.waves else partOf p 0x14 4,
      args := (List.range 8).map fun i => BitVec.ofNat 32 (partOf p (0x18 + 4 * i) 4), handles := hs,
      gate := match (s3.fq q).last with
        | some (m, true) => some m
        | _ => none } →
    s4 = { s3 with
      launches := AMap.put s3.launches l x, nextId := l + 1,
      queues := AMap.put s3.queues q { (s3.fq q).track ((s3.fq q).tl.accepted + 1) hs with
        last := some (l, (p.flags / 2) % 2 == 1) } } →
    MayRetire s4 q p →
    ∃ t, exec (.launchPacket q) s = .next t ∧
      RetiresPacket s4 t q p ⟨.launch l, p.flags % 2 == 1, false, (s3.fq q).launchAfter hs⟩) ∧
  (∀ (s s1 : State) (q n : Nat) (p : Pkt), ReadsPacket s q p s1 → p.type = 8 → MayRetire s1 q p →
    (s.fq q).tl = (s1.fq q).tl → n = (s1.fq q).tl.accepted + 1 →
    ((p.flags % 2 = 0 ∨ (s1.fq q).packets = []) → NextOf s1 q n →
      ∃ t r, exec (.noOp q) s = .next t ∧ RetiresPacket s1 r q p ⟨.noOp, p.flags % 2 == 1, false, []⟩ ∧
        PacketDone r t q n) ∧
    (p.flags % 2 = 1 → (s1.fq q).packets ≠ [] →
      ∃ t, exec (.noOp q) s = .next t ∧ RetiresPacket s1 t q p ⟨.noOp, true, false, []⟩)) ∧
  (∀ (s s1 : State) (q : Nat) (p : Pkt), ReadsPacket s q p s1 → p.type = 4 → p.size = 1 → MayRetire s1 q p →
    ∃ t, exec (.dependency q) s = .next t ∧ RetiresPacket s1 t q p ⟨.dependency
      (((p.words.drop 1).takeWhile fun e => decide (e ≠ 0)).map fun e => (e / 2 ^ 56 % 2 ^ 8, e % 2 ^ 56)),
      p.flags % 2 == 1, false, []⟩) ∧
  (∀ (s s1 s2 : State) (q a pa : Nat) (p : Pkt), ReadsPacket s q p s1 → p.type = 6 → p.size = 1 → a = partOf p 8 8 →
    a % 8 = 0 → a < 2 ^ 57 → s1.feAddr (keyPasid q) a 8 .load = (.ok pa, s2) → MayRetire s2 q p →
    ∃ t, exec (.timelineWait q) s = .next t ∧
      RetiresPacket s2 t q p ⟨.wait a (partOf p 0x10 8), p.flags % 2 == 1, false, []⟩) ∧
  (∀ (s s1 s2 : State) (q a pa m : Nat) (p : Pkt) (e : Packet) (rest : AMap Packet), ReadsPacket s q p s1 →
    p.type = 5 → p.size = 1 → a = partOf p 8 8 → a % 8 = 0 → a < 2 ^ 57 → partOf p 0x18 8 < 2 →
    s1.feAddr (keyPasid q) a 8 .store = (.ok pa, s2) → MayRetire s2 q p → (s2.fq q).packets = (m, e) :: rest →
    (∀ b v f, e.kind ≠ .signal b v f) →
    ∃ t, exec (.timelineSignal q) s = .next t ∧ RetiresPacket s2 t q p
      ⟨.signal a (partOf p 0x10 8) (partOf p 0x18 8 == 1), p.flags % 2 == 1, AtOnce (s2.fq q) (p.flags % 2 == 1), []⟩) ∧
  (∀ (s s1 s2 : State) (q w m pa : Nat) (p : Pkt) (e : Packet) (rest : AMap Packet), ReadsPacket s q p s1 → p.type = 7 →
    p.size = 1 → w = partOf p 8 4 → w < 2 ^ 11 → (w.testBit 10 = true ∨ 0 < partOf p 0x18 8 ∧ partOf p 0x18 8 < 2 ^ 48 ∧
      partOf p 0x10 8 < 2 ^ 57 ∧ partOf p 0x10 8 + partOf p 0x18 8 ≤ 2 ^ 57) →
    s1.feHandle q (w % 256) = (.ok pa, s2) → MayRetire s2 q p → (s2.fq q).packets = (m, e) :: rest → e.started = false →
    (∀ k ∈ (s1.fq q).packets ++ (s2.fq q).packets, ∀ h b d r y z, k.2.kind ≠ .handle h b d r y z) →
    ∃ t, exec (.handleDeclaration q) s = .next t ∧ RetiresPacket s2 t q p
      ⟨.handle (w % 256) (w.testBit 8) (w.testBit 9) (w.testBit 10) (partOf p 0x10 8) (partOf p 0x18 8),
        p.flags % 2 == 1, false, (AMap.find (s2.fq q).writer (w % 256)).toList ++
          (AMap.find (s2.fq q).readers (w % 256)).getD []⟩) ∧
  (∀ (s s1 : State) (q : Nat) (p : Pkt), ReadsPacket s q p s1 → 0x80 ≤ p.type →
    (∀ e ∈ (s.fq q).packets, e.2.kind ≠ .firmware) →
    ∃ t, exec (.firmwareDefinedPacket q) s = .next t ∧
      (∀ s2, s1.outside (keyPasid q) (Config.firmwareRanges p.bytes) = (none, s2) → MayRetire s2 q p →
        Notice.packet q ((s2.fq q).tl.accepted + 1) ∉ s2.notices →
        ∃ r, RetiresPacket s2 r q p ⟨.firmware, p.flags % 2 == 1, AtOnce (s2.fq q) (p.flags % 2 == 1), []⟩ ∧
          t = if AtOnce (s2.fq q) (p.flags % 2 == 1) then
            { r with notices := r.notices ++ [.packet q ((s2.fq q).tl.accepted + 1)] } else r) ∧
      ∀ a s2, s1.outside (keyPasid q) (Config.firmwareRanges p.bytes) = (some a, s2) → t = s2.queueError q 7 a) ∧
  (∀ (i : Instr) (s s1 s2 : State) (q h slot at_ ctl : Nat) (c : Qcb),
    i ∈ [.launchPacket q, .dependency q, .timelineWait q, .noOp q] →
    s.linksSteady = true → s.openQueue q = (some (.ok c), s1) → c.kind = false → slot = c.ring + 64 * (c.rdidx % 2 ^ c.log2n) →
    s1.feWords (keyPasid q) slot 1 = (.ok [h], s2) → 9 ≤ h % 256 → h % 256 < 0x80 → at_ = (s2.fq q).at_ → InDram at_ 128 →
    (s.fq q).tl = (s2.fq q).tl → ctl = atHome s2 (at_ + 0x18) 4 → ctl.testBit 2 = false → (s2.fq q).qcb = some c →
    c.err = false → Notice.queueError q ∉ s2.notices →
    ∃ t, exec i s = .next t ∧
      HomeOnly { s2 with queues := t.queues, notices := t.notices } t (thenBytes (bytesAt (at_ + 0x18) 4 (ctl + 4))
        (thenBytes (bytesAt (at_ + 0x1C) 4 1) (bytesAt (at_ + 0x20) 8 (slot % 2 ^ 57)))) ∧
      OnlyFq s2 t q { s2.fq q with qcb := some { c with ctl := c.ctl + 4 } } ∧
      t.notices = s2.notices ++ [.queueError q])

/-- Packets as they complete (R345, R346, R354, R355, R381, R441). A dependency and a wait hold until their values are
reached; a signal writes or adds once every earlier packet is over; a declaration writes its table entry; a report of the
tail filter takes WRIDX and CTL; RESTART takes the queue out of its error; QCBINV empties the front end's copy. -/
def Sys2Proof.Says.PacketsComplete : Prop :=
  (∀ (s s1 : State) (q n k v pa : Nat) (b : Bool), s.linksSteady = true →
    MayStart (s.fq q) n ⟨.dependency [(k, v)], b, false, []⟩ →
    s.findQueue (queueKey (keyDie q) (keyPasid q) k) = (.qcb pa, s1) → NextOf s1 q n → Quiet (s1.fq q) n →
    ∃ t, exec (.dependencySatisfied q n) s = .next t ∧
      if v ≤ s1.homeValue (pa + 0x28) 8 then PacketDone s1 t q n else t = s1) ∧
  (∀ (s s1 : State) (q n a v pa : Nat) (b : Bool), s.linksSteady = true →
    MayStart (s.fq q) n ⟨.wait a v, b, false, []⟩ →
    s.feAddr (keyPasid q) a 8 .load = (.ok pa, s1) → NextOf s1 q n → Quiet (s1.fq q) n →
    ∃ t, exec (.timelineWaitSatisfied q n) s = .next t ∧
      if v ≤ s1.homeValue pa 8 then PacketDone s1 t q n else t = s1) ∧
  (∀ (s s1 s2 : State) (q n a v pa : Nat) (add b : Bool) (rest : AMap Packet), s.linksSteady = true →
    s.openQueue q = (none, s1) →
    (s1.fq q).packets = (n, ⟨.signal a v add, b, true, []⟩) :: rest →
    s1.feAddr (keyPasid q) a 8 .store = (.ok pa, s2) → InDram pa 8 → pa % 8 = 0 → NextOf s2 q n → Quiet (s2.fq q) n →
    ∃ t, exec (.timelineSignal q) s = .next t ∧
      HomeOnly { s2 with queues := t.queues } t (thenBytes
        (bytesAt pa 8 ((if add then atHome s2 pa 8 + v else v) % 2 ^ 64)) (bytesAt ((s2.fq q).at_ + 0x28) 8 n)) ∧
      OnlyFq s2 t q { s2.fq q with packets := AMap.del (s2.fq q).packets n, tl := { (s2.fq q).tl with value := n } }) ∧
  (∀ (s s1 s2 : State) (q n h base bytes htab : Nat) (ro dram retire b : Bool) (p : Packet), s.linksSteady = true →
    s.openQueue q = (none, s1) →
    p = ⟨.handle h ro dram retire base bytes, b, true, []⟩ → MayStart (s1.fq q) n p →
    (∀ e ∈ (s1.fq q).packets, ∀ h b d r y z, e.1 ≠ n → e.2.kind ≠ .handle h b d r y z) →
    htab = s1.homeValue ((s1.fq q).at_ + 0x30) 8 / 2 ^ 12 % 2 ^ 45 * 2 ^ 12 →
    s1.feStores (keyPasid q) (htab + 16 * h) (if retire then [0, 0] else
      [base, bytes + 2 ^ 48 + (if ro then 2 ^ 49 else 0) + (if dram then 2 ^ 50 else 0)]) = (none, s2) → NextOf s2 q n → Quiet (s2.fq q) n →
    ∃ t, exec (.handleDeclaration q) s = .next t ∧ PacketDone s2 t q n) ∧
  (∀ (s : State) (q n : Nat) (p : Packet), s.linksSteady = true → AMap.find (s.fq q).packets n = some p →
    p.kind = .firmware → p.started = true → (∀ e ∈ (s.fq q).packets, e.1 ≠ n → e.2.kind ≠ .firmware) → NextOf s q n →
    Quiet (s.fq q) n →
    ∃ t, exec (.firmwareDefinedPacket q) s = .next t ∧ PacketDone s t q n) ∧
  (∀ (s : State) (q pa : Nat) (c : Qcb), s.linksSteady = true → (s.fq q).qcb = some c → pa = (s.fq q).at_ →
    InDram pa 128 → pa % 8 = 0 → (∀ n, Quiet (s.fq q) n) →
    (atHome s (pa + 0x18) 4).testBit 2 = c.ctl.testBit 2 →
    ∃ t, exec (.tailFilterReport q) s = .next t ∧ { t with queues := s.queues } = s ∧
      OnlyFq s t q { s.fq q with
        qcb := some (if c.ctl.testBit 0 && !c.ctl.testBit 2 then
          { c with wridx := atHome s (pa + 0x10) 8, ctl := atHome s (pa + 0x18) 4 } else s.readQcb pa),
        written := if atHome s (pa + 0x10) 8 = c.wridx then (s.fq q).written
          else (s.die (q / 2 ^ 28)).counter.toNat }) ∧
  (∀ (s : State) (q pa ctl : Nat) (c : Qcb), s.linksSteady = true → (s.fq q).qcb = some c → pa = (s.fq q).at_ →
    InDram pa 128 → pa % 8 = 0 →
    ctl = atHome s (pa + 0x18) 4 → ctl.testBit 3 = true →
    ∃ t, exec (.queueRestart q) s = .next t ∧
      (c.ctl.testBit 2 = true → ctl.testBit 2 = true →
        HomeOnly { s with queues := t.queues } t
          (thenBytes (bytesAt (pa + 0x18) 4 (ctl - 12)) (bytesAt (pa + 0x1C) 4 0)) ∧
        OnlyFq s t q { s.fq q with qcb := some { s.readQcb pa with ctl := ctl - 12 } }) ∧
      (c.ctl.testBit 2 = false → ctl.testBit 2 = false →
        HomeOnly { s with queues := t.queues } t (bytesAt (pa + 0x18) 4 (ctl - 8)) ∧
        OnlyFq s t q { s.fq q with qcb := some { c with ctl := ctl - 8, wridx := atHome s (pa + 0x10) 8 } })) ∧
  (∀ (s : State) (die q : Nat) (v : BitVec 64) (f : FQ), q = 2 ^ 28 * die + v.toNat % 2 ^ 28 →
    AMap.find s.queues q = some f →
    ∃ t, exec (.qcbinv die v) s = .next t ∧ { t with queues := s.queues } = s ∧ OnlyFq s t q { f with qcb := none })

/-- Work graphs start (R369, R371). A graph packet that passes its checks is retired with its graph, whose initial records
stand in slots from 0 for the entry node; it starts once it may: its records are committed in slot order with consecutive
numbers and join their node's pending batch. -/
def Sys2Proof.Says.GraphPackets : Prop :=
  (∀ (draw : Bool) (s s1 s2 s3 s4 s5 : State) (q l : Nat) (p : Pkt) (k : KDesc) (ns : List GNode) (nd : GNode)
    (ws : List Nat) (ts : List Target) (x : Launch) (y : Graph), ReadsPacket s q p s1 →
    p.type = (if draw then 3 else 2) → p.size = 1 → partOf p 0x10 8 % 256 = 0 → partOf p 0x10 8 < 2 ^ 57 →
    1 ≤ partOf p 0x18 4 → partOf p 0x18 4 ≤ 2 ^ 24 → partOf p 0x20 8 % 512 = 0 → partOf p 0x20 8 < 2 ^ 57 →
    partOf p 0x28 8 % 128 = 0 → partOf p 0x28 8 < 2 ^ 57 → (draw = true ↔ partOf p 0x28 8 ≠ 0) → partOf p 0x30 8 = 0 →
    partOf p 0x38 8 = 0 → s1.fabric.featacc.getLsbD (if draw then 5 else 4) = true →
    s1.vet (keyPasid q) p.slot (partOf p 8 8) 1 = (.ok k, s2) →
    s2.readNodes (keyPasid q) p.slot draw k.nodes k.nnodes = (.ok ns, s3) → ns[partOf p 0x1C 2]? = some nd →
    (ns.map fun n => n.reserve).sum ≤ partOf p 0x18 4 →
    partOf p 0x1E 2 + ((ns.map fun n => n.reserve).sum - nd.reserve) ≤ partOf p 0x18 4 →
    (if draw then s3.feWords (keyPasid q) (partOf p 0x28 8) 16 = (.ok ws, s4) ∧ targetsOf ws = some ts
      else s4 = s3 ∧ ts = []) →
    l = s4.nextId →
    x = { Launch.blank with
      lref := BitVec.ofNat 64 (2 ^ 32 * p.tag + 2 ^ 20 * (q % 256) + (keyPasid q).toNat), pasid := keyPasid q,
      die := q / 2 ^ 28, kind := .graph, queue := some (q, (s4.fq q).tl.accepted + 1), root := q,
      kd := { k with groups := 1 }, kaddr := partOf p 8 8 } →
    s5 = { s4 with
      launches := AMap.put s4.launches l x, nextId := l + 2, freeCtr := s4.freeCtr + 1,
      graphs := AMap.put s4.graphs (l + 1) y } →
    y.launch = l → y.die = q / 2 ^ 28 → y.pool = partOf p 0x10 8 → y.nslot = partOf p 0x18 4 →
    y.btab = partOf p 0x20 8 → y.draw = draw → y.targets = ts → y.nodes = ns →
    y.slots = ((List.range (partOf p 0x1E 2)).map fun i => (i, ⟨partOf p 0x1C 2, none, none, none⟩)) →
    y.commits = (Config.freeValue s4.freeCtr).toNat → y.pending = [] → y.waiters = [] → y.prims = 0 →
    MayRetire s5 q p →
    (draw = false → ∃ t, exec (.graphDispatch q) s = .next t ∧ GraphRetires s5 t q l p) ∧
    (draw = true → ∃ t, exec (.drawGraph q) s = .next t ∧ GraphRetires s5 t q l p)) ∧
  (∀ (i : Instr) (s s1 : State) (q n l g : Nat) (p : Packet) (x : Launch) (y : Graph) (nd : GNode) (r : RecSlot),
    i = .graphDispatch q ∨ i = .drawGraph q → s.linksSteady = true → s.openQueue q = (none, s1) →
    s1.fabric.lock = true → s1.queueOn q = true → Quiet (s1.fq q) n →
    MayStart (s1.fq q) n p → p.kind = .launch l → p.started = false → AMap.find s1.launches l = some x → x.kind = .graph →
    (∀ e ∈ (s1.fq q).packets, e.1 ≠ n → e.2.started = true) → s1.graphs = [(g, y)] → y.launch = l → y.slots = [(0, r)] →
    y.pending = [] → y.nodes[r.node]? = some nd → 2 ≤ nd.batch →
    ∃ t, exec i s = .next t ∧
      { t with launches := s1.launches, queues := s1.queues, graphs := s1.graphs } = s1.freshCaches ∧
      OnlyLaunch s1 t l { x with started := true, ceil := s1.ceilOf q, prio := min x.kd.prio (s1.ceilOf q) } ∧
      OnlyFq s1 t q { s1.fq q with packets := AMap.put (s1.fq q).packets n { p with started := true } } ∧
      OnlyGraph s1 t g { y with
        slots := [(0, { r with commit := some y.commits })], commits := y.commits + 1,
        pending := [(r.node, ([0], (s1.die y.die).counter.toNat))] })

/-- Contexts and mailboxes (R382, R384). A descriptor is written once, its reserved bits 0; a system-service set posts an
entry after its core's dirty bytes are written back; MBDONE answers a posted entry on the service die and has no other
effect; the action releases the set, an upcall's reply in its scalars, or ends the launch, and frees the entry. -/
def Sys2Proof.Says.ContextEvents : Prop :=
  (∀ (s : State) (d : CtxDesc), Firmware s → (AMap.find s.parts d.part.toNat).isSome →
    (AMap.find s.contexts d.pasid.toNat = none → d.ctlw.toNat < 8 →
      ∃ t x, exec (.contextCreate d) s = .next t ∧ { t with contexts := s.contexts } = s ∧
        AMap.find t.contexts d.pasid.toNat = some ⟨x, [], []⟩ ∧
        (∀ k, k ≠ d.pasid.toNat → AMap.find t.contexts k = AMap.find s.contexts k) ∧
        x.image = d.image &&& 0x01FFFFFFFFFFF000#64 ∧ x.s1root = d.s1root &&& 0x000FFFFFFFFFF000#64 ∧
        x.msave = d.msave &&& 0x01FFFFFFFFFFFF00#64 ∧ x.cohrec = d.cohrec &&& 0x01FFFFFFFFFFFC00#64 ∧
        x.mbox = d.mbox &&& 0x01FFFFFFFFFFC000#64 ∧
        { x with image := d.image, s1root := d.s1root, msave := d.msave, cohrec := d.cohrec, mbox := d.mbox } = d) ∧
    ((AMap.find s.contexts d.pasid.toNat).isSome ∨ 8 ≤ d.ctlw.toNat → exec (.contextCreate d) s = .next s)) ∧
  (∀ (s r : State) (w e : Nat) (p : Parked) (arg : Nat → Nat), (s.wave w).parked = [p] → p.system = true →
    p.posted = none → s.mailFree (s.wave w).pasid = some e → e < 256 → (∀ y ∈ s.waves, y.1 = w → y.2 = s.wave w) →
    (∀ y ∈ s.waves, y.1 ≠ w → y.2.pasid = (s.wave w).pasid → ∀ z ∈ y.2.parked, z.system = true → z.posted = none →
      p.seq < z.seq) →
    p.cause ∈ [.upcall, .translation, .fetchFault, .access, .dataLoss, .breakpoint] →
    (arg = fun k => if p.cause = .upcall then (p.args.getD k 0).toNat else 0) →
    r = (s.release (s.wave w).core 0xFF).postMail (s.wave w).pasid e
      [(0, 1, (mailKind p).1), (2, 1, (mailKind p).2), (3, 1, (s.wave w).waveid.toNat), (4, 4, (s.wave w).image),
       (8, 8, p.addr.toNat % 2 ^ 57), (0x10, 4, arg 0), (0x14, 4, arg 1), (0x18, 4, arg 2), (0x1C, 4, arg 3),
       (0x20, 4, p.pc.toNat), (0x24, 4, (s.wave w).place.toNat), (0x28, 8, p.members.toNat)] →
    (r.wave w).parked = [p] →
    ∃ t, exec (.mailboxPost w) s = .next t ∧ OnlyWave r t w ∧
      t.wave w = { r.wave w with parked := [{ p with posted := some (BitVec.ofNat 8 e) }] }) ∧
  (∀ (s : State) (w : Nat), (s.wave w).parked ≠ [] → s.mailFree (s.wave w).pasid = none →
    exec (.mailboxPost w) s = .next s) ∧
  (∀ (s r : State) (die pasid entry action : Nat) (v : BitVec 64) (x : Ctx),
    v.toNat = 2 ^ 44 * pasid + 2 ^ 8 * action + entry → pasid < 2 ^ 20 → entry < 256 → action < 4 →
    AMap.find s.contexts pasid = some x →
    ((action < 2 ∧ x.desc.mbdie.toNat = die ∧ s.mailState (BitVec.ofNat 20 pasid) entry = 1) →
      r = s.setMailState (BitVec.ofNat 20 pasid) entry 2 → ∃ t, exec (.mbdone die v) s = .next t ∧
        t = { r with
          contexts := AMap.put r.contexts pasid { x with actions := x.actions ++ [(entry, decide (action = 1))] } }) ∧
    ((2 ≤ action ∨ x.desc.mbdie.toNat ≠ die ∨ s.mailState (BitVec.ofNat 20 pasid) entry ≠ 1) →
      exec (.mbdone die v) s = .next s)) ∧
  (∀ (s u : State) (pasid : BitVec 20) (e w : Nat) (entry : BitVec 8) (act : Bool) (x : Ctx) (y : Wave) (p : Parked)
    (reply : Nat → Nat), AMap.find s.contexts pasid.toNat = some x → e = entry.toNat → x.actions = [(e, act)] →
    s.waves = [(w, y)] → y.pasid = pasid → y.slot.isSome → y.parked = [p] → p.posted = some entry → p.polling = none →
    p.onTl = none → p.flag.toNat < 12 →
    p.cause ∈ [.upcall, .translation, .fetchFault, .access, .dataLoss, .breakpoint] →
    u = s.acquire y.core →
    (∀ k, k < 4 → ∃ pa, u.mailPa pasid e (0x30 + 4 * k) = some pa ∧ reply k = u.homeValue pa 4) →
    ∃ r t, exec (.mailboxActionApply pasid entry) s = .next t ∧
      t = { r with contexts := AMap.put r.contexts pasid.toNat { x with actions := [] } }.setMailState pasid e 0 ∧
      (act = true → ∃ r1, r = r1.reportError (r1.errLaunch y.launch) ∧
        r1 = s.endWith y.launch ⟨BitVec.ofNat 8 (if p.cause = .upcall then 0x23 else (mailKind p).2), p.pc, p.addr,
          (s.launch y.launch).lref, y.place, y.gidx, y.cidx⟩) ∧
      (act = false → OnlyWave u r w ∧ Enter y (r.wave w) p.members .ready ∧ (r.wave w).parked = [] ∧
        (p.cause ≠ .upcall → { r.wave w with threads := y.threads, parked := y.parked } = y) ∧
        (p.cause = .upcall → (∀ k, k < 4 → (r.wave w).rs (p.replyTo + BitVec.ofNat 8 k) = BitVec.ofNat 32 (reply k)) ∧
          (∀ a, (∀ k, k < 4 → a ≠ p.replyTo + BitVec.ofNat 8 k) → (r.wave w).rs a = y.rs a) ∧
          (∀ i, i < 12 → (r.wave w).flag i = if i = p.flag.toNat ∧ y.flag i ≠ 0 then y.flag i - 1 else y.flag i) ∧
          { r.wave w with threads := y.threads, parked := y.parked, s := y.s, f := y.f } = y)))

/-- The firmware's processors (R386). A window is derived within its parent, with no permission that the parent lacks; an
invalidation ends a window and all derived from it, under a new generation; an access through a current reference
within its window and permissions reaches memory, and any other raises the capability fault. -/
def Sys2Proof.Says.CapabilityEvents : Prop :=
  (∀ (s : State) (k win off : Nat) (gen fresh : Word) (w : BitVec 10) (base len : Nat) (perm : BitVec 4) (p : TWin),
    win < 1024 → off < 2 ^ 57 → AMap.find (s.turel k).wins win = some p → p.valid = true → p.gen = gen →
    ((p.perm.getLsbD 3 = true ∧ w ≠ 0 ∧ perm &&& ~~~p.perm = 0 ∧ 1 ≤ len ∧ p.base ≤ base ∧
        base + len ≤ p.base + p.len ∧ fresh = (match AMap.find (s.turel k).wins w.toNat with
          | some y => y.gen
          | none => 0) ∧
        ∀ y, AMap.find (s.turel k).wins w.toNat = some y → y.valid = false ∧ y.gen ≠ 0xFFFFFFFF) →
      ∃ t, exec (.windowDerive k (capability win gen off) w base len perm) s = .next t ∧
        OnlyTurel s t k { s.turel k with
          wins := AMap.put (s.turel k).wins w.toNat ⟨base, len, fresh, perm, BitVec.ofNat 10 win, true⟩,
          value := capability w.toNat fresh 0 }) ∧
    ((p.perm.getLsbD 3 = false ∨ w = 0 ∨ perm &&& ~~~p.perm ≠ 0 ∨ len = 0 ∨ base < p.base ∨ p.base + p.len < base + len ∨
        ∃ y, AMap.find (s.turel k).wins w.toNat = some y ∧ (y.valid = true ∨ y.gen = 0xFFFFFFFF)) →
      exec (.windowDerive k (capability win gen off) w base len perm) s = .next s)) ∧
  (∀ (s : State) (k : Nat) (w : BitVec 10) (p : TWin), w ≠ 0 → AMap.find (s.turel k).wins w.toNat = some p →
    p.valid = true →
    ∃ t x, exec (.windowInvalidate k w) s = .next t ∧ OnlyTurel s t k { s.turel k with wins := x } ∧
      ∀ j, AMap.find x j = (AMap.find (s.turel k).wins j).map fun y =>
        if y.valid = true ∧ (s.turel k).descends w.toNat 1024 j = true then { y with valid := false, gen := y.gen + 1 }
        else y) ∧
  (∀ (s : State) (k win off n : Nat) (gen : Word) (acc : Access) (v : BitVec 64) (p : TWin) (may : Bool),
    win < 1024 → off < 2 ^ 57 → n ∈ [1, 2, 4, 8] → AMap.find (s.turel k).wins win = some p →
    may = (p.valid && p.gen == gen && decide (off + n ≤ p.len) && s.servable (p.base + off) n acc && (match acc with
      | .load => p.perm.getLsbD 0
      | .store => p.perm.getLsbD 1
      | .fetch => p.perm.getLsbD 2)) →
    ∃ t, exec (.capabilityAccess k (capability win gen off) n acc v) s = .next t ∧
      (may = false → OnlyTurel s t k { s.turel k with fault := true }) ∧
      (may = true → InDram (p.base + off) n → acc = .store →
        HomeOnly { s with turels := t.turels } t (bytesAt (p.base + off) n v.toNat) ∧
        t.turel k = { s.turel k with fault := false } ∧ ∀ j, j ≠ k → t.turel j = s.turel j) ∧
      (may = true → InDram (p.base + off) n → acc ≠ .store → OnlyTurel s t k { s.turel k with
        value := BitVec.ofNat 128 (atHome s (p.base + off) n), fault := false }))

/-- The firmware's work on queues (R343, R388). A doorbell makes its queue resident, with its QCB read; a walk that met
P = 0 has the entry made present and goes on; a queue that does not exist is left; a queue in error is told to the
resident kernel in an entry of KIND 2 with CODE 0x22. -/
def Sys2Proof.Says.QueueServiceEvents : Prop :=
  (∀ (s r r1 : State) (q pa : Nat), Firmware s → (s.fq q).resident = false →
    (s.queues.filter fun e => e.2.resident && keyDie e.1 == keyDie q).length < 1024 →
    r = { s with queues := AMap.put s.queues q { s.fq q with
      resident := true, qcb := none, caps := none, written := (s.die (q / 2 ^ 28)).counter.toNat } } →
    r.walkQueue q = (.qcb pa, r1) →
    (r1.queues.filter fun e => keyDie e.1 == keyDie q && e.2.qcb.isSome).length < 256 →
    ∃ t, exec (.doorbellWrite q) s = .next t ∧ { t with queues := r1.queues } = r1 ∧
      OnlyFq r1 t q { r1.fq q with at_ := pa, qcb := some (r1.readQcb pa), caps := some (r1.readQcb pa).caps }) ∧
  (∀ (s : State) (q : Nat), (s.fq q).resident = true → exec (.doorbellWrite q) s = .next s) ∧
  (∀ (s r r1 : State) (q e pa : Nat), Firmware s → .notPresent q ∈ s.notices → s.absentEntry q = some e → InDram e 8 →
    r = ({ s with notices := s.notices.erase (.notPresent q) } : State).homeWrite e (s.homeByte e ||| 2) →
    (s.fq q).resident = true → (s.fq q).qcb = none → (s.fq q).caps = none → r.walkQueue q = (.qcb pa, r1) →
    (r1.queues.filter fun e => keyDie e.1 == keyDie q && e.2.qcb.isSome).length < 256 →
    (∀ k ∈ s.waves, k.2.sleepers = []) →
    ∃ t, exec (.queueTableFault q) s = .next t ∧ { t with queues := r1.queues } = r1 ∧
      OnlyFq r1 t q { r1.fq q with at_ := pa, qcb := some (r1.readQcb pa), caps := some (r1.readQcb pa).caps }) ∧
  (∀ (s : State) (q : Nat), Firmware s → .notPresent q ∉ s.notices → .noQueue q ∈ s.notices →
    ∃ t, exec (.queueTableFault q) s = .next t ∧ { t with queues := s.queues, notices := s.notices } = s ∧
      t.notices = s.notices.erase (.noQueue q) ∧ OnlyFq s t q { s.fq q with resident := false }) ∧
  (∀ (s : State) (q e : Nat), Firmware s → .queueError q ∈ s.notices → s.mailFree (keyPasid q) = some e →
    ∃ t fs, exec (.queueErrorNotice q) s = .next t ∧
      t = ({ s with notices := s.notices.erase (.queueError q), freeCtr := s.freeCtr + 3 } : State).postMail
        (keyPasid q) e fs ∧ fs.take 2 = [(0, 1, 2), (2, 1, 0x22)] ∧ (0x10, 8, 0) ∈ fs ∧ (0x18, 8, 0) ∈ fs)

/-- Partitions (R381, R389, R390, R416). A new partition's clusters take its bank-mode word, and its dies the 16-way sets
and a cleared shard context; a resize gives clusters, and moves a halted cohort of a departing one with its local bytes
into an allocation of another, or changes nothing where that has no room; the clusters it leaves stay taken. -/
def Sys2Proof.Says.PartitionEvents : Prop :=
  (∀ (s : State) (part : BitVec 8) (spec : PartSpec) (d : Nat), Firmware s → AMap.find s.parts part.toNat = none →
    (∀ e ∈ s.parts, ∀ c ∈ e.2.spec.clusters ++ e.2.leaving, c ∉ spec.clusters) → (∀ e ∈ s.parts, e.2.shards = []) →
    spec.clusters ≠ [] → spec.clusters.Nodup → (∀ c ∈ spec.clusters, c / 12 = d) → d < 4 →
    ∃ t cx, exec (.partitionCreate part spec) s = .next t ∧
      { t with clusters := s.clusters, dies := s.dies, parts := s.parts, freeCtr := s.freeCtr } = s ∧ cx < 64 ∧
      AMap.find t.parts part.toNat = some ⟨spec, [(d, cx)], none, [], []⟩ ∧
      (∀ k, k ≠ part.toNat → AMap.find t.parts k = AMap.find s.parts k) ∧
      (∀ k ∈ spec.clusters, TakesBanks s t (bankWord spec) k) ∧ (∀ k, k ∉ spec.clusters → t.cluster k = s.cluster k) ∧
      t.die d = { s.die d with seqset := 0xFFFF, shards := AMap.put (s.die d).shards cx Shard.reset } ∧
      ∀ k, k ≠ d → t.die k = s.die k) ∧
  (∀ (s : State) (part : BitVec 8) (spec : PartSpec), (AMap.find s.parts part.toNat).isSome ∨
    (∃ e ∈ s.parts, ∃ c ∈ e.2.spec.clusters ++ e.2.leaving, c ∈ spec.clusters) → exec (.partitionCreate part spec) s = .next s) ∧
  (∀ (s : State) (part : BitVec 8) (p : Part) (k : Nat), Firmware s → AMap.find s.parts part.toNat = some p → k < 48 →
    p.resizing = none → p.leaving = [] → (∀ e ∈ s.parts, k ∉ e.2.spec.clusters ++ e.2.leaving) →
    (∃ x ∈ p.shards, x.1 = k / 12) →
    ∃ t, exec (.partitionResize part [k] []) s = .next t ∧
      { t with clusters := s.clusters, parts := s.parts } = s ∧ TakesBanks s t (bankWord p.spec) k ∧
      (∀ j, j ≠ k → t.cluster j = s.cluster j) ∧
      AMap.find t.parts part.toNat = some { p with
        spec := { p.spec with clusters := p.spec.clusters ++ [k] }, moving := [] } ∧
      ∀ j, j ≠ part.toNat → AMap.find t.parts j = AMap.find s.parts j) ∧
  (∀ (s : State) (part : BitVec 8) (p : Part) (h g w a b base : Nat) (c : Cohort) (y : Group) (x : Wave), Firmware s →
    AMap.find s.parts part.toNat = some p → p.spec.clusters = [a, b] → a ≠ b → s.cohorts = [(h, c)] → c.cluster = a →
    c.groups = [g] → s.groups = [(g, y)] → y.slot = none → y.cohort = h → s.waves = [(w, x)] → x.group = g → s.reqs = [] →
    p.resizing = none → p.leaving = [] → (s.cluster b).changing = [] →
    (({ s with freeCtr := s.freeCtr + 1 } : State).allocBase b c.size = none →
      exec (.partitionResize part [] [a]) s = .next s) ∧
    (({ s with freeCtr := s.freeCtr + 1 } : State).allocBase b c.size = some base →
    ∃ t, exec (.partitionResize part [] [a]) s = .next t ∧
      AMap.find t.parts part.toNat = some { p with
        spec := { p.spec with clusters := [b] }, leaving := [a], moving := [h] } ∧
      (t.cohort h) = { c with cluster := b, base := base, classes := c.classes.filter fun e => e.1 / 8 != b } ∧ (t.group g) = { y with localbase := BitVec.ofNat 32 base } ∧
      (t.wave w).localbase = BitVec.ofNat 32 base ∧
      (∀ i, SMap.get (t.cluster b).scratch i = if base ≤ i ∧ i < base + c.size
        then SMap.get (s.cluster a).scratch (c.base + (i - base)) else SMap.get (s.cluster b).scratch i) ∧
      { t.cluster b with scratch := (s.cluster b).scratch } = s.cluster b ∧ ∀ k, k ≠ b → t.cluster k = s.cluster k))

/-- Display and encode (R392, R393). A surface that is written takes effect at the next vertical blank, where a frame
begins; an encoded slice goes to the output ring, at most the limit's bytes, then its byte count. -/
def Sys2Proof.Says.DisplayEvents : Prop :=
  (∀ (s : State) (die : Nat) (k : BitVec 3) (v : BitVec 64), die < 4 →
    ∃ t, exec (.surfWrite die k v) s = .next t ∧ OnlyDie s t die ∧
      t.die die = { s.die die with
        heads := AMap.put (s.die die).heads k.toNat { s.head die k.toNat with surf := v &&& 0x01FFFFFFFFFFFF00#64 } }) ∧
  (∀ (s : State) (die : Nat) (k : BitVec 3), die < 4 → ((s.head die k.toNat).ctlt.getLsbD 0 = false →
      exec (.verticalBlank die k) s = .next s) ∧
    ((s.head die k.toNat).ctlt.getLsbD 0 = true →
      ∃ t, exec (.verticalBlank die k) s = .next t ∧ OnlyDie s t die ∧
        t.die die = { s.die die with
          heads := AMap.put (s.die die).heads k.toNat { s.head die k.toNat with
            active := (s.head die k.toNat).surf, slice := 0, row := 0, lines := [] } })) ∧
  (∀ (s r : State) (die size rows : Nat) (k : BitVec 3) (h : Head), die < 4 → h = s.head die k.toNat → h.ctlt.getLsbD 0 = true →
    h.ctlt.getLsbD 1 = true → rows = (if h.ctlt.getLsbD 2 then 128 else 64) →
    h.slice * rows < h.geom.toNat / 2 ^ 48 → min (h.geom.toNat / 2 ^ 48) ((h.slice + 1) * rows) ≤ h.row → size = 2 ^ (h.obcfg.toNat % 32) →
    ∃ t bs, exec (.sliceEncodeComplete die k) s = .next t ∧ bs.length ≤ h.obcfg.toNat / 2 ^ 32 ∧
      (r = ({ s with freeCtr := s.freeCtr + 1 } : State).ringWrite die k.toNat h.obuf.toNat size h.outPos
        (bs ++ (List.range 8).map fun i => byteOf bs.length i) →
      OnlyDie r t die ∧ t.die die = { r.die die with
        heads := AMap.put (r.die die).heads k.toNat { h with
          slice := h.slice + 1, outPos := (h.outPos + bs.length + 8) % size,
          lines := h.lines.drop (min (h.geom.toNat / 2 ^ 48) ((h.slice + 1) * rows) - h.slice * rows) } }))

/-- Links, errors and power (R395, R396, R399, R407 to R409). A retry is counted and changes nothing else; a link with
repeated failures retrains, recovers, or after 1 ms is down and the firmware is told; CECNT clears where a 1 is written;
the patrol changes nothing; the governor moves core clocks within 0.6 and 1.4 GHz, and above the coolant limit holds them
at 0.6 GHz; the shutdown resets the module. An uncorrectable error retires its sector to a spare. -/
def Sys2Proof.Says.LinkAndPowerEvents : Prop :=
  (∀ (s : State) (die j : Nat) (k : BitVec 2) (l : Link), die < 4 → j < 3 → k.toNat = j → l = linkOf s die j →
    (l.mode = .up → ∃ t, exec (.flitCrcRetry die k) s = .next t ∧ LinkIs s t die j { l with retries := l.retries + 1 }) ∧
    (l.mode = .up → 2 ≤ l.retries →
      ∃ t, exec (.linkRetrain die k) s = .next t ∧ LinkIs s t die j ⟨.retraining, 0, (s.die die).counter.toNat⟩) ∧
    (l.mode = .retraining → ∃ t, exec (.linkRecover die k) s = .next t ∧
      LinkIs s { t with prims := s.prims } die j ⟨.up, 0, 0⟩ ∧ Cross s t) ∧
    (l.mode = .retraining → l.since + 1000000 ≤ (s.die die).counter.toNat →
      ∃ t, exec (.linkDown die k) s = .next t ∧ LinkIs s { t with notices := s.notices, prims := s.prims } die j { l with mode := .down } ∧
        Cross s t ∧ t.notices = s.notices ++ [.linkDown die k]) ∧
    ((l.mode ≠ .retraining ∨ (s.die die).counter.toNat < l.since + 1000000) → exec (.linkDown die k) s = .next s)) ∧
  (∀ (s : State) (die : Nat) (k : BitVec 3) (v : BitVec 64), die < 4 → k.toNat < 6 →
    ∃ t, exec (.cecntClear die k v) s = .next t ∧ OnlyDie s t die ∧
      { t.die die with cecnt := (s.die die).cecnt } = s.die die ∧ ∀ j b, b < 32 →
        (SMap.get (t.die die).cecnt j).getLsbD b =
          ((SMap.get (s.die die).cecnt j).getLsbD b && !(decide (j = k.toNat) && v.getLsbD b))) ∧
  (∀ (s : State) (pa : Nat), exec (.dramPatrol pa) s = .next s) ∧
  (∀ (s : State) (die : Nat), die < 4 →
    ∃ t, exec (.governorTick die) s = .next t ∧ { t with cores := s.cores, freeCtr := s.freeCtr } = s ∧
      ∀ c, if c / 144 = die then 12 ≤ (t.core c).clock ∧ (t.core c).clock ≤ 28 ∧
          (s.fabric.hot = true → (t.core c).clock = 12) ∧ { t.core c with clock := (s.core c).clock } = s.core c
        else t.core c = s.core c) ∧
  (∀ (s : State), ∃ t, exec (.coolantLimit true) s = .next t ∧
    { t with cores := s.cores, freeCtr := s.freeCtr, fabric := s.fabric } = s ∧ t.fabric = { s.fabric with hot := true } ∧
    ∀ c, t.core c = if c < 576 then { s.core c with clock := 12 } else s.core c) ∧
  (∀ (s : State), ∃ t, exec (.coolantLimit false) s = .next t ∧ t = { s with fabric := { s.fabric with hot := false } }) ∧
  (∀ (s : State), ∃ t, exec .coolantShutdown s = .next t ∧ t.notices = [.shutdown] ∧ t.peers = s.peers ∧
    { t with
      peers := [], hostOut := [], spdmOut := [], notices := [], nextId := 1, agenda := [], freeCtr := 0 } = State.reset) ∧
  (∀ (s : State) (pa d k : Nat), pa < dramEnd → d = pa / 0x9000000000 → k = s.stackOf pa →
    (SMap.get (s.die d).retcnt k).toNat < 4096 →
    AMap.find (s.dramError pa).lost (pa / 64) = some (BitVec.allOnes 64, false) ∧
      (∀ x, x ≠ pa / 64 → AMap.find (s.dramError pa).lost x = AMap.find s.lost x) ∧
      { s.dramError pa with lost := s.lost, dies := s.dies } = s ∧
      ∀ j, SMap.get ((s.dramError pa).die d).retcnt j = SMap.get (s.die d).retcnt j + if j = k then 1 else 0)

/-- The host and the firmware harts at memory (R1, R318, R339, R410, R415). A write reaches its bytes and no other; a
read answers them; an atomic operation answers the old value and stores in one action; a store conditional stores only
under its reservation; the directory has a line that a hart reads at the hart, and one that it writes as its own. -/
def Sys2Proof.Says.HostAndHartAccesses : Prop :=
  (∀ (s : State) (pa : Nat) (bs : List Byte) (relaxed : Bool), bs ≠ [] →
    (InDram pa bs.length → ∃ t, exec (.hostWrite pa bs relaxed) s = .next t ∧
      HomeOnly s t fun x => if pa ≤ x then bs[x - pa]? else none) ∧
    (dramEnd ≤ pa → pa < windowBase → exec (.hostWrite pa bs relaxed) s = .next s)) ∧
  (∀ (s : State) (pa n : Nat), InDram pa n → 1 ≤ n →
    ∃ t bs, exec (.hostRead pa n) s = .next t ∧ t = { s with hostOut := s.hostOut ++ [(pa, bs)] } ∧
      (Sound s pa n → bs = (List.range n).map fun k => s.homeByte (pa + k)) ∧ (¬ Sound s pa n → bs = [])) ∧
  (∀ (s : State) (pa n old : Nat) (wide : Bool) (op : HostAtomicOp) (new : Option Nat), n = (if wide then 8 else 4) →
    Sound s pa n → pa % n = 0 → old = atHome s pa n →
    new = (match op with
      | .fetchAdd v => some ((old + v.toNat) % 2 ^ (8 * n))
      | .swap v => some (v.toNat % 2 ^ (8 * n))
      | .cas c v => if old = c.toNat % 2 ^ (8 * n) then some (v.toNat % 2 ^ (8 * n)) else none) →
    ∃ t, exec (.hostAtomic pa wide op) s = .next t ∧ t.hostOut = s.hostOut ++ [(pa, listOf old n)] ∧
      HomeOnly { s with hostOut := t.hostOut } t fun x => new.bind fun v => bytesAt pa n v x) ∧
  (∀ (s : State) (h pa n old : Nat) (wide : Bool) (v : BitVec 64), h < 64 → n = (if wide then 8 else 4) → Sound s pa n →
    pa % n = 0 → old = atHome s pa n →
    (∃ t, exec (.eflerAccess h (.load pa wide)) s = .next t ∧ HoldsLine t h pa ∧
      OnlyHart s t h pa { hartOf s h with value := BitVec.ofNat 64 old }) ∧
    (∀ aq, ∃ t, exec (.eflerAccess h (.lr pa wide aq)) s = .next t ∧ HoldsLine t h pa ∧
      OnlyHart s t h pa { hartOf s h with value := BitVec.ofNat 64 old, resv := some (pa / 64) }) ∧
    (∃ t, exec (.eflerAccess h (.store pa wide v)) s = .next t ∧ HomeOnly s t (bytesAt pa n v.toNat) ∧
      AMap.find t.dir (pa / 64) = some (.owned h) ∧
      ∀ j, hartOf t j = if (hartOf s j).resv = some (pa / 64) then { hartOf s j with resv := none } else hartOf s j) ∧
    (∀ o aq rl, ∃ t w, exec (.eflerAccess h (.amo pa wide o v aq rl)) s = .next t ∧
      rmwRule (.op o) n old (v.toNat % 2 ^ (8 * n)) 0 = some w ∧ HomeOnly s t (bytesAt pa n w) ∧
      AMap.find t.dir (pa / 64) = some (.owned h) ∧ (hartOf t h).value = BitVec.ofNat 64 old ∧ ∀ j, j ≠ h → (hartOf t j).value = (hartOf s j).value) ∧
    (∀ rl, (hartOf s h).resv = some (pa / 64) → ∃ t, exec (.eflerAccess h (.sc pa wide v rl)) s = .next t ∧
      HomeOnly s t (bytesAt pa n v.toNat) ∧ AMap.find t.dir (pa / 64) = some (.owned h) ∧
      hartOf t h = { hartOf s h with value := 0, resv := none }) ∧
    (∀ rl, (hartOf s h).resv ≠ some (pa / 64) → ∃ t, exec (.eflerAccess h (.sc pa wide v rl)) s = .next t ∧
      { t with eflers := s.eflers } = s ∧ hartOf t h = { hartOf s h with value := 1, resv := none } ∧
      ∀ j, j ≠ h → hartOf t j = hartOf s j) ∧
    ∀ a b c d, ∃ t, exec (.eflerAccess h (.fence a b c d)) s = .next t ∧ { t with eflers := s.eflers } = s ∧
      ∀ j, hartOf t j = hartOf s j) ∧
  (∀ (s : State) (h : Nat) (op : EflerOp), 64 ≤ h → exec (.eflerAccess h op) s = .next s)

/-- Peer packages (R411, R412). A request outside the exported ranges completes with the access fault; one inside is
performed at its home; a peer that becomes unreachable is so marked, and a load that waits for it parks its thread with
the data-loss fault; a port that is down is marked. -/
def Sys2Proof.Says.PeerEvents : Prop :=
  (∀ (s : State) (r : ExtReq), ¬ Exported s r.pa (match r.kind with
      | .read n => n
      | .write bs => bs.length
      | .atomic wide .. => if wide then 8 else 4
      | .cas wide .. => if wide then 8 else 4) →
    ∃ t, exec (.peerRequest r) s = .next t ∧ Answers s t r.peer.toNat 0x22 []) ∧
  (∀ (s : State) (id : BitVec 9) (pa n : Nat), Exported s pa n → Sound s pa n →
    ∃ t, exec (.peerRequest ⟨id, pa, .read n⟩) s = .next t ∧
      Answers s t id.toNat 0 ((List.range n).map fun k => s.homeByte (pa + k))) ∧
  (∀ (s : State) (id : BitVec 9) (pa : Nat) (bs : List Byte), Exported s pa bs.length → InDram pa bs.length →
    ∃ r t, exec (.peerRequest ⟨id, pa, .write bs⟩) s = .next t ∧
      HomeOnly s r (fun x => if pa ≤ x then bs[x - pa]? else none) ∧ Answers r t id.toNat 0 []) ∧
  (∀ (s : State) (id : BitVec 9) (pa n old : Nat) (wide : Bool) (k : ExtKind) (new : Option Nat),
    n = (if wide then 8 else 4) → Exported s pa n → Sound s pa n → old = atHome s pa n →
    ((∃ op v, k = .atomic wide op v ∧ new = rmwRule (.op op) n old (v.toNat % 2 ^ (8 * n)) 0) ∨
      ∃ c v, k = .cas wide c v ∧ new = rmwRule .cas n old (c.toNat % 2 ^ (8 * n)) (v.toNat % 2 ^ (8 * n))) →
    ∃ r t, exec (.peerRequest ⟨id, pa, k⟩) s = .next t ∧ HomeOnly s r (fun x => new.bind fun v => bytesAt pa n v x) ∧
      Answers r t id.toNat 0 (listOf old n)) ∧
  (∀ (s : State) (id : BitVec 9), (∀ e ∈ s.waves, e.2.flights = []) →
    ∃ t, exec (.peerUnreachable id) s = .next t ∧ { t with peers := s.peers } = s ∧
      t.peer id.toNat = { s.peer id.toNat with reachable := false } ∧ ∀ j, j ≠ id.toNat → t.peer j = s.peer j) ∧
  (∀ (s : State) (id : BitVec 9) (w o pa n : Nat) (x : Wave) (f : Flight) (a : LaneAcc) (ext : Extend) (dest : MemDest)
    (ord : LdOrd) (sco : Scope) (ch : Chan), s.waves = [(w, x)] → x.flights = [(o, f)] → f.accs = [a] →
    f.kind = .load n ext dest ord sco ch → a.got = none → a.loc = .mem (0x8000000000000 + 2 ^ 42 * id.toNat + pa) →
    id.toNat < 432 → pa < 2 ^ 42 → a.lane < 64 → x.stateOf a.lane = .ready →
    ∃ t, exec (.peerUnreachable id) s = .next t ∧ (t.peer id.toNat).reachable = false ∧
      AMap.find (t.wave w).flights o = some { f with accs := [] } ∧ (t.wave w).pcOf a.lane = a.pc ∧
      (∀ l, l < 64 → l ≠ a.lane → (t.wave w).pcOf l = x.pcOf l) ∧
      ParkedSet x (t.wave w) (BitVec.ofNat 64 (2 ^ a.lane)) a.pc .dataLoss true (BitVec.ofNat 64 a.va) ∧
      (t.wave w).v = x.v ∧ (t.wave w).s = x.s) ∧
  (∀ (s : State) (port : BitVec 4), ∃ t, exec (.peerPortDown port) s = .next t ∧ { t with fabric := s.fabric } = s ∧
    { t.fabric with portsDown := s.fabric.portsDown } = s.fabric ∧
    ∀ k, k < 16 → t.fabric.portsDown.getLsbD k = (s.fabric.portsDown.getLsbD k || decide (k = port.toNat)))

/-- Shards (R416, R417). The contexts of a die are served in turn. A fetch of an entry in state 0 or 3 makes it 1 and is
at work, and is dropped where its entry cannot be translated; its end gives 2 when the digest of what was read is the
manifest's and else 3, with an interrupt on hart 0; a verification of an entry in state 2 counts a check or makes it 3;
a scrub verifies every such entry, and none with SCRUBINT 0. -/
def Sys2Proof.Says.ShardEvents : Prop :=
  (∀ (s u : State) (die pa : Nat) (k : BitVec 6) (i : BitVec 16) (c : Shard) (rest : List (Bool × Nat)),
    c = s.shard die k.toNat → s.shardTurn die = some k.toNat → c.cmds = (false, i.toNat) :: rest →
    u = (s.onDie die fun d => { d with shardLast := k.toNat }) →
    (s.manifestPa die k.toNat i.toNat 0 = some pa → (s.manifestPa die k.toNat i.toNat 64).isSome → InDram pa 4 →
      ∃ t, exec (.shardFetch die k i) s = .next t ∧
        if atHome s pa 4 % 4 = 0 ∨ atHome s pa 4 % 4 = 3 then
          HomeOnly { s with dies := t.dies } t (bytesAt pa 4 1) ∧
            ShardIs u t die k.toNat { c with cmds := rest, busy := some i.toNat, read := [], ok := true }
        else OnlyDie s t die ∧ ShardIs u t die k.toNat { c with cmds := rest }) ∧
    ((s.manifestPa die k.toNat i.toNat 0 = none ∨ s.manifestPa die k.toNat i.toNat 64 = none) →
      ∃ t, exec (.shardFetch die k i) s = .next t ∧ OnlyDie s t die ∧ ShardIs u t die k.toNat { c with cmds := rest })) ∧
  (∀ (s : State) (die pa i : Nat) (k : BitVec 6) (c : Shard), c = s.shard die k.toNat → c.busy = some i → c.ok = true →
    c.read.length = s.manifest die k.toNat i 0x18 4 → s.manifestPa die k.toNat i 0 = some pa → InDram pa 4 →
    ∃ t, exec (.shardFetchComplete die k) s = .next t ∧
      (if digestBytes (sha512 c.read) = (List.range 64).map (fun j => BitVec.ofNat 8 (s.manifest die k.toNat i (0x40 + j) 1))
      then HomeOnly { s with dies := t.dies } t (bytesAt pa 4 2) ∧
        ShardIs s t die k.toNat { c with busy := none, read := [], ok := true }
      else HomeOnly { s with dies := t.dies } t (bytesAt pa 4 3) ∧
        ShardIs s { t with dies := AMap.put t.dies die { t.die die with irq := (s.die die).irq } } die k.toNat
          { c with busy := none, read := [], ok := true } ∧ (t.die die).irq = (s.die die).irq ||| 1)) ∧
  (∀ (s u : State) (die pa pc : Nat) (k : BitVec 6) (i : BitVec 16) (c : Shard) (rest : List (Bool × Nat))
    (bs : List Byte) (good : Bool), c = s.shard die k.toNat → s.manifestPa die k.toNat i.toNat 0 = some pa →
    (s.manifestPa die k.toNat i.toNat 64).isSome → InDram pa 4 →
    s.manifestPa die k.toNat i.toNat 4 = some pc → InDram pc 4 → atHome s pa 4 % 4 = 2 →
    s.shardDest die k.toNat i.toNat = some bs →
    good = decide (digestBytes (sha512 bs) =
      (List.range 64).map fun j => BitVec.ofNat 8 (s.manifest die k.toNat i.toNat (0x40 + j) 1)) →
    (s.shardTurn die = some k.toNat → c.cmds = (true, i.toNat) :: rest →
      u = (s.onDie die fun d => { d with shardLast := k.toNat }) →
      ∃ t, exec (.shardVerify die k i) s = .next t ∧
        (good = true → HomeOnly { s with dies := t.dies } t (bytesAt pc 4 (min (atHome s pc 4 + 1) (2 ^ 32 - 1))) ∧
          ShardIs u t die k.toNat { c with cmds := rest }) ∧
        (good = false → HomeOnly { s with dies := t.dies } t (bytesAt pa 4 3) ∧
          t.die die = { u.die die with
            shards := AMap.put (s.die die).shards k.toNat { c with cmds := rest }, irq := (s.die die).irq ||| 1 } ∧
          ∀ d, d ≠ die → t.die d = s.die d)) ∧
    ((s.die die).shards = [(k.toNat, c)] → c.count.toNat = 1 → i = 0 → s.fabric.scrubint ≠ 0 →
      ∃ t, exec (.shardScrub die) s = .next t ∧
        (good = true → HomeOnly s t (bytesAt pc 4 (min (atHome s pc 4 + 1) (2 ^ 32 - 1)))) ∧
        (good = false → HomeOnly { s with dies := t.dies } t (bytesAt pa 4 3) ∧
          t.die die = { s.die die with irq := (s.die die).irq ||| 1 } ∧ ∀ d, d ≠ die → t.die d = s.die d))) ∧
  (∀ (s : State) (die : Nat), s.fabric.scrubint = 0 → exec (.shardScrub die) s = .next s)

/-- Boot, attestation and features (R420 to R422). An image whose signature, key and version pass is loaded, and any
other leaves the device in recovery; a request of the seven messages is answered, with the versions, the algorithms, the
chain of slot 0 or its digest, the measurements as they stand (how SPDM lays them out is log entry 17); the first write
of FEATACC is kept, ANDed with FEATOFF, and sets LOCK, and later ones change nothing. -/
def Sys2Proof.Says.BootAndFeatures : Prop :=
  (∀ (s : State) (img : FwImage) (good : Bool),
    good = (pssVerify img.modulus img.exponent img.signature (sha512 img.body) &&
      ([0, 1, 2, 3].any fun (k : Fin 4) =>
        Config.fusedKeyDigest k == some (sha512 (Config.keyBytes img.modulus img.exponent))) &&
      decide (Config.fusedMinVersion ≤ img.version)) →
    (s.fabric.boot = .held → ∃ t, exec (.boot img) s = .next t ∧ (good = true → Loaded s t img) ∧
      (good = false → t = { s with fabric := { s.fabric with boot := .recovery } })) ∧
    (s.fabric.boot ≠ .held → exec (.boot img) s = .next s) ∧
    (s.fabric.boot = .recovery → ∃ t, exec (.recoveryImage img) s = .next t ∧ (good = true → Loaded s t img) ∧
      (good = false → t = s)) ∧
    (s.fabric.boot ≠ .recovery → exec (.recoveryImage img) s = .next s)) ∧
  (∀ (i : Instr) (s : State) (via : SpdmPath) (p : BitVec 8), i ∈ [.getVersion via p, .getCapabilities via p,
      .negotiateAlgorithms via p, .getDigests via p, .getCertificate via p, .challenge via p, .getMeasurements via p] →
    (s.fabric.boot = .held → exec i s = .next s) ∧
    (s.fabric.boot ≠ .held → ∃ t b, exec i s = .next t ∧ { t with spdmOut := s.spdmOut, freeCtr := s.freeCtr } = s ∧
      t.spdmOut = s.spdmOut ++ [(via, b)] ∧
      (i = .getVersion via p → ∃ a, b = a ++ [0x00, 0x12, 0x00, 0x13]) ∧
      (i = .negotiateAlgorithms via p → ∃ a, b = a ++ (listOf 0x40 4 ++ listOf 0x04 4)) ∧
      (i = .getDigests via p ∨ i = .challenge via p → ∃ a, b = a ++ digestBytes (sha512 Config.certificateChain)) ∧
      (i = .getCertificate via p → p = 0 → ∃ a, b = a ++ Config.certificateChain) ∧
      (i = .getMeasurements via p → ∃ a, b = a ++ (match p.toNat with
        | 1 => listOf Config.bootRomVersion 8
        | 2 => digestBytes s.fabric.fwDigest
        | 3 => listOf s.fabric.fwVersion 8
        | 4 => listOf Config.featOff.toNat 8
        | 5 => listOf (if s.fabric.lock = true then s.fabric.featacc.toNat else 0) 8
        | 255 => listOf Config.bootRomVersion 8 ++ digestBytes s.fabric.fwDigest ++ listOf s.fabric.fwVersion 8 ++
            listOf Config.featOff.toNat 8 ++ listOf (if s.fabric.lock = true then s.fabric.featacc.toNat else 0) 8
        | _ => [])))) ∧
  (∀ (s : State) (v : BitVec 64), (s.fabric.lock = true → exec (.feataccWrite v) s = .next s) ∧
    (s.fabric.lock = false → ∃ t, exec (.feataccWrite v) s = .next t ∧ { t with fabric := s.fabric } = s ∧
      t.fabric = { s.fabric with lock := true, featacc := t.fabric.featacc } ∧
      ∀ k, k < 64 → t.fabric.featacc.getLsbD k = (v.getLsbD k && Config.featOff.getLsbD k)))

/-- Registers of the service windows (R192, R342, R381, R393, R399, R413, R416). A write stores the register's own bits and
no other register's; a read-only register, and the fabric block of dies 1 to 3, ignore it. -/
def Sys2Proof.Says.WindowRegisters : Prop :=
  ∀ (s : State) (die : Nat) (off : BitVec 24) (v : BitVec 64), die < 4 → off.toNat % 8 = 0 →
    ∃ t, exec (.registerWrite die off v) s = .next t ∧
      (off = 0x000000 → OnlyDie s t die ∧ t.die die = { s.die die with tlbiAddr := v &&& 0x01FFFFFFFFFFF000#64 }) ∧
      (off = 0x000008 → (s.die die).tlbiCtl.getLsbD 0 = false →
        OnlyDie s t die ∧ t.die die = { s.die die with tlbiCtl := v &&& 0xFFFFF1FFFFFFFF07#64 }) ∧
      (off = 0x040000 → OnlyDie s t die ∧ t.die die = { s.die die with qroot := v &&& 0x01FFFFFFFFFF8000#64 }) ∧
      (off = 0x070010 → die = 0 → t = { s with fabric := { s.fabric with pkgid := v.setWidth 9 } }) ∧
      (off = 0x070018 → die = 0 → t = { s with fabric := { s.fabric with scrubint := v.setWidth 32 } }) ∧
      (off = 0x080010 → OnlyDie s t die ∧ t.die die = { s.die die with
        shards := AMap.put (s.die die).shards 0 { s.shard die 0 with count := v &&& 0xFFFF#64 } }) ∧
      (off ∈ [0x020000, 0x030000, 0x040010, 0x060100, 0x070000] → t = s) ∧
      (off.toNat / 0x10000 = 7 → die ≠ 0 → t = s)

/-- The word at a virtual address, when its translation needs no walk: the 8 bytes from there as the wave's core sees them,
least significant first (R21, R35). -/
def Sys2Proof.Says.WordAt (s : State) (w va : Nat) (a : DWord) : Prop :=
  ∃ h, s.translate (some (s.wave w).core) (clusterOf (s.wave w).core) (s.wave w).pasid va .fetch = (.ok h, s) ∧
    InDram h.pa 8 ∧
    a.toNat = ((List.range 8).map fun k => 256 ^ k * (seenBy s (s.wave w).core (h.pa + k)).toNat).sum

/-- The words at a PC of a wave: a legal prefix with the word that follows it, or one word (R35, R57, R61). -/
def Sys2Proof.Says.WordsAt (s : State) (w : Nat) (pc : Word) (u : Words) : Prop :=
  let va := (s.wave w).codebase.toNat + 8 * pc.toNat
  WordAt s w va u.first ∧
    if u.first.extractLsb' 62 2 = 2#2 ∧ (decodePfx u.first).isSome = true then
      ∃ b, u.second = some b ∧ WordAt s w (va + 8) b
    else u.second = none

/-- A quadrant that holds one wave, whose next word may issue at once (R162, R163): its header's STALL, WAIT and SETF are
met, no fence holds it, every register line is at hand and sound, its cohort is resident, on its core no fixed-latency
result is outstanding and no sleep is over, no result of its own in flight is known, and nothing waits to be reported to
it. The context checks no producers (R169), the word's features are accepted (R422), and no word of another quadrant goes
before it (R212, R231, R375). -/
def Sys2Proof.Says.MayIssue (s : State) (core quad w : Nat) (x : Wave) (u : Words) : Prop :=
  s.inQuad core quad = [(w, x)] ∧ s.wave w = x ∧
    (∀ e ∈ s.waves, e.2.core = core → ∀ f ∈ e.2.flights, ∀ due ws, f.2.kind ≠ .fixed due ws) ∧
    (∀ e ∈ s.waves, e.2.core = core → ∀ z ∈ e.2.sleepers, ∀ n, z.wait = .sleep n →
      (s.die (core / 144)).counter.toNat < n.toNat) ∧
    (∀ f ∈ x.flights, f.2.results = []) ∧
    ((s.cohort (s.cohortOf w)).groups.all fun g => (s.group g).slot.isSome) = true ∧
    x.holding = none ∧ x.heldWords = [] ∧ x.captures = [] ∧ x.tileFaults = [] ∧ s.reportFor w = none ∧
    s.ended x.launch = false ∧ (s.core core).missing = [] ∧ (s.core core).upsetLines = [] ∧
    s.halting core x.pasid = false ∧
    (u.turnClass x.group = none ∨ ∀ q < 4, q ≠ quad → s.inQuad core q = []) ∧
    AMap.getD (s.core core).busy quad 0 ≤ (s.core core).cycle ∧
    (∀ c, x.lastIssue = some c → c + u.hdr.stall.toNat ≤ (s.core core).cycle) ∧
    (∀ k < 12, u.hdr.wait.getLsbD k = true → x.flag k = 0) ∧
    (u.hdr.setf.toNat ≤ 11 → (x.flag u.hdr.setf.toNat).toNat < 63) ∧ x.fenced = false ∧
    (s.ctlw x.pasid).getLsbD 0 = false ∧ u.roundingOk s.fabric.featacc = true ∧ u.featuresOk s.fabric.featacc = true

/-- A step runs the instruction that the bytes at the program counter decode to (R14, R17, R35, R37, R163): when a quadrant
chooses, its word is fetched and decoded, the wave and its quadrant note the issue, and `exec` gives the rest; afterwards
the wave has left the word, unless the word stays in dispatch. A word whose release side cannot be performed yet waits in
dispatch first, and so does one that the front end serves while a link retrains (R374, R396; log entry 63). An event of
the table is executed as it stands, and so is the micro-operation at a ray's UPC (R297). -/
def Obligations.StepRunsChosenWord : Prop :=
  (∀ (s : State) (core quad : Nat) (rest : List Action) (w : Nat) (x : Wave) (run : Lanes) (pc : Word) (u : Words)
    (i : Instr) (r : List Byte), s.agenda = .select core quad :: rest → core < 576 → quad < 4 →
    ∀ s0, s0 = { s with agenda := rest } → MayIssue s0 core quad w x u → x.head = some (run, pc) → WordsAt s0 w pc u →
    Sys2Proof.decode (u.list.flatMap wordBytes) = .ok (i, r) →
    ∀ m, m = noted s0 core quad w (if u.byHands = true then max 1 ((handsOf run + 3) / 4) else 1) run u →
      (u.active x run = true → (usesFrontEnd i = true → s0.linksSteady = true) ∧
        ∀ sco, releaseScope i = some sco → { m with cur := s0.cur }.mayRelease w sco = true) →
      match exec i m with
      | .fault f => Sys2Proof.Machine.step s = .fault f
      | .refused f => Sys2Proof.Machine.step s = .refused f
      | .next t => ∃ t', Sys2Proof.Machine.step s = .next t' ∧ OnlyWave t t' w ∧
        { t'.wave w with
          holding := (t.wave w).holding, heldWords := (t.wave w).heldWords, owed := (t.wave w).owed } = t.wave w ∧
        (t'.wave w).owed = (t.wave w).owed ++ (t.wave w).newOwed x.nextOp (s.core core).cycle ∧
        (∀ r p, (t.wave w).holding = some (r, p, true) →
          (t'.wave w).holding = some (r, p, false) ∧ (t'.wave w).heldWords = u.list) ∧
        ((∀ r p, (t.wave w).holding ≠ some (r, p, true)) → (t'.wave w).holding = none ∧ (t'.wave w).heldWords = [])) ∧
  (∀ (s : State) (i : Instr) (rest : List Action), s.agenda = .event i :: rest →
    (∀ x j, i ≠ .prefixedPair x j) → encodeWords i = [] → encodeWalk i = none →
    Sys2Proof.Machine.step s = exec i { s with agenda := rest }) ∧
  (∀ (s : State) (k : Nat) (rest : List Action) (y : Ray) (b : Binding) (v : BitVec 32) (i : Instr),
    s.agenda = .walk k :: rest → AMap.find s.rays k = some y → y.binding = some b → b.prog[y.upc]? = some v →
    decodeWalk v = some i → y.out = false → y.fetching = false →
    Sys2Proof.Machine.step s = exec i { s with agenda := rest, curRay := k })

/-- The words and micro-words whose bits the spec writes out field by field decode to the instructions that they encode
(R36, R42, R46, R52, R57, R299). -/
def Obligations.DecodesWorkedWords : Prop :=
  (∀ e ∈ workedWords, Sys2Proof.decode (e.1.flatMap wordBytes) = .ok (e.2, []) ∧ encodeWords e.2 = e.1) ∧
  ∀ e ∈ workedWalks, decodeWalk e.1 = some e.2 ∧ encodeWalk e.2 = some e.1

/-- Every well-formed instruction word, dual word and prefixed pair decodes from its own bytes, and nothing of what follows
them is read; every walk micro-operation decodes from its micro-word. -/
def Obligations.EncodeDecodeRoundTrip : Prop :=
  (∀ (i : Instr) (r : List Byte), wellFormed i = true → encodeWords i ≠ [] →
    Sys2Proof.decode (encode i ++ r) = .ok (i, r)) ∧
  ∀ (i : Instr) (w : BitVec 32), encodeWalk i = some w → decodeWalk w = some i

/-- Every step keeps the canonical form of memory (log entry 1). -/
def Obligations.MemoryCanonicalKept : Prop :=
  ∀ s t : State, s.MemCanonical → Sys2Proof.Machine.step s = .next t → t.MemCanonical

/-- The machine after reset: memory in canonical form with nothing written, no context, launch, wave, group, cohort,
request, ray or graph; PKGID reads 0x1FF with LOCK 0, and every PEERPORT 0 (R413); SCRUBINT reads 3,600 (R416); FEATACC
and the TLBI, queue and COUNT registers read 0 (R192, R342, R422); every link is up without a retry. -/
def Obligations.ResetState : Prop :=
  State.reset.MemCanonical ∧ (∀ pa, State.reset.mem.read pa = 0) ∧ State.reset.l2 = [] ∧
  State.reset.contexts = [] ∧ State.reset.launches = [] ∧ State.reset.waves = [] ∧ State.reset.groups = [] ∧
  State.reset.cohorts = [] ∧ State.reset.reqs = [] ∧ State.reset.rays = [] ∧ State.reset.graphs = [] ∧
  State.reset.fabric.boot = .held ∧ State.reset.agenda = [] ∧
  (∀ die, die < 4 → State.reset.windowRead die 0x070010 = 0x1FF ∧ State.reset.windowRead die 0x070018 = 3600 ∧
    State.reset.windowRead die 0x070008 = 0 ∧ State.reset.windowRead die 0 = 0 ∧ State.reset.windowRead die 8 = 0 ∧
    State.reset.windowRead die 0x040000 = 0 ∧ State.reset.windowRead die 0x080010 = 0) ∧
  (∀ die k, die < 4 → k < 64 → State.reset.windowRead die (0x070100 + 8 * k) = 0) ∧
  ∀ die j, die < 4 → j < 3 → linkOf State.reset die j = ⟨.up, 0, 0⟩

/-- Where the words of timelines and rays complete by their own effect (R274, R276, R281, R282, R311, R312): a timeline
without a failure that has reached the value lets `tlwait` go on, and `waitp` once its promised time has come; `tlrd`
reads the value; `rquery` gives a number; `rsave` is in flight while its cluster has a ray of its cohort. -/
def Sys2Proof.Says.TimelineWordsComplete : Prop :=
  ∀ (c : Ctl) (s : State) (run : Lanes) (pc : Word), Runs s c run pc → Steady s c.h.setf →
    (∀ (a : SReg) (sel : Timeline), (timeline s sel).fail = none →
      hasReached (timeline s sel).value ((cw s).rs a) →
      (∃ t, exec (.tlwait c a sel) s = .next t ∧ IssuesPlain (s.acquire (cw s).core) t c run (pc + 1)) ∧
      (hasReached (s.die ((cw s).core / 144)).counter.toNat (SMap.get (cw s).s (a.toNat + 1)) →
        ∃ t, exec (.waitp c a sel) s = .next t ∧ IssuesPlain (s.acquire (cw s).core) t c run (pc + 1))) ∧
    (∀ (d : SReg) (sel : Timeline), ∃ t, exec (.tlrd c d sel) s = .next t ∧
      ∃ lo hi : Word, (timeline s sel).value % 2 ^ 64 = lo.toNat + 2 ^ 32 * hi.toNat ∧
        IssuesResult s t c run (pc + 1) [.s d lo, .s (d + 1) hi]) ∧
    (∀ (d : SReg) (sub : RQuery), ∃ t v, exec (.rquery c d sub) s = .next t ∧
      IssuesResult s t c run (pc + 1) [.s d v]) ∧
    ((∃ e ∈ s.rays, e.2.cohort = cohortNow s ∧ e.2.cluster = clusterNow s) →
      ∃ t, exec (.rsave c) s = .next t ∧
        Issues s { t with rays := s.rays, reqs := s.reqs } c run (pc + 1) ⟨.command, c.h.setf, run, []⟩)

/-- Where the moves of the front end complete by their own effect (R345, R346, R354, R355, R369, R381): a report of the
tail filter and a RESTART read the QCB anew, QCBINV empties the copy, a dependency and a wait whose value is reached are
over, and a graph whose packet may start does start. -/
def Sys2Proof.Says.FrontEndMovesComplete : Prop :=
  (∀ (s : State) (q pa : Nat) (c : Qcb), s.linksSteady = true → (s.fq q).qcb = some c → pa = (s.fq q).at_ →
    InDram pa 128 → pa % 8 = 0 →
    ((∀ n, Quiet (s.fq q) n) → c.ctl.testBit 2 = false → (atHome s (pa + 0x18) 4).testBit 2 = false →
      ∃ t c', exec (.tailFilterReport q) s = .next t ∧ (t.fq q).qcb = some c' ∧ c'.wridx = atHome s (pa + 0x10) 8) ∧
    (c.ctl.testBit 2 = true → (atHome s (pa + 0x18) 4).testBit 2 = true → (atHome s (pa + 0x18) 4).testBit 3 = true →
      ∃ t c', exec (.queueRestart q) s = .next t ∧ (t.fq q).qcb = some c' ∧
        c'.ctl = atHome s (pa + 0x18) 4 - 12)) ∧
  (∀ (s : State) (die : Nat) (v : BitVec 64) (f : FQ), AMap.find s.queues (2 ^ 28 * die + v.toNat % 2 ^ 28) = some f →
    ∃ t, exec (.qcbinv die v) s = .next t ∧ (t.fq (2 ^ 28 * die + v.toNat % 2 ^ 28)).qcb = none) ∧
  (∀ (s s1 : State) (q n k v pa : Nat) (b : Bool), s.linksSteady = true →
    MayStart (s.fq q) n ⟨.dependency [(k, v)], b, false, []⟩ →
    s.findQueue (queueKey (keyDie q) (keyPasid q) k) = (.qcb pa, s1) → NextOf s1 q n → Quiet (s1.fq q) n →
    v ≤ s1.homeValue (pa + 0x28) 8 → ∃ t, exec (.dependencySatisfied q n) s = .next t ∧ PacketDone s1 t q n) ∧
  (∀ (s s1 : State) (q n a v pa : Nat) (b : Bool), s.linksSteady = true →
    MayStart (s.fq q) n ⟨.wait a v, b, false, []⟩ →
    s.feAddr (keyPasid q) a 8 .load = (.ok pa, s1) → NextOf s1 q n → Quiet (s1.fq q) n →
    v ≤ s1.homeValue pa 8 → ∃ t, exec (.timelineWaitSatisfied q n) s = .next t ∧ PacketDone s1 t q n) ∧
  (∀ (i : Instr) (s s1 : State) (q n l g : Nat) (p : Packet) (x : Launch) (y : Graph),
    i = .graphDispatch q ∨ i = .drawGraph q → s.linksSteady = true → s.openQueue q = (none, s1) →
    s1.fabric.lock = true → s1.queueOn q = true → Quiet (s1.fq q) n → MayStart (s1.fq q) n p → p.kind = .launch l →
    p.started = false → AMap.find s1.launches l = some x → x.kind = .graph →
    (∀ e ∈ (s1.fq q).packets, e.1 ≠ n → e.2.started = true) → s1.graphs = [(g, y)] → y.launch = l → y.slots = [] →
    y.pending = [] →
    ∃ t, exec i s = .next t ∧ (AMap.find (t.fq q).packets n).map (fun (p : Packet) => p.started) = some true)

/-- Words that wait and events that end waits. -/
def Obligations.YieldSleepAndWaits : Prop := Says.YieldOnlyMovesOn ∧ Says.SleepWaitsForCount ∧ Says.WaitEvents ∧ Says.TimelineWordsComplete

/-- Floating exceptions and illegal block formats that park lanes. -/
def Obligations.FloatTrapsParkLanes : Prop := Says.FloatTrapParksLanes ∧ Says.ConvertFormatTrapParksLanes

/-- Reads of special registers. -/
def Obligations.SpecialRegisterReads : Prop := Says.SpecialRegisterRead ∧ Says.SpecialRegisterReadByLane

/-- Condition bits, masks and the scalars read from them. -/
def Obligations.ConditionAndMaskResults : Prop := Says.ConditionWordResult ∧ Says.MaskWordResult ∧ Says.MaskToScalarResult

/-- Per-lane compares into masks. -/
def Obligations.CompareResults : Prop := Says.VectorCompareResult ∧ Says.FloatCompareResult

/-- The issue of loads, stores and read-modify-writes. -/
def Obligations.MemoryWordsIssue : Prop := Says.LaneMemoryWordIssues ∧ Says.UniformMemoryWordIssues

/-- Words that move a run. -/
def Obligations.BranchAndLinkWords : Prop := Says.BranchWordMovesRun ∧ Says.LinkWordResult

/-- Dual words and prefixed pairs. -/
def Obligations.DualAndPrefixedResults : Prop := Says.DualWordResult ∧ Says.PrefixedPairResult

/-- Formats and rounding. -/
def Obligations.NumberFormats : Prop := Says.FloatBitsRoundTrip ∧ Says.RoundingPicksMultiple

/-- Traps that park, and traps with no handler. -/
def Obligations.TrapsParkOrEnd : Prop := Says.TrapWordParks ∧ Says.UnhandledTrapEndsLaunch

/-- The entry to a trap handler and the return from it. -/
def Obligations.TrapEntryAndReturn : Prop := Says.TrapDeliveryEntersHandler ∧ Says.RteReturnsFromHandler

/-- Loads that complete and stores that are performed. -/
def Obligations.LoadsAndStoresPerform : Prop := Says.LoadCompletionWritesRegisters ∧ Says.StorePerformedWritesBytes

/-- Requests to the engines, and descriptors that trap. -/
def Obligations.RequestsAndTheirTraps : Prop := Says.RequestWordIsNumbered ∧ Says.BadDescriptorsTrap

/-- Packets whose work completes. -/
def Obligations.PacketsAndGraphsComplete : Prop := Says.PacketsComplete ∧ Says.GraphPackets

/-- Contexts, partitions of address space and capability windows. -/
def Obligations.ContextsAndWindows : Prop := Says.ContextEvents ∧ Says.CapabilityEvents

/-- Queue service, partitions and heads. -/
def Obligations.QueuesPartitionsAndDisplay : Prop := Says.QueueServiceEvents ∧ Says.PartitionEvents ∧ Says.DisplayEvents ∧ Says.FrontEndMovesComplete

/-- Links, clocks, host and hart accesses, peers. -/
def Obligations.PackageUnits : Prop := Says.LinkAndPowerEvents ∧ Says.HostAndHartAccesses ∧ Says.PeerEvents

/-- The integrity engine, boot and the window registers. -/
def Obligations.ShardsBootAndRegisters : Prop := Says.ShardEvents ∧ Says.BootAndFeatures ∧ Says.WindowRegisters

/-- Page walks, invalidations, line fills and promotions. -/
def Obligations.TranslationAndLines : Prop := Says.TranslationEvents ∧ Says.LineAndPromotionEvents
end

