-- ==== Sys2Proof/Laws/Store.lean ====
section
/-!
SUPPORT. Laws of the tables and of memory: what a read after a write gives, and that every operation keeps the
canonical form.
-/

namespace Sys2Proof.Machine

/-! Tables. -/

@[simp] theorem AMap.find_put_self {α : Type} (m : AMap α) (n : Nat) (v : α) : AMap.find (AMap.put m n v) n = some v := by
  induction m with
  | nil => simp [AMap.put, AMap.find]
  | cons e t ih =>
    obtain ⟨k, u⟩ := e
    simp only [AMap.put]
    split
    · simp [AMap.find]
    · split
      · simp [AMap.find]
      · rename_i h1 h2
        simp only [AMap.find, if_neg h2, ih]

theorem AMap.find_put_other {α : Type} (m : AMap α) (n k : Nat) (v : α) (h : k ≠ n) :
    AMap.find (AMap.put m n v) k = AMap.find m k := by
  induction m with
  | nil => simp [AMap.put, AMap.find, h]
  | cons e t ih =>
    obtain ⟨j, u⟩ := e
    simp only [AMap.put]
    split
    · simp [AMap.find, h]
    · split
      · rename_i h2
        subst h2
        simp [AMap.find, h]
      · simp only [AMap.find, ih]

@[simp] theorem AMap.getD_put_self {α : Type} (m : AMap α) (n : Nat) (v d : α) :
    AMap.getD (AMap.put m n v) n d = v := by simp [AMap.getD]

theorem AMap.getD_put_other {α : Type} (m : AMap α) (n k : Nat) (v d : α) (h : k ≠ n) :
    AMap.getD (AMap.put m n v) k d = AMap.getD m k d := by simp [AMap.getD, AMap.find_put_other m n k v h]

theorem AMap.find_del_other {α : Type} (m : AMap α) (n k : Nat) (h : k ≠ n) :
    AMap.find (AMap.del m n) k = AMap.find m k := by
  induction m with
  | nil => rfl
  | cons e t ih =>
    obtain ⟨j, u⟩ := e
    simp only [AMap.del]
    split
    · rename_i h2
      subst h2
      simp [AMap.find, h, ih]
    · simp only [AMap.find, ih]

@[simp] theorem AMap.find_del_self {α : Type} (m : AMap α) (n : Nat) : AMap.find (AMap.del m n) n = none := by
  induction m with
  | nil => rfl
  | cons e t ih =>
    obtain ⟨k, v⟩ := e
    simp only [AMap.del]
    split
    · exact ih
    · rename_i h2
      simp only [AMap.find, if_neg h2, ih]

theorem AMap.sortedFrom_mono {α : Type} (m : AMap α) (b c : Nat) (h : AMap.sortedFrom c m = true) (hb : b ≤ c) :
    AMap.sortedFrom b m = true := by
  cases m with
  | nil => rfl
  | cons e t =>
    obtain ⟨k, v⟩ := e
    simp only [AMap.sortedFrom, Bool.and_eq_true, decide_eq_true_eq] at h ⊢
    exact ⟨by omega, h.2⟩

theorem AMap.sortedFrom_put {α : Type} (m : AMap α) (b n : Nat) (v : α) (h : AMap.sortedFrom b m = true) (hn : b ≤ n) :
    AMap.sortedFrom b (AMap.put m n v) = true := by
  induction m generalizing b with
  | nil => simp [AMap.put, AMap.sortedFrom, hn]
  | cons e t ih =>
    obtain ⟨k, u⟩ := e
    simp only [AMap.sortedFrom, Bool.and_eq_true, decide_eq_true_eq] at h
    simp only [AMap.put]
    split
    · simp only [AMap.sortedFrom, Bool.and_eq_true, decide_eq_true_eq]
      exact ⟨hn, by omega, h.2⟩
    · split
      · rename_i h2
        subst h2
        simp only [AMap.sortedFrom, Bool.and_eq_true, decide_eq_true_eq]
        exact ⟨hn, h.2⟩
      · simp only [AMap.sortedFrom, Bool.and_eq_true, decide_eq_true_eq]
        exact ⟨h.1, ih (k + 1) h.2 (by omega)⟩

theorem AMap.sortedFrom_del {α : Type} (m : AMap α) (b n : Nat) (h : AMap.sortedFrom b m = true) :
    AMap.sortedFrom b (AMap.del m n) = true := by
  induction m generalizing b with
  | nil => rfl
  | cons e t ih =>
    obtain ⟨k, u⟩ := e
    simp only [AMap.sortedFrom, Bool.and_eq_true, decide_eq_true_eq] at h
    simp only [AMap.del]
    split
    · exact AMap.sortedFrom_mono _ b (k + 1) (ih (k + 1) h.2) (by omega)
    · simp only [AMap.sortedFrom, Bool.and_eq_true, decide_eq_true_eq]
      exact ⟨h.1, ih (k + 1) h.2⟩

theorem AMap.all_put {α : Type} (m : AMap α) (n : Nat) (v : α) (p : Nat × α → Bool) (h : m.all p = true)
    (hv : p (n, v) = true) : (AMap.put m n v).all p = true := by
  induction m with
  | nil => simp [AMap.put, hv]
  | cons e t ih =>
    obtain ⟨k, u⟩ := e
    simp only [List.all_cons, Bool.and_eq_true] at h
    simp only [AMap.put]
    split
    · simp [hv, h.1, h.2]
    · split
      · simp [hv, h.2]
      · simp [h.1, ih h.2]

theorem AMap.all_del {α : Type} (m : AMap α) (n : Nat) (p : Nat × α → Bool) (h : m.all p = true) :
    (AMap.del m n).all p = true := by
  induction m with
  | nil => rfl
  | cons e t ih =>
    obtain ⟨k, u⟩ := e
    simp only [List.all_cons, Bool.and_eq_true] at h
    simp only [AMap.del]
    split
    · exact ih h.2
    · simp [h.1, ih h.2]

theorem AMap.all_filter {α : Type} (m : AMap α) (p q : Nat × α → Bool) (h : m.all p = true) :
    (m.filter q).all p = true := by
  simp only [List.all_eq_true, List.mem_filter] at h ⊢
  exact fun x hx => h x hx.1

theorem AMap.sortedFrom_filter {α : Type} (m : AMap α) (b : Nat) (q : Nat × α → Bool)
    (h : AMap.sortedFrom b m = true) : AMap.sortedFrom b (m.filter q) = true := by
  induction m generalizing b with
  | nil => rfl
  | cons e t ih =>
    obtain ⟨k, u⟩ := e
    simp only [AMap.sortedFrom, Bool.and_eq_true, decide_eq_true_eq] at h
    simp only [List.filter]
    split
    · simp only [AMap.sortedFrom, Bool.and_eq_true, decide_eq_true_eq]
      exact ⟨h.1, ih (k + 1) h.2⟩
    · exact AMap.sortedFrom_mono _ b (k + 1) (ih (k + 1) h.2) (by omega)

/-! Tables of bit vectors. -/

theorem SMap.wf_nil (w : Nat) : SMap.wf (w := w) [] = true := rfl

theorem SMap.wf_set {w : Nat} (m : SMap w) (n : Nat) (v : BitVec w) (h : SMap.wf m = true) :
    SMap.wf (SMap.set m n v) = true := by
  simp only [SMap.wf, AMap.sorted, Bool.and_eq_true] at h ⊢
  unfold SMap.set
  split
  · exact ⟨AMap.sortedFrom_del m 0 n h.1, AMap.all_del m n _ h.2⟩
  · rename_i hv
    exact ⟨AMap.sortedFrom_put m 0 n v h.1 (by omega), AMap.all_put m n v _ h.2 (by simpa using hv)⟩

theorem SMap.wf_filter {w : Nat} (m : SMap w) (q : Nat × BitVec w → Bool) (h : SMap.wf m = true) :
    SMap.wf (w := w) (m.filter q) = true := by
  simp only [SMap.wf, AMap.sorted, Bool.and_eq_true] at h ⊢
  exact ⟨AMap.sortedFrom_filter m 0 q h.1, AMap.all_filter m _ q h.2⟩

/-- A read after a write to the same key gives the value written. -/
@[simp] theorem SMap.get_set_self {w : Nat} (m : SMap w) (n : Nat) (v : BitVec w) : SMap.get (SMap.set m n v) n = v := by
  unfold SMap.set SMap.get AMap.getD
  split
  · rename_i hv
    simp [hv]
  · simp

/-- A write leaves every other key alone. -/
theorem SMap.get_set_other {w : Nat} (m : SMap w) (n k : Nat) (v : BitVec w) (h : k ≠ n) :
    SMap.get (SMap.set m n v) k = SMap.get m k := by
  unfold SMap.set SMap.get AMap.getD
  split
  · rw [AMap.find_del_other m n k h]
  · rw [AMap.find_put_other m n k v h]

/-! Memory. -/

theorem Memory.wf_write (m : Memory) (a : Nat) (v : Byte) (h : m.wf = true) : (m.write a v).wf = true :=
  SMap.wf_set m a v h

theorem Memory.wf_filter (m : Memory) (q : Host.Cell → Bool) (h : m.wf = true) : Memory.wf (m.filter q) = true :=
  SMap.wf_filter m q h

theorem Memory.read_write_self (m : Memory) (a : Nat) (v : Byte) : (m.write a v).read a = v := SMap.get_set_self m a v

theorem Memory.read_write_other (m : Memory) (a b : Nat) (v : Byte) (h : b ≠ a) : (m.write a v).read b = m.read b :=
  SMap.get_set_other m a b v h

/-- Writes of a list keep the canonical form. -/
theorem Memory.wf_foldl {α : Type} (f : Memory → α → Memory) (hf : ∀ m x, m.wf = true → (f m x).wf = true)
    (l : List α) (m : Memory) (h : m.wf = true) : (l.foldl f m).wf = true := by
  induction l generalizing m with
  | nil => exact h
  | cons x t ih => exact ih (f m x) (hf m x h)

end Sys2Proof.Machine
end

