-- ==== Sys2Proof/Laws/Mem.lean ====
section
/-!
SUPPORT. Memory at its home: what a write at the home changes, and that each operation that writes DRAM keeps the
canonical form.
-/

namespace Sys2Proof.Machine

@[simp] theorem State.healByte_mem (s : State) (pa : Nat) : (s.healByte pa).mem = s.mem := by
  unfold State.healByte; split <;> rfl

@[simp] theorem State.healByte_l2 (s : State) (pa : Nat) : (s.healByte pa).l2 = s.l2 := by
  unfold State.healByte; split <;> rfl

@[simp] theorem State.healByte_peers (s : State) (pa : Nat) : (s.healByte pa).peers = s.peers := by
  unfold State.healByte; split <;> rfl

@[simp] theorem State.notifyHome_mem (s : State) (pa : Nat) : (s.notifyHome pa).mem = s.mem := rfl
@[simp] theorem State.notifyHome_l2 (s : State) (pa : Nat) : (s.notifyHome pa).l2 = s.l2 := rfl
@[simp] theorem State.notifyHome_peers (s : State) (pa : Nat) : (s.notifyHome pa).peers = s.peers := rfl
@[simp] theorem State.notifyCore_mem (s : State) (core pa : Nat) : (s.notifyCore core pa).mem = s.mem := rfl

/-- A DRAM address is below the end of DRAM (R397). -/
theorem paClass_dram {pa : Nat} (h : pa < dramEnd) : paClass pa = .dram := by simp [paClass, h]

/-- A write at the home keeps the canonical form of DRAM. -/
theorem State.wf_homeWrite (s : State) (pa : Nat) (b : Byte) (h : s.mem.wf = true) : (s.homeWrite pa b).mem.wf = true := by
  unfold State.homeWrite
  split
  · exact h
  · simp only [State.notifyHome_mem, State.healByte_mem]
    split
    · exact Memory.wf_write _ _ _ h
    · exact h
  · exact h

/-- So does a write of several bytes. -/
theorem State.wf_homeWriteBytes (bs : List Byte) : ∀ (s : State) (pa : Nat), s.mem.wf = true →
    (s.homeWriteBytes pa bs).mem.wf = true := by
  induction bs with
  | nil => exact fun s pa h => h
  | cons b t ih => exact fun s pa h => ih _ _ (s.wf_homeWrite pa b h)

/-- A written byte reads back at its home. -/
theorem State.homeByte_homeWrite_self (s : State) (pa : Nat) (b : Byte) (h : pa < dramEnd) :
    (s.homeWrite pa b).homeByte pa = b := by
  by_cases hn : s.nearFrame (homeDie pa) (frameOf pa) = true <;>
    simp [State.homeWrite, State.homeByte, paClass_dram h, hn]

/-- Every other byte of DRAM reads as before. -/
theorem State.homeByte_homeWrite_other (s : State) (pa q : Nat) (b : Byte) (h : pa < dramEnd) (hq : q < dramEnd)
    (hne : q ≠ pa) : (s.homeWrite pa b).homeByte q = s.homeByte q := by
  by_cases hn : s.nearFrame (homeDie pa) (frameOf pa) = true <;>
    simp [State.homeWrite, State.homeByte, paClass_dram h, paClass_dram hq, hn, AMap.find_put_other _ _ _ _ hne,
      Memory.read_write_other _ _ _ _ hne]

/-- A line that leaves the L2 keeps the canonical form of DRAM. -/
theorem State.wf_evictL2 (s : State) (line : Nat) (h : s.mem.wf = true) : (s.evictL2 line).mem.wf = true := by
  simp only [State.evictL2]
  refine Memory.wf_foldl (fun m (e : Nat × Byte × Bool) => if e.1 / 256 = line ∧ e.2.2 = true then m.write e.1 e.2.1 else m)
    (fun m e hm => ?_) s.l2 s.mem h
  split
  · exact Memory.wf_write _ _ _ hm
  · exact hm

/-- Cleaning a handle keeps it. -/
theorem State.wf_cleanHandle (s : State) (q k : Nat) (h : s.mem.wf = true) : (s.cleanHandle q k).mem.wf = true := by
  simp only [State.cleanHandle]
  refine Memory.wf_foldl (fun m (e : Nat × Byte × Bool) => _) (fun m e hm => ?_) s.l2 s.mem h
  split
  · exact Memory.wf_write _ _ _ hm
  · exact hm

/-- A change of a NEAR bit keeps it. -/
theorem State.wf_moveFrame (s : State) (die f : Nat) (toNear : Bool) (h : s.mem.wf = true) :
    (s.moveFrame die f toNear).mem.wf = true := by
  simp only [State.moveFrame]
  refine Memory.wf_foldl _ (fun m e hm => ?_) _ _
    (Memory.wf_foldl _ (fun m e hm => Memory.wf_write m _ e.2 hm) _ _ (Memory.wf_filter _ _ h))
  split
  · exact Memory.wf_write _ _ _ hm
  · exact hm

/-- Bytes placed from outside keep it. -/
theorem State.wf_place (s : State) (pa : Nat) (bs : List Byte) (h : s.mem.wf = true) : (s.place pa bs).mem.wf = true := by
  have aux : ∀ (ls : List Nat) (s : State), s.mem.wf = true →
      (ls.foldl (fun (s : State) k =>
        { s with mem := s.mem.write (pa + k) (bs.getD k 0), l2 := AMap.del s.l2 (pa + k),
                 lost := AMap.del s.lost ((pa + k) / 64) }) s).mem.wf = true := by
    intro ls
    induction ls with
    | nil => exact fun s h => h
    | cons k t ih => exact fun s h => ih _ (Memory.wf_write _ _ _ h)
  exact aux _ s h

end Sys2Proof.Machine
end

