-- ==== Sys2Proof/Laws/State.lean ====
section
/-!
SUPPORT. What each update of the state leaves alone: one lemma for each field and update, and what a part reads after it
is put.
-/

namespace Sys2Proof.Machine

/-! Updates of the machine. -/

@[simp] theorem State.putWave_mem (s : State) (w : Nat) (x : Wave) : (s.putWave w x).mem = s.mem := rfl
@[simp] theorem State.putWave_l2 (s : State) (w : Nat) (x : Wave) : (s.putWave w x).l2 = s.l2 := rfl
@[simp] theorem State.putWave_cores (s : State) (w : Nat) (x : Wave) : (s.putWave w x).cores = s.cores := rfl
@[simp] theorem State.putWave_clusters (s : State) (w : Nat) (x : Wave) : (s.putWave w x).clusters = s.clusters := rfl
@[simp] theorem State.putWave_dies (s : State) (w : Nat) (x : Wave) : (s.putWave w x).dies = s.dies := rfl
@[simp] theorem State.putWave_groups (s : State) (w : Nat) (x : Wave) : (s.putWave w x).groups = s.groups := rfl
@[simp] theorem State.putWave_launches (s : State) (w : Nat) (x : Wave) : (s.putWave w x).launches = s.launches := rfl
@[simp] theorem State.putWave_contexts (s : State) (w : Nat) (x : Wave) : (s.putWave w x).contexts = s.contexts := rfl
@[simp] theorem State.putWave_parts (s : State) (w : Nat) (x : Wave) : (s.putWave w x).parts = s.parts := rfl
@[simp] theorem State.putWave_cohorts (s : State) (w : Nat) (x : Wave) : (s.putWave w x).cohorts = s.cohorts := rfl
@[simp] theorem State.putWave_reqs (s : State) (w : Nat) (x : Wave) : (s.putWave w x).reqs = s.reqs := rfl
@[simp] theorem State.putWave_rays (s : State) (w : Nat) (x : Wave) : (s.putWave w x).rays = s.rays := rfl
@[simp] theorem State.putWave_queues (s : State) (w : Nat) (x : Wave) : (s.putWave w x).queues = s.queues := rfl
@[simp] theorem State.putWave_graphs (s : State) (w : Nat) (x : Wave) : (s.putWave w x).graphs = s.graphs := rfl
@[simp] theorem State.putWave_prims (s : State) (w : Nat) (x : Wave) : (s.putWave w x).prims = s.prims := rfl
@[simp] theorem State.putWave_windows (s : State) (w : Nat) (x : Wave) : (s.putWave w x).windows = s.windows := rfl
@[simp] theorem State.putWave_turels (s : State) (w : Nat) (x : Wave) : (s.putWave w x).turels = s.turels := rfl
@[simp] theorem State.putWave_eflers (s : State) (w : Nat) (x : Wave) : (s.putWave w x).eflers = s.eflers := rfl
@[simp] theorem State.putWave_dir (s : State) (w : Nat) (x : Wave) : (s.putWave w x).dir = s.dir := rfl
@[simp] theorem State.putWave_fabric (s : State) (w : Nat) (x : Wave) : (s.putWave w x).fabric = s.fabric := rfl
@[simp] theorem State.putWave_peers (s : State) (w : Nat) (x : Wave) : (s.putWave w x).peers = s.peers := rfl
@[simp] theorem State.putWave_hostOut (s : State) (w : Nat) (x : Wave) : (s.putWave w x).hostOut = s.hostOut := rfl
@[simp] theorem State.putWave_spdmOut (s : State) (w : Nat) (x : Wave) : (s.putWave w x).spdmOut = s.spdmOut := rfl
@[simp] theorem State.putWave_notices (s : State) (w : Nat) (x : Wave) : (s.putWave w x).notices = s.notices := rfl
@[simp] theorem State.putWave_nextId (s : State) (w : Nat) (x : Wave) : (s.putWave w x).nextId = s.nextId := rfl
@[simp] theorem State.putWave_lost (s : State) (w : Nat) (x : Wave) : (s.putWave w x).lost = s.lost := rfl
@[simp] theorem State.putWave_cur (s : State) (w : Nat) (x : Wave) : (s.putWave w x).cur = s.cur := rfl
@[simp] theorem State.putWave_curRay (s : State) (w : Nat) (x : Wave) : (s.putWave w x).curRay = s.curRay := rfl
@[simp] theorem State.putWave_agenda (s : State) (w : Nat) (x : Wave) : (s.putWave w x).agenda = s.agenda := rfl
@[simp] theorem State.putWave_freeCtr (s : State) (w : Nat) (x : Wave) : (s.putWave w x).freeCtr = s.freeCtr := rfl

@[simp] theorem State.onWave_mem (s : State) (w : Nat) (f : Wave → Wave) : (s.onWave w f).mem = s.mem := rfl
@[simp] theorem State.onWave_l2 (s : State) (w : Nat) (f : Wave → Wave) : (s.onWave w f).l2 = s.l2 := rfl
@[simp] theorem State.onWave_cores (s : State) (w : Nat) (f : Wave → Wave) : (s.onWave w f).cores = s.cores := rfl
@[simp] theorem State.onWave_clusters (s : State) (w : Nat) (f : Wave → Wave) : (s.onWave w f).clusters = s.clusters := rfl
@[simp] theorem State.onWave_dies (s : State) (w : Nat) (f : Wave → Wave) : (s.onWave w f).dies = s.dies := rfl
@[simp] theorem State.onWave_groups (s : State) (w : Nat) (f : Wave → Wave) : (s.onWave w f).groups = s.groups := rfl
@[simp] theorem State.onWave_launches (s : State) (w : Nat) (f : Wave → Wave) : (s.onWave w f).launches = s.launches := rfl
@[simp] theorem State.onWave_contexts (s : State) (w : Nat) (f : Wave → Wave) : (s.onWave w f).contexts = s.contexts := rfl
@[simp] theorem State.onWave_parts (s : State) (w : Nat) (f : Wave → Wave) : (s.onWave w f).parts = s.parts := rfl
@[simp] theorem State.onWave_cohorts (s : State) (w : Nat) (f : Wave → Wave) : (s.onWave w f).cohorts = s.cohorts := rfl
@[simp] theorem State.onWave_reqs (s : State) (w : Nat) (f : Wave → Wave) : (s.onWave w f).reqs = s.reqs := rfl
@[simp] theorem State.onWave_rays (s : State) (w : Nat) (f : Wave → Wave) : (s.onWave w f).rays = s.rays := rfl
@[simp] theorem State.onWave_queues (s : State) (w : Nat) (f : Wave → Wave) : (s.onWave w f).queues = s.queues := rfl
@[simp] theorem State.onWave_graphs (s : State) (w : Nat) (f : Wave → Wave) : (s.onWave w f).graphs = s.graphs := rfl
@[simp] theorem State.onWave_prims (s : State) (w : Nat) (f : Wave → Wave) : (s.onWave w f).prims = s.prims := rfl
@[simp] theorem State.onWave_windows (s : State) (w : Nat) (f : Wave → Wave) : (s.onWave w f).windows = s.windows := rfl
@[simp] theorem State.onWave_turels (s : State) (w : Nat) (f : Wave → Wave) : (s.onWave w f).turels = s.turels := rfl
@[simp] theorem State.onWave_eflers (s : State) (w : Nat) (f : Wave → Wave) : (s.onWave w f).eflers = s.eflers := rfl
@[simp] theorem State.onWave_dir (s : State) (w : Nat) (f : Wave → Wave) : (s.onWave w f).dir = s.dir := rfl
@[simp] theorem State.onWave_fabric (s : State) (w : Nat) (f : Wave → Wave) : (s.onWave w f).fabric = s.fabric := rfl
@[simp] theorem State.onWave_peers (s : State) (w : Nat) (f : Wave → Wave) : (s.onWave w f).peers = s.peers := rfl
@[simp] theorem State.onWave_hostOut (s : State) (w : Nat) (f : Wave → Wave) : (s.onWave w f).hostOut = s.hostOut := rfl
@[simp] theorem State.onWave_spdmOut (s : State) (w : Nat) (f : Wave → Wave) : (s.onWave w f).spdmOut = s.spdmOut := rfl
@[simp] theorem State.onWave_notices (s : State) (w : Nat) (f : Wave → Wave) : (s.onWave w f).notices = s.notices := rfl
@[simp] theorem State.onWave_nextId (s : State) (w : Nat) (f : Wave → Wave) : (s.onWave w f).nextId = s.nextId := rfl
@[simp] theorem State.onWave_lost (s : State) (w : Nat) (f : Wave → Wave) : (s.onWave w f).lost = s.lost := rfl
@[simp] theorem State.onWave_cur (s : State) (w : Nat) (f : Wave → Wave) : (s.onWave w f).cur = s.cur := rfl
@[simp] theorem State.onWave_curRay (s : State) (w : Nat) (f : Wave → Wave) : (s.onWave w f).curRay = s.curRay := rfl
@[simp] theorem State.onWave_agenda (s : State) (w : Nat) (f : Wave → Wave) : (s.onWave w f).agenda = s.agenda := rfl
@[simp] theorem State.onWave_freeCtr (s : State) (w : Nat) (f : Wave → Wave) : (s.onWave w f).freeCtr = s.freeCtr := rfl

@[simp] theorem State.onCore_mem (s : State) (c : Nat) (f : CoreSt → CoreSt) : (s.onCore c f).mem = s.mem := rfl
@[simp] theorem State.onCore_l2 (s : State) (c : Nat) (f : CoreSt → CoreSt) : (s.onCore c f).l2 = s.l2 := rfl
@[simp] theorem State.onCore_clusters (s : State) (c : Nat) (f : CoreSt → CoreSt) : (s.onCore c f).clusters = s.clusters := rfl
@[simp] theorem State.onCore_dies (s : State) (c : Nat) (f : CoreSt → CoreSt) : (s.onCore c f).dies = s.dies := rfl
@[simp] theorem State.onCore_waves (s : State) (c : Nat) (f : CoreSt → CoreSt) : (s.onCore c f).waves = s.waves := rfl
@[simp] theorem State.onCore_groups (s : State) (c : Nat) (f : CoreSt → CoreSt) : (s.onCore c f).groups = s.groups := rfl
@[simp] theorem State.onCore_launches (s : State) (c : Nat) (f : CoreSt → CoreSt) : (s.onCore c f).launches = s.launches := rfl
@[simp] theorem State.onCore_contexts (s : State) (c : Nat) (f : CoreSt → CoreSt) : (s.onCore c f).contexts = s.contexts := rfl
@[simp] theorem State.onCore_parts (s : State) (c : Nat) (f : CoreSt → CoreSt) : (s.onCore c f).parts = s.parts := rfl
@[simp] theorem State.onCore_cohorts (s : State) (c : Nat) (f : CoreSt → CoreSt) : (s.onCore c f).cohorts = s.cohorts := rfl
@[simp] theorem State.onCore_reqs (s : State) (c : Nat) (f : CoreSt → CoreSt) : (s.onCore c f).reqs = s.reqs := rfl
@[simp] theorem State.onCore_rays (s : State) (c : Nat) (f : CoreSt → CoreSt) : (s.onCore c f).rays = s.rays := rfl
@[simp] theorem State.onCore_queues (s : State) (c : Nat) (f : CoreSt → CoreSt) : (s.onCore c f).queues = s.queues := rfl
@[simp] theorem State.onCore_graphs (s : State) (c : Nat) (f : CoreSt → CoreSt) : (s.onCore c f).graphs = s.graphs := rfl
@[simp] theorem State.onCore_prims (s : State) (c : Nat) (f : CoreSt → CoreSt) : (s.onCore c f).prims = s.prims := rfl
@[simp] theorem State.onCore_windows (s : State) (c : Nat) (f : CoreSt → CoreSt) : (s.onCore c f).windows = s.windows := rfl
@[simp] theorem State.onCore_turels (s : State) (c : Nat) (f : CoreSt → CoreSt) : (s.onCore c f).turels = s.turels := rfl
@[simp] theorem State.onCore_eflers (s : State) (c : Nat) (f : CoreSt → CoreSt) : (s.onCore c f).eflers = s.eflers := rfl
@[simp] theorem State.onCore_dir (s : State) (c : Nat) (f : CoreSt → CoreSt) : (s.onCore c f).dir = s.dir := rfl
@[simp] theorem State.onCore_fabric (s : State) (c : Nat) (f : CoreSt → CoreSt) : (s.onCore c f).fabric = s.fabric := rfl
@[simp] theorem State.onCore_peers (s : State) (c : Nat) (f : CoreSt → CoreSt) : (s.onCore c f).peers = s.peers := rfl
@[simp] theorem State.onCore_hostOut (s : State) (c : Nat) (f : CoreSt → CoreSt) : (s.onCore c f).hostOut = s.hostOut := rfl
@[simp] theorem State.onCore_spdmOut (s : State) (c : Nat) (f : CoreSt → CoreSt) : (s.onCore c f).spdmOut = s.spdmOut := rfl
@[simp] theorem State.onCore_notices (s : State) (c : Nat) (f : CoreSt → CoreSt) : (s.onCore c f).notices = s.notices := rfl
@[simp] theorem State.onCore_nextId (s : State) (c : Nat) (f : CoreSt → CoreSt) : (s.onCore c f).nextId = s.nextId := rfl
@[simp] theorem State.onCore_lost (s : State) (c : Nat) (f : CoreSt → CoreSt) : (s.onCore c f).lost = s.lost := rfl
@[simp] theorem State.onCore_cur (s : State) (c : Nat) (f : CoreSt → CoreSt) : (s.onCore c f).cur = s.cur := rfl
@[simp] theorem State.onCore_curRay (s : State) (c : Nat) (f : CoreSt → CoreSt) : (s.onCore c f).curRay = s.curRay := rfl
@[simp] theorem State.onCore_agenda (s : State) (c : Nat) (f : CoreSt → CoreSt) : (s.onCore c f).agenda = s.agenda := rfl
@[simp] theorem State.onCore_freeCtr (s : State) (c : Nat) (f : CoreSt → CoreSt) : (s.onCore c f).freeCtr = s.freeCtr := rfl

@[simp] theorem State.onCluster_mem (s : State) (c : Nat) (f : ClusterSt → ClusterSt) : (s.onCluster c f).mem = s.mem := rfl
@[simp] theorem State.onCluster_l2 (s : State) (c : Nat) (f : ClusterSt → ClusterSt) : (s.onCluster c f).l2 = s.l2 := rfl
@[simp] theorem State.onCluster_cores (s : State) (c : Nat) (f : ClusterSt → ClusterSt) : (s.onCluster c f).cores = s.cores := rfl
@[simp] theorem State.onCluster_dies (s : State) (c : Nat) (f : ClusterSt → ClusterSt) : (s.onCluster c f).dies = s.dies := rfl
@[simp] theorem State.onCluster_waves (s : State) (c : Nat) (f : ClusterSt → ClusterSt) : (s.onCluster c f).waves = s.waves := rfl
@[simp] theorem State.onCluster_groups (s : State) (c : Nat) (f : ClusterSt → ClusterSt) : (s.onCluster c f).groups = s.groups := rfl
@[simp] theorem State.onCluster_launches (s : State) (c : Nat) (f : ClusterSt → ClusterSt) : (s.onCluster c f).launches = s.launches := rfl
@[simp] theorem State.onCluster_contexts (s : State) (c : Nat) (f : ClusterSt → ClusterSt) : (s.onCluster c f).contexts = s.contexts := rfl
@[simp] theorem State.onCluster_parts (s : State) (c : Nat) (f : ClusterSt → ClusterSt) : (s.onCluster c f).parts = s.parts := rfl
@[simp] theorem State.onCluster_cohorts (s : State) (c : Nat) (f : ClusterSt → ClusterSt) : (s.onCluster c f).cohorts = s.cohorts := rfl
@[simp] theorem State.onCluster_reqs (s : State) (c : Nat) (f : ClusterSt → ClusterSt) : (s.onCluster c f).reqs = s.reqs := rfl
@[simp] theorem State.onCluster_rays (s : State) (c : Nat) (f : ClusterSt → ClusterSt) : (s.onCluster c f).rays = s.rays := rfl
@[simp] theorem State.onCluster_queues (s : State) (c : Nat) (f : ClusterSt → ClusterSt) : (s.onCluster c f).queues = s.queues := rfl
@[simp] theorem State.onCluster_graphs (s : State) (c : Nat) (f : ClusterSt → ClusterSt) : (s.onCluster c f).graphs = s.graphs := rfl
@[simp] theorem State.onCluster_prims (s : State) (c : Nat) (f : ClusterSt → ClusterSt) : (s.onCluster c f).prims = s.prims := rfl
@[simp] theorem State.onCluster_windows (s : State) (c : Nat) (f : ClusterSt → ClusterSt) : (s.onCluster c f).windows = s.windows := rfl
@[simp] theorem State.onCluster_turels (s : State) (c : Nat) (f : ClusterSt → ClusterSt) : (s.onCluster c f).turels = s.turels := rfl
@[simp] theorem State.onCluster_eflers (s : State) (c : Nat) (f : ClusterSt → ClusterSt) : (s.onCluster c f).eflers = s.eflers := rfl
@[simp] theorem State.onCluster_dir (s : State) (c : Nat) (f : ClusterSt → ClusterSt) : (s.onCluster c f).dir = s.dir := rfl
@[simp] theorem State.onCluster_fabric (s : State) (c : Nat) (f : ClusterSt → ClusterSt) : (s.onCluster c f).fabric = s.fabric := rfl
@[simp] theorem State.onCluster_peers (s : State) (c : Nat) (f : ClusterSt → ClusterSt) : (s.onCluster c f).peers = s.peers := rfl
@[simp] theorem State.onCluster_hostOut (s : State) (c : Nat) (f : ClusterSt → ClusterSt) : (s.onCluster c f).hostOut = s.hostOut := rfl
@[simp] theorem State.onCluster_spdmOut (s : State) (c : Nat) (f : ClusterSt → ClusterSt) : (s.onCluster c f).spdmOut = s.spdmOut := rfl
@[simp] theorem State.onCluster_notices (s : State) (c : Nat) (f : ClusterSt → ClusterSt) : (s.onCluster c f).notices = s.notices := rfl
@[simp] theorem State.onCluster_nextId (s : State) (c : Nat) (f : ClusterSt → ClusterSt) : (s.onCluster c f).nextId = s.nextId := rfl
@[simp] theorem State.onCluster_lost (s : State) (c : Nat) (f : ClusterSt → ClusterSt) : (s.onCluster c f).lost = s.lost := rfl
@[simp] theorem State.onCluster_cur (s : State) (c : Nat) (f : ClusterSt → ClusterSt) : (s.onCluster c f).cur = s.cur := rfl
@[simp] theorem State.onCluster_curRay (s : State) (c : Nat) (f : ClusterSt → ClusterSt) : (s.onCluster c f).curRay = s.curRay := rfl
@[simp] theorem State.onCluster_agenda (s : State) (c : Nat) (f : ClusterSt → ClusterSt) : (s.onCluster c f).agenda = s.agenda := rfl
@[simp] theorem State.onCluster_freeCtr (s : State) (c : Nat) (f : ClusterSt → ClusterSt) : (s.onCluster c f).freeCtr = s.freeCtr := rfl

@[simp] theorem State.onDie_mem (s : State) (d : Nat) (f : DieSt → DieSt) : (s.onDie d f).mem = s.mem := rfl
@[simp] theorem State.onDie_l2 (s : State) (d : Nat) (f : DieSt → DieSt) : (s.onDie d f).l2 = s.l2 := rfl
@[simp] theorem State.onDie_cores (s : State) (d : Nat) (f : DieSt → DieSt) : (s.onDie d f).cores = s.cores := rfl
@[simp] theorem State.onDie_clusters (s : State) (d : Nat) (f : DieSt → DieSt) : (s.onDie d f).clusters = s.clusters := rfl
@[simp] theorem State.onDie_waves (s : State) (d : Nat) (f : DieSt → DieSt) : (s.onDie d f).waves = s.waves := rfl
@[simp] theorem State.onDie_groups (s : State) (d : Nat) (f : DieSt → DieSt) : (s.onDie d f).groups = s.groups := rfl
@[simp] theorem State.onDie_launches (s : State) (d : Nat) (f : DieSt → DieSt) : (s.onDie d f).launches = s.launches := rfl
@[simp] theorem State.onDie_contexts (s : State) (d : Nat) (f : DieSt → DieSt) : (s.onDie d f).contexts = s.contexts := rfl
@[simp] theorem State.onDie_parts (s : State) (d : Nat) (f : DieSt → DieSt) : (s.onDie d f).parts = s.parts := rfl
@[simp] theorem State.onDie_cohorts (s : State) (d : Nat) (f : DieSt → DieSt) : (s.onDie d f).cohorts = s.cohorts := rfl
@[simp] theorem State.onDie_reqs (s : State) (d : Nat) (f : DieSt → DieSt) : (s.onDie d f).reqs = s.reqs := rfl
@[simp] theorem State.onDie_rays (s : State) (d : Nat) (f : DieSt → DieSt) : (s.onDie d f).rays = s.rays := rfl
@[simp] theorem State.onDie_queues (s : State) (d : Nat) (f : DieSt → DieSt) : (s.onDie d f).queues = s.queues := rfl
@[simp] theorem State.onDie_graphs (s : State) (d : Nat) (f : DieSt → DieSt) : (s.onDie d f).graphs = s.graphs := rfl
@[simp] theorem State.onDie_prims (s : State) (d : Nat) (f : DieSt → DieSt) : (s.onDie d f).prims = s.prims := rfl
@[simp] theorem State.onDie_windows (s : State) (d : Nat) (f : DieSt → DieSt) : (s.onDie d f).windows = s.windows := rfl
@[simp] theorem State.onDie_turels (s : State) (d : Nat) (f : DieSt → DieSt) : (s.onDie d f).turels = s.turels := rfl
@[simp] theorem State.onDie_eflers (s : State) (d : Nat) (f : DieSt → DieSt) : (s.onDie d f).eflers = s.eflers := rfl
@[simp] theorem State.onDie_dir (s : State) (d : Nat) (f : DieSt → DieSt) : (s.onDie d f).dir = s.dir := rfl
@[simp] theorem State.onDie_fabric (s : State) (d : Nat) (f : DieSt → DieSt) : (s.onDie d f).fabric = s.fabric := rfl
@[simp] theorem State.onDie_peers (s : State) (d : Nat) (f : DieSt → DieSt) : (s.onDie d f).peers = s.peers := rfl
@[simp] theorem State.onDie_hostOut (s : State) (d : Nat) (f : DieSt → DieSt) : (s.onDie d f).hostOut = s.hostOut := rfl
@[simp] theorem State.onDie_spdmOut (s : State) (d : Nat) (f : DieSt → DieSt) : (s.onDie d f).spdmOut = s.spdmOut := rfl
@[simp] theorem State.onDie_notices (s : State) (d : Nat) (f : DieSt → DieSt) : (s.onDie d f).notices = s.notices := rfl
@[simp] theorem State.onDie_nextId (s : State) (d : Nat) (f : DieSt → DieSt) : (s.onDie d f).nextId = s.nextId := rfl
@[simp] theorem State.onDie_lost (s : State) (d : Nat) (f : DieSt → DieSt) : (s.onDie d f).lost = s.lost := rfl
@[simp] theorem State.onDie_cur (s : State) (d : Nat) (f : DieSt → DieSt) : (s.onDie d f).cur = s.cur := rfl
@[simp] theorem State.onDie_curRay (s : State) (d : Nat) (f : DieSt → DieSt) : (s.onDie d f).curRay = s.curRay := rfl
@[simp] theorem State.onDie_agenda (s : State) (d : Nat) (f : DieSt → DieSt) : (s.onDie d f).agenda = s.agenda := rfl
@[simp] theorem State.onDie_freeCtr (s : State) (d : Nat) (f : DieSt → DieSt) : (s.onDie d f).freeCtr = s.freeCtr := rfl

@[simp] theorem State.onCohort_mem (s : State) (c : Nat) (f : Cohort → Cohort) : (s.onCohort c f).mem = s.mem := rfl
@[simp] theorem State.onCohort_l2 (s : State) (c : Nat) (f : Cohort → Cohort) : (s.onCohort c f).l2 = s.l2 := rfl
@[simp] theorem State.onCohort_cores (s : State) (c : Nat) (f : Cohort → Cohort) : (s.onCohort c f).cores = s.cores := rfl
@[simp] theorem State.onCohort_clusters (s : State) (c : Nat) (f : Cohort → Cohort) : (s.onCohort c f).clusters = s.clusters := rfl
@[simp] theorem State.onCohort_dies (s : State) (c : Nat) (f : Cohort → Cohort) : (s.onCohort c f).dies = s.dies := rfl
@[simp] theorem State.onCohort_waves (s : State) (c : Nat) (f : Cohort → Cohort) : (s.onCohort c f).waves = s.waves := rfl
@[simp] theorem State.onCohort_groups (s : State) (c : Nat) (f : Cohort → Cohort) : (s.onCohort c f).groups = s.groups := rfl
@[simp] theorem State.onCohort_launches (s : State) (c : Nat) (f : Cohort → Cohort) : (s.onCohort c f).launches = s.launches := rfl
@[simp] theorem State.onCohort_contexts (s : State) (c : Nat) (f : Cohort → Cohort) : (s.onCohort c f).contexts = s.contexts := rfl
@[simp] theorem State.onCohort_parts (s : State) (c : Nat) (f : Cohort → Cohort) : (s.onCohort c f).parts = s.parts := rfl
@[simp] theorem State.onCohort_reqs (s : State) (c : Nat) (f : Cohort → Cohort) : (s.onCohort c f).reqs = s.reqs := rfl
@[simp] theorem State.onCohort_rays (s : State) (c : Nat) (f : Cohort → Cohort) : (s.onCohort c f).rays = s.rays := rfl
@[simp] theorem State.onCohort_queues (s : State) (c : Nat) (f : Cohort → Cohort) : (s.onCohort c f).queues = s.queues := rfl
@[simp] theorem State.onCohort_graphs (s : State) (c : Nat) (f : Cohort → Cohort) : (s.onCohort c f).graphs = s.graphs := rfl
@[simp] theorem State.onCohort_prims (s : State) (c : Nat) (f : Cohort → Cohort) : (s.onCohort c f).prims = s.prims := rfl
@[simp] theorem State.onCohort_windows (s : State) (c : Nat) (f : Cohort → Cohort) : (s.onCohort c f).windows = s.windows := rfl
@[simp] theorem State.onCohort_turels (s : State) (c : Nat) (f : Cohort → Cohort) : (s.onCohort c f).turels = s.turels := rfl
@[simp] theorem State.onCohort_eflers (s : State) (c : Nat) (f : Cohort → Cohort) : (s.onCohort c f).eflers = s.eflers := rfl
@[simp] theorem State.onCohort_dir (s : State) (c : Nat) (f : Cohort → Cohort) : (s.onCohort c f).dir = s.dir := rfl
@[simp] theorem State.onCohort_fabric (s : State) (c : Nat) (f : Cohort → Cohort) : (s.onCohort c f).fabric = s.fabric := rfl
@[simp] theorem State.onCohort_peers (s : State) (c : Nat) (f : Cohort → Cohort) : (s.onCohort c f).peers = s.peers := rfl
@[simp] theorem State.onCohort_hostOut (s : State) (c : Nat) (f : Cohort → Cohort) : (s.onCohort c f).hostOut = s.hostOut := rfl
@[simp] theorem State.onCohort_spdmOut (s : State) (c : Nat) (f : Cohort → Cohort) : (s.onCohort c f).spdmOut = s.spdmOut := rfl
@[simp] theorem State.onCohort_notices (s : State) (c : Nat) (f : Cohort → Cohort) : (s.onCohort c f).notices = s.notices := rfl
@[simp] theorem State.onCohort_nextId (s : State) (c : Nat) (f : Cohort → Cohort) : (s.onCohort c f).nextId = s.nextId := rfl
@[simp] theorem State.onCohort_lost (s : State) (c : Nat) (f : Cohort → Cohort) : (s.onCohort c f).lost = s.lost := rfl
@[simp] theorem State.onCohort_cur (s : State) (c : Nat) (f : Cohort → Cohort) : (s.onCohort c f).cur = s.cur := rfl
@[simp] theorem State.onCohort_curRay (s : State) (c : Nat) (f : Cohort → Cohort) : (s.onCohort c f).curRay = s.curRay := rfl
@[simp] theorem State.onCohort_agenda (s : State) (c : Nat) (f : Cohort → Cohort) : (s.onCohort c f).agenda = s.agenda := rfl
@[simp] theorem State.onCohort_freeCtr (s : State) (c : Nat) (f : Cohort → Cohort) : (s.onCohort c f).freeCtr = s.freeCtr := rfl

@[simp] theorem State.onGroup_mem (s : State) (g : Nat) (f : Group → Group) : (s.onGroup g f).mem = s.mem := rfl
@[simp] theorem State.onGroup_l2 (s : State) (g : Nat) (f : Group → Group) : (s.onGroup g f).l2 = s.l2 := rfl
@[simp] theorem State.onGroup_cores (s : State) (g : Nat) (f : Group → Group) : (s.onGroup g f).cores = s.cores := rfl
@[simp] theorem State.onGroup_clusters (s : State) (g : Nat) (f : Group → Group) : (s.onGroup g f).clusters = s.clusters := rfl
@[simp] theorem State.onGroup_dies (s : State) (g : Nat) (f : Group → Group) : (s.onGroup g f).dies = s.dies := rfl
@[simp] theorem State.onGroup_waves (s : State) (g : Nat) (f : Group → Group) : (s.onGroup g f).waves = s.waves := rfl
@[simp] theorem State.onGroup_launches (s : State) (g : Nat) (f : Group → Group) : (s.onGroup g f).launches = s.launches := rfl
@[simp] theorem State.onGroup_contexts (s : State) (g : Nat) (f : Group → Group) : (s.onGroup g f).contexts = s.contexts := rfl
@[simp] theorem State.onGroup_parts (s : State) (g : Nat) (f : Group → Group) : (s.onGroup g f).parts = s.parts := rfl
@[simp] theorem State.onGroup_cohorts (s : State) (g : Nat) (f : Group → Group) : (s.onGroup g f).cohorts = s.cohorts := rfl
@[simp] theorem State.onGroup_reqs (s : State) (g : Nat) (f : Group → Group) : (s.onGroup g f).reqs = s.reqs := rfl
@[simp] theorem State.onGroup_rays (s : State) (g : Nat) (f : Group → Group) : (s.onGroup g f).rays = s.rays := rfl
@[simp] theorem State.onGroup_queues (s : State) (g : Nat) (f : Group → Group) : (s.onGroup g f).queues = s.queues := rfl
@[simp] theorem State.onGroup_graphs (s : State) (g : Nat) (f : Group → Group) : (s.onGroup g f).graphs = s.graphs := rfl
@[simp] theorem State.onGroup_prims (s : State) (g : Nat) (f : Group → Group) : (s.onGroup g f).prims = s.prims := rfl
@[simp] theorem State.onGroup_windows (s : State) (g : Nat) (f : Group → Group) : (s.onGroup g f).windows = s.windows := rfl
@[simp] theorem State.onGroup_turels (s : State) (g : Nat) (f : Group → Group) : (s.onGroup g f).turels = s.turels := rfl
@[simp] theorem State.onGroup_eflers (s : State) (g : Nat) (f : Group → Group) : (s.onGroup g f).eflers = s.eflers := rfl
@[simp] theorem State.onGroup_dir (s : State) (g : Nat) (f : Group → Group) : (s.onGroup g f).dir = s.dir := rfl
@[simp] theorem State.onGroup_fabric (s : State) (g : Nat) (f : Group → Group) : (s.onGroup g f).fabric = s.fabric := rfl
@[simp] theorem State.onGroup_peers (s : State) (g : Nat) (f : Group → Group) : (s.onGroup g f).peers = s.peers := rfl
@[simp] theorem State.onGroup_hostOut (s : State) (g : Nat) (f : Group → Group) : (s.onGroup g f).hostOut = s.hostOut := rfl
@[simp] theorem State.onGroup_spdmOut (s : State) (g : Nat) (f : Group → Group) : (s.onGroup g f).spdmOut = s.spdmOut := rfl
@[simp] theorem State.onGroup_notices (s : State) (g : Nat) (f : Group → Group) : (s.onGroup g f).notices = s.notices := rfl
@[simp] theorem State.onGroup_nextId (s : State) (g : Nat) (f : Group → Group) : (s.onGroup g f).nextId = s.nextId := rfl
@[simp] theorem State.onGroup_lost (s : State) (g : Nat) (f : Group → Group) : (s.onGroup g f).lost = s.lost := rfl
@[simp] theorem State.onGroup_cur (s : State) (g : Nat) (f : Group → Group) : (s.onGroup g f).cur = s.cur := rfl
@[simp] theorem State.onGroup_curRay (s : State) (g : Nat) (f : Group → Group) : (s.onGroup g f).curRay = s.curRay := rfl
@[simp] theorem State.onGroup_agenda (s : State) (g : Nat) (f : Group → Group) : (s.onGroup g f).agenda = s.agenda := rfl
@[simp] theorem State.onGroup_freeCtr (s : State) (g : Nat) (f : Group → Group) : (s.onGroup g f).freeCtr = s.freeCtr := rfl

@[simp] theorem State.onLaunch_mem (s : State) (l : Nat) (f : Launch → Launch) : (s.onLaunch l f).mem = s.mem := rfl
@[simp] theorem State.onLaunch_l2 (s : State) (l : Nat) (f : Launch → Launch) : (s.onLaunch l f).l2 = s.l2 := rfl
@[simp] theorem State.onLaunch_cores (s : State) (l : Nat) (f : Launch → Launch) : (s.onLaunch l f).cores = s.cores := rfl
@[simp] theorem State.onLaunch_clusters (s : State) (l : Nat) (f : Launch → Launch) : (s.onLaunch l f).clusters = s.clusters := rfl
@[simp] theorem State.onLaunch_dies (s : State) (l : Nat) (f : Launch → Launch) : (s.onLaunch l f).dies = s.dies := rfl
@[simp] theorem State.onLaunch_waves (s : State) (l : Nat) (f : Launch → Launch) : (s.onLaunch l f).waves = s.waves := rfl
@[simp] theorem State.onLaunch_groups (s : State) (l : Nat) (f : Launch → Launch) : (s.onLaunch l f).groups = s.groups := rfl
@[simp] theorem State.onLaunch_contexts (s : State) (l : Nat) (f : Launch → Launch) : (s.onLaunch l f).contexts = s.contexts := rfl
@[simp] theorem State.onLaunch_parts (s : State) (l : Nat) (f : Launch → Launch) : (s.onLaunch l f).parts = s.parts := rfl
@[simp] theorem State.onLaunch_cohorts (s : State) (l : Nat) (f : Launch → Launch) : (s.onLaunch l f).cohorts = s.cohorts := rfl
@[simp] theorem State.onLaunch_reqs (s : State) (l : Nat) (f : Launch → Launch) : (s.onLaunch l f).reqs = s.reqs := rfl
@[simp] theorem State.onLaunch_rays (s : State) (l : Nat) (f : Launch → Launch) : (s.onLaunch l f).rays = s.rays := rfl
@[simp] theorem State.onLaunch_queues (s : State) (l : Nat) (f : Launch → Launch) : (s.onLaunch l f).queues = s.queues := rfl
@[simp] theorem State.onLaunch_graphs (s : State) (l : Nat) (f : Launch → Launch) : (s.onLaunch l f).graphs = s.graphs := rfl
@[simp] theorem State.onLaunch_prims (s : State) (l : Nat) (f : Launch → Launch) : (s.onLaunch l f).prims = s.prims := rfl
@[simp] theorem State.onLaunch_windows (s : State) (l : Nat) (f : Launch → Launch) : (s.onLaunch l f).windows = s.windows := rfl
@[simp] theorem State.onLaunch_turels (s : State) (l : Nat) (f : Launch → Launch) : (s.onLaunch l f).turels = s.turels := rfl
@[simp] theorem State.onLaunch_eflers (s : State) (l : Nat) (f : Launch → Launch) : (s.onLaunch l f).eflers = s.eflers := rfl
@[simp] theorem State.onLaunch_dir (s : State) (l : Nat) (f : Launch → Launch) : (s.onLaunch l f).dir = s.dir := rfl
@[simp] theorem State.onLaunch_fabric (s : State) (l : Nat) (f : Launch → Launch) : (s.onLaunch l f).fabric = s.fabric := rfl
@[simp] theorem State.onLaunch_peers (s : State) (l : Nat) (f : Launch → Launch) : (s.onLaunch l f).peers = s.peers := rfl
@[simp] theorem State.onLaunch_hostOut (s : State) (l : Nat) (f : Launch → Launch) : (s.onLaunch l f).hostOut = s.hostOut := rfl
@[simp] theorem State.onLaunch_spdmOut (s : State) (l : Nat) (f : Launch → Launch) : (s.onLaunch l f).spdmOut = s.spdmOut := rfl
@[simp] theorem State.onLaunch_notices (s : State) (l : Nat) (f : Launch → Launch) : (s.onLaunch l f).notices = s.notices := rfl
@[simp] theorem State.onLaunch_nextId (s : State) (l : Nat) (f : Launch → Launch) : (s.onLaunch l f).nextId = s.nextId := rfl
@[simp] theorem State.onLaunch_lost (s : State) (l : Nat) (f : Launch → Launch) : (s.onLaunch l f).lost = s.lost := rfl
@[simp] theorem State.onLaunch_cur (s : State) (l : Nat) (f : Launch → Launch) : (s.onLaunch l f).cur = s.cur := rfl
@[simp] theorem State.onLaunch_curRay (s : State) (l : Nat) (f : Launch → Launch) : (s.onLaunch l f).curRay = s.curRay := rfl
@[simp] theorem State.onLaunch_agenda (s : State) (l : Nat) (f : Launch → Launch) : (s.onLaunch l f).agenda = s.agenda := rfl
@[simp] theorem State.onLaunch_freeCtr (s : State) (l : Nat) (f : Launch → Launch) : (s.onLaunch l f).freeCtr = s.freeCtr := rfl

/-! What a part reads after it is put. -/

@[simp] theorem State.wave_putWave (s : State) (w : Nat) (x : Wave) : (s.putWave w x).wave w = x := by
  simp [State.wave, State.putWave]
theorem State.wave_putWave_other (s : State) (w k : Nat) (x : Wave) (h : k ≠ w) : (s.putWave w x).wave k = s.wave k := by
  simp [State.wave, State.putWave, AMap.getD_put_other _ _ _ _ _ h]

@[simp] theorem State.wave_onWave (s : State) (n : Nat) (f : Wave → Wave) : (s.onWave n f).wave n = f (s.wave n) := by
  simp [State.wave, State.putWave, State.onWave]
theorem State.wave_onWave_other (s : State) (n k : Nat) (f : Wave → Wave) (h : k ≠ n) : (s.onWave n f).wave k = s.wave k := by
  simp [State.wave, State.putWave, State.onWave, AMap.getD_put_other _ _ _ _ _ h]

@[simp] theorem State.core_onCore (s : State) (n : Nat) (f : CoreSt → CoreSt) : (s.onCore n f).core n = f (s.core n) := by
  simp [State.core, State.onCore]
theorem State.core_onCore_other (s : State) (n k : Nat) (f : CoreSt → CoreSt) (h : k ≠ n) : (s.onCore n f).core k = s.core k := by
  simp [State.core, State.onCore, AMap.getD_put_other _ _ _ _ _ h]

@[simp] theorem State.cluster_onCluster (s : State) (n : Nat) (f : ClusterSt → ClusterSt) : (s.onCluster n f).cluster n = f (s.cluster n) := by
  simp [State.cluster, State.onCluster]
theorem State.cluster_onCluster_other (s : State) (n k : Nat) (f : ClusterSt → ClusterSt) (h : k ≠ n) : (s.onCluster n f).cluster k = s.cluster k := by
  simp [State.cluster, State.onCluster, AMap.getD_put_other _ _ _ _ _ h]

@[simp] theorem State.die_onDie (s : State) (n : Nat) (f : DieSt → DieSt) : (s.onDie n f).die n = f (s.die n) := by
  simp [State.die, State.onDie]
theorem State.die_onDie_other (s : State) (n k : Nat) (f : DieSt → DieSt) (h : k ≠ n) : (s.onDie n f).die k = s.die k := by
  simp [State.die, State.onDie, AMap.getD_put_other _ _ _ _ _ h]

@[simp] theorem State.cohort_onCohort (s : State) (n : Nat) (f : Cohort → Cohort) : (s.onCohort n f).cohort n = f (s.cohort n) := by
  simp [State.cohort, State.onCohort]
theorem State.cohort_onCohort_other (s : State) (n k : Nat) (f : Cohort → Cohort) (h : k ≠ n) : (s.onCohort n f).cohort k = s.cohort k := by
  simp [State.cohort, State.onCohort, AMap.getD_put_other _ _ _ _ _ h]

@[simp] theorem State.group_onGroup (s : State) (n : Nat) (f : Group → Group) : (s.onGroup n f).group n = f (s.group n) := by
  simp [State.group, State.onGroup]
theorem State.group_onGroup_other (s : State) (n k : Nat) (f : Group → Group) (h : k ≠ n) : (s.onGroup n f).group k = s.group k := by
  simp [State.group, State.onGroup, AMap.getD_put_other _ _ _ _ _ h]

@[simp] theorem State.launch_onLaunch (s : State) (n : Nat) (f : Launch → Launch) : (s.onLaunch n f).launch n = f (s.launch n) := by
  simp [State.launch, State.onLaunch]
theorem State.launch_onLaunch_other (s : State) (n k : Nat) (f : Launch → Launch) (h : k ≠ n) : (s.onLaunch n f).launch k = s.launch k := by
  simp [State.launch, State.onLaunch, AMap.getD_put_other _ _ _ _ _ h]

@[simp] theorem State.putWave_core_same (s : State) (w : Nat) (x : Wave) (k : Nat) : (s.putWave w x).core k = s.core k := rfl
@[simp] theorem State.putWave_cluster_same (s : State) (w : Nat) (x : Wave) (k : Nat) : (s.putWave w x).cluster k = s.cluster k := rfl
@[simp] theorem State.putWave_die_same (s : State) (w : Nat) (x : Wave) (k : Nat) : (s.putWave w x).die k = s.die k := rfl
@[simp] theorem State.putWave_cohort_same (s : State) (w : Nat) (x : Wave) (k : Nat) : (s.putWave w x).cohort k = s.cohort k := rfl
@[simp] theorem State.putWave_group_same (s : State) (w : Nat) (x : Wave) (k : Nat) : (s.putWave w x).group k = s.group k := rfl
@[simp] theorem State.putWave_launch_same (s : State) (w : Nat) (x : Wave) (k : Nat) : (s.putWave w x).launch k = s.launch k := rfl
@[simp] theorem State.onWave_core_same (s : State) (w : Nat) (f : Wave → Wave) (k : Nat) : (s.onWave w f).core k = s.core k := rfl
@[simp] theorem State.onWave_cluster_same (s : State) (w : Nat) (f : Wave → Wave) (k : Nat) : (s.onWave w f).cluster k = s.cluster k := rfl
@[simp] theorem State.onWave_die_same (s : State) (w : Nat) (f : Wave → Wave) (k : Nat) : (s.onWave w f).die k = s.die k := rfl
@[simp] theorem State.onWave_cohort_same (s : State) (w : Nat) (f : Wave → Wave) (k : Nat) : (s.onWave w f).cohort k = s.cohort k := rfl
@[simp] theorem State.onWave_group_same (s : State) (w : Nat) (f : Wave → Wave) (k : Nat) : (s.onWave w f).group k = s.group k := rfl
@[simp] theorem State.onWave_launch_same (s : State) (w : Nat) (f : Wave → Wave) (k : Nat) : (s.onWave w f).launch k = s.launch k := rfl
@[simp] theorem State.onCore_wave_same (s : State) (c : Nat) (f : CoreSt → CoreSt) (k : Nat) : (s.onCore c f).wave k = s.wave k := rfl
@[simp] theorem State.onCore_cluster_same (s : State) (c : Nat) (f : CoreSt → CoreSt) (k : Nat) : (s.onCore c f).cluster k = s.cluster k := rfl
@[simp] theorem State.onCore_die_same (s : State) (c : Nat) (f : CoreSt → CoreSt) (k : Nat) : (s.onCore c f).die k = s.die k := rfl
@[simp] theorem State.onCore_cohort_same (s : State) (c : Nat) (f : CoreSt → CoreSt) (k : Nat) : (s.onCore c f).cohort k = s.cohort k := rfl
@[simp] theorem State.onCore_group_same (s : State) (c : Nat) (f : CoreSt → CoreSt) (k : Nat) : (s.onCore c f).group k = s.group k := rfl
@[simp] theorem State.onCore_launch_same (s : State) (c : Nat) (f : CoreSt → CoreSt) (k : Nat) : (s.onCore c f).launch k = s.launch k := rfl
@[simp] theorem State.onCluster_wave_same (s : State) (c : Nat) (f : ClusterSt → ClusterSt) (k : Nat) : (s.onCluster c f).wave k = s.wave k := rfl
@[simp] theorem State.onCluster_core_same (s : State) (c : Nat) (f : ClusterSt → ClusterSt) (k : Nat) : (s.onCluster c f).core k = s.core k := rfl
@[simp] theorem State.onCluster_die_same (s : State) (c : Nat) (f : ClusterSt → ClusterSt) (k : Nat) : (s.onCluster c f).die k = s.die k := rfl
@[simp] theorem State.onCluster_cohort_same (s : State) (c : Nat) (f : ClusterSt → ClusterSt) (k : Nat) : (s.onCluster c f).cohort k = s.cohort k := rfl
@[simp] theorem State.onCluster_group_same (s : State) (c : Nat) (f : ClusterSt → ClusterSt) (k : Nat) : (s.onCluster c f).group k = s.group k := rfl
@[simp] theorem State.onCluster_launch_same (s : State) (c : Nat) (f : ClusterSt → ClusterSt) (k : Nat) : (s.onCluster c f).launch k = s.launch k := rfl
@[simp] theorem State.onDie_wave_same (s : State) (d : Nat) (f : DieSt → DieSt) (k : Nat) : (s.onDie d f).wave k = s.wave k := rfl
@[simp] theorem State.onDie_core_same (s : State) (d : Nat) (f : DieSt → DieSt) (k : Nat) : (s.onDie d f).core k = s.core k := rfl
@[simp] theorem State.onDie_cluster_same (s : State) (d : Nat) (f : DieSt → DieSt) (k : Nat) : (s.onDie d f).cluster k = s.cluster k := rfl
@[simp] theorem State.onDie_cohort_same (s : State) (d : Nat) (f : DieSt → DieSt) (k : Nat) : (s.onDie d f).cohort k = s.cohort k := rfl
@[simp] theorem State.onDie_group_same (s : State) (d : Nat) (f : DieSt → DieSt) (k : Nat) : (s.onDie d f).group k = s.group k := rfl
@[simp] theorem State.onDie_launch_same (s : State) (d : Nat) (f : DieSt → DieSt) (k : Nat) : (s.onDie d f).launch k = s.launch k := rfl
@[simp] theorem State.onCohort_wave_same (s : State) (c : Nat) (f : Cohort → Cohort) (k : Nat) : (s.onCohort c f).wave k = s.wave k := rfl
@[simp] theorem State.onCohort_core_same (s : State) (c : Nat) (f : Cohort → Cohort) (k : Nat) : (s.onCohort c f).core k = s.core k := rfl
@[simp] theorem State.onCohort_cluster_same (s : State) (c : Nat) (f : Cohort → Cohort) (k : Nat) : (s.onCohort c f).cluster k = s.cluster k := rfl
@[simp] theorem State.onCohort_die_same (s : State) (c : Nat) (f : Cohort → Cohort) (k : Nat) : (s.onCohort c f).die k = s.die k := rfl
@[simp] theorem State.onCohort_group_same (s : State) (c : Nat) (f : Cohort → Cohort) (k : Nat) : (s.onCohort c f).group k = s.group k := rfl
@[simp] theorem State.onCohort_launch_same (s : State) (c : Nat) (f : Cohort → Cohort) (k : Nat) : (s.onCohort c f).launch k = s.launch k := rfl
@[simp] theorem State.onGroup_wave_same (s : State) (g : Nat) (f : Group → Group) (k : Nat) : (s.onGroup g f).wave k = s.wave k := rfl
@[simp] theorem State.onGroup_core_same (s : State) (g : Nat) (f : Group → Group) (k : Nat) : (s.onGroup g f).core k = s.core k := rfl
@[simp] theorem State.onGroup_cluster_same (s : State) (g : Nat) (f : Group → Group) (k : Nat) : (s.onGroup g f).cluster k = s.cluster k := rfl
@[simp] theorem State.onGroup_die_same (s : State) (g : Nat) (f : Group → Group) (k : Nat) : (s.onGroup g f).die k = s.die k := rfl
@[simp] theorem State.onGroup_cohort_same (s : State) (g : Nat) (f : Group → Group) (k : Nat) : (s.onGroup g f).cohort k = s.cohort k := rfl
@[simp] theorem State.onGroup_launch_same (s : State) (g : Nat) (f : Group → Group) (k : Nat) : (s.onGroup g f).launch k = s.launch k := rfl
@[simp] theorem State.onLaunch_wave_same (s : State) (l : Nat) (f : Launch → Launch) (k : Nat) : (s.onLaunch l f).wave k = s.wave k := rfl
@[simp] theorem State.onLaunch_core_same (s : State) (l : Nat) (f : Launch → Launch) (k : Nat) : (s.onLaunch l f).core k = s.core k := rfl
@[simp] theorem State.onLaunch_cluster_same (s : State) (l : Nat) (f : Launch → Launch) (k : Nat) : (s.onLaunch l f).cluster k = s.cluster k := rfl
@[simp] theorem State.onLaunch_die_same (s : State) (l : Nat) (f : Launch → Launch) (k : Nat) : (s.onLaunch l f).die k = s.die k := rfl
@[simp] theorem State.onLaunch_cohort_same (s : State) (l : Nat) (f : Launch → Launch) (k : Nat) : (s.onLaunch l f).cohort k = s.cohort k := rfl
@[simp] theorem State.onLaunch_group_same (s : State) (l : Nat) (f : Launch → Launch) (k : Nat) : (s.onLaunch l f).group k = s.group k := rfl

/-! Updates of a wave. -/

@[simp] theorem Wave.next_group (w : Wave) (ls : Lanes) (pc : Word) : (w.next ls pc).group = w.group := rfl
@[simp] theorem Wave.next_launch (w : Wave) (ls : Lanes) (pc : Word) : (w.next ls pc).launch = w.launch := rfl
@[simp] theorem Wave.next_pasid (w : Wave) (ls : Lanes) (pc : Word) : (w.next ls pc).pasid = w.pasid := rfl
@[simp] theorem Wave.next_core (w : Wave) (ls : Lanes) (pc : Word) : (w.next ls pc).core = w.core := rfl
@[simp] theorem Wave.next_slot (w : Wave) (ls : Lanes) (pc : Word) : (w.next ls pc).slot = w.slot := rfl
@[simp] theorem Wave.next_image (w : Wave) (ls : Lanes) (pc : Word) : (w.next ls pc).image = w.image := rfl
@[simp] theorem Wave.next_launched (w : Wave) (ls : Lanes) (pc : Word) : (w.next ls pc).launched = w.launched := rfl
@[simp] theorem Wave.next_threads (w : Wave) (ls : Lanes) (pc : Word) : (w.next ls pc).threads = w.threads := rfl
@[simp] theorem Wave.next_v (w : Wave) (ls : Lanes) (pc : Word) : (w.next ls pc).v = w.v := rfl
@[simp] theorem Wave.next_s (w : Wave) (ls : Lanes) (pc : Word) : (w.next ls pc).s = w.s := rfl
@[simp] theorem Wave.next_m (w : Wave) (ls : Lanes) (pc : Word) : (w.next ls pc).m = w.m := rfl
@[simp] theorem Wave.next_q (w : Wave) (ls : Lanes) (pc : Word) : (w.next ls pc).q = w.q := rfl
@[simp] theorem Wave.next_f (w : Wave) (ls : Lanes) (pc : Word) : (w.next ls pc).f = w.f := rfl
@[simp] theorem Wave.next_ports (w : Wave) (ls : Lanes) (pc : Word) : (w.next ls pc).ports = w.ports := rfl
@[simp] theorem Wave.next_seed (w : Wave) (ls : Lanes) (pc : Word) : (w.next ls pc).seed = w.seed := rfl
@[simp] theorem Wave.next_draws (w : Wave) (ls : Lanes) (pc : Word) : (w.next ls pc).draws = w.draws := rfl
@[simp] theorem Wave.next_save (w : Wave) (ls : Lanes) (pc : Word) : (w.next ls pc).save = w.save := rfl
@[simp] theorem Wave.next_fpctl (w : Wave) (ls : Lanes) (pc : Word) : (w.next ls pc).fpctl = w.fpctl := rfl
@[simp] theorem Wave.next_fpstat (w : Wave) (ls : Lanes) (pc : Word) : (w.next ls pc).fpstat = w.fpstat := rfl
@[simp] theorem Wave.next_prio (w : Wave) (ls : Lanes) (pc : Word) : (w.next ls pc).prio = w.prio := rfl
@[simp] theorem Wave.next_age (w : Wave) (ls : Lanes) (pc : Word) : (w.next ls pc).age = w.age := rfl
@[simp] theorem Wave.next_trapcause (w : Wave) (ls : Lanes) (pc : Word) : (w.next ls pc).trapcause = w.trapcause := rfl
@[simp] theorem Wave.next_trapaddr (w : Wave) (ls : Lanes) (pc : Word) : (w.next ls pc).trapaddr = w.trapaddr := rfl
@[simp] theorem Wave.next_trappc (w : Wave) (ls : Lanes) (pc : Word) : (w.next ls pc).trappc = w.trappc := rfl
@[simp] theorem Wave.next_delivered (w : Wave) (ls : Lanes) (pc : Word) : (w.next ls pc).delivered = w.delivered := rfl
@[simp] theorem Wave.next_tfault (w : Wave) (ls : Lanes) (pc : Word) : (w.next ls pc).tfault = w.tfault := rfl
@[simp] theorem Wave.next_late (w : Wave) (ls : Lanes) (pc : Word) : (w.next ls pc).late = w.late := rfl
@[simp] theorem Wave.next_waitovf (w : Wave) (ls : Lanes) (pc : Word) : (w.next ls pc).waitovf = w.waitovf := rfl
@[simp] theorem Wave.next_capture (w : Wave) (ls : Lanes) (pc : Word) : (w.next ls pc).capture = w.capture := rfl
@[simp] theorem Wave.next_waveid (w : Wave) (ls : Lanes) (pc : Word) : (w.next ls pc).waveid = w.waveid := rfl
@[simp] theorem Wave.next_gidx (w : Wave) (ls : Lanes) (pc : Word) : (w.next ls pc).gidx = w.gidx := rfl
@[simp] theorem Wave.next_ngroups (w : Wave) (ls : Lanes) (pc : Word) : (w.next ls pc).ngroups = w.ngroups := rfl
@[simp] theorem Wave.next_cidx (w : Wave) (ls : Lanes) (pc : Word) : (w.next ls pc).cidx = w.cidx := rfl
@[simp] theorem Wave.next_rngstream (w : Wave) (ls : Lanes) (pc : Word) : (w.next ls pc).rngstream = w.rngstream := rfl
@[simp] theorem Wave.next_codebase (w : Wave) (ls : Lanes) (pc : Word) : (w.next ls pc).codebase = w.codebase := rfl
@[simp] theorem Wave.next_localbase (w : Wave) (ls : Lanes) (pc : Word) : (w.next ls pc).localbase = w.localbase := rfl
@[simp] theorem Wave.next_localsize (w : Wave) (ls : Lanes) (pc : Word) : (w.next ls pc).localsize = w.localsize := rfl
@[simp] theorem Wave.next_trapVec (w : Wave) (ls : Lanes) (pc : Word) : (w.next ls pc).trapVec = w.trapVec := rfl
@[simp] theorem Wave.next_ceiling (w : Wave) (ls : Lanes) (pc : Word) : (w.next ls pc).ceiling = w.ceiling := rfl
@[simp] theorem Wave.next_regsDecl (w : Wave) (ls : Lanes) (pc : Word) : (w.next ls pc).regsDecl = w.regsDecl := rfl
@[simp] theorem Wave.next_pixel (w : Wave) (ls : Lanes) (pc : Word) : (w.next ls pc).pixel = w.pixel := rfl
@[simp] theorem Wave.next_parked (w : Wave) (ls : Lanes) (pc : Word) : (w.next ls pc).parked = w.parked := rfl
@[simp] theorem Wave.next_sleepers (w : Wave) (ls : Lanes) (pc : Word) : (w.next ls pc).sleepers = w.sleepers := rfl
@[simp] theorem Wave.next_watch (w : Wave) (ls : Lanes) (pc : Word) : (w.next ls pc).watch = w.watch := rfl
@[simp] theorem Wave.next_arrivals (w : Wave) (ls : Lanes) (pc : Word) : (w.next ls pc).arrivals = w.arrivals := rfl
@[simp] theorem Wave.next_flights (w : Wave) (ls : Lanes) (pc : Word) : (w.next ls pc).flights = w.flights := rfl
@[simp] theorem Wave.next_nextOp (w : Wave) (ls : Lanes) (pc : Word) : (w.next ls pc).nextOp = w.nextOp := rfl
@[simp] theorem Wave.next_nextOrder (w : Wave) (ls : Lanes) (pc : Word) : (w.next ls pc).nextOrder = w.nextOrder := rfl
@[simp] theorem Wave.next_lastIssue (w : Wave) (ls : Lanes) (pc : Word) : (w.next ls pc).lastIssue = w.lastIssue := rfl
@[simp] theorem Wave.next_yielded (w : Wave) (ls : Lanes) (pc : Word) : (w.next ls pc).yielded = w.yielded := rfl
@[simp] theorem Wave.next_owed (w : Wave) (ls : Lanes) (pc : Word) : (w.next ls pc).owed = w.owed := rfl
@[simp] theorem Wave.next_aging (w : Wave) (ls : Lanes) (pc : Word) : (w.next ls pc).aging = w.aging := rfl
@[simp] theorem Wave.next_promoted (w : Wave) (ls : Lanes) (pc : Word) : (w.next ls pc).promoted = w.promoted := rfl
@[simp] theorem Wave.next_selPrio (w : Wave) (ls : Lanes) (pc : Word) : (w.next ls pc).selPrio = w.selPrio := rfl
@[simp] theorem Wave.next_preempted (w : Wave) (ls : Lanes) (pc : Word) : (w.next ls pc).preempted = w.preempted := rfl
@[simp] theorem Wave.next_corrupt (w : Wave) (ls : Lanes) (pc : Word) : (w.next ls pc).corrupt = w.corrupt := rfl
@[simp] theorem Wave.next_tileFaults (w : Wave) (ls : Lanes) (pc : Word) : (w.next ls pc).tileFaults = w.tileFaults := rfl
@[simp] theorem Wave.next_holding (w : Wave) (ls : Lanes) (pc : Word) : (w.next ls pc).holding = w.holding := rfl
@[simp] theorem Wave.next_heldWords (w : Wave) (ls : Lanes) (pc : Word) : (w.next ls pc).heldWords = w.heldWords := rfl
@[simp] theorem Wave.next_captures (w : Wave) (ls : Lanes) (pc : Word) : (w.next ls pc).captures = w.captures := rfl

@[simp] theorem Wave.setThreads_group (w : Wave) (ls : Lanes) (t : ThreadState) : (w.setThreads ls t).group = w.group := rfl
@[simp] theorem Wave.setThreads_launch (w : Wave) (ls : Lanes) (t : ThreadState) : (w.setThreads ls t).launch = w.launch := rfl
@[simp] theorem Wave.setThreads_pasid (w : Wave) (ls : Lanes) (t : ThreadState) : (w.setThreads ls t).pasid = w.pasid := rfl
@[simp] theorem Wave.setThreads_core (w : Wave) (ls : Lanes) (t : ThreadState) : (w.setThreads ls t).core = w.core := rfl
@[simp] theorem Wave.setThreads_slot (w : Wave) (ls : Lanes) (t : ThreadState) : (w.setThreads ls t).slot = w.slot := rfl
@[simp] theorem Wave.setThreads_image (w : Wave) (ls : Lanes) (t : ThreadState) : (w.setThreads ls t).image = w.image := rfl
@[simp] theorem Wave.setThreads_launched (w : Wave) (ls : Lanes) (t : ThreadState) : (w.setThreads ls t).launched = w.launched := rfl
@[simp] theorem Wave.setThreads_pcs (w : Wave) (ls : Lanes) (t : ThreadState) : (w.setThreads ls t).pcs = w.pcs := rfl
@[simp] theorem Wave.setThreads_v (w : Wave) (ls : Lanes) (t : ThreadState) : (w.setThreads ls t).v = w.v := rfl
@[simp] theorem Wave.setThreads_s (w : Wave) (ls : Lanes) (t : ThreadState) : (w.setThreads ls t).s = w.s := rfl
@[simp] theorem Wave.setThreads_m (w : Wave) (ls : Lanes) (t : ThreadState) : (w.setThreads ls t).m = w.m := rfl
@[simp] theorem Wave.setThreads_q (w : Wave) (ls : Lanes) (t : ThreadState) : (w.setThreads ls t).q = w.q := rfl
@[simp] theorem Wave.setThreads_f (w : Wave) (ls : Lanes) (t : ThreadState) : (w.setThreads ls t).f = w.f := rfl
@[simp] theorem Wave.setThreads_ports (w : Wave) (ls : Lanes) (t : ThreadState) : (w.setThreads ls t).ports = w.ports := rfl
@[simp] theorem Wave.setThreads_seed (w : Wave) (ls : Lanes) (t : ThreadState) : (w.setThreads ls t).seed = w.seed := rfl
@[simp] theorem Wave.setThreads_draws (w : Wave) (ls : Lanes) (t : ThreadState) : (w.setThreads ls t).draws = w.draws := rfl
@[simp] theorem Wave.setThreads_save (w : Wave) (ls : Lanes) (t : ThreadState) : (w.setThreads ls t).save = w.save := rfl
@[simp] theorem Wave.setThreads_fpctl (w : Wave) (ls : Lanes) (t : ThreadState) : (w.setThreads ls t).fpctl = w.fpctl := rfl
@[simp] theorem Wave.setThreads_fpstat (w : Wave) (ls : Lanes) (t : ThreadState) : (w.setThreads ls t).fpstat = w.fpstat := rfl
@[simp] theorem Wave.setThreads_prio (w : Wave) (ls : Lanes) (t : ThreadState) : (w.setThreads ls t).prio = w.prio := rfl
@[simp] theorem Wave.setThreads_age (w : Wave) (ls : Lanes) (t : ThreadState) : (w.setThreads ls t).age = w.age := rfl
@[simp] theorem Wave.setThreads_trapcause (w : Wave) (ls : Lanes) (t : ThreadState) : (w.setThreads ls t).trapcause = w.trapcause := rfl
@[simp] theorem Wave.setThreads_trapaddr (w : Wave) (ls : Lanes) (t : ThreadState) : (w.setThreads ls t).trapaddr = w.trapaddr := rfl
@[simp] theorem Wave.setThreads_trappc (w : Wave) (ls : Lanes) (t : ThreadState) : (w.setThreads ls t).trappc = w.trappc := rfl
@[simp] theorem Wave.setThreads_delivered (w : Wave) (ls : Lanes) (t : ThreadState) : (w.setThreads ls t).delivered = w.delivered := rfl
@[simp] theorem Wave.setThreads_tfault (w : Wave) (ls : Lanes) (t : ThreadState) : (w.setThreads ls t).tfault = w.tfault := rfl
@[simp] theorem Wave.setThreads_late (w : Wave) (ls : Lanes) (t : ThreadState) : (w.setThreads ls t).late = w.late := rfl
@[simp] theorem Wave.setThreads_waitovf (w : Wave) (ls : Lanes) (t : ThreadState) : (w.setThreads ls t).waitovf = w.waitovf := rfl
@[simp] theorem Wave.setThreads_capture (w : Wave) (ls : Lanes) (t : ThreadState) : (w.setThreads ls t).capture = w.capture := rfl
@[simp] theorem Wave.setThreads_waveid (w : Wave) (ls : Lanes) (t : ThreadState) : (w.setThreads ls t).waveid = w.waveid := rfl
@[simp] theorem Wave.setThreads_gidx (w : Wave) (ls : Lanes) (t : ThreadState) : (w.setThreads ls t).gidx = w.gidx := rfl
@[simp] theorem Wave.setThreads_ngroups (w : Wave) (ls : Lanes) (t : ThreadState) : (w.setThreads ls t).ngroups = w.ngroups := rfl
@[simp] theorem Wave.setThreads_cidx (w : Wave) (ls : Lanes) (t : ThreadState) : (w.setThreads ls t).cidx = w.cidx := rfl
@[simp] theorem Wave.setThreads_rngstream (w : Wave) (ls : Lanes) (t : ThreadState) : (w.setThreads ls t).rngstream = w.rngstream := rfl
@[simp] theorem Wave.setThreads_codebase (w : Wave) (ls : Lanes) (t : ThreadState) : (w.setThreads ls t).codebase = w.codebase := rfl
@[simp] theorem Wave.setThreads_localbase (w : Wave) (ls : Lanes) (t : ThreadState) : (w.setThreads ls t).localbase = w.localbase := rfl
@[simp] theorem Wave.setThreads_localsize (w : Wave) (ls : Lanes) (t : ThreadState) : (w.setThreads ls t).localsize = w.localsize := rfl
@[simp] theorem Wave.setThreads_trapVec (w : Wave) (ls : Lanes) (t : ThreadState) : (w.setThreads ls t).trapVec = w.trapVec := rfl
@[simp] theorem Wave.setThreads_ceiling (w : Wave) (ls : Lanes) (t : ThreadState) : (w.setThreads ls t).ceiling = w.ceiling := rfl
@[simp] theorem Wave.setThreads_regsDecl (w : Wave) (ls : Lanes) (t : ThreadState) : (w.setThreads ls t).regsDecl = w.regsDecl := rfl
@[simp] theorem Wave.setThreads_pixel (w : Wave) (ls : Lanes) (t : ThreadState) : (w.setThreads ls t).pixel = w.pixel := rfl
@[simp] theorem Wave.setThreads_parked (w : Wave) (ls : Lanes) (t : ThreadState) : (w.setThreads ls t).parked = w.parked := rfl
@[simp] theorem Wave.setThreads_sleepers (w : Wave) (ls : Lanes) (t : ThreadState) : (w.setThreads ls t).sleepers = w.sleepers := rfl
@[simp] theorem Wave.setThreads_watch (w : Wave) (ls : Lanes) (t : ThreadState) : (w.setThreads ls t).watch = w.watch := rfl
@[simp] theorem Wave.setThreads_arrivals (w : Wave) (ls : Lanes) (t : ThreadState) : (w.setThreads ls t).arrivals = w.arrivals := rfl
@[simp] theorem Wave.setThreads_flights (w : Wave) (ls : Lanes) (t : ThreadState) : (w.setThreads ls t).flights = w.flights := rfl
@[simp] theorem Wave.setThreads_nextOp (w : Wave) (ls : Lanes) (t : ThreadState) : (w.setThreads ls t).nextOp = w.nextOp := rfl
@[simp] theorem Wave.setThreads_nextOrder (w : Wave) (ls : Lanes) (t : ThreadState) : (w.setThreads ls t).nextOrder = w.nextOrder := rfl
@[simp] theorem Wave.setThreads_lastIssue (w : Wave) (ls : Lanes) (t : ThreadState) : (w.setThreads ls t).lastIssue = w.lastIssue := rfl
@[simp] theorem Wave.setThreads_yielded (w : Wave) (ls : Lanes) (t : ThreadState) : (w.setThreads ls t).yielded = w.yielded := rfl
@[simp] theorem Wave.setThreads_owed (w : Wave) (ls : Lanes) (t : ThreadState) : (w.setThreads ls t).owed = w.owed := rfl
@[simp] theorem Wave.setThreads_aging (w : Wave) (ls : Lanes) (t : ThreadState) : (w.setThreads ls t).aging = w.aging := rfl
@[simp] theorem Wave.setThreads_promoted (w : Wave) (ls : Lanes) (t : ThreadState) : (w.setThreads ls t).promoted = w.promoted := rfl
@[simp] theorem Wave.setThreads_selPrio (w : Wave) (ls : Lanes) (t : ThreadState) : (w.setThreads ls t).selPrio = w.selPrio := rfl
@[simp] theorem Wave.setThreads_preempted (w : Wave) (ls : Lanes) (t : ThreadState) : (w.setThreads ls t).preempted = w.preempted := rfl
@[simp] theorem Wave.setThreads_corrupt (w : Wave) (ls : Lanes) (t : ThreadState) : (w.setThreads ls t).corrupt = w.corrupt := rfl
@[simp] theorem Wave.setThreads_tileFaults (w : Wave) (ls : Lanes) (t : ThreadState) : (w.setThreads ls t).tileFaults = w.tileFaults := rfl
@[simp] theorem Wave.setThreads_holding (w : Wave) (ls : Lanes) (t : ThreadState) : (w.setThreads ls t).holding = w.holding := rfl
@[simp] theorem Wave.setThreads_heldWords (w : Wave) (ls : Lanes) (t : ThreadState) : (w.setThreads ls t).heldWords = w.heldWords := rfl
@[simp] theorem Wave.setThreads_captures (w : Wave) (ls : Lanes) (t : ThreadState) : (w.setThreads ls t).captures = w.captures := rfl

@[simp] theorem Wave.addFlight_group (w : Wave) (g : Flight) : (w.addFlight g).group = w.group := rfl
@[simp] theorem Wave.addFlight_launch (w : Wave) (g : Flight) : (w.addFlight g).launch = w.launch := rfl
@[simp] theorem Wave.addFlight_pasid (w : Wave) (g : Flight) : (w.addFlight g).pasid = w.pasid := rfl
@[simp] theorem Wave.addFlight_core (w : Wave) (g : Flight) : (w.addFlight g).core = w.core := rfl
@[simp] theorem Wave.addFlight_slot (w : Wave) (g : Flight) : (w.addFlight g).slot = w.slot := rfl
@[simp] theorem Wave.addFlight_image (w : Wave) (g : Flight) : (w.addFlight g).image = w.image := rfl
@[simp] theorem Wave.addFlight_launched (w : Wave) (g : Flight) : (w.addFlight g).launched = w.launched := rfl
@[simp] theorem Wave.addFlight_pcs (w : Wave) (g : Flight) : (w.addFlight g).pcs = w.pcs := rfl
@[simp] theorem Wave.addFlight_threads (w : Wave) (g : Flight) : (w.addFlight g).threads = w.threads := rfl
@[simp] theorem Wave.addFlight_v (w : Wave) (g : Flight) : (w.addFlight g).v = w.v := rfl
@[simp] theorem Wave.addFlight_s (w : Wave) (g : Flight) : (w.addFlight g).s = w.s := rfl
@[simp] theorem Wave.addFlight_m (w : Wave) (g : Flight) : (w.addFlight g).m = w.m := rfl
@[simp] theorem Wave.addFlight_q (w : Wave) (g : Flight) : (w.addFlight g).q = w.q := rfl
@[simp] theorem Wave.addFlight_f (w : Wave) (g : Flight) : (w.addFlight g).f = w.f := rfl
@[simp] theorem Wave.addFlight_ports (w : Wave) (g : Flight) : (w.addFlight g).ports = w.ports := rfl
@[simp] theorem Wave.addFlight_seed (w : Wave) (g : Flight) : (w.addFlight g).seed = w.seed := rfl
@[simp] theorem Wave.addFlight_draws (w : Wave) (g : Flight) : (w.addFlight g).draws = w.draws := rfl
@[simp] theorem Wave.addFlight_save (w : Wave) (g : Flight) : (w.addFlight g).save = w.save := rfl
@[simp] theorem Wave.addFlight_fpctl (w : Wave) (g : Flight) : (w.addFlight g).fpctl = w.fpctl := rfl
@[simp] theorem Wave.addFlight_fpstat (w : Wave) (g : Flight) : (w.addFlight g).fpstat = w.fpstat := rfl
@[simp] theorem Wave.addFlight_prio (w : Wave) (g : Flight) : (w.addFlight g).prio = w.prio := rfl
@[simp] theorem Wave.addFlight_age (w : Wave) (g : Flight) : (w.addFlight g).age = w.age := rfl
@[simp] theorem Wave.addFlight_trapcause (w : Wave) (g : Flight) : (w.addFlight g).trapcause = w.trapcause := rfl
@[simp] theorem Wave.addFlight_trapaddr (w : Wave) (g : Flight) : (w.addFlight g).trapaddr = w.trapaddr := rfl
@[simp] theorem Wave.addFlight_trappc (w : Wave) (g : Flight) : (w.addFlight g).trappc = w.trappc := rfl
@[simp] theorem Wave.addFlight_delivered (w : Wave) (g : Flight) : (w.addFlight g).delivered = w.delivered := rfl
@[simp] theorem Wave.addFlight_tfault (w : Wave) (g : Flight) : (w.addFlight g).tfault = w.tfault := rfl
@[simp] theorem Wave.addFlight_late (w : Wave) (g : Flight) : (w.addFlight g).late = w.late := rfl
@[simp] theorem Wave.addFlight_waitovf (w : Wave) (g : Flight) : (w.addFlight g).waitovf = w.waitovf := rfl
@[simp] theorem Wave.addFlight_capture (w : Wave) (g : Flight) : (w.addFlight g).capture = w.capture := rfl
@[simp] theorem Wave.addFlight_waveid (w : Wave) (g : Flight) : (w.addFlight g).waveid = w.waveid := rfl
@[simp] theorem Wave.addFlight_gidx (w : Wave) (g : Flight) : (w.addFlight g).gidx = w.gidx := rfl
@[simp] theorem Wave.addFlight_ngroups (w : Wave) (g : Flight) : (w.addFlight g).ngroups = w.ngroups := rfl
@[simp] theorem Wave.addFlight_cidx (w : Wave) (g : Flight) : (w.addFlight g).cidx = w.cidx := rfl
@[simp] theorem Wave.addFlight_rngstream (w : Wave) (g : Flight) : (w.addFlight g).rngstream = w.rngstream := rfl
@[simp] theorem Wave.addFlight_codebase (w : Wave) (g : Flight) : (w.addFlight g).codebase = w.codebase := rfl
@[simp] theorem Wave.addFlight_localbase (w : Wave) (g : Flight) : (w.addFlight g).localbase = w.localbase := rfl
@[simp] theorem Wave.addFlight_localsize (w : Wave) (g : Flight) : (w.addFlight g).localsize = w.localsize := rfl
@[simp] theorem Wave.addFlight_trapVec (w : Wave) (g : Flight) : (w.addFlight g).trapVec = w.trapVec := rfl
@[simp] theorem Wave.addFlight_ceiling (w : Wave) (g : Flight) : (w.addFlight g).ceiling = w.ceiling := rfl
@[simp] theorem Wave.addFlight_regsDecl (w : Wave) (g : Flight) : (w.addFlight g).regsDecl = w.regsDecl := rfl
@[simp] theorem Wave.addFlight_pixel (w : Wave) (g : Flight) : (w.addFlight g).pixel = w.pixel := rfl
@[simp] theorem Wave.addFlight_parked (w : Wave) (g : Flight) : (w.addFlight g).parked = w.parked := rfl
@[simp] theorem Wave.addFlight_sleepers (w : Wave) (g : Flight) : (w.addFlight g).sleepers = w.sleepers := rfl
@[simp] theorem Wave.addFlight_watch (w : Wave) (g : Flight) : (w.addFlight g).watch = w.watch := rfl
@[simp] theorem Wave.addFlight_arrivals (w : Wave) (g : Flight) : (w.addFlight g).arrivals = w.arrivals := rfl
@[simp] theorem Wave.addFlight_nextOrder (w : Wave) (g : Flight) : (w.addFlight g).nextOrder = w.nextOrder := rfl
@[simp] theorem Wave.addFlight_lastIssue (w : Wave) (g : Flight) : (w.addFlight g).lastIssue = w.lastIssue := rfl
@[simp] theorem Wave.addFlight_yielded (w : Wave) (g : Flight) : (w.addFlight g).yielded = w.yielded := rfl
@[simp] theorem Wave.addFlight_owed (w : Wave) (g : Flight) : (w.addFlight g).owed = w.owed := rfl
@[simp] theorem Wave.addFlight_aging (w : Wave) (g : Flight) : (w.addFlight g).aging = w.aging := rfl
@[simp] theorem Wave.addFlight_promoted (w : Wave) (g : Flight) : (w.addFlight g).promoted = w.promoted := rfl
@[simp] theorem Wave.addFlight_selPrio (w : Wave) (g : Flight) : (w.addFlight g).selPrio = w.selPrio := rfl
@[simp] theorem Wave.addFlight_preempted (w : Wave) (g : Flight) : (w.addFlight g).preempted = w.preempted := rfl
@[simp] theorem Wave.addFlight_corrupt (w : Wave) (g : Flight) : (w.addFlight g).corrupt = w.corrupt := rfl
@[simp] theorem Wave.addFlight_tileFaults (w : Wave) (g : Flight) : (w.addFlight g).tileFaults = w.tileFaults := rfl
@[simp] theorem Wave.addFlight_holding (w : Wave) (g : Flight) : (w.addFlight g).holding = w.holding := rfl
@[simp] theorem Wave.addFlight_heldWords (w : Wave) (g : Flight) : (w.addFlight g).heldWords = w.heldWords := rfl
@[simp] theorem Wave.addFlight_captures (w : Wave) (g : Flight) : (w.addFlight g).captures = w.captures := rfl

@[simp] theorem Wave.raiseFlag_group (w : Wave) (b : BitVec 4) : (w.raiseFlag b).group = w.group := by unfold Wave.raiseFlag; split <;> rfl
@[simp] theorem Wave.raiseFlag_launch (w : Wave) (b : BitVec 4) : (w.raiseFlag b).launch = w.launch := by unfold Wave.raiseFlag; split <;> rfl
@[simp] theorem Wave.raiseFlag_pasid (w : Wave) (b : BitVec 4) : (w.raiseFlag b).pasid = w.pasid := by unfold Wave.raiseFlag; split <;> rfl
@[simp] theorem Wave.raiseFlag_core (w : Wave) (b : BitVec 4) : (w.raiseFlag b).core = w.core := by unfold Wave.raiseFlag; split <;> rfl
@[simp] theorem Wave.raiseFlag_slot (w : Wave) (b : BitVec 4) : (w.raiseFlag b).slot = w.slot := by unfold Wave.raiseFlag; split <;> rfl
@[simp] theorem Wave.raiseFlag_image (w : Wave) (b : BitVec 4) : (w.raiseFlag b).image = w.image := by unfold Wave.raiseFlag; split <;> rfl
@[simp] theorem Wave.raiseFlag_launched (w : Wave) (b : BitVec 4) : (w.raiseFlag b).launched = w.launched := by unfold Wave.raiseFlag; split <;> rfl
@[simp] theorem Wave.raiseFlag_pcs (w : Wave) (b : BitVec 4) : (w.raiseFlag b).pcs = w.pcs := by unfold Wave.raiseFlag; split <;> rfl
@[simp] theorem Wave.raiseFlag_threads (w : Wave) (b : BitVec 4) : (w.raiseFlag b).threads = w.threads := by unfold Wave.raiseFlag; split <;> rfl
@[simp] theorem Wave.raiseFlag_v (w : Wave) (b : BitVec 4) : (w.raiseFlag b).v = w.v := by unfold Wave.raiseFlag; split <;> rfl
@[simp] theorem Wave.raiseFlag_s (w : Wave) (b : BitVec 4) : (w.raiseFlag b).s = w.s := by unfold Wave.raiseFlag; split <;> rfl
@[simp] theorem Wave.raiseFlag_m (w : Wave) (b : BitVec 4) : (w.raiseFlag b).m = w.m := by unfold Wave.raiseFlag; split <;> rfl
@[simp] theorem Wave.raiseFlag_q (w : Wave) (b : BitVec 4) : (w.raiseFlag b).q = w.q := by unfold Wave.raiseFlag; split <;> rfl
@[simp] theorem Wave.raiseFlag_ports (w : Wave) (b : BitVec 4) : (w.raiseFlag b).ports = w.ports := by unfold Wave.raiseFlag; split <;> rfl
@[simp] theorem Wave.raiseFlag_seed (w : Wave) (b : BitVec 4) : (w.raiseFlag b).seed = w.seed := by unfold Wave.raiseFlag; split <;> rfl
@[simp] theorem Wave.raiseFlag_draws (w : Wave) (b : BitVec 4) : (w.raiseFlag b).draws = w.draws := by unfold Wave.raiseFlag; split <;> rfl
@[simp] theorem Wave.raiseFlag_save (w : Wave) (b : BitVec 4) : (w.raiseFlag b).save = w.save := by unfold Wave.raiseFlag; split <;> rfl
@[simp] theorem Wave.raiseFlag_fpctl (w : Wave) (b : BitVec 4) : (w.raiseFlag b).fpctl = w.fpctl := by unfold Wave.raiseFlag; split <;> rfl
@[simp] theorem Wave.raiseFlag_fpstat (w : Wave) (b : BitVec 4) : (w.raiseFlag b).fpstat = w.fpstat := by unfold Wave.raiseFlag; split <;> rfl
@[simp] theorem Wave.raiseFlag_prio (w : Wave) (b : BitVec 4) : (w.raiseFlag b).prio = w.prio := by unfold Wave.raiseFlag; split <;> rfl
@[simp] theorem Wave.raiseFlag_age (w : Wave) (b : BitVec 4) : (w.raiseFlag b).age = w.age := by unfold Wave.raiseFlag; split <;> rfl
@[simp] theorem Wave.raiseFlag_trapcause (w : Wave) (b : BitVec 4) : (w.raiseFlag b).trapcause = w.trapcause := by unfold Wave.raiseFlag; split <;> rfl
@[simp] theorem Wave.raiseFlag_trapaddr (w : Wave) (b : BitVec 4) : (w.raiseFlag b).trapaddr = w.trapaddr := by unfold Wave.raiseFlag; split <;> rfl
@[simp] theorem Wave.raiseFlag_trappc (w : Wave) (b : BitVec 4) : (w.raiseFlag b).trappc = w.trappc := by unfold Wave.raiseFlag; split <;> rfl
@[simp] theorem Wave.raiseFlag_delivered (w : Wave) (b : BitVec 4) : (w.raiseFlag b).delivered = w.delivered := by unfold Wave.raiseFlag; split <;> rfl
@[simp] theorem Wave.raiseFlag_tfault (w : Wave) (b : BitVec 4) : (w.raiseFlag b).tfault = w.tfault := by unfold Wave.raiseFlag; split <;> rfl
@[simp] theorem Wave.raiseFlag_late (w : Wave) (b : BitVec 4) : (w.raiseFlag b).late = w.late := by unfold Wave.raiseFlag; split <;> rfl
@[simp] theorem Wave.raiseFlag_waitovf (w : Wave) (b : BitVec 4) : (w.raiseFlag b).waitovf = w.waitovf := by unfold Wave.raiseFlag; split <;> rfl
@[simp] theorem Wave.raiseFlag_capture (w : Wave) (b : BitVec 4) : (w.raiseFlag b).capture = w.capture := by unfold Wave.raiseFlag; split <;> rfl
@[simp] theorem Wave.raiseFlag_waveid (w : Wave) (b : BitVec 4) : (w.raiseFlag b).waveid = w.waveid := by unfold Wave.raiseFlag; split <;> rfl
@[simp] theorem Wave.raiseFlag_gidx (w : Wave) (b : BitVec 4) : (w.raiseFlag b).gidx = w.gidx := by unfold Wave.raiseFlag; split <;> rfl
@[simp] theorem Wave.raiseFlag_ngroups (w : Wave) (b : BitVec 4) : (w.raiseFlag b).ngroups = w.ngroups := by unfold Wave.raiseFlag; split <;> rfl
@[simp] theorem Wave.raiseFlag_cidx (w : Wave) (b : BitVec 4) : (w.raiseFlag b).cidx = w.cidx := by unfold Wave.raiseFlag; split <;> rfl
@[simp] theorem Wave.raiseFlag_rngstream (w : Wave) (b : BitVec 4) : (w.raiseFlag b).rngstream = w.rngstream := by unfold Wave.raiseFlag; split <;> rfl
@[simp] theorem Wave.raiseFlag_codebase (w : Wave) (b : BitVec 4) : (w.raiseFlag b).codebase = w.codebase := by unfold Wave.raiseFlag; split <;> rfl
@[simp] theorem Wave.raiseFlag_localbase (w : Wave) (b : BitVec 4) : (w.raiseFlag b).localbase = w.localbase := by unfold Wave.raiseFlag; split <;> rfl
@[simp] theorem Wave.raiseFlag_localsize (w : Wave) (b : BitVec 4) : (w.raiseFlag b).localsize = w.localsize := by unfold Wave.raiseFlag; split <;> rfl
@[simp] theorem Wave.raiseFlag_trapVec (w : Wave) (b : BitVec 4) : (w.raiseFlag b).trapVec = w.trapVec := by unfold Wave.raiseFlag; split <;> rfl
@[simp] theorem Wave.raiseFlag_ceiling (w : Wave) (b : BitVec 4) : (w.raiseFlag b).ceiling = w.ceiling := by unfold Wave.raiseFlag; split <;> rfl
@[simp] theorem Wave.raiseFlag_regsDecl (w : Wave) (b : BitVec 4) : (w.raiseFlag b).regsDecl = w.regsDecl := by unfold Wave.raiseFlag; split <;> rfl
@[simp] theorem Wave.raiseFlag_pixel (w : Wave) (b : BitVec 4) : (w.raiseFlag b).pixel = w.pixel := by unfold Wave.raiseFlag; split <;> rfl
@[simp] theorem Wave.raiseFlag_parked (w : Wave) (b : BitVec 4) : (w.raiseFlag b).parked = w.parked := by unfold Wave.raiseFlag; split <;> rfl
@[simp] theorem Wave.raiseFlag_sleepers (w : Wave) (b : BitVec 4) : (w.raiseFlag b).sleepers = w.sleepers := by unfold Wave.raiseFlag; split <;> rfl
@[simp] theorem Wave.raiseFlag_watch (w : Wave) (b : BitVec 4) : (w.raiseFlag b).watch = w.watch := by unfold Wave.raiseFlag; split <;> rfl
@[simp] theorem Wave.raiseFlag_arrivals (w : Wave) (b : BitVec 4) : (w.raiseFlag b).arrivals = w.arrivals := by unfold Wave.raiseFlag; split <;> rfl
@[simp] theorem Wave.raiseFlag_flights (w : Wave) (b : BitVec 4) : (w.raiseFlag b).flights = w.flights := by unfold Wave.raiseFlag; split <;> rfl
@[simp] theorem Wave.raiseFlag_nextOp (w : Wave) (b : BitVec 4) : (w.raiseFlag b).nextOp = w.nextOp := by unfold Wave.raiseFlag; split <;> rfl
@[simp] theorem Wave.raiseFlag_nextOrder (w : Wave) (b : BitVec 4) : (w.raiseFlag b).nextOrder = w.nextOrder := by unfold Wave.raiseFlag; split <;> rfl
@[simp] theorem Wave.raiseFlag_lastIssue (w : Wave) (b : BitVec 4) : (w.raiseFlag b).lastIssue = w.lastIssue := by unfold Wave.raiseFlag; split <;> rfl
@[simp] theorem Wave.raiseFlag_yielded (w : Wave) (b : BitVec 4) : (w.raiseFlag b).yielded = w.yielded := by unfold Wave.raiseFlag; split <;> rfl
@[simp] theorem Wave.raiseFlag_owed (w : Wave) (b : BitVec 4) : (w.raiseFlag b).owed = w.owed := by unfold Wave.raiseFlag; split <;> rfl
@[simp] theorem Wave.raiseFlag_aging (w : Wave) (b : BitVec 4) : (w.raiseFlag b).aging = w.aging := by unfold Wave.raiseFlag; split <;> rfl
@[simp] theorem Wave.raiseFlag_promoted (w : Wave) (b : BitVec 4) : (w.raiseFlag b).promoted = w.promoted := by unfold Wave.raiseFlag; split <;> rfl
@[simp] theorem Wave.raiseFlag_selPrio (w : Wave) (b : BitVec 4) : (w.raiseFlag b).selPrio = w.selPrio := by unfold Wave.raiseFlag; split <;> rfl
@[simp] theorem Wave.raiseFlag_preempted (w : Wave) (b : BitVec 4) : (w.raiseFlag b).preempted = w.preempted := by unfold Wave.raiseFlag; split <;> rfl
@[simp] theorem Wave.raiseFlag_corrupt (w : Wave) (b : BitVec 4) : (w.raiseFlag b).corrupt = w.corrupt := by unfold Wave.raiseFlag; split <;> rfl
@[simp] theorem Wave.raiseFlag_tileFaults (w : Wave) (b : BitVec 4) : (w.raiseFlag b).tileFaults = w.tileFaults := by unfold Wave.raiseFlag; split <;> rfl
@[simp] theorem Wave.raiseFlag_holding (w : Wave) (b : BitVec 4) : (w.raiseFlag b).holding = w.holding := by unfold Wave.raiseFlag; split <;> rfl
@[simp] theorem Wave.raiseFlag_heldWords (w : Wave) (b : BitVec 4) : (w.raiseFlag b).heldWords = w.heldWords := by unfold Wave.raiseFlag; split <;> rfl
@[simp] theorem Wave.raiseFlag_captures (w : Wave) (b : BitVec 4) : (w.raiseFlag b).captures = w.captures := by unfold Wave.raiseFlag; split <;> rfl

@[simp] theorem Wave.lowerFlag_group (w : Wave) (b : BitVec 4) : (w.lowerFlag b).group = w.group := by unfold Wave.lowerFlag; split <;> rfl
@[simp] theorem Wave.lowerFlag_launch (w : Wave) (b : BitVec 4) : (w.lowerFlag b).launch = w.launch := by unfold Wave.lowerFlag; split <;> rfl
@[simp] theorem Wave.lowerFlag_pasid (w : Wave) (b : BitVec 4) : (w.lowerFlag b).pasid = w.pasid := by unfold Wave.lowerFlag; split <;> rfl
@[simp] theorem Wave.lowerFlag_core (w : Wave) (b : BitVec 4) : (w.lowerFlag b).core = w.core := by unfold Wave.lowerFlag; split <;> rfl
@[simp] theorem Wave.lowerFlag_slot (w : Wave) (b : BitVec 4) : (w.lowerFlag b).slot = w.slot := by unfold Wave.lowerFlag; split <;> rfl
@[simp] theorem Wave.lowerFlag_image (w : Wave) (b : BitVec 4) : (w.lowerFlag b).image = w.image := by unfold Wave.lowerFlag; split <;> rfl
@[simp] theorem Wave.lowerFlag_launched (w : Wave) (b : BitVec 4) : (w.lowerFlag b).launched = w.launched := by unfold Wave.lowerFlag; split <;> rfl
@[simp] theorem Wave.lowerFlag_pcs (w : Wave) (b : BitVec 4) : (w.lowerFlag b).pcs = w.pcs := by unfold Wave.lowerFlag; split <;> rfl
@[simp] theorem Wave.lowerFlag_threads (w : Wave) (b : BitVec 4) : (w.lowerFlag b).threads = w.threads := by unfold Wave.lowerFlag; split <;> rfl
@[simp] theorem Wave.lowerFlag_v (w : Wave) (b : BitVec 4) : (w.lowerFlag b).v = w.v := by unfold Wave.lowerFlag; split <;> rfl
@[simp] theorem Wave.lowerFlag_s (w : Wave) (b : BitVec 4) : (w.lowerFlag b).s = w.s := by unfold Wave.lowerFlag; split <;> rfl
@[simp] theorem Wave.lowerFlag_m (w : Wave) (b : BitVec 4) : (w.lowerFlag b).m = w.m := by unfold Wave.lowerFlag; split <;> rfl
@[simp] theorem Wave.lowerFlag_q (w : Wave) (b : BitVec 4) : (w.lowerFlag b).q = w.q := by unfold Wave.lowerFlag; split <;> rfl
@[simp] theorem Wave.lowerFlag_ports (w : Wave) (b : BitVec 4) : (w.lowerFlag b).ports = w.ports := by unfold Wave.lowerFlag; split <;> rfl
@[simp] theorem Wave.lowerFlag_seed (w : Wave) (b : BitVec 4) : (w.lowerFlag b).seed = w.seed := by unfold Wave.lowerFlag; split <;> rfl
@[simp] theorem Wave.lowerFlag_draws (w : Wave) (b : BitVec 4) : (w.lowerFlag b).draws = w.draws := by unfold Wave.lowerFlag; split <;> rfl
@[simp] theorem Wave.lowerFlag_save (w : Wave) (b : BitVec 4) : (w.lowerFlag b).save = w.save := by unfold Wave.lowerFlag; split <;> rfl
@[simp] theorem Wave.lowerFlag_fpctl (w : Wave) (b : BitVec 4) : (w.lowerFlag b).fpctl = w.fpctl := by unfold Wave.lowerFlag; split <;> rfl
@[simp] theorem Wave.lowerFlag_fpstat (w : Wave) (b : BitVec 4) : (w.lowerFlag b).fpstat = w.fpstat := by unfold Wave.lowerFlag; split <;> rfl
@[simp] theorem Wave.lowerFlag_prio (w : Wave) (b : BitVec 4) : (w.lowerFlag b).prio = w.prio := by unfold Wave.lowerFlag; split <;> rfl
@[simp] theorem Wave.lowerFlag_age (w : Wave) (b : BitVec 4) : (w.lowerFlag b).age = w.age := by unfold Wave.lowerFlag; split <;> rfl
@[simp] theorem Wave.lowerFlag_trapcause (w : Wave) (b : BitVec 4) : (w.lowerFlag b).trapcause = w.trapcause := by unfold Wave.lowerFlag; split <;> rfl
@[simp] theorem Wave.lowerFlag_trapaddr (w : Wave) (b : BitVec 4) : (w.lowerFlag b).trapaddr = w.trapaddr := by unfold Wave.lowerFlag; split <;> rfl
@[simp] theorem Wave.lowerFlag_trappc (w : Wave) (b : BitVec 4) : (w.lowerFlag b).trappc = w.trappc := by unfold Wave.lowerFlag; split <;> rfl
@[simp] theorem Wave.lowerFlag_delivered (w : Wave) (b : BitVec 4) : (w.lowerFlag b).delivered = w.delivered := by unfold Wave.lowerFlag; split <;> rfl
@[simp] theorem Wave.lowerFlag_tfault (w : Wave) (b : BitVec 4) : (w.lowerFlag b).tfault = w.tfault := by unfold Wave.lowerFlag; split <;> rfl
@[simp] theorem Wave.lowerFlag_late (w : Wave) (b : BitVec 4) : (w.lowerFlag b).late = w.late := by unfold Wave.lowerFlag; split <;> rfl
@[simp] theorem Wave.lowerFlag_waitovf (w : Wave) (b : BitVec 4) : (w.lowerFlag b).waitovf = w.waitovf := by unfold Wave.lowerFlag; split <;> rfl
@[simp] theorem Wave.lowerFlag_capture (w : Wave) (b : BitVec 4) : (w.lowerFlag b).capture = w.capture := by unfold Wave.lowerFlag; split <;> rfl
@[simp] theorem Wave.lowerFlag_waveid (w : Wave) (b : BitVec 4) : (w.lowerFlag b).waveid = w.waveid := by unfold Wave.lowerFlag; split <;> rfl
@[simp] theorem Wave.lowerFlag_gidx (w : Wave) (b : BitVec 4) : (w.lowerFlag b).gidx = w.gidx := by unfold Wave.lowerFlag; split <;> rfl
@[simp] theorem Wave.lowerFlag_ngroups (w : Wave) (b : BitVec 4) : (w.lowerFlag b).ngroups = w.ngroups := by unfold Wave.lowerFlag; split <;> rfl
@[simp] theorem Wave.lowerFlag_cidx (w : Wave) (b : BitVec 4) : (w.lowerFlag b).cidx = w.cidx := by unfold Wave.lowerFlag; split <;> rfl
@[simp] theorem Wave.lowerFlag_rngstream (w : Wave) (b : BitVec 4) : (w.lowerFlag b).rngstream = w.rngstream := by unfold Wave.lowerFlag; split <;> rfl
@[simp] theorem Wave.lowerFlag_codebase (w : Wave) (b : BitVec 4) : (w.lowerFlag b).codebase = w.codebase := by unfold Wave.lowerFlag; split <;> rfl
@[simp] theorem Wave.lowerFlag_localbase (w : Wave) (b : BitVec 4) : (w.lowerFlag b).localbase = w.localbase := by unfold Wave.lowerFlag; split <;> rfl
@[simp] theorem Wave.lowerFlag_localsize (w : Wave) (b : BitVec 4) : (w.lowerFlag b).localsize = w.localsize := by unfold Wave.lowerFlag; split <;> rfl
@[simp] theorem Wave.lowerFlag_trapVec (w : Wave) (b : BitVec 4) : (w.lowerFlag b).trapVec = w.trapVec := by unfold Wave.lowerFlag; split <;> rfl
@[simp] theorem Wave.lowerFlag_ceiling (w : Wave) (b : BitVec 4) : (w.lowerFlag b).ceiling = w.ceiling := by unfold Wave.lowerFlag; split <;> rfl
@[simp] theorem Wave.lowerFlag_regsDecl (w : Wave) (b : BitVec 4) : (w.lowerFlag b).regsDecl = w.regsDecl := by unfold Wave.lowerFlag; split <;> rfl
@[simp] theorem Wave.lowerFlag_pixel (w : Wave) (b : BitVec 4) : (w.lowerFlag b).pixel = w.pixel := by unfold Wave.lowerFlag; split <;> rfl
@[simp] theorem Wave.lowerFlag_parked (w : Wave) (b : BitVec 4) : (w.lowerFlag b).parked = w.parked := by unfold Wave.lowerFlag; split <;> rfl
@[simp] theorem Wave.lowerFlag_sleepers (w : Wave) (b : BitVec 4) : (w.lowerFlag b).sleepers = w.sleepers := by unfold Wave.lowerFlag; split <;> rfl
@[simp] theorem Wave.lowerFlag_watch (w : Wave) (b : BitVec 4) : (w.lowerFlag b).watch = w.watch := by unfold Wave.lowerFlag; split <;> rfl
@[simp] theorem Wave.lowerFlag_arrivals (w : Wave) (b : BitVec 4) : (w.lowerFlag b).arrivals = w.arrivals := by unfold Wave.lowerFlag; split <;> rfl
@[simp] theorem Wave.lowerFlag_flights (w : Wave) (b : BitVec 4) : (w.lowerFlag b).flights = w.flights := by unfold Wave.lowerFlag; split <;> rfl
@[simp] theorem Wave.lowerFlag_nextOp (w : Wave) (b : BitVec 4) : (w.lowerFlag b).nextOp = w.nextOp := by unfold Wave.lowerFlag; split <;> rfl
@[simp] theorem Wave.lowerFlag_nextOrder (w : Wave) (b : BitVec 4) : (w.lowerFlag b).nextOrder = w.nextOrder := by unfold Wave.lowerFlag; split <;> rfl
@[simp] theorem Wave.lowerFlag_lastIssue (w : Wave) (b : BitVec 4) : (w.lowerFlag b).lastIssue = w.lastIssue := by unfold Wave.lowerFlag; split <;> rfl
@[simp] theorem Wave.lowerFlag_yielded (w : Wave) (b : BitVec 4) : (w.lowerFlag b).yielded = w.yielded := by unfold Wave.lowerFlag; split <;> rfl
@[simp] theorem Wave.lowerFlag_owed (w : Wave) (b : BitVec 4) : (w.lowerFlag b).owed = w.owed := by unfold Wave.lowerFlag; split <;> rfl
@[simp] theorem Wave.lowerFlag_aging (w : Wave) (b : BitVec 4) : (w.lowerFlag b).aging = w.aging := by unfold Wave.lowerFlag; split <;> rfl
@[simp] theorem Wave.lowerFlag_promoted (w : Wave) (b : BitVec 4) : (w.lowerFlag b).promoted = w.promoted := by unfold Wave.lowerFlag; split <;> rfl
@[simp] theorem Wave.lowerFlag_selPrio (w : Wave) (b : BitVec 4) : (w.lowerFlag b).selPrio = w.selPrio := by unfold Wave.lowerFlag; split <;> rfl
@[simp] theorem Wave.lowerFlag_preempted (w : Wave) (b : BitVec 4) : (w.lowerFlag b).preempted = w.preempted := by unfold Wave.lowerFlag; split <;> rfl
@[simp] theorem Wave.lowerFlag_corrupt (w : Wave) (b : BitVec 4) : (w.lowerFlag b).corrupt = w.corrupt := by unfold Wave.lowerFlag; split <;> rfl
@[simp] theorem Wave.lowerFlag_tileFaults (w : Wave) (b : BitVec 4) : (w.lowerFlag b).tileFaults = w.tileFaults := by unfold Wave.lowerFlag; split <;> rfl
@[simp] theorem Wave.lowerFlag_holding (w : Wave) (b : BitVec 4) : (w.lowerFlag b).holding = w.holding := by unfold Wave.lowerFlag; split <;> rfl
@[simp] theorem Wave.lowerFlag_heldWords (w : Wave) (b : BitVec 4) : (w.lowerFlag b).heldWords = w.heldWords := by unfold Wave.lowerFlag; split <;> rfl
@[simp] theorem Wave.lowerFlag_captures (w : Wave) (b : BitVec 4) : (w.lowerFlag b).captures = w.captures := by unfold Wave.lowerFlag; split <;> rfl

@[simp] theorem Wave.wv_group (w : Wave) (r : VReg) (l : Nat) (x : Word) : (w.wv r l x).group = w.group := by unfold Wave.wv; split <;> rfl
@[simp] theorem Wave.wv_launch (w : Wave) (r : VReg) (l : Nat) (x : Word) : (w.wv r l x).launch = w.launch := by unfold Wave.wv; split <;> rfl
@[simp] theorem Wave.wv_pasid (w : Wave) (r : VReg) (l : Nat) (x : Word) : (w.wv r l x).pasid = w.pasid := by unfold Wave.wv; split <;> rfl
@[simp] theorem Wave.wv_core (w : Wave) (r : VReg) (l : Nat) (x : Word) : (w.wv r l x).core = w.core := by unfold Wave.wv; split <;> rfl
@[simp] theorem Wave.wv_slot (w : Wave) (r : VReg) (l : Nat) (x : Word) : (w.wv r l x).slot = w.slot := by unfold Wave.wv; split <;> rfl
@[simp] theorem Wave.wv_image (w : Wave) (r : VReg) (l : Nat) (x : Word) : (w.wv r l x).image = w.image := by unfold Wave.wv; split <;> rfl
@[simp] theorem Wave.wv_launched (w : Wave) (r : VReg) (l : Nat) (x : Word) : (w.wv r l x).launched = w.launched := by unfold Wave.wv; split <;> rfl
@[simp] theorem Wave.wv_pcs (w : Wave) (r : VReg) (l : Nat) (x : Word) : (w.wv r l x).pcs = w.pcs := by unfold Wave.wv; split <;> rfl
@[simp] theorem Wave.wv_threads (w : Wave) (r : VReg) (l : Nat) (x : Word) : (w.wv r l x).threads = w.threads := by unfold Wave.wv; split <;> rfl
@[simp] theorem Wave.wv_s (w : Wave) (r : VReg) (l : Nat) (x : Word) : (w.wv r l x).s = w.s := by unfold Wave.wv; split <;> rfl
@[simp] theorem Wave.wv_m (w : Wave) (r : VReg) (l : Nat) (x : Word) : (w.wv r l x).m = w.m := by unfold Wave.wv; split <;> rfl
@[simp] theorem Wave.wv_q (w : Wave) (r : VReg) (l : Nat) (x : Word) : (w.wv r l x).q = w.q := by unfold Wave.wv; split <;> rfl
@[simp] theorem Wave.wv_f (w : Wave) (r : VReg) (l : Nat) (x : Word) : (w.wv r l x).f = w.f := by unfold Wave.wv; split <;> rfl
@[simp] theorem Wave.wv_ports (w : Wave) (r : VReg) (l : Nat) (x : Word) : (w.wv r l x).ports = w.ports := by unfold Wave.wv; split <;> rfl
@[simp] theorem Wave.wv_seed (w : Wave) (r : VReg) (l : Nat) (x : Word) : (w.wv r l x).seed = w.seed := by unfold Wave.wv; split <;> rfl
@[simp] theorem Wave.wv_draws (w : Wave) (r : VReg) (l : Nat) (x : Word) : (w.wv r l x).draws = w.draws := by unfold Wave.wv; split <;> rfl
@[simp] theorem Wave.wv_save (w : Wave) (r : VReg) (l : Nat) (x : Word) : (w.wv r l x).save = w.save := by unfold Wave.wv; split <;> rfl
@[simp] theorem Wave.wv_fpctl (w : Wave) (r : VReg) (l : Nat) (x : Word) : (w.wv r l x).fpctl = w.fpctl := by unfold Wave.wv; split <;> rfl
@[simp] theorem Wave.wv_fpstat (w : Wave) (r : VReg) (l : Nat) (x : Word) : (w.wv r l x).fpstat = w.fpstat := by unfold Wave.wv; split <;> rfl
@[simp] theorem Wave.wv_prio (w : Wave) (r : VReg) (l : Nat) (x : Word) : (w.wv r l x).prio = w.prio := by unfold Wave.wv; split <;> rfl
@[simp] theorem Wave.wv_age (w : Wave) (r : VReg) (l : Nat) (x : Word) : (w.wv r l x).age = w.age := by unfold Wave.wv; split <;> rfl
@[simp] theorem Wave.wv_trapcause (w : Wave) (r : VReg) (l : Nat) (x : Word) : (w.wv r l x).trapcause = w.trapcause := by unfold Wave.wv; split <;> rfl
@[simp] theorem Wave.wv_trapaddr (w : Wave) (r : VReg) (l : Nat) (x : Word) : (w.wv r l x).trapaddr = w.trapaddr := by unfold Wave.wv; split <;> rfl
@[simp] theorem Wave.wv_trappc (w : Wave) (r : VReg) (l : Nat) (x : Word) : (w.wv r l x).trappc = w.trappc := by unfold Wave.wv; split <;> rfl
@[simp] theorem Wave.wv_delivered (w : Wave) (r : VReg) (l : Nat) (x : Word) : (w.wv r l x).delivered = w.delivered := by unfold Wave.wv; split <;> rfl
@[simp] theorem Wave.wv_tfault (w : Wave) (r : VReg) (l : Nat) (x : Word) : (w.wv r l x).tfault = w.tfault := by unfold Wave.wv; split <;> rfl
@[simp] theorem Wave.wv_late (w : Wave) (r : VReg) (l : Nat) (x : Word) : (w.wv r l x).late = w.late := by unfold Wave.wv; split <;> rfl
@[simp] theorem Wave.wv_waitovf (w : Wave) (r : VReg) (l : Nat) (x : Word) : (w.wv r l x).waitovf = w.waitovf := by unfold Wave.wv; split <;> rfl
@[simp] theorem Wave.wv_capture (w : Wave) (r : VReg) (l : Nat) (x : Word) : (w.wv r l x).capture = w.capture := by unfold Wave.wv; split <;> rfl
@[simp] theorem Wave.wv_waveid (w : Wave) (r : VReg) (l : Nat) (x : Word) : (w.wv r l x).waveid = w.waveid := by unfold Wave.wv; split <;> rfl
@[simp] theorem Wave.wv_gidx (w : Wave) (r : VReg) (l : Nat) (x : Word) : (w.wv r l x).gidx = w.gidx := by unfold Wave.wv; split <;> rfl
@[simp] theorem Wave.wv_ngroups (w : Wave) (r : VReg) (l : Nat) (x : Word) : (w.wv r l x).ngroups = w.ngroups := by unfold Wave.wv; split <;> rfl
@[simp] theorem Wave.wv_cidx (w : Wave) (r : VReg) (l : Nat) (x : Word) : (w.wv r l x).cidx = w.cidx := by unfold Wave.wv; split <;> rfl
@[simp] theorem Wave.wv_rngstream (w : Wave) (r : VReg) (l : Nat) (x : Word) : (w.wv r l x).rngstream = w.rngstream := by unfold Wave.wv; split <;> rfl
@[simp] theorem Wave.wv_codebase (w : Wave) (r : VReg) (l : Nat) (x : Word) : (w.wv r l x).codebase = w.codebase := by unfold Wave.wv; split <;> rfl
@[simp] theorem Wave.wv_localbase (w : Wave) (r : VReg) (l : Nat) (x : Word) : (w.wv r l x).localbase = w.localbase := by unfold Wave.wv; split <;> rfl
@[simp] theorem Wave.wv_localsize (w : Wave) (r : VReg) (l : Nat) (x : Word) : (w.wv r l x).localsize = w.localsize := by unfold Wave.wv; split <;> rfl
@[simp] theorem Wave.wv_trapVec (w : Wave) (r : VReg) (l : Nat) (x : Word) : (w.wv r l x).trapVec = w.trapVec := by unfold Wave.wv; split <;> rfl
@[simp] theorem Wave.wv_ceiling (w : Wave) (r : VReg) (l : Nat) (x : Word) : (w.wv r l x).ceiling = w.ceiling := by unfold Wave.wv; split <;> rfl
@[simp] theorem Wave.wv_regsDecl (w : Wave) (r : VReg) (l : Nat) (x : Word) : (w.wv r l x).regsDecl = w.regsDecl := by unfold Wave.wv; split <;> rfl
@[simp] theorem Wave.wv_pixel (w : Wave) (r : VReg) (l : Nat) (x : Word) : (w.wv r l x).pixel = w.pixel := by unfold Wave.wv; split <;> rfl
@[simp] theorem Wave.wv_parked (w : Wave) (r : VReg) (l : Nat) (x : Word) : (w.wv r l x).parked = w.parked := by unfold Wave.wv; split <;> rfl
@[simp] theorem Wave.wv_sleepers (w : Wave) (r : VReg) (l : Nat) (x : Word) : (w.wv r l x).sleepers = w.sleepers := by unfold Wave.wv; split <;> rfl
@[simp] theorem Wave.wv_watch (w : Wave) (r : VReg) (l : Nat) (x : Word) : (w.wv r l x).watch = w.watch := by unfold Wave.wv; split <;> rfl
@[simp] theorem Wave.wv_arrivals (w : Wave) (r : VReg) (l : Nat) (x : Word) : (w.wv r l x).arrivals = w.arrivals := by unfold Wave.wv; split <;> rfl
@[simp] theorem Wave.wv_flights (w : Wave) (r : VReg) (l : Nat) (x : Word) : (w.wv r l x).flights = w.flights := by unfold Wave.wv; split <;> rfl
@[simp] theorem Wave.wv_nextOp (w : Wave) (r : VReg) (l : Nat) (x : Word) : (w.wv r l x).nextOp = w.nextOp := by unfold Wave.wv; split <;> rfl
@[simp] theorem Wave.wv_nextOrder (w : Wave) (r : VReg) (l : Nat) (x : Word) : (w.wv r l x).nextOrder = w.nextOrder := by unfold Wave.wv; split <;> rfl
@[simp] theorem Wave.wv_lastIssue (w : Wave) (r : VReg) (l : Nat) (x : Word) : (w.wv r l x).lastIssue = w.lastIssue := by unfold Wave.wv; split <;> rfl
@[simp] theorem Wave.wv_yielded (w : Wave) (r : VReg) (l : Nat) (x : Word) : (w.wv r l x).yielded = w.yielded := by unfold Wave.wv; split <;> rfl
@[simp] theorem Wave.wv_owed (w : Wave) (r : VReg) (l : Nat) (x : Word) : (w.wv r l x).owed = w.owed := by unfold Wave.wv; split <;> rfl
@[simp] theorem Wave.wv_aging (w : Wave) (r : VReg) (l : Nat) (x : Word) : (w.wv r l x).aging = w.aging := by unfold Wave.wv; split <;> rfl
@[simp] theorem Wave.wv_promoted (w : Wave) (r : VReg) (l : Nat) (x : Word) : (w.wv r l x).promoted = w.promoted := by unfold Wave.wv; split <;> rfl
@[simp] theorem Wave.wv_selPrio (w : Wave) (r : VReg) (l : Nat) (x : Word) : (w.wv r l x).selPrio = w.selPrio := by unfold Wave.wv; split <;> rfl
@[simp] theorem Wave.wv_preempted (w : Wave) (r : VReg) (l : Nat) (x : Word) : (w.wv r l x).preempted = w.preempted := by unfold Wave.wv; split <;> rfl
@[simp] theorem Wave.wv_corrupt (w : Wave) (r : VReg) (l : Nat) (x : Word) : (w.wv r l x).corrupt = w.corrupt := by unfold Wave.wv; split <;> rfl
@[simp] theorem Wave.wv_tileFaults (w : Wave) (r : VReg) (l : Nat) (x : Word) : (w.wv r l x).tileFaults = w.tileFaults := by unfold Wave.wv; split <;> rfl
@[simp] theorem Wave.wv_holding (w : Wave) (r : VReg) (l : Nat) (x : Word) : (w.wv r l x).holding = w.holding := by unfold Wave.wv; split <;> rfl
@[simp] theorem Wave.wv_heldWords (w : Wave) (r : VReg) (l : Nat) (x : Word) : (w.wv r l x).heldWords = w.heldWords := by unfold Wave.wv; split <;> rfl
@[simp] theorem Wave.wv_captures (w : Wave) (r : VReg) (l : Nat) (x : Word) : (w.wv r l x).captures = w.captures := by unfold Wave.wv; split <;> rfl

@[simp] theorem Wave.ws_group (w : Wave) (r : SReg) (x : Word) : (w.ws r x).group = w.group := rfl
@[simp] theorem Wave.ws_launch (w : Wave) (r : SReg) (x : Word) : (w.ws r x).launch = w.launch := rfl
@[simp] theorem Wave.ws_pasid (w : Wave) (r : SReg) (x : Word) : (w.ws r x).pasid = w.pasid := rfl
@[simp] theorem Wave.ws_core (w : Wave) (r : SReg) (x : Word) : (w.ws r x).core = w.core := rfl
@[simp] theorem Wave.ws_slot (w : Wave) (r : SReg) (x : Word) : (w.ws r x).slot = w.slot := rfl
@[simp] theorem Wave.ws_image (w : Wave) (r : SReg) (x : Word) : (w.ws r x).image = w.image := rfl
@[simp] theorem Wave.ws_launched (w : Wave) (r : SReg) (x : Word) : (w.ws r x).launched = w.launched := rfl
@[simp] theorem Wave.ws_pcs (w : Wave) (r : SReg) (x : Word) : (w.ws r x).pcs = w.pcs := rfl
@[simp] theorem Wave.ws_threads (w : Wave) (r : SReg) (x : Word) : (w.ws r x).threads = w.threads := rfl
@[simp] theorem Wave.ws_v (w : Wave) (r : SReg) (x : Word) : (w.ws r x).v = w.v := rfl
@[simp] theorem Wave.ws_m (w : Wave) (r : SReg) (x : Word) : (w.ws r x).m = w.m := rfl
@[simp] theorem Wave.ws_q (w : Wave) (r : SReg) (x : Word) : (w.ws r x).q = w.q := rfl
@[simp] theorem Wave.ws_f (w : Wave) (r : SReg) (x : Word) : (w.ws r x).f = w.f := rfl
@[simp] theorem Wave.ws_ports (w : Wave) (r : SReg) (x : Word) : (w.ws r x).ports = w.ports := rfl
@[simp] theorem Wave.ws_seed (w : Wave) (r : SReg) (x : Word) : (w.ws r x).seed = w.seed := rfl
@[simp] theorem Wave.ws_draws (w : Wave) (r : SReg) (x : Word) : (w.ws r x).draws = w.draws := rfl
@[simp] theorem Wave.ws_save (w : Wave) (r : SReg) (x : Word) : (w.ws r x).save = w.save := rfl
@[simp] theorem Wave.ws_fpctl (w : Wave) (r : SReg) (x : Word) : (w.ws r x).fpctl = w.fpctl := rfl
@[simp] theorem Wave.ws_fpstat (w : Wave) (r : SReg) (x : Word) : (w.ws r x).fpstat = w.fpstat := rfl
@[simp] theorem Wave.ws_prio (w : Wave) (r : SReg) (x : Word) : (w.ws r x).prio = w.prio := rfl
@[simp] theorem Wave.ws_age (w : Wave) (r : SReg) (x : Word) : (w.ws r x).age = w.age := rfl
@[simp] theorem Wave.ws_trapcause (w : Wave) (r : SReg) (x : Word) : (w.ws r x).trapcause = w.trapcause := rfl
@[simp] theorem Wave.ws_trapaddr (w : Wave) (r : SReg) (x : Word) : (w.ws r x).trapaddr = w.trapaddr := rfl
@[simp] theorem Wave.ws_trappc (w : Wave) (r : SReg) (x : Word) : (w.ws r x).trappc = w.trappc := rfl
@[simp] theorem Wave.ws_delivered (w : Wave) (r : SReg) (x : Word) : (w.ws r x).delivered = w.delivered := rfl
@[simp] theorem Wave.ws_tfault (w : Wave) (r : SReg) (x : Word) : (w.ws r x).tfault = w.tfault := rfl
@[simp] theorem Wave.ws_late (w : Wave) (r : SReg) (x : Word) : (w.ws r x).late = w.late := rfl
@[simp] theorem Wave.ws_waitovf (w : Wave) (r : SReg) (x : Word) : (w.ws r x).waitovf = w.waitovf := rfl
@[simp] theorem Wave.ws_capture (w : Wave) (r : SReg) (x : Word) : (w.ws r x).capture = w.capture := rfl
@[simp] theorem Wave.ws_waveid (w : Wave) (r : SReg) (x : Word) : (w.ws r x).waveid = w.waveid := rfl
@[simp] theorem Wave.ws_gidx (w : Wave) (r : SReg) (x : Word) : (w.ws r x).gidx = w.gidx := rfl
@[simp] theorem Wave.ws_ngroups (w : Wave) (r : SReg) (x : Word) : (w.ws r x).ngroups = w.ngroups := rfl
@[simp] theorem Wave.ws_cidx (w : Wave) (r : SReg) (x : Word) : (w.ws r x).cidx = w.cidx := rfl
@[simp] theorem Wave.ws_rngstream (w : Wave) (r : SReg) (x : Word) : (w.ws r x).rngstream = w.rngstream := rfl
@[simp] theorem Wave.ws_codebase (w : Wave) (r : SReg) (x : Word) : (w.ws r x).codebase = w.codebase := rfl
@[simp] theorem Wave.ws_localbase (w : Wave) (r : SReg) (x : Word) : (w.ws r x).localbase = w.localbase := rfl
@[simp] theorem Wave.ws_localsize (w : Wave) (r : SReg) (x : Word) : (w.ws r x).localsize = w.localsize := rfl
@[simp] theorem Wave.ws_trapVec (w : Wave) (r : SReg) (x : Word) : (w.ws r x).trapVec = w.trapVec := rfl
@[simp] theorem Wave.ws_ceiling (w : Wave) (r : SReg) (x : Word) : (w.ws r x).ceiling = w.ceiling := rfl
@[simp] theorem Wave.ws_regsDecl (w : Wave) (r : SReg) (x : Word) : (w.ws r x).regsDecl = w.regsDecl := rfl
@[simp] theorem Wave.ws_pixel (w : Wave) (r : SReg) (x : Word) : (w.ws r x).pixel = w.pixel := rfl
@[simp] theorem Wave.ws_parked (w : Wave) (r : SReg) (x : Word) : (w.ws r x).parked = w.parked := rfl
@[simp] theorem Wave.ws_sleepers (w : Wave) (r : SReg) (x : Word) : (w.ws r x).sleepers = w.sleepers := rfl
@[simp] theorem Wave.ws_watch (w : Wave) (r : SReg) (x : Word) : (w.ws r x).watch = w.watch := rfl
@[simp] theorem Wave.ws_arrivals (w : Wave) (r : SReg) (x : Word) : (w.ws r x).arrivals = w.arrivals := rfl
@[simp] theorem Wave.ws_flights (w : Wave) (r : SReg) (x : Word) : (w.ws r x).flights = w.flights := rfl
@[simp] theorem Wave.ws_nextOp (w : Wave) (r : SReg) (x : Word) : (w.ws r x).nextOp = w.nextOp := rfl
@[simp] theorem Wave.ws_nextOrder (w : Wave) (r : SReg) (x : Word) : (w.ws r x).nextOrder = w.nextOrder := rfl
@[simp] theorem Wave.ws_lastIssue (w : Wave) (r : SReg) (x : Word) : (w.ws r x).lastIssue = w.lastIssue := rfl
@[simp] theorem Wave.ws_yielded (w : Wave) (r : SReg) (x : Word) : (w.ws r x).yielded = w.yielded := rfl
@[simp] theorem Wave.ws_owed (w : Wave) (r : SReg) (x : Word) : (w.ws r x).owed = w.owed := rfl
@[simp] theorem Wave.ws_aging (w : Wave) (r : SReg) (x : Word) : (w.ws r x).aging = w.aging := rfl
@[simp] theorem Wave.ws_promoted (w : Wave) (r : SReg) (x : Word) : (w.ws r x).promoted = w.promoted := rfl
@[simp] theorem Wave.ws_selPrio (w : Wave) (r : SReg) (x : Word) : (w.ws r x).selPrio = w.selPrio := rfl
@[simp] theorem Wave.ws_preempted (w : Wave) (r : SReg) (x : Word) : (w.ws r x).preempted = w.preempted := rfl
@[simp] theorem Wave.ws_corrupt (w : Wave) (r : SReg) (x : Word) : (w.ws r x).corrupt = w.corrupt := rfl
@[simp] theorem Wave.ws_tileFaults (w : Wave) (r : SReg) (x : Word) : (w.ws r x).tileFaults = w.tileFaults := rfl
@[simp] theorem Wave.ws_holding (w : Wave) (r : SReg) (x : Word) : (w.ws r x).holding = w.holding := rfl
@[simp] theorem Wave.ws_heldWords (w : Wave) (r : SReg) (x : Word) : (w.ws r x).heldWords = w.heldWords := rfl
@[simp] theorem Wave.ws_captures (w : Wave) (r : SReg) (x : Word) : (w.ws r x).captures = w.captures := rfl

@[simp] theorem Wave.wm_group (w : Wave) (r : MReg) (x : Lanes) : (w.wm r x).group = w.group := by unfold Wave.wm; split <;> rfl
@[simp] theorem Wave.wm_launch (w : Wave) (r : MReg) (x : Lanes) : (w.wm r x).launch = w.launch := by unfold Wave.wm; split <;> rfl
@[simp] theorem Wave.wm_pasid (w : Wave) (r : MReg) (x : Lanes) : (w.wm r x).pasid = w.pasid := by unfold Wave.wm; split <;> rfl
@[simp] theorem Wave.wm_core (w : Wave) (r : MReg) (x : Lanes) : (w.wm r x).core = w.core := by unfold Wave.wm; split <;> rfl
@[simp] theorem Wave.wm_slot (w : Wave) (r : MReg) (x : Lanes) : (w.wm r x).slot = w.slot := by unfold Wave.wm; split <;> rfl
@[simp] theorem Wave.wm_image (w : Wave) (r : MReg) (x : Lanes) : (w.wm r x).image = w.image := by unfold Wave.wm; split <;> rfl
@[simp] theorem Wave.wm_launched (w : Wave) (r : MReg) (x : Lanes) : (w.wm r x).launched = w.launched := by unfold Wave.wm; split <;> rfl
@[simp] theorem Wave.wm_pcs (w : Wave) (r : MReg) (x : Lanes) : (w.wm r x).pcs = w.pcs := by unfold Wave.wm; split <;> rfl
@[simp] theorem Wave.wm_threads (w : Wave) (r : MReg) (x : Lanes) : (w.wm r x).threads = w.threads := by unfold Wave.wm; split <;> rfl
@[simp] theorem Wave.wm_v (w : Wave) (r : MReg) (x : Lanes) : (w.wm r x).v = w.v := by unfold Wave.wm; split <;> rfl
@[simp] theorem Wave.wm_s (w : Wave) (r : MReg) (x : Lanes) : (w.wm r x).s = w.s := by unfold Wave.wm; split <;> rfl
@[simp] theorem Wave.wm_q (w : Wave) (r : MReg) (x : Lanes) : (w.wm r x).q = w.q := by unfold Wave.wm; split <;> rfl
@[simp] theorem Wave.wm_f (w : Wave) (r : MReg) (x : Lanes) : (w.wm r x).f = w.f := by unfold Wave.wm; split <;> rfl
@[simp] theorem Wave.wm_ports (w : Wave) (r : MReg) (x : Lanes) : (w.wm r x).ports = w.ports := by unfold Wave.wm; split <;> rfl
@[simp] theorem Wave.wm_seed (w : Wave) (r : MReg) (x : Lanes) : (w.wm r x).seed = w.seed := by unfold Wave.wm; split <;> rfl
@[simp] theorem Wave.wm_draws (w : Wave) (r : MReg) (x : Lanes) : (w.wm r x).draws = w.draws := by unfold Wave.wm; split <;> rfl
@[simp] theorem Wave.wm_save (w : Wave) (r : MReg) (x : Lanes) : (w.wm r x).save = w.save := by unfold Wave.wm; split <;> rfl
@[simp] theorem Wave.wm_fpctl (w : Wave) (r : MReg) (x : Lanes) : (w.wm r x).fpctl = w.fpctl := by unfold Wave.wm; split <;> rfl
@[simp] theorem Wave.wm_fpstat (w : Wave) (r : MReg) (x : Lanes) : (w.wm r x).fpstat = w.fpstat := by unfold Wave.wm; split <;> rfl
@[simp] theorem Wave.wm_prio (w : Wave) (r : MReg) (x : Lanes) : (w.wm r x).prio = w.prio := by unfold Wave.wm; split <;> rfl
@[simp] theorem Wave.wm_age (w : Wave) (r : MReg) (x : Lanes) : (w.wm r x).age = w.age := by unfold Wave.wm; split <;> rfl
@[simp] theorem Wave.wm_trapcause (w : Wave) (r : MReg) (x : Lanes) : (w.wm r x).trapcause = w.trapcause := by unfold Wave.wm; split <;> rfl
@[simp] theorem Wave.wm_trapaddr (w : Wave) (r : MReg) (x : Lanes) : (w.wm r x).trapaddr = w.trapaddr := by unfold Wave.wm; split <;> rfl
@[simp] theorem Wave.wm_trappc (w : Wave) (r : MReg) (x : Lanes) : (w.wm r x).trappc = w.trappc := by unfold Wave.wm; split <;> rfl
@[simp] theorem Wave.wm_delivered (w : Wave) (r : MReg) (x : Lanes) : (w.wm r x).delivered = w.delivered := by unfold Wave.wm; split <;> rfl
@[simp] theorem Wave.wm_tfault (w : Wave) (r : MReg) (x : Lanes) : (w.wm r x).tfault = w.tfault := by unfold Wave.wm; split <;> rfl
@[simp] theorem Wave.wm_late (w : Wave) (r : MReg) (x : Lanes) : (w.wm r x).late = w.late := by unfold Wave.wm; split <;> rfl
@[simp] theorem Wave.wm_waitovf (w : Wave) (r : MReg) (x : Lanes) : (w.wm r x).waitovf = w.waitovf := by unfold Wave.wm; split <;> rfl
@[simp] theorem Wave.wm_capture (w : Wave) (r : MReg) (x : Lanes) : (w.wm r x).capture = w.capture := by unfold Wave.wm; split <;> rfl
@[simp] theorem Wave.wm_waveid (w : Wave) (r : MReg) (x : Lanes) : (w.wm r x).waveid = w.waveid := by unfold Wave.wm; split <;> rfl
@[simp] theorem Wave.wm_gidx (w : Wave) (r : MReg) (x : Lanes) : (w.wm r x).gidx = w.gidx := by unfold Wave.wm; split <;> rfl
@[simp] theorem Wave.wm_ngroups (w : Wave) (r : MReg) (x : Lanes) : (w.wm r x).ngroups = w.ngroups := by unfold Wave.wm; split <;> rfl
@[simp] theorem Wave.wm_cidx (w : Wave) (r : MReg) (x : Lanes) : (w.wm r x).cidx = w.cidx := by unfold Wave.wm; split <;> rfl
@[simp] theorem Wave.wm_rngstream (w : Wave) (r : MReg) (x : Lanes) : (w.wm r x).rngstream = w.rngstream := by unfold Wave.wm; split <;> rfl
@[simp] theorem Wave.wm_codebase (w : Wave) (r : MReg) (x : Lanes) : (w.wm r x).codebase = w.codebase := by unfold Wave.wm; split <;> rfl
@[simp] theorem Wave.wm_localbase (w : Wave) (r : MReg) (x : Lanes) : (w.wm r x).localbase = w.localbase := by unfold Wave.wm; split <;> rfl
@[simp] theorem Wave.wm_localsize (w : Wave) (r : MReg) (x : Lanes) : (w.wm r x).localsize = w.localsize := by unfold Wave.wm; split <;> rfl
@[simp] theorem Wave.wm_trapVec (w : Wave) (r : MReg) (x : Lanes) : (w.wm r x).trapVec = w.trapVec := by unfold Wave.wm; split <;> rfl
@[simp] theorem Wave.wm_ceiling (w : Wave) (r : MReg) (x : Lanes) : (w.wm r x).ceiling = w.ceiling := by unfold Wave.wm; split <;> rfl
@[simp] theorem Wave.wm_regsDecl (w : Wave) (r : MReg) (x : Lanes) : (w.wm r x).regsDecl = w.regsDecl := by unfold Wave.wm; split <;> rfl
@[simp] theorem Wave.wm_pixel (w : Wave) (r : MReg) (x : Lanes) : (w.wm r x).pixel = w.pixel := by unfold Wave.wm; split <;> rfl
@[simp] theorem Wave.wm_parked (w : Wave) (r : MReg) (x : Lanes) : (w.wm r x).parked = w.parked := by unfold Wave.wm; split <;> rfl
@[simp] theorem Wave.wm_sleepers (w : Wave) (r : MReg) (x : Lanes) : (w.wm r x).sleepers = w.sleepers := by unfold Wave.wm; split <;> rfl
@[simp] theorem Wave.wm_watch (w : Wave) (r : MReg) (x : Lanes) : (w.wm r x).watch = w.watch := by unfold Wave.wm; split <;> rfl
@[simp] theorem Wave.wm_arrivals (w : Wave) (r : MReg) (x : Lanes) : (w.wm r x).arrivals = w.arrivals := by unfold Wave.wm; split <;> rfl
@[simp] theorem Wave.wm_flights (w : Wave) (r : MReg) (x : Lanes) : (w.wm r x).flights = w.flights := by unfold Wave.wm; split <;> rfl
@[simp] theorem Wave.wm_nextOp (w : Wave) (r : MReg) (x : Lanes) : (w.wm r x).nextOp = w.nextOp := by unfold Wave.wm; split <;> rfl
@[simp] theorem Wave.wm_nextOrder (w : Wave) (r : MReg) (x : Lanes) : (w.wm r x).nextOrder = w.nextOrder := by unfold Wave.wm; split <;> rfl
@[simp] theorem Wave.wm_lastIssue (w : Wave) (r : MReg) (x : Lanes) : (w.wm r x).lastIssue = w.lastIssue := by unfold Wave.wm; split <;> rfl
@[simp] theorem Wave.wm_yielded (w : Wave) (r : MReg) (x : Lanes) : (w.wm r x).yielded = w.yielded := by unfold Wave.wm; split <;> rfl
@[simp] theorem Wave.wm_owed (w : Wave) (r : MReg) (x : Lanes) : (w.wm r x).owed = w.owed := by unfold Wave.wm; split <;> rfl
@[simp] theorem Wave.wm_aging (w : Wave) (r : MReg) (x : Lanes) : (w.wm r x).aging = w.aging := by unfold Wave.wm; split <;> rfl
@[simp] theorem Wave.wm_promoted (w : Wave) (r : MReg) (x : Lanes) : (w.wm r x).promoted = w.promoted := by unfold Wave.wm; split <;> rfl
@[simp] theorem Wave.wm_selPrio (w : Wave) (r : MReg) (x : Lanes) : (w.wm r x).selPrio = w.selPrio := by unfold Wave.wm; split <;> rfl
@[simp] theorem Wave.wm_preempted (w : Wave) (r : MReg) (x : Lanes) : (w.wm r x).preempted = w.preempted := by unfold Wave.wm; split <;> rfl
@[simp] theorem Wave.wm_corrupt (w : Wave) (r : MReg) (x : Lanes) : (w.wm r x).corrupt = w.corrupt := by unfold Wave.wm; split <;> rfl
@[simp] theorem Wave.wm_tileFaults (w : Wave) (r : MReg) (x : Lanes) : (w.wm r x).tileFaults = w.tileFaults := by unfold Wave.wm; split <;> rfl
@[simp] theorem Wave.wm_holding (w : Wave) (r : MReg) (x : Lanes) : (w.wm r x).holding = w.holding := by unfold Wave.wm; split <;> rfl
@[simp] theorem Wave.wm_heldWords (w : Wave) (r : MReg) (x : Lanes) : (w.wm r x).heldWords = w.heldWords := by unfold Wave.wm; split <;> rfl
@[simp] theorem Wave.wm_captures (w : Wave) (r : MReg) (x : Lanes) : (w.wm r x).captures = w.captures := by unfold Wave.wm; split <;> rfl

@[simp] theorem Wave.wq_group (w : Wave) (r : BitVec 4) (b : Bool) : (w.wq r b).group = w.group := by unfold Wave.wq; split <;> rfl
@[simp] theorem Wave.wq_launch (w : Wave) (r : BitVec 4) (b : Bool) : (w.wq r b).launch = w.launch := by unfold Wave.wq; split <;> rfl
@[simp] theorem Wave.wq_pasid (w : Wave) (r : BitVec 4) (b : Bool) : (w.wq r b).pasid = w.pasid := by unfold Wave.wq; split <;> rfl
@[simp] theorem Wave.wq_core (w : Wave) (r : BitVec 4) (b : Bool) : (w.wq r b).core = w.core := by unfold Wave.wq; split <;> rfl
@[simp] theorem Wave.wq_slot (w : Wave) (r : BitVec 4) (b : Bool) : (w.wq r b).slot = w.slot := by unfold Wave.wq; split <;> rfl
@[simp] theorem Wave.wq_image (w : Wave) (r : BitVec 4) (b : Bool) : (w.wq r b).image = w.image := by unfold Wave.wq; split <;> rfl
@[simp] theorem Wave.wq_launched (w : Wave) (r : BitVec 4) (b : Bool) : (w.wq r b).launched = w.launched := by unfold Wave.wq; split <;> rfl
@[simp] theorem Wave.wq_pcs (w : Wave) (r : BitVec 4) (b : Bool) : (w.wq r b).pcs = w.pcs := by unfold Wave.wq; split <;> rfl
@[simp] theorem Wave.wq_threads (w : Wave) (r : BitVec 4) (b : Bool) : (w.wq r b).threads = w.threads := by unfold Wave.wq; split <;> rfl
@[simp] theorem Wave.wq_v (w : Wave) (r : BitVec 4) (b : Bool) : (w.wq r b).v = w.v := by unfold Wave.wq; split <;> rfl
@[simp] theorem Wave.wq_s (w : Wave) (r : BitVec 4) (b : Bool) : (w.wq r b).s = w.s := by unfold Wave.wq; split <;> rfl
@[simp] theorem Wave.wq_m (w : Wave) (r : BitVec 4) (b : Bool) : (w.wq r b).m = w.m := by unfold Wave.wq; split <;> rfl
@[simp] theorem Wave.wq_f (w : Wave) (r : BitVec 4) (b : Bool) : (w.wq r b).f = w.f := by unfold Wave.wq; split <;> rfl
@[simp] theorem Wave.wq_ports (w : Wave) (r : BitVec 4) (b : Bool) : (w.wq r b).ports = w.ports := by unfold Wave.wq; split <;> rfl
@[simp] theorem Wave.wq_seed (w : Wave) (r : BitVec 4) (b : Bool) : (w.wq r b).seed = w.seed := by unfold Wave.wq; split <;> rfl
@[simp] theorem Wave.wq_draws (w : Wave) (r : BitVec 4) (b : Bool) : (w.wq r b).draws = w.draws := by unfold Wave.wq; split <;> rfl
@[simp] theorem Wave.wq_save (w : Wave) (r : BitVec 4) (b : Bool) : (w.wq r b).save = w.save := by unfold Wave.wq; split <;> rfl
@[simp] theorem Wave.wq_fpctl (w : Wave) (r : BitVec 4) (b : Bool) : (w.wq r b).fpctl = w.fpctl := by unfold Wave.wq; split <;> rfl
@[simp] theorem Wave.wq_fpstat (w : Wave) (r : BitVec 4) (b : Bool) : (w.wq r b).fpstat = w.fpstat := by unfold Wave.wq; split <;> rfl
@[simp] theorem Wave.wq_prio (w : Wave) (r : BitVec 4) (b : Bool) : (w.wq r b).prio = w.prio := by unfold Wave.wq; split <;> rfl
@[simp] theorem Wave.wq_age (w : Wave) (r : BitVec 4) (b : Bool) : (w.wq r b).age = w.age := by unfold Wave.wq; split <;> rfl
@[simp] theorem Wave.wq_trapcause (w : Wave) (r : BitVec 4) (b : Bool) : (w.wq r b).trapcause = w.trapcause := by unfold Wave.wq; split <;> rfl
@[simp] theorem Wave.wq_trapaddr (w : Wave) (r : BitVec 4) (b : Bool) : (w.wq r b).trapaddr = w.trapaddr := by unfold Wave.wq; split <;> rfl
@[simp] theorem Wave.wq_trappc (w : Wave) (r : BitVec 4) (b : Bool) : (w.wq r b).trappc = w.trappc := by unfold Wave.wq; split <;> rfl
@[simp] theorem Wave.wq_delivered (w : Wave) (r : BitVec 4) (b : Bool) : (w.wq r b).delivered = w.delivered := by unfold Wave.wq; split <;> rfl
@[simp] theorem Wave.wq_tfault (w : Wave) (r : BitVec 4) (b : Bool) : (w.wq r b).tfault = w.tfault := by unfold Wave.wq; split <;> rfl
@[simp] theorem Wave.wq_late (w : Wave) (r : BitVec 4) (b : Bool) : (w.wq r b).late = w.late := by unfold Wave.wq; split <;> rfl
@[simp] theorem Wave.wq_waitovf (w : Wave) (r : BitVec 4) (b : Bool) : (w.wq r b).waitovf = w.waitovf := by unfold Wave.wq; split <;> rfl
@[simp] theorem Wave.wq_capture (w : Wave) (r : BitVec 4) (b : Bool) : (w.wq r b).capture = w.capture := by unfold Wave.wq; split <;> rfl
@[simp] theorem Wave.wq_waveid (w : Wave) (r : BitVec 4) (b : Bool) : (w.wq r b).waveid = w.waveid := by unfold Wave.wq; split <;> rfl
@[simp] theorem Wave.wq_gidx (w : Wave) (r : BitVec 4) (b : Bool) : (w.wq r b).gidx = w.gidx := by unfold Wave.wq; split <;> rfl
@[simp] theorem Wave.wq_ngroups (w : Wave) (r : BitVec 4) (b : Bool) : (w.wq r b).ngroups = w.ngroups := by unfold Wave.wq; split <;> rfl
@[simp] theorem Wave.wq_cidx (w : Wave) (r : BitVec 4) (b : Bool) : (w.wq r b).cidx = w.cidx := by unfold Wave.wq; split <;> rfl
@[simp] theorem Wave.wq_rngstream (w : Wave) (r : BitVec 4) (b : Bool) : (w.wq r b).rngstream = w.rngstream := by unfold Wave.wq; split <;> rfl
@[simp] theorem Wave.wq_codebase (w : Wave) (r : BitVec 4) (b : Bool) : (w.wq r b).codebase = w.codebase := by unfold Wave.wq; split <;> rfl
@[simp] theorem Wave.wq_localbase (w : Wave) (r : BitVec 4) (b : Bool) : (w.wq r b).localbase = w.localbase := by unfold Wave.wq; split <;> rfl
@[simp] theorem Wave.wq_localsize (w : Wave) (r : BitVec 4) (b : Bool) : (w.wq r b).localsize = w.localsize := by unfold Wave.wq; split <;> rfl
@[simp] theorem Wave.wq_trapVec (w : Wave) (r : BitVec 4) (b : Bool) : (w.wq r b).trapVec = w.trapVec := by unfold Wave.wq; split <;> rfl
@[simp] theorem Wave.wq_ceiling (w : Wave) (r : BitVec 4) (b : Bool) : (w.wq r b).ceiling = w.ceiling := by unfold Wave.wq; split <;> rfl
@[simp] theorem Wave.wq_regsDecl (w : Wave) (r : BitVec 4) (b : Bool) : (w.wq r b).regsDecl = w.regsDecl := by unfold Wave.wq; split <;> rfl
@[simp] theorem Wave.wq_pixel (w : Wave) (r : BitVec 4) (b : Bool) : (w.wq r b).pixel = w.pixel := by unfold Wave.wq; split <;> rfl
@[simp] theorem Wave.wq_parked (w : Wave) (r : BitVec 4) (b : Bool) : (w.wq r b).parked = w.parked := by unfold Wave.wq; split <;> rfl
@[simp] theorem Wave.wq_sleepers (w : Wave) (r : BitVec 4) (b : Bool) : (w.wq r b).sleepers = w.sleepers := by unfold Wave.wq; split <;> rfl
@[simp] theorem Wave.wq_watch (w : Wave) (r : BitVec 4) (b : Bool) : (w.wq r b).watch = w.watch := by unfold Wave.wq; split <;> rfl
@[simp] theorem Wave.wq_arrivals (w : Wave) (r : BitVec 4) (b : Bool) : (w.wq r b).arrivals = w.arrivals := by unfold Wave.wq; split <;> rfl
@[simp] theorem Wave.wq_flights (w : Wave) (r : BitVec 4) (b : Bool) : (w.wq r b).flights = w.flights := by unfold Wave.wq; split <;> rfl
@[simp] theorem Wave.wq_nextOp (w : Wave) (r : BitVec 4) (b : Bool) : (w.wq r b).nextOp = w.nextOp := by unfold Wave.wq; split <;> rfl
@[simp] theorem Wave.wq_nextOrder (w : Wave) (r : BitVec 4) (b : Bool) : (w.wq r b).nextOrder = w.nextOrder := by unfold Wave.wq; split <;> rfl
@[simp] theorem Wave.wq_lastIssue (w : Wave) (r : BitVec 4) (b : Bool) : (w.wq r b).lastIssue = w.lastIssue := by unfold Wave.wq; split <;> rfl
@[simp] theorem Wave.wq_yielded (w : Wave) (r : BitVec 4) (b : Bool) : (w.wq r b).yielded = w.yielded := by unfold Wave.wq; split <;> rfl
@[simp] theorem Wave.wq_owed (w : Wave) (r : BitVec 4) (b : Bool) : (w.wq r b).owed = w.owed := by unfold Wave.wq; split <;> rfl
@[simp] theorem Wave.wq_aging (w : Wave) (r : BitVec 4) (b : Bool) : (w.wq r b).aging = w.aging := by unfold Wave.wq; split <;> rfl
@[simp] theorem Wave.wq_promoted (w : Wave) (r : BitVec 4) (b : Bool) : (w.wq r b).promoted = w.promoted := by unfold Wave.wq; split <;> rfl
@[simp] theorem Wave.wq_selPrio (w : Wave) (r : BitVec 4) (b : Bool) : (w.wq r b).selPrio = w.selPrio := by unfold Wave.wq; split <;> rfl
@[simp] theorem Wave.wq_preempted (w : Wave) (r : BitVec 4) (b : Bool) : (w.wq r b).preempted = w.preempted := by unfold Wave.wq; split <;> rfl
@[simp] theorem Wave.wq_corrupt (w : Wave) (r : BitVec 4) (b : Bool) : (w.wq r b).corrupt = w.corrupt := by unfold Wave.wq; split <;> rfl
@[simp] theorem Wave.wq_tileFaults (w : Wave) (r : BitVec 4) (b : Bool) : (w.wq r b).tileFaults = w.tileFaults := by unfold Wave.wq; split <;> rfl
@[simp] theorem Wave.wq_holding (w : Wave) (r : BitVec 4) (b : Bool) : (w.wq r b).holding = w.holding := by unfold Wave.wq; split <;> rfl
@[simp] theorem Wave.wq_heldWords (w : Wave) (r : BitVec 4) (b : Bool) : (w.wq r b).heldWords = w.heldWords := by unfold Wave.wq; split <;> rfl
@[simp] theorem Wave.wq_captures (w : Wave) (r : BitVec 4) (b : Bool) : (w.wq r b).captures = w.captures := by unfold Wave.wq; split <;> rfl

@[simp] theorem Wave.addParked_group (w : Wave) (p : Parked) : (w.addParked p).group = w.group := rfl
@[simp] theorem Wave.addParked_launch (w : Wave) (p : Parked) : (w.addParked p).launch = w.launch := rfl
@[simp] theorem Wave.addParked_pasid (w : Wave) (p : Parked) : (w.addParked p).pasid = w.pasid := rfl
@[simp] theorem Wave.addParked_core (w : Wave) (p : Parked) : (w.addParked p).core = w.core := rfl
@[simp] theorem Wave.addParked_slot (w : Wave) (p : Parked) : (w.addParked p).slot = w.slot := rfl
@[simp] theorem Wave.addParked_image (w : Wave) (p : Parked) : (w.addParked p).image = w.image := rfl
@[simp] theorem Wave.addParked_launched (w : Wave) (p : Parked) : (w.addParked p).launched = w.launched := rfl
@[simp] theorem Wave.addParked_pcs (w : Wave) (p : Parked) : (w.addParked p).pcs = w.pcs := rfl
@[simp] theorem Wave.addParked_v (w : Wave) (p : Parked) : (w.addParked p).v = w.v := rfl
@[simp] theorem Wave.addParked_s (w : Wave) (p : Parked) : (w.addParked p).s = w.s := rfl
@[simp] theorem Wave.addParked_m (w : Wave) (p : Parked) : (w.addParked p).m = w.m := rfl
@[simp] theorem Wave.addParked_q (w : Wave) (p : Parked) : (w.addParked p).q = w.q := rfl
@[simp] theorem Wave.addParked_f (w : Wave) (p : Parked) : (w.addParked p).f = w.f := rfl
@[simp] theorem Wave.addParked_ports (w : Wave) (p : Parked) : (w.addParked p).ports = w.ports := rfl
@[simp] theorem Wave.addParked_seed (w : Wave) (p : Parked) : (w.addParked p).seed = w.seed := rfl
@[simp] theorem Wave.addParked_draws (w : Wave) (p : Parked) : (w.addParked p).draws = w.draws := rfl
@[simp] theorem Wave.addParked_save (w : Wave) (p : Parked) : (w.addParked p).save = w.save := rfl
@[simp] theorem Wave.addParked_fpctl (w : Wave) (p : Parked) : (w.addParked p).fpctl = w.fpctl := rfl
@[simp] theorem Wave.addParked_fpstat (w : Wave) (p : Parked) : (w.addParked p).fpstat = w.fpstat := rfl
@[simp] theorem Wave.addParked_prio (w : Wave) (p : Parked) : (w.addParked p).prio = w.prio := rfl
@[simp] theorem Wave.addParked_age (w : Wave) (p : Parked) : (w.addParked p).age = w.age := rfl
@[simp] theorem Wave.addParked_trapcause (w : Wave) (p : Parked) : (w.addParked p).trapcause = w.trapcause := rfl
@[simp] theorem Wave.addParked_trapaddr (w : Wave) (p : Parked) : (w.addParked p).trapaddr = w.trapaddr := rfl
@[simp] theorem Wave.addParked_trappc (w : Wave) (p : Parked) : (w.addParked p).trappc = w.trappc := rfl
@[simp] theorem Wave.addParked_delivered (w : Wave) (p : Parked) : (w.addParked p).delivered = w.delivered := rfl
@[simp] theorem Wave.addParked_tfault (w : Wave) (p : Parked) : (w.addParked p).tfault = w.tfault := rfl
@[simp] theorem Wave.addParked_late (w : Wave) (p : Parked) : (w.addParked p).late = w.late := rfl
@[simp] theorem Wave.addParked_waitovf (w : Wave) (p : Parked) : (w.addParked p).waitovf = w.waitovf := rfl
@[simp] theorem Wave.addParked_capture (w : Wave) (p : Parked) : (w.addParked p).capture = w.capture := rfl
@[simp] theorem Wave.addParked_waveid (w : Wave) (p : Parked) : (w.addParked p).waveid = w.waveid := rfl
@[simp] theorem Wave.addParked_gidx (w : Wave) (p : Parked) : (w.addParked p).gidx = w.gidx := rfl
@[simp] theorem Wave.addParked_ngroups (w : Wave) (p : Parked) : (w.addParked p).ngroups = w.ngroups := rfl
@[simp] theorem Wave.addParked_cidx (w : Wave) (p : Parked) : (w.addParked p).cidx = w.cidx := rfl
@[simp] theorem Wave.addParked_rngstream (w : Wave) (p : Parked) : (w.addParked p).rngstream = w.rngstream := rfl
@[simp] theorem Wave.addParked_codebase (w : Wave) (p : Parked) : (w.addParked p).codebase = w.codebase := rfl
@[simp] theorem Wave.addParked_localbase (w : Wave) (p : Parked) : (w.addParked p).localbase = w.localbase := rfl
@[simp] theorem Wave.addParked_localsize (w : Wave) (p : Parked) : (w.addParked p).localsize = w.localsize := rfl
@[simp] theorem Wave.addParked_trapVec (w : Wave) (p : Parked) : (w.addParked p).trapVec = w.trapVec := rfl
@[simp] theorem Wave.addParked_ceiling (w : Wave) (p : Parked) : (w.addParked p).ceiling = w.ceiling := rfl
@[simp] theorem Wave.addParked_regsDecl (w : Wave) (p : Parked) : (w.addParked p).regsDecl = w.regsDecl := rfl
@[simp] theorem Wave.addParked_pixel (w : Wave) (p : Parked) : (w.addParked p).pixel = w.pixel := rfl
@[simp] theorem Wave.addParked_sleepers (w : Wave) (p : Parked) : (w.addParked p).sleepers = w.sleepers := rfl
@[simp] theorem Wave.addParked_watch (w : Wave) (p : Parked) : (w.addParked p).watch = w.watch := rfl
@[simp] theorem Wave.addParked_arrivals (w : Wave) (p : Parked) : (w.addParked p).arrivals = w.arrivals := rfl
@[simp] theorem Wave.addParked_flights (w : Wave) (p : Parked) : (w.addParked p).flights = w.flights := rfl
@[simp] theorem Wave.addParked_nextOp (w : Wave) (p : Parked) : (w.addParked p).nextOp = w.nextOp := rfl
@[simp] theorem Wave.addParked_lastIssue (w : Wave) (p : Parked) : (w.addParked p).lastIssue = w.lastIssue := rfl
@[simp] theorem Wave.addParked_yielded (w : Wave) (p : Parked) : (w.addParked p).yielded = w.yielded := rfl
@[simp] theorem Wave.addParked_owed (w : Wave) (p : Parked) : (w.addParked p).owed = w.owed := rfl
@[simp] theorem Wave.addParked_aging (w : Wave) (p : Parked) : (w.addParked p).aging = w.aging := rfl
@[simp] theorem Wave.addParked_promoted (w : Wave) (p : Parked) : (w.addParked p).promoted = w.promoted := rfl
@[simp] theorem Wave.addParked_selPrio (w : Wave) (p : Parked) : (w.addParked p).selPrio = w.selPrio := rfl
@[simp] theorem Wave.addParked_preempted (w : Wave) (p : Parked) : (w.addParked p).preempted = w.preempted := rfl
@[simp] theorem Wave.addParked_corrupt (w : Wave) (p : Parked) : (w.addParked p).corrupt = w.corrupt := rfl
@[simp] theorem Wave.addParked_tileFaults (w : Wave) (p : Parked) : (w.addParked p).tileFaults = w.tileFaults := rfl
@[simp] theorem Wave.addParked_holding (w : Wave) (p : Parked) : (w.addParked p).holding = w.holding := rfl
@[simp] theorem Wave.addParked_heldWords (w : Wave) (p : Parked) : (w.addParked p).heldWords = w.heldWords := rfl
@[simp] theorem Wave.addParked_captures (w : Wave) (p : Parked) : (w.addParked p).captures = w.captures := rfl

@[simp] theorem Wave.deliver_group (w : Wave) (p : Parked) : (w.deliver p).group = w.group := rfl
@[simp] theorem Wave.deliver_launch (w : Wave) (p : Parked) : (w.deliver p).launch = w.launch := rfl
@[simp] theorem Wave.deliver_pasid (w : Wave) (p : Parked) : (w.deliver p).pasid = w.pasid := rfl
@[simp] theorem Wave.deliver_core (w : Wave) (p : Parked) : (w.deliver p).core = w.core := rfl
@[simp] theorem Wave.deliver_slot (w : Wave) (p : Parked) : (w.deliver p).slot = w.slot := rfl
@[simp] theorem Wave.deliver_image (w : Wave) (p : Parked) : (w.deliver p).image = w.image := rfl
@[simp] theorem Wave.deliver_launched (w : Wave) (p : Parked) : (w.deliver p).launched = w.launched := rfl
@[simp] theorem Wave.deliver_v (w : Wave) (p : Parked) : (w.deliver p).v = w.v := rfl
@[simp] theorem Wave.deliver_s (w : Wave) (p : Parked) : (w.deliver p).s = w.s := rfl
@[simp] theorem Wave.deliver_m (w : Wave) (p : Parked) : (w.deliver p).m = w.m := rfl
@[simp] theorem Wave.deliver_q (w : Wave) (p : Parked) : (w.deliver p).q = w.q := rfl
@[simp] theorem Wave.deliver_f (w : Wave) (p : Parked) : (w.deliver p).f = w.f := rfl
@[simp] theorem Wave.deliver_ports (w : Wave) (p : Parked) : (w.deliver p).ports = w.ports := rfl
@[simp] theorem Wave.deliver_seed (w : Wave) (p : Parked) : (w.deliver p).seed = w.seed := rfl
@[simp] theorem Wave.deliver_draws (w : Wave) (p : Parked) : (w.deliver p).draws = w.draws := rfl
@[simp] theorem Wave.deliver_fpctl (w : Wave) (p : Parked) : (w.deliver p).fpctl = w.fpctl := rfl
@[simp] theorem Wave.deliver_fpstat (w : Wave) (p : Parked) : (w.deliver p).fpstat = w.fpstat := rfl
@[simp] theorem Wave.deliver_prio (w : Wave) (p : Parked) : (w.deliver p).prio = w.prio := rfl
@[simp] theorem Wave.deliver_age (w : Wave) (p : Parked) : (w.deliver p).age = w.age := rfl
@[simp] theorem Wave.deliver_tfault (w : Wave) (p : Parked) : (w.deliver p).tfault = w.tfault := rfl
@[simp] theorem Wave.deliver_late (w : Wave) (p : Parked) : (w.deliver p).late = w.late := rfl
@[simp] theorem Wave.deliver_waitovf (w : Wave) (p : Parked) : (w.deliver p).waitovf = w.waitovf := rfl
@[simp] theorem Wave.deliver_capture (w : Wave) (p : Parked) : (w.deliver p).capture = w.capture := rfl
@[simp] theorem Wave.deliver_waveid (w : Wave) (p : Parked) : (w.deliver p).waveid = w.waveid := rfl
@[simp] theorem Wave.deliver_gidx (w : Wave) (p : Parked) : (w.deliver p).gidx = w.gidx := rfl
@[simp] theorem Wave.deliver_ngroups (w : Wave) (p : Parked) : (w.deliver p).ngroups = w.ngroups := rfl
@[simp] theorem Wave.deliver_cidx (w : Wave) (p : Parked) : (w.deliver p).cidx = w.cidx := rfl
@[simp] theorem Wave.deliver_rngstream (w : Wave) (p : Parked) : (w.deliver p).rngstream = w.rngstream := rfl
@[simp] theorem Wave.deliver_codebase (w : Wave) (p : Parked) : (w.deliver p).codebase = w.codebase := rfl
@[simp] theorem Wave.deliver_localbase (w : Wave) (p : Parked) : (w.deliver p).localbase = w.localbase := rfl
@[simp] theorem Wave.deliver_localsize (w : Wave) (p : Parked) : (w.deliver p).localsize = w.localsize := rfl
@[simp] theorem Wave.deliver_trapVec (w : Wave) (p : Parked) : (w.deliver p).trapVec = w.trapVec := rfl
@[simp] theorem Wave.deliver_ceiling (w : Wave) (p : Parked) : (w.deliver p).ceiling = w.ceiling := rfl
@[simp] theorem Wave.deliver_regsDecl (w : Wave) (p : Parked) : (w.deliver p).regsDecl = w.regsDecl := rfl
@[simp] theorem Wave.deliver_pixel (w : Wave) (p : Parked) : (w.deliver p).pixel = w.pixel := rfl
@[simp] theorem Wave.deliver_sleepers (w : Wave) (p : Parked) : (w.deliver p).sleepers = w.sleepers := rfl
@[simp] theorem Wave.deliver_watch (w : Wave) (p : Parked) : (w.deliver p).watch = w.watch := rfl
@[simp] theorem Wave.deliver_arrivals (w : Wave) (p : Parked) : (w.deliver p).arrivals = w.arrivals := rfl
@[simp] theorem Wave.deliver_flights (w : Wave) (p : Parked) : (w.deliver p).flights = w.flights := rfl
@[simp] theorem Wave.deliver_nextOp (w : Wave) (p : Parked) : (w.deliver p).nextOp = w.nextOp := rfl
@[simp] theorem Wave.deliver_nextOrder (w : Wave) (p : Parked) : (w.deliver p).nextOrder = w.nextOrder := rfl
@[simp] theorem Wave.deliver_lastIssue (w : Wave) (p : Parked) : (w.deliver p).lastIssue = w.lastIssue := rfl
@[simp] theorem Wave.deliver_yielded (w : Wave) (p : Parked) : (w.deliver p).yielded = w.yielded := rfl
@[simp] theorem Wave.deliver_owed (w : Wave) (p : Parked) : (w.deliver p).owed = w.owed := rfl
@[simp] theorem Wave.deliver_aging (w : Wave) (p : Parked) : (w.deliver p).aging = w.aging := rfl
@[simp] theorem Wave.deliver_promoted (w : Wave) (p : Parked) : (w.deliver p).promoted = w.promoted := rfl
@[simp] theorem Wave.deliver_selPrio (w : Wave) (p : Parked) : (w.deliver p).selPrio = w.selPrio := rfl
@[simp] theorem Wave.deliver_preempted (w : Wave) (p : Parked) : (w.deliver p).preempted = w.preempted := rfl
@[simp] theorem Wave.deliver_corrupt (w : Wave) (p : Parked) : (w.deliver p).corrupt = w.corrupt := rfl
@[simp] theorem Wave.deliver_tileFaults (w : Wave) (p : Parked) : (w.deliver p).tileFaults = w.tileFaults := rfl
@[simp] theorem Wave.deliver_holding (w : Wave) (p : Parked) : (w.deliver p).holding = w.holding := rfl
@[simp] theorem Wave.deliver_heldWords (w : Wave) (p : Parked) : (w.deliver p).heldWords = w.heldWords := rfl
@[simp] theorem Wave.deliver_captures (w : Wave) (p : Parked) : (w.deliver p).captures = w.captures := rfl

end Sys2Proof.Machine
end

