-- ==== Sys2Proof/Laws/Ops.lean ====
section
/-!
SUPPORT. What the shared operations do: lanes and masks, register reads after writes, the moves of threads, flags, the
issue of a word, the landing of results, and parking.
-/

namespace Sys2Proof.Machine

/-! Lanes. -/

theorem mem_upTo (n k : Nat) : k ∈ upTo n ↔ k < n := by
  induction n with
  | zero => simp [upTo]
  | succ n ih => simp only [upTo, List.mem_append, ih, List.mem_singleton]; omega

theorem mem_laneList (l : Nat) : l ∈ laneList ↔ l < 64 := by
  have h : laneList = upTo 64 := by decide
  rw [h, mem_upTo]

theorem mem_lanesOf (m : Lanes) (l : Nat) : l ∈ lanesOf m ↔ l < 64 ∧ m.getLsbD l = true := by
  simp [lanesOf, mem_laneList]

theorem getLsbD_laneBit (k l : Nat) (hk : k < 64) : (laneBit k).getLsbD l = decide (k = l) := by
  simp only [laneBit, BitVec.getLsbD_ofNat, Nat.testBit_two_pow]
  by_cases h : k = l
  · subst h; simp only [hk, decide_true, Bool.and_true]
  · simp only [h, decide_false, Bool.and_false]

theorem getLsbD_foldl_bits (p : Nat → Bool) (ls : List Nat) (hls : ∀ k ∈ ls, k < 64) (m : Lanes) (l : Nat) :
    (ls.foldl (fun m l => if p l then m ||| laneBit l else m) m).getLsbD l =
      (m.getLsbD l || (decide (l ∈ ls) && p l)) := by
  induction ls generalizing m with
  | nil => simp
  | cons k t ih =>
    rw [List.foldl_cons, ih (fun j hj => hls j (List.mem_cons_of_mem _ hj))]
    have hk := getLsbD_laneBit k l (hls k List.mem_cons_self)
    by_cases hp : p k = true
    · simp only [hp, if_true, BitVec.getLsbD_or, hk, List.mem_cons]
      by_cases e : k = l
      · subst e; simp [hp]
      · have e' : ¬ l = k := fun h => e h.symm
        simp [e, e']
    · simp only [hp, List.mem_cons]
      by_cases e : l = k
      · subst e; simp [hp]
      · simp [e]

/-- A mask holds the lanes of its test. -/
@[simp] theorem getLsbD_maskOf (p : Nat → Bool) (l : Nat) : (maskOf p).getLsbD l = (decide (l < 64) && p l) := by
  rw [maskOf, getLsbD_foldl_bits p laneList (fun k hk => (mem_laneList k).1 hk) 0 l]
  simp [mem_laneList]

/-! The places of threads. -/

theorem SMap.get_foldl_set {w : Nat} (f : Nat → BitVec w) (ls : List Nat) (m : SMap w) (k : Nat) :
    SMap.get (ls.foldl (fun m l => SMap.set m l (f l)) m) k = if k ∈ ls then f k else SMap.get m k := by
  induction ls generalizing m with
  | nil => simp
  | cons a t ih =>
    rw [List.foldl_cons, ih]
    by_cases h : k ∈ t
    · simp [h]
    · by_cases e : k = a
      · subst e; simp [h]
      · simp [h, e, SMap.get_set_other _ _ _ _ e]

/-- Next(T, x) of R97: the threads of the set are at the PC, the others where they were. -/
theorem Wave.pcOf_next (w : Wave) (ls : Lanes) (pc : Word) (l : Nat) :
    (w.next ls pc).pcOf l = if l < 64 ∧ ls.getLsbD l = true then pc else w.pcOf l := by
  simp only [Wave.pcOf, Wave.next]
  rw [SMap.get_foldl_set (fun _ => pc)]
  simp [mem_lanesOf]

/-! Flags. -/

theorem Wave.flag_raiseFlag (w : Wave) (setf : BitVec 4) (i : Nat) (hi : i < 12) :
    (w.raiseFlag setf).flag i = if i = setf.toNat then w.flag i + 1 else w.flag i := by
  unfold Wave.raiseFlag
  split
  · rw [if_neg (by omega)]
  · simp only [Wave.flag]
    by_cases e : i = setf.toNat
    · subst e; simp
    · simp [e, SMap.get_set_other _ _ _ _ e]

theorem Wave.flag_lowerFlag (w : Wave) (setf : BitVec 4) (i : Nat) (hi : i < 12) :
    (w.lowerFlag setf).flag i = if i = setf.toNat ∧ w.flag i ≠ 0 then w.flag i - 1 else w.flag i := by
  unfold Wave.lowerFlag
  split
  · rename_i h
    rw [if_neg]
    rintro ⟨rfl, h0⟩
    rcases h with h | h
    · omega
    · exact h0 h
  · rename_i h
    have hs : ({ w with f := SMap.set w.f setf.toNat (w.flag setf.toNat - 1) } : Wave).flag i =
        SMap.get (SMap.set w.f setf.toNat (w.flag setf.toNat - 1)) i := rfl
    rw [hs]
    by_cases e : i = setf.toNat
    · subst e
      rw [if_pos ⟨rfl, fun hz => h (Or.inr hz)⟩, SMap.get_set_self]
    · rw [if_neg (fun h => e h.1), SMap.get_set_other _ _ _ _ e]
      rfl

/-! Registers. -/

@[simp] theorem Wave.rs_ws_self (w : Wave) (r : SReg) (x : Word) : (w.ws r x).rs r = x := by simp [Wave.rs, Wave.ws]

theorem Wave.rs_ws_other (w : Wave) (r d : SReg) (x : Word) (h : r ≠ d) : (w.ws d x).rs r = w.rs r := by
  have h' : r.toNat ≠ d.toNat := fun e => h (BitVec.eq_of_toNat_eq e)
  simp [Wave.rs, Wave.ws, SMap.get_set_other _ _ _ _ h']

theorem Wave.rm_wm (w : Wave) (d r : MReg) (x : Lanes) :
    (w.wm d x).rm r = if r = 0 then BitVec.allOnes 64 else if r = d then x else w.rm r := by
  unfold Wave.rm Wave.wm
  by_cases h0 : r = 0
  · rw [if_pos h0, if_pos h0]
  · rw [if_neg h0, if_neg h0, if_neg h0]
    by_cases hd : d = 0
    · rw [if_pos hd, if_neg (fun e => h0 (e.trans hd))]
    · rw [if_neg hd]
      by_cases e : r = d
      · subst e; rw [if_pos rfl]; exact SMap.get_set_self _ _ _
      · have h' : r.toNat ≠ d.toNat := fun e' => e (BitVec.eq_of_toNat_eq e')
        rw [if_neg e]; exact SMap.get_set_other _ _ _ _ h'

theorem Wave.rq_wq (w : Wave) (d r : BitVec 4) (b : Bool) :
    (w.wq d b).rq r = if r = 0 then true else if r = d then b else w.rq r := by
  unfold Wave.rq Wave.wq
  by_cases h0 : r = 0
  · rw [if_pos h0, h0]; rfl
  · rw [if_neg h0]
    have hb : (r == 0) = false := by simpa using h0
    rw [hb, Bool.false_or, Bool.false_or]
    by_cases hd : d = 0
    · rw [if_pos hd, if_neg (fun e => h0 (e.trans hd))]
    · rw [if_neg hd]
      have hr : r.toNat < 16 := r.isLt
      have hd' : d.toNat < 16 := d.isLt
      have bit (k : Nat) : (BitVec.ofNat 16 (2 ^ d.toNat)).getLsbD k = decide (d.toNat = k) := by
        simp only [BitVec.getLsbD_ofNat, Nat.testBit_two_pow]
        by_cases hk : d.toNat = k
        · subst hk; simp only [hd', decide_true, Bool.and_true]
        · simp only [hk, decide_false, Bool.and_false]
      generalize BitVec.ofNat 16 (2 ^ d.toNat) = m at bit
      by_cases e : r = d
      · subst e
        cases b <;> simp [bit, hr]
      · have h' : d.toNat ≠ r.toNat := fun e' => e (BitVec.eq_of_toNat_eq e').symm
        rw [if_neg e]
        have h2 : (w.q ||| m).getLsbD r.toNat = w.q.getLsbD r.toNat := by
          rw [BitVec.getLsbD_or, bit, decide_eq_false h', Bool.or_false]
        have h3 : (w.q &&& ~~~m).getLsbD r.toNat = w.q.getLsbD r.toNat := by
          rw [BitVec.getLsbD_and, BitVec.getLsbD_not, bit, decide_eq_false h', decide_eq_true hr]
          simp
        cases b
        · exact h3
        · exact h2

theorem Wave.rv_wv (w : Wave) (d r : VReg) (k l : Nat) (x : Word) (hk : k < 64) (hl : l < 64) :
    (w.wv d k x).rv r l = if r = d ∧ l = k ∧ w.launched.getLsbD k = true then x else w.rv r l := by
  unfold Wave.rv Wave.wv
  by_cases hL : w.launched.getLsbD k = true
  · simp only [hL, if_true, and_true]
    by_cases e : r = d ∧ l = k
    · obtain ⟨rfl, rfl⟩ := e; simp [hL]
    · have hne : 64 * r.toNat + l ≠ 64 * d.toNat + k := by
        intro h
        have h1 : r.toNat = d.toNat := by omega
        exact e ⟨BitVec.eq_of_toNat_eq h1, by omega⟩
      simp [e, SMap.get_set_other _ _ _ _ hne]
  · simp [hL]

/-! The issue of a word. -/

/-- A word whose predicate enables a lane has its effect. -/
theorem scalarWord_enabled {c : Ctl} {s : State} {run : Lanes} {pc : Word} (body : Issue → State → State)
    (h : (s.wave s.cur).head = some (run, pc)) (he : (s.wave s.cur).enabled run c ≠ 0) :
    scalarWord c s body = .next (body ⟨s.cur, run, pc, (s.wave s.cur).enabled run c⟩ s) := by
  simp only [scalarWord, State.issue, h]
  rw [if_neg he]

/-- A word whose predicate enables no lane only moves its run on (R43). -/
theorem scalarWord_disabled {c : Ctl} {s : State} {run : Lanes} {pc : Word} (body : Issue → State → State)
    (h : (s.wave s.cur).head = some (run, pc)) (he : (s.wave s.cur).enabled run c = 0) :
    scalarWord c s body = .next (s.onWave s.cur fun w => w.next run (pc + 1)) := by
  simp only [scalarWord, State.issue, h]
  rw [if_pos he]
  rfl

/-- A word with an operation in flight raises its flag and puts the operation in flight. -/
theorem State.fixed_eq (s : State) (w : Nat) (setf : BitVec 4) (run : Lanes) (lat : Nat) (ws : List RegWrite)
    (h : (ws.isEmpty && setf == 15#4) = false) :
    s.fixed w setf run lat ws =
      s.onWave w fun x => (x.raiseFlag setf).addFlight
        ⟨.fixed ((s.core x.core).cycle + lat) (ws.map fun r => (r, (s.core x.core).cycle + lat)), setf, run, []⟩ := by
  unfold State.fixed State.fixedParts
  rw [List.isEmpty_map, if_neg (by simp [h])]
  simp only [List.map_map]
  rfl

@[simp] theorem Wave.find_addFlight_self (w : Wave) (f : Flight) :
    AMap.find (w.addFlight f).flights w.nextOp = some f := by simp [Wave.addFlight]

theorem Wave.find_addFlight_other (w : Wave) (f : Flight) (o : Nat) (h : o ≠ w.nextOp) :
    AMap.find (w.addFlight f).flights o = AMap.find w.flights o := by
  simp [Wave.addFlight, AMap.find_put_other _ _ _ _ h]

/-! Landing. -/

/-- A write that sends no message. -/
def RegWrite.plain : RegWrite → Bool
  | .send _ _ => false
  | _ => true

theorem State.onWave_onWave (s : State) (w : Nat) (f g : Wave → Wave) :
    (s.onWave w f).onWave w g = s.onWave w fun x => g (f x) := by
  have put (m : AMap Wave) (x y : Wave) : AMap.put (AMap.put m w x) w y = AMap.put m w y := by
    induction m with
    | nil => simp [AMap.put]
    | cons e t ih =>
      obtain ⟨k, v⟩ := e
      simp only [AMap.put]
      split
      · simp [AMap.put]
      · split
        · simp [AMap.put]
        · rename_i h1 h2
          simp [AMap.put, h1, h2, ih]
  simp only [State.onWave, State.wave_putWave]
  simp only [State.putWave, put]

/-- Writes that send no message land in the wave, in order. -/
theorem State.landWrites_eq (s : State) (w : Nat) (ws : List RegWrite) (h : ws ≠ []) (hp : ∀ r ∈ ws, r.plain = true) :
    s.landWrites w ws = s.onWave w fun x => x.landAll ws := by
  have one (s : State) (r : RegWrite) (hr : r.plain = true) :
      s.landWrites w [r] = s.onWave w fun x => x.land r := by
    cases r <;> first | rfl | simp [RegWrite.plain] at hr
  induction ws generalizing s with
  | nil => exact absurd rfl h
  | cons r t ih =>
    have hr := one s r (hp r List.mem_cons_self)
    by_cases ht : t = []
    · subst ht
      rw [hr]; rfl
    · have := ih (s.landWrites w [r]) ht (fun x hx => hp x (List.mem_cons_of_mem _ hx))
      have e : s.landWrites w (r :: t) = (s.landWrites w [r]).landWrites w t := rfl
      rw [e, this, hr, State.onWave_onWave]
      rfl

/-- Landing a write changes registers only. -/
theorem Wave.land_frame (w : Wave) (r : RegWrite) : (w.land r).core = w.core ∧
    (w.land r).slot = w.slot ∧ (w.land r).f = w.f ∧ (w.land r).flights = w.flights ∧ (w.land r).nextOp = w.nextOp ∧ (w.land r).pcs = w.pcs ∧ (w.land r).launched = w.launched := by
  cases r <;> simp only [Wave.land, Wave.wv, Wave.ws, Wave.wm, Wave.wq, Wave.putSR] <;> (repeat' split) <;> simp

theorem Wave.landAll_frame (w : Wave) (ws : List RegWrite) : (w.landAll ws).core = w.core ∧
    (w.landAll ws).slot = w.slot ∧ (w.landAll ws).f = w.f ∧ (w.landAll ws).flights = w.flights ∧ (w.landAll ws).nextOp = w.nextOp ∧ (w.landAll ws).pcs = w.pcs ∧ (w.landAll ws).launched = w.launched := by
  unfold Wave.landAll
  induction ws generalizing w with
  | nil => simp
  | cons r t ih => have := ih (w.land r); have h := Wave.land_frame w r; simp only [List.foldl_cons]; simp [this, h]

/-- A fixed-latency word gives its writes. -/
theorem Flight.results_fixed (due at_ : Nat) (ws : List RegWrite) (setf run) : (⟨.fixed due (ws.map fun r => (r, at_)), setf, run, []⟩ : Flight).results = ws := by
  simp [Flight.results, List.map_map, Function.comp_def]

/-- A fixed-latency word of a resident wave completes: its writes land, its flag falls, it is in flight no longer. -/
theorem State.complete_fixed (s : State) (w op due at_ : Nat) (setf : BitVec 4) (run : Lanes) (ws : List RegWrite)
    (hf : AMap.find (s.wave w).flights op = some ⟨.fixed due (ws.map fun r => (r, at_)), setf, run, []⟩)
    (hn : ws ≠ []) (hp : ∀ r ∈ ws, r.plain = true)
    (hslot : (s.wave w).slot.isSome = true) (hm : ∀ l, (w, l) ∉ (s.core (s.wave w).core).missing) :
    s.complete w op = s.onWave w fun x => { (x.landAll ws).lowerFlag setf with flights := AMap.del (x.landAll ws).flights op } := by
  unfold State.complete
  rw [hf]
  simp only [Flight.results_fixed]
  rw [State.landWrites_eq s w ws hn hp, State.onWave_onWave]
  generalize hu : (s.onWave w fun x => ({ (x.landAll ws).lowerFlag setf with flights := AMap.del (x.landAll ws).flights op } : Wave)) = u
  have hw : u.wave w = { ((s.wave w).landAll ws).lowerFlag setf with flights := AMap.del ((s.wave w).landAll ws).flights op } := by
    rw [← hu]; simp
  have hc : ∀ c, u.core c = s.core c := by intro c; rw [← hu]; rfl
  have hwc : (u.wave w).core = (s.wave w).core := by rw [hw]; simp [Wave.landAll_frame]
  have hws : (u.wave w).slot = (s.wave w).slot := by rw [hw]; simp [Wave.landAll_frame]
  have hml : ∀ r, u.mirrorLine w r = u := by
    intro r
    unfold State.mirrorLine
    split
    · rw [if_neg]
      rw [hc, hwc]
      simp only [List.contains_iff_mem]
      exact hm _
    · rfl
  have hfold : ∀ l : List RegWrite, l.foldl (fun s r => s.mirrorLine w r) u = u := by
    intro l; induction l with
    | nil => rfl
    | cons r t ih => rw [List.foldl_cons, hml, ih]
  unfold State.mirrorWrites
  simp only [hfold]
  unfold State.mirror State.pageInImage
  have : (u.wave w).slot.isNone = false := by
    rw [hws]; cases h : (s.wave w).slot <;> simp_all
  simp [this]

end Sys2Proof.Machine
end

