-- ==== Sys2Proof/Laws/PerInstr.lean ====
section
/-!
SUPPORT. A fact of every instruction, one lemma per constructor: the opcode under which it is encoded is an assigned
one (R63); an event or a walk micro-operation has no opcode.
-/

namespace Sys2Proof.Laws.Encodable

/-- The opcode of an encoded full word is assigned (R63). -/
def Statement (i : Sys2Proof.Instr) : Prop :=
  ∀ c op p, Sys2Proof.encParts i = some (c, op, p) → Sys2Proof.opAssigned op.toNat = true

theorem wnop : Statement .wnop := by rintro c op p ⟨⟩
theorem ldn : Statement .ldn := by rintro c op p ⟨⟩
theorem tbox : Statement .tbox := by rintro c op p ⟨⟩
theorem wSort : Statement .wSort := by rintro c op p ⟨⟩
theorem pushc : Statement .pushc := by rintro c op p ⟨⟩
theorem wNext : Statement .wNext := by rintro c op p ⟨⟩
theorem ttri : Statement .ttri := by rintro c op p ⟨⟩
theorem wHit : Statement .wHit := by rintro c op p ⟨⟩
theorem wPop : Statement .wPop := by rintro c op p ⟨⟩
theorem brc : ∀ x0 x1 x2, Statement (.brc x0 x1 x2) := by intros; rintro c op p ⟨⟩
theorem callout : ∀ x0, Statement (.callout x0) := by intros; rintro c op p ⟨⟩
theorem wDone : Statement .wDone := by rintro c op p ⟨⟩
theorem xform : ∀ x0 x1 x2, Statement (.xform x0 x1 x2) := by intros; rintro c op p ⟨⟩
theorem ipop : Statement .ipop := by rintro c op p ⟨⟩
theorem cull : Statement .cull := by rintro c op p ⟨⟩
theorem sett : ∀ x0 x1, Statement (.sett x0 x1) := by intros; rintro c op p ⟨⟩
theorem dualWord : ∀ x0 x1 x2 x3 x4 x5 x6 x7, Statement (.dualWord x0 x1 x2 x3 x4 x5 x6 x7) := by intros; rintro c op p ⟨⟩
theorem prefixedPair : ∀ x0 x1, Statement (.prefixedPair x0 x1) := by intros; rintro c op p ⟨⟩
theorem nop : ∀ x0, Statement (.nop x0) := by intros; rintro c op p ⟨⟩; rfl
theorem bra : ∀ x0 x1 x2 x3, Statement (.bra x0 x1 x2 x3) := by intros; rintro c op p ⟨⟩; rfl
theorem call : ∀ x0 x1 x2, Statement (.call x0 x1 x2) := by intros; rintro c op p ⟨⟩; rfl
theorem jr : ∀ x0 x1, Statement (.jr x0 x1) := by intros; rintro c op p ⟨⟩; rfl
theorem loop : ∀ x0 x1 x2, Statement (.loop x0 x1 x2) := by intros; rintro c op p ⟨⟩; rfl
theorem split : ∀ x0 x1 x2 x3, Statement (.split x0 x1 x2 x3) := by intros; rintro c op p ⟨⟩; rfl
theorem jmpv : ∀ x0 x1, Statement (.jmpv x0 x1) := by intros; rintro c op p ⟨⟩; rfl
theorem sync : ∀ x0, Statement (.sync x0) := by intros; rintro c op p ⟨⟩; rfl
theorem exit : ∀ x0, Statement (.exit x0) := by intros; rintro c op p ⟨⟩; rfl
theorem yield : ∀ x0, Statement (.yield x0) := by intros; rintro c op p ⟨⟩; rfl
theorem sleep : ∀ x0 x1 x2, Statement (.sleep x0 x1 x2) := by intros; rintro c op p ⟨⟩; rfl
theorem trap : ∀ x0 x1, Statement (.trap x0 x1) := by intros; rintro c op p ⟨⟩; rfl
theorem upcall : ∀ x0 x1 x2 x3, Statement (.upcall x0 x1 x2 x3) := by intros; rintro c op p ⟨⟩; rfl
theorem elect : ∀ x0 x1, Statement (.elect x0 x1) := by intros; rintro c op p ⟨⟩; rfl
theorem setprio : ∀ x0 x1, Statement (.setprio x0 x1) := by intros; rintro c op p ⟨⟩; rfl
theorem qany : ∀ x0 x1 x2, Statement (.qany x0 x1 x2) := by intros; rintro c op p ⟨⟩; rfl
theorem qall : ∀ x0 x1 x2, Statement (.qall x0 x1 x2) := by intros; rintro c op p ⟨⟩; rfl
theorem qnone : ∀ x0 x1 x2, Statement (.qnone x0 x1 x2) := by intros; rintro c op p ⟨⟩; rfl
theorem qcmp : ∀ x0 x1 x2 x3 x4, Statement (.qcmp x0 x1 x2 x3 x4) := by intros; rintro c op p ⟨⟩; rfl
theorem qcmpi : ∀ x0 x1 x2 x3 x4, Statement (.qcmpi x0 x1 x2 x3 x4) := by intros; rintro c op p ⟨⟩; rfl
theorem qop : ∀ x0 x1 x2 x3 x4, Statement (.qop x0 x1 x2 x3 x4) := by intros; rintro c op p ⟨⟩; rfl
theorem srd : ∀ x0 x1 x2, Statement (.srd x0 x1 x2) := by intros; rintro c op p ⟨⟩; rfl
theorem swr : ∀ x0 x1 x2, Statement (.swr x0 x1 x2) := by intros; rintro c op p ⟨⟩; rfl
theorem vsrd : ∀ x0 x1 x2, Statement (.vsrd x0 x1 x2) := by intros; rintro c op p ⟨⟩; rfl
theorem sadd : ∀ x0 x1 x2 x3, Statement (.sadd x0 x1 x2 x3) := by intros; rintro c op p ⟨⟩; rfl
theorem ssub : ∀ x0 x1 x2 x3, Statement (.ssub x0 x1 x2 x3) := by intros; rintro c op p ⟨⟩; rfl
theorem smul : ∀ x0 x1 x2 x3, Statement (.smul x0 x1 x2 x3) := by intros; rintro c op p ⟨⟩; rfl
theorem smulh : ∀ x0 x1 x2 x3, Statement (.smulh x0 x1 x2 x3) := by intros; rintro c op p ⟨⟩; rfl
theorem sdiv : ∀ x0 x1 x2 x3, Statement (.sdiv x0 x1 x2 x3) := by intros; rintro c op p ⟨⟩; rfl
theorem sdivu : ∀ x0 x1 x2 x3, Statement (.sdivu x0 x1 x2 x3) := by intros; rintro c op p ⟨⟩; rfl
theorem srem : ∀ x0 x1 x2 x3, Statement (.srem x0 x1 x2 x3) := by intros; rintro c op p ⟨⟩; rfl
theorem sremu : ∀ x0 x1 x2 x3, Statement (.sremu x0 x1 x2 x3) := by intros; rintro c op p ⟨⟩; rfl
theorem sand : ∀ x0 x1 x2 x3, Statement (.sand x0 x1 x2 x3) := by intros; rintro c op p ⟨⟩; rfl
theorem sor : ∀ x0 x1 x2 x3, Statement (.sor x0 x1 x2 x3) := by intros; rintro c op p ⟨⟩; rfl
theorem sxor : ∀ x0 x1 x2 x3, Statement (.sxor x0 x1 x2 x3) := by intros; rintro c op p ⟨⟩; rfl
theorem sshl : ∀ x0 x1 x2 x3, Statement (.sshl x0 x1 x2 x3) := by intros; rintro c op p ⟨⟩; rfl
theorem sshr : ∀ x0 x1 x2 x3, Statement (.sshr x0 x1 x2 x3) := by intros; rintro c op p ⟨⟩; rfl
theorem ssra : ∀ x0 x1 x2 x3, Statement (.ssra x0 x1 x2 x3) := by intros; rintro c op p ⟨⟩; rfl
theorem smin : ∀ x0 x1 x2 x3, Statement (.smin x0 x1 x2 x3) := by intros; rintro c op p ⟨⟩; rfl
theorem smax : ∀ x0 x1 x2 x3, Statement (.smax x0 x1 x2 x3) := by intros; rintro c op p ⟨⟩; rfl
theorem sminu : ∀ x0 x1 x2 x3, Statement (.sminu x0 x1 x2 x3) := by intros; rintro c op p ⟨⟩; rfl
theorem smaxu : ∀ x0 x1 x2 x3, Statement (.smaxu x0 x1 x2 x3) := by intros; rintro c op p ⟨⟩; rfl
theorem saddi : ∀ x0 x1 x2 x3, Statement (.saddi x0 x1 x2 x3) := by intros; rintro c op p ⟨⟩; rfl
theorem sandi : ∀ x0 x1 x2 x3, Statement (.sandi x0 x1 x2 x3) := by intros; rintro c op p ⟨⟩; rfl
theorem sori : ∀ x0 x1 x2 x3, Statement (.sori x0 x1 x2 x3) := by intros; rintro c op p ⟨⟩; rfl
theorem sxori : ∀ x0 x1 x2 x3, Statement (.sxori x0 x1 x2 x3) := by intros; rintro c op p ⟨⟩; rfl
theorem sshli : ∀ x0 x1 x2 x3, Statement (.sshli x0 x1 x2 x3) := by intros; rintro c op p ⟨⟩; rfl
theorem sshri : ∀ x0 x1 x2 x3, Statement (.sshri x0 x1 x2 x3) := by intros; rintro c op p ⟨⟩; rfl
theorem ssrai : ∀ x0 x1 x2 x3, Statement (.ssrai x0 x1 x2 x3) := by intros; rintro c op p ⟨⟩; rfl
theorem sli : ∀ x0 x1 x2, Statement (.sli x0 x1 x2) := by intros; rintro c op p ⟨⟩; rfl
theorem slui : ∀ x0 x1 x2, Statement (.slui x0 x1 x2) := by intros; rintro c op p ⟨⟩; rfl
theorem smov : ∀ x0 x1 x2, Statement (.smov x0 x1 x2) := by intros; rintro c op p ⟨⟩; rfl
theorem saddp : ∀ x0 x1 x2 x3, Statement (.saddp x0 x1 x2 x3) := by intros; rintro c op p ⟨⟩; rfl
theorem sclz : ∀ x0 x1 x2, Statement (.sclz x0 x1 x2) := by intros; rintro c op p ⟨⟩; rfl
theorem spopc : ∀ x0 x1 x2, Statement (.spopc x0 x1 x2) := by intros; rintro c op p ⟨⟩; rfl
theorem sbfe : ∀ x0 x1 x2 x3 x4, Statement (.sbfe x0 x1 x2 x3 x4) := by intros; rintro c op p ⟨⟩; rfl
theorem mand : ∀ x0 x1 x2 x3, Statement (.mand x0 x1 x2 x3) := by intros; rintro c op p ⟨⟩; rfl
theorem mor : ∀ x0 x1 x2 x3, Statement (.mor x0 x1 x2 x3) := by intros; rintro c op p ⟨⟩; rfl
theorem mxor : ∀ x0 x1 x2 x3, Statement (.mxor x0 x1 x2 x3) := by intros; rintro c op p ⟨⟩; rfl
theorem mandn : ∀ x0 x1 x2 x3, Statement (.mandn x0 x1 x2 x3) := by intros; rintro c op p ⟨⟩; rfl
theorem mnot : ∀ x0 x1 x2, Statement (.mnot x0 x1 x2) := by intros; rintro c op p ⟨⟩; rfl
theorem mfroms : ∀ x0 x1 x2, Statement (.mfroms x0 x1 x2) := by intros; rintro c op p ⟨⟩; rfl
theorem mtos : ∀ x0 x1 x2, Statement (.mtos x0 x1 x2) := by intros; rintro c op p ⟨⟩; rfl
theorem mpopc : ∀ x0 x1 x2, Statement (.mpopc x0 x1 x2) := by intros; rintro c op p ⟨⟩; rfl
theorem mffs : ∀ x0 x1 x2, Statement (.mffs x0 x1 x2) := by intros; rintro c op p ⟨⟩; rfl
theorem vadd : ∀ x0 x1 x2 x3, Statement (.vadd x0 x1 x2 x3) := by intros; rintro c op p ⟨⟩; rfl
theorem vsub : ∀ x0 x1 x2 x3, Statement (.vsub x0 x1 x2 x3) := by intros; rintro c op p ⟨⟩; rfl
theorem vmul : ∀ x0 x1 x2 x3, Statement (.vmul x0 x1 x2 x3) := by intros; rintro c op p ⟨⟩; rfl
theorem vmulh : ∀ x0 x1 x2 x3, Statement (.vmulh x0 x1 x2 x3) := by intros; rintro c op p ⟨⟩; rfl
theorem vmulhu : ∀ x0 x1 x2 x3, Statement (.vmulhu x0 x1 x2 x3) := by intros; rintro c op p ⟨⟩; rfl
theorem vmad : ∀ x0 x1 x2 x3, Statement (.vmad x0 x1 x2 x3) := by intros; rintro c op p ⟨⟩; rfl
theorem vand : ∀ x0 x1 x2 x3, Statement (.vand x0 x1 x2 x3) := by intros; rintro c op p ⟨⟩; rfl
theorem vor : ∀ x0 x1 x2 x3, Statement (.vor x0 x1 x2 x3) := by intros; rintro c op p ⟨⟩; rfl
theorem vxor : ∀ x0 x1 x2 x3, Statement (.vxor x0 x1 x2 x3) := by intros; rintro c op p ⟨⟩; rfl
theorem vshl : ∀ x0 x1 x2 x3, Statement (.vshl x0 x1 x2 x3) := by intros; rintro c op p ⟨⟩; rfl
theorem vshr : ∀ x0 x1 x2 x3, Statement (.vshr x0 x1 x2 x3) := by intros; rintro c op p ⟨⟩; rfl
theorem vsra : ∀ x0 x1 x2 x3, Statement (.vsra x0 x1 x2 x3) := by intros; rintro c op p ⟨⟩; rfl
theorem vmin : ∀ x0 x1 x2 x3, Statement (.vmin x0 x1 x2 x3) := by intros; rintro c op p ⟨⟩; rfl
theorem vmax : ∀ x0 x1 x2 x3, Statement (.vmax x0 x1 x2 x3) := by intros; rintro c op p ⟨⟩; rfl
theorem vminu : ∀ x0 x1 x2 x3, Statement (.vminu x0 x1 x2 x3) := by intros; rintro c op p ⟨⟩; rfl
theorem vmaxu : ∀ x0 x1 x2 x3, Statement (.vmaxu x0 x1 x2 x3) := by intros; rintro c op p ⟨⟩; rfl
theorem vaddi : ∀ x0 x1 x2 x3, Statement (.vaddi x0 x1 x2 x3) := by intros; rintro c op p ⟨⟩; rfl
theorem vandi : ∀ x0 x1 x2 x3, Statement (.vandi x0 x1 x2 x3) := by intros; rintro c op p ⟨⟩; rfl
theorem vori : ∀ x0 x1 x2 x3, Statement (.vori x0 x1 x2 x3) := by intros; rintro c op p ⟨⟩; rfl
theorem vxori : ∀ x0 x1 x2 x3, Statement (.vxori x0 x1 x2 x3) := by intros; rintro c op p ⟨⟩; rfl
theorem vshli : ∀ x0 x1 x2 x3, Statement (.vshli x0 x1 x2 x3) := by intros; rintro c op p ⟨⟩; rfl
theorem vshri : ∀ x0 x1 x2 x3, Statement (.vshri x0 x1 x2 x3) := by intros; rintro c op p ⟨⟩; rfl
theorem vsrai : ∀ x0 x1 x2 x3, Statement (.vsrai x0 x1 x2 x3) := by intros; rintro c op p ⟨⟩; rfl
theorem vli : ∀ x0 x1 x2, Statement (.vli x0 x1 x2) := by intros; rintro c op p ⟨⟩; rfl
theorem vmov : ∀ x0 x1 x2, Statement (.vmov x0 x1 x2) := by intros; rintro c op p ⟨⟩; rfl
theorem vmovs : ∀ x0 x1 x2, Statement (.vmovs x0 x1 x2) := by intros; rintro c op p ⟨⟩; rfl
theorem vaddp : ∀ x0 x1 x2 x3, Statement (.vaddp x0 x1 x2 x3) := by intros; rintro c op p ⟨⟩; rfl
theorem vclz : ∀ x0 x1 x2, Statement (.vclz x0 x1 x2) := by intros; rintro c op p ⟨⟩; rfl
theorem vpopc : ∀ x0 x1 x2, Statement (.vpopc x0 x1 x2) := by intros; rintro c op p ⟨⟩; rfl
theorem vbfe : ∀ x0 x1 x2 x3 x4, Statement (.vbfe x0 x1 x2 x3 x4) := by intros; rintro c op p ⟨⟩; rfl
theorem vsel : ∀ x0 x1 x2 x3, Statement (.vsel x0 x1 x2 x3) := by intros; rintro c op p ⟨⟩; rfl
theorem vcmp : ∀ x0 x1 x2 x3 x4, Statement (.vcmp x0 x1 x2 x3 x4) := by intros; rintro c op p ⟨⟩; rfl
theorem vcmpi : ∀ x0 x1 x2 x3 x4, Statement (.vcmpi x0 x1 x2 x3 x4) := by intros; rintro c op p ⟨⟩; rfl
theorem vdot4 : ∀ x0 x1 x2 x3, Statement (.vdot4 x0 x1 x2 x3) := by intros; rintro c op p ⟨⟩; rfl
theorem fadd : ∀ x0 x1 x2 x3, Statement (.fadd x0 x1 x2 x3) := by intros; rintro c op p ⟨⟩; rfl
theorem fsub : ∀ x0 x1 x2 x3, Statement (.fsub x0 x1 x2 x3) := by intros; rintro c op p ⟨⟩; rfl
theorem fmul : ∀ x0 x1 x2 x3, Statement (.fmul x0 x1 x2 x3) := by intros; rintro c op p ⟨⟩; rfl
theorem ffma : ∀ x0 x1 x2 x3, Statement (.ffma x0 x1 x2 x3) := by intros; rintro c op p ⟨⟩; rfl
theorem fmin : ∀ x0 x1 x2 x3, Statement (.fmin x0 x1 x2 x3) := by intros; rintro c op p ⟨⟩; rfl
theorem fmax : ∀ x0 x1 x2 x3, Statement (.fmax x0 x1 x2 x3) := by intros; rintro c op p ⟨⟩; rfl
theorem fabs : ∀ x0 x1 x2, Statement (.fabs x0 x1 x2) := by intros; rintro c op p ⟨⟩; rfl
theorem fneg : ∀ x0 x1 x2, Statement (.fneg x0 x1 x2) := by intros; rintro c op p ⟨⟩; rfl
theorem fcpsgn : ∀ x0 x1 x2 x3, Statement (.fcpsgn x0 x1 x2 x3) := by intros; rintro c op p ⟨⟩; rfl
theorem frnd : ∀ x0 x1 x2, Statement (.frnd x0 x1 x2) := by intros; rintro c op p ⟨⟩; rfl
theorem fcmp : ∀ x0 x1 x2 x3 x4, Statement (.fcmp x0 x1 x2 x3 x4) := by intros; rintro c op p ⟨⟩; rfl
theorem hadd : ∀ x0 x1 x2 x3, Statement (.hadd x0 x1 x2 x3) := by intros; rintro c op p ⟨⟩; rfl
theorem hmul : ∀ x0 x1 x2 x3, Statement (.hmul x0 x1 x2 x3) := by intros; rintro c op p ⟨⟩; rfl
theorem hfma : ∀ x0 x1 x2 x3, Statement (.hfma x0 x1 x2 x3) := by intros; rintro c op p ⟨⟩; rfl
theorem badd : ∀ x0 x1 x2 x3, Statement (.badd x0 x1 x2 x3) := by intros; rintro c op p ⟨⟩; rfl
theorem bmul : ∀ x0 x1 x2 x3, Statement (.bmul x0 x1 x2 x3) := by intros; rintro c op p ⟨⟩; rfl
theorem bfma : ∀ x0 x1 x2 x3, Statement (.bfma x0 x1 x2 x3) := by intros; rintro c op p ⟨⟩; rfl
theorem fdot2h : ∀ x0 x1 x2 x3, Statement (.fdot2h x0 x1 x2 x3) := by intros; rintro c op p ⟨⟩; rfl
theorem fdot2b : ∀ x0 x1 x2 x3, Statement (.fdot2b x0 x1 x2 x3) := by intros; rintro c op p ⟨⟩; rfl
theorem cvt : ∀ x0 x1 x2 x3 x4, Statement (.cvt x0 x1 x2 x3 x4) := by intros; rintro c op p ⟨⟩; rfl
theorem packh : ∀ x0 x1 x2 x3, Statement (.packh x0 x1 x2 x3) := by intros; rintro c op p ⟨⟩; rfl
theorem packb : ∀ x0 x1 x2 x3, Statement (.packb x0 x1 x2 x3) := by intros; rintro c op p ⟨⟩; rfl
theorem frcp : ∀ x0 x1 x2, Statement (.frcp x0 x1 x2) := by intros; rintro c op p ⟨⟩; rfl
theorem frsq : ∀ x0 x1 x2, Statement (.frsq x0 x1 x2) := by intros; rintro c op p ⟨⟩; rfl
theorem fsqrt : ∀ x0 x1 x2, Statement (.fsqrt x0 x1 x2) := by intros; rintro c op p ⟨⟩; rfl
theorem fex2 : ∀ x0 x1 x2, Statement (.fex2 x0 x1 x2) := by intros; rintro c op p ⟨⟩; rfl
theorem flg2 : ∀ x0 x1 x2, Statement (.flg2 x0 x1 x2) := by intros; rintro c op p ⟨⟩; rfl
theorem fsinp : ∀ x0 x1 x2, Statement (.fsinp x0 x1 x2) := by intros; rintro c op p ⟨⟩; rfl
theorem fcosp : ∀ x0 x1 x2, Statement (.fcosp x0 x1 x2) := by intros; rintro c op p ⟨⟩; rfl
theorem ftanh : ∀ x0 x1 x2, Statement (.ftanh x0 x1 x2) := by intros; rintro c op p ⟨⟩; rfl
theorem vperm : ∀ x0 x1 x2 x3, Statement (.vperm x0 x1 x2 x3) := by intros; rintro c op p ⟨⟩; rfl
theorem vshfl : ∀ x0 x1 x2 x3 x4, Statement (.vshfl x0 x1 x2 x3 x4) := by intros; rintro c op p ⟨⟩; rfl
theorem vbcast : ∀ x0 x1 x2 x3, Statement (.vbcast x0 x1 x2 x3) := by intros; rintro c op p ⟨⟩; rfl
theorem vred : ∀ x0 x1 x2 x3, Statement (.vred x0 x1 x2 x3) := by intros; rintro c op p ⟨⟩; rfl
theorem vscan : ∀ x0 x1 x2 x3 x4, Statement (.vscan x0 x1 x2 x3 x4) := by intros; rintro c op p ⟨⟩; rfl
theorem vhperm : ∀ x0 x1 x2 x3, Statement (.vhperm x0 x1 x2 x3) := by intros; rintro c op p ⟨⟩; rfl
theorem vrand : ∀ x0 x1, Statement (.vrand x0 x1) := by intros; rintro c op p ⟨⟩; rfl
theorem vrandf : ∀ x0 x1, Statement (.vrandf x0 x1) := by intros; rintro c op p ⟨⟩; rfl
theorem vrseed : ∀ x0 x1, Statement (.vrseed x0 x1) := by intros; rintro c op p ⟨⟩; rfl
theorem ldvB8z : ∀ x0 x1 x2 x3 x4 x5 x6, Statement (.ldvB8z x0 x1 x2 x3 x4 x5 x6) := by intros; rintro c op p ⟨⟩; rfl
theorem ldvB8s : ∀ x0 x1 x2 x3 x4 x5 x6, Statement (.ldvB8s x0 x1 x2 x3 x4 x5 x6) := by intros; rintro c op p ⟨⟩; rfl
theorem ldvB16z : ∀ x0 x1 x2 x3 x4 x5 x6, Statement (.ldvB16z x0 x1 x2 x3 x4 x5 x6) := by intros; rintro c op p ⟨⟩; rfl
theorem ldvB16s : ∀ x0 x1 x2 x3 x4 x5 x6, Statement (.ldvB16s x0 x1 x2 x3 x4 x5 x6) := by intros; rintro c op p ⟨⟩; rfl
theorem ldvB32 : ∀ x0 x1 x2 x3 x4 x5 x6, Statement (.ldvB32 x0 x1 x2 x3 x4 x5 x6) := by intros; rintro c op p ⟨⟩; rfl
theorem ldvB64 : ∀ x0 x1 x2 x3 x4 x5 x6, Statement (.ldvB64 x0 x1 x2 x3 x4 x5 x6) := by intros; rintro c op p ⟨⟩; rfl
theorem ldvB128 : ∀ x0 x1 x2 x3 x4 x5 x6, Statement (.ldvB128 x0 x1 x2 x3 x4 x5 x6) := by intros; rintro c op p ⟨⟩; rfl
theorem stvB8 : ∀ x0 x1 x2 x3 x4 x5 x6, Statement (.stvB8 x0 x1 x2 x3 x4 x5 x6) := by intros; rintro c op p ⟨⟩; rfl
theorem stvB16 : ∀ x0 x1 x2 x3 x4 x5 x6, Statement (.stvB16 x0 x1 x2 x3 x4 x5 x6) := by intros; rintro c op p ⟨⟩; rfl
theorem stvB32 : ∀ x0 x1 x2 x3 x4 x5 x6, Statement (.stvB32 x0 x1 x2 x3 x4 x5 x6) := by intros; rintro c op p ⟨⟩; rfl
theorem stvB64 : ∀ x0 x1 x2 x3 x4 x5 x6, Statement (.stvB64 x0 x1 x2 x3 x4 x5 x6) := by intros; rintro c op p ⟨⟩; rfl
theorem stvB128 : ∀ x0 x1 x2 x3 x4 x5 x6, Statement (.stvB128 x0 x1 x2 x3 x4 x5 x6) := by intros; rintro c op p ⟨⟩; rfl
theorem ldsB32 : ∀ x0 x1 x2 x3 x4 x5 x6, Statement (.ldsB32 x0 x1 x2 x3 x4 x5 x6) := by intros; rintro c op p ⟨⟩; rfl
theorem ldsB64 : ∀ x0 x1 x2 x3 x4 x5 x6, Statement (.ldsB64 x0 x1 x2 x3 x4 x5 x6) := by intros; rintro c op p ⟨⟩; rfl
theorem ldsB128 : ∀ x0 x1 x2 x3 x4 x5 x6, Statement (.ldsB128 x0 x1 x2 x3 x4 x5 x6) := by intros; rintro c op p ⟨⟩; rfl
theorem stsB32 : ∀ x0 x1 x2 x3 x4 x5 x6, Statement (.stsB32 x0 x1 x2 x3 x4 x5 x6) := by intros; rintro c op p ⟨⟩; rfl
theorem stsB64 : ∀ x0 x1 x2 x3 x4 x5 x6, Statement (.stsB64 x0 x1 x2 x3 x4 x5 x6) := by intros; rintro c op p ⟨⟩; rfl
theorem ldlB32 : ∀ x0 x1 x2 x3 x4 x5 x6, Statement (.ldlB32 x0 x1 x2 x3 x4 x5 x6) := by intros; rintro c op p ⟨⟩; rfl
theorem ldlB128 : ∀ x0 x1 x2 x3 x4 x5 x6, Statement (.ldlB128 x0 x1 x2 x3 x4 x5 x6) := by intros; rintro c op p ⟨⟩; rfl
theorem stlB32 : ∀ x0 x1 x2 x3 x4 x5 x6, Statement (.stlB32 x0 x1 x2 x3 x4 x5 x6) := by intros; rintro c op p ⟨⟩; rfl
theorem stlB128 : ∀ x0 x1 x2 x3 x4 x5 x6, Statement (.stlB128 x0 x1 x2 x3 x4 x5 x6) := by intros; rintro c op p ⟨⟩; rfl
theorem atomAddB32 : ∀ x0 x1 x2 x3 x4 x5 x6, Statement (.atomAddB32 x0 x1 x2 x3 x4 x5 x6) := by intros; rintro c op p ⟨⟩; rfl
theorem atomMinB32 : ∀ x0 x1 x2 x3 x4 x5 x6, Statement (.atomMinB32 x0 x1 x2 x3 x4 x5 x6) := by intros; rintro c op p ⟨⟩; rfl
theorem atomMaxB32 : ∀ x0 x1 x2 x3 x4 x5 x6, Statement (.atomMaxB32 x0 x1 x2 x3 x4 x5 x6) := by intros; rintro c op p ⟨⟩; rfl
theorem atomMinuB32 : ∀ x0 x1 x2 x3 x4 x5 x6, Statement (.atomMinuB32 x0 x1 x2 x3 x4 x5 x6) := by intros; rintro c op p ⟨⟩; rfl
theorem atomMaxuB32 : ∀ x0 x1 x2 x3 x4 x5 x6, Statement (.atomMaxuB32 x0 x1 x2 x3 x4 x5 x6) := by intros; rintro c op p ⟨⟩; rfl
theorem atomAndB32 : ∀ x0 x1 x2 x3 x4 x5 x6, Statement (.atomAndB32 x0 x1 x2 x3 x4 x5 x6) := by intros; rintro c op p ⟨⟩; rfl
theorem atomOrB32 : ∀ x0 x1 x2 x3 x4 x5 x6, Statement (.atomOrB32 x0 x1 x2 x3 x4 x5 x6) := by intros; rintro c op p ⟨⟩; rfl
theorem atomXorB32 : ∀ x0 x1 x2 x3 x4 x5 x6, Statement (.atomXorB32 x0 x1 x2 x3 x4 x5 x6) := by intros; rintro c op p ⟨⟩; rfl
theorem atomXchgB32 : ∀ x0 x1 x2 x3 x4 x5 x6, Statement (.atomXchgB32 x0 x1 x2 x3 x4 x5 x6) := by intros; rintro c op p ⟨⟩; rfl
theorem casB32 : ∀ x0 x1 x2 x3 x4 x5 x6, Statement (.casB32 x0 x1 x2 x3 x4 x5 x6) := by intros; rintro c op p ⟨⟩; rfl
theorem atomfAddF32 : ∀ x0 x1 x2 x3 x4 x5 x6, Statement (.atomfAddF32 x0 x1 x2 x3 x4 x5 x6) := by intros; rintro c op p ⟨⟩; rfl
theorem atomfAddBf16x2 : ∀ x0 x1 x2 x3 x4 x5 x6, Statement (.atomfAddBf16x2 x0 x1 x2 x3 x4 x5 x6) := by intros; rintro c op p ⟨⟩; rfl
theorem atomAddB64 : ∀ x0 x1 x2 x3 x4 x5 x6, Statement (.atomAddB64 x0 x1 x2 x3 x4 x5 x6) := by intros; rintro c op p ⟨⟩; rfl
theorem atomMinB64 : ∀ x0 x1 x2 x3 x4 x5 x6, Statement (.atomMinB64 x0 x1 x2 x3 x4 x5 x6) := by intros; rintro c op p ⟨⟩; rfl
theorem atomMaxB64 : ∀ x0 x1 x2 x3 x4 x5 x6, Statement (.atomMaxB64 x0 x1 x2 x3 x4 x5 x6) := by intros; rintro c op p ⟨⟩; rfl
theorem atomMinuB64 : ∀ x0 x1 x2 x3 x4 x5 x6, Statement (.atomMinuB64 x0 x1 x2 x3 x4 x5 x6) := by intros; rintro c op p ⟨⟩; rfl
theorem atomMaxuB64 : ∀ x0 x1 x2 x3 x4 x5 x6, Statement (.atomMaxuB64 x0 x1 x2 x3 x4 x5 x6) := by intros; rintro c op p ⟨⟩; rfl
theorem atomAndB64 : ∀ x0 x1 x2 x3 x4 x5 x6, Statement (.atomAndB64 x0 x1 x2 x3 x4 x5 x6) := by intros; rintro c op p ⟨⟩; rfl
theorem atomOrB64 : ∀ x0 x1 x2 x3 x4 x5 x6, Statement (.atomOrB64 x0 x1 x2 x3 x4 x5 x6) := by intros; rintro c op p ⟨⟩; rfl
theorem atomXorB64 : ∀ x0 x1 x2 x3 x4 x5 x6, Statement (.atomXorB64 x0 x1 x2 x3 x4 x5 x6) := by intros; rintro c op p ⟨⟩; rfl
theorem atomXchgB64 : ∀ x0 x1 x2 x3 x4 x5 x6, Statement (.atomXchgB64 x0 x1 x2 x3 x4 x5 x6) := by intros; rintro c op p ⟨⟩; rfl
theorem casB64 : ∀ x0 x1 x2 x3 x4 x5 x6, Statement (.casB64 x0 x1 x2 x3 x4 x5 x6) := by intros; rintro c op p ⟨⟩; rfl
theorem atomsAddB32 : ∀ x0 x1 x2 x3 x4 x5 x6, Statement (.atomsAddB32 x0 x1 x2 x3 x4 x5 x6) := by intros; rintro c op p ⟨⟩; rfl
theorem atomsMinB32 : ∀ x0 x1 x2 x3 x4 x5 x6, Statement (.atomsMinB32 x0 x1 x2 x3 x4 x5 x6) := by intros; rintro c op p ⟨⟩; rfl
theorem atomsMaxB32 : ∀ x0 x1 x2 x3 x4 x5 x6, Statement (.atomsMaxB32 x0 x1 x2 x3 x4 x5 x6) := by intros; rintro c op p ⟨⟩; rfl
theorem atomsMinuB32 : ∀ x0 x1 x2 x3 x4 x5 x6, Statement (.atomsMinuB32 x0 x1 x2 x3 x4 x5 x6) := by intros; rintro c op p ⟨⟩; rfl
theorem atomsMaxuB32 : ∀ x0 x1 x2 x3 x4 x5 x6, Statement (.atomsMaxuB32 x0 x1 x2 x3 x4 x5 x6) := by intros; rintro c op p ⟨⟩; rfl
theorem atomsAndB32 : ∀ x0 x1 x2 x3 x4 x5 x6, Statement (.atomsAndB32 x0 x1 x2 x3 x4 x5 x6) := by intros; rintro c op p ⟨⟩; rfl
theorem atomsOrB32 : ∀ x0 x1 x2 x3 x4 x5 x6, Statement (.atomsOrB32 x0 x1 x2 x3 x4 x5 x6) := by intros; rintro c op p ⟨⟩; rfl
theorem atomsXorB32 : ∀ x0 x1 x2 x3 x4 x5 x6, Statement (.atomsXorB32 x0 x1 x2 x3 x4 x5 x6) := by intros; rintro c op p ⟨⟩; rfl
theorem atomsXchgB32 : ∀ x0 x1 x2 x3 x4 x5 x6, Statement (.atomsXchgB32 x0 x1 x2 x3 x4 x5 x6) := by intros; rintro c op p ⟨⟩; rfl
theorem cassB32 : ∀ x0 x1 x2 x3 x4 x5 x6, Statement (.cassB32 x0 x1 x2 x3 x4 x5 x6) := by intros; rintro c op p ⟨⟩; rfl
theorem atomlAddB32 : ∀ x0 x1 x2 x3 x4 x5 x6, Statement (.atomlAddB32 x0 x1 x2 x3 x4 x5 x6) := by intros; rintro c op p ⟨⟩; rfl
theorem atomlMinB32 : ∀ x0 x1 x2 x3 x4 x5 x6, Statement (.atomlMinB32 x0 x1 x2 x3 x4 x5 x6) := by intros; rintro c op p ⟨⟩; rfl
theorem atomlMaxB32 : ∀ x0 x1 x2 x3 x4 x5 x6, Statement (.atomlMaxB32 x0 x1 x2 x3 x4 x5 x6) := by intros; rintro c op p ⟨⟩; rfl
theorem atomlMinuB32 : ∀ x0 x1 x2 x3 x4 x5 x6, Statement (.atomlMinuB32 x0 x1 x2 x3 x4 x5 x6) := by intros; rintro c op p ⟨⟩; rfl
theorem atomlMaxuB32 : ∀ x0 x1 x2 x3 x4 x5 x6, Statement (.atomlMaxuB32 x0 x1 x2 x3 x4 x5 x6) := by intros; rintro c op p ⟨⟩; rfl
theorem atomlAndB32 : ∀ x0 x1 x2 x3 x4 x5 x6, Statement (.atomlAndB32 x0 x1 x2 x3 x4 x5 x6) := by intros; rintro c op p ⟨⟩; rfl
theorem atomlOrB32 : ∀ x0 x1 x2 x3 x4 x5 x6, Statement (.atomlOrB32 x0 x1 x2 x3 x4 x5 x6) := by intros; rintro c op p ⟨⟩; rfl
theorem atomlXorB32 : ∀ x0 x1 x2 x3 x4 x5 x6, Statement (.atomlXorB32 x0 x1 x2 x3 x4 x5 x6) := by intros; rintro c op p ⟨⟩; rfl
theorem atomlXchgB32 : ∀ x0 x1 x2 x3 x4 x5 x6, Statement (.atomlXchgB32 x0 x1 x2 x3 x4 x5 x6) := by intros; rintro c op p ⟨⟩; rfl
theorem caslB32 : ∀ x0 x1 x2 x3 x4 x5 x6, Statement (.caslB32 x0 x1 x2 x3 x4 x5 x6) := by intros; rintro c op p ⟨⟩; rfl
theorem fence : ∀ x0 x1 x2 x3, Statement (.fence x0 x1 x2 x3) := by intros; rintro c op p ⟨⟩; rfl
theorem monitor : ∀ x0 x1 x2 x3 x4, Statement (.monitor x0 x1 x2 x3 x4) := by intros; rintro c op p ⟨⟩; rfl
theorem mwait : ∀ x0 x1 x2 x3 x4 x5 x6, Statement (.mwait x0 x1 x2 x3 x4 x5 x6) := by intros; rintro c op p ⟨⟩; rfl
theorem pf : ∀ x0 x1 x2 x3 x4, Statement (.pf x0 x1 x2 x3 x4) := by intros; rintro c op p ⟨⟩; rfl
theorem cwb : ∀ x0 x1 x2 x3 x4, Statement (.cwb x0 x1 x2 x3 x4) := by intros; rintro c op p ⟨⟩; rfl
theorem cinv : ∀ x0 x1 x2 x3 x4, Statement (.cinv x0 x1 x2 x3 x4) := by intros; rintro c op p ⟨⟩; rfl
theorem barSync : ∀ x0 x1 x2, Statement (.barSync x0 x1 x2) := by intros; rintro c op p ⟨⟩; rfl
theorem barArrive : ∀ x0 x1 x2, Statement (.barArrive x0 x1 x2) := by intros; rintro c op p ⟨⟩; rfl
theorem barWait : ∀ x0 x1 x2, Statement (.barWait x0 x1 x2) := by intros; rintro c op p ⟨⟩; rfl
theorem rte : ∀ x0, Statement (.rte x0) := by intros; rintro c op p ⟨⟩; rfl
theorem brk : ∀ x0 x1, Statement (.brk x0 x1) := by intros; rintro c op p ⟨⟩; rfl
theorem mma : ∀ x0 x1 x2 x3, Statement (.mma x0 x1 x2 x3) := by intros; rintro c op p ⟨⟩; rfl
theorem mmas : ∀ x0 x1 x2 x3, Statement (.mmas x0 x1 x2 x3) := by intros; rintro c op p ⟨⟩; rfl
theorem macz : ∀ x0 x1, Statement (.macz x0 x1) := by intros; rintro c op p ⟨⟩; rfl
theorem macld : ∀ x0 x1 x2 x3, Statement (.macld x0 x1 x2 x3) := by intros; rintro c op p ⟨⟩; rfl
theorem macst : ∀ x0 x1 x2 x3, Statement (.macst x0 x1 x2 x3) := by intros; rintro c op p ⟨⟩; rfl
theorem mepiScale : ∀ x0 x1 x2 x3, Statement (.mepiScale x0 x1 x2 x3) := by intros; rintro c op p ⟨⟩; rfl
theorem mepiBiasRow : ∀ x0 x1 x2 x3, Statement (.mepiBiasRow x0 x1 x2 x3) := by intros; rintro c op p ⟨⟩; rfl
theorem mepiBiasCol : ∀ x0 x1 x2 x3, Statement (.mepiBiasCol x0 x1 x2 x3) := by intros; rintro c op p ⟨⟩; rfl
theorem mepiRelu : ∀ x0 x1 x2 x3, Statement (.mepiRelu x0 x1 x2 x3) := by intros; rintro c op p ⟨⟩; rfl
theorem mepiClamp : ∀ x0 x1 x2 x3, Statement (.mepiClamp x0 x1 x2 x3) := by intros; rintro c op p ⟨⟩; rfl
theorem mepiAdd : ∀ x0 x1 x2 x3, Statement (.mepiAdd x0 x1 x2 x3) := by intros; rintro c op p ⟨⟩; rfl
theorem mepiDeq : ∀ x0 x1 x2 x3, Statement (.mepiDeq x0 x1 x2 x3) := by intros; rintro c op p ⟨⟩; rfl
theorem batonTake : ∀ x0 x1, Statement (.batonTake x0 x1) := by intros; rintro c op p ⟨⟩; rfl
theorem batonPass : ∀ x0 x1, Statement (.batonPass x0 x1) := by intros; rintro c op p ⟨⟩; rfl
theorem mquery : ∀ x0 x1 x2, Statement (.mquery x0 x1 x2) := by intros; rintro c op p ⟨⟩; rfl
theorem mqueryFlagsc : ∀ x0 x1, Statement (.mqueryFlagsc x0 x1) := by intros; rintro c op p ⟨⟩; rfl
theorem tld : ∀ x0 x1 x2, Statement (.tld x0 x1 x2) := by intros; rintro c op p ⟨⟩; rfl
theorem tconst : ∀ x0 x1 x2, Statement (.tconst x0 x1 x2) := by intros; rintro c op p ⟨⟩; rfl
theorem tiota : ∀ x0 x1 x2, Statement (.tiota x0 x1 x2) := by intros; rintro c op p ⟨⟩; rfl
theorem tmapTr : ∀ x0 x1 x2, Statement (.tmapTr x0 x1 x2) := by intros; rintro c op p ⟨⟩; rfl
theorem tmapSlice : ∀ x0 x1 x2 x3, Statement (.tmapSlice x0 x1 x2 x3) := by intros; rintro c op p ⟨⟩; rfl
theorem tmapBcr : ∀ x0 x1 x2 x3, Statement (.tmapBcr x0 x1 x2 x3) := by intros; rintro c op p ⟨⟩; rfl
theorem tmapBcc : ∀ x0 x1 x2 x3, Statement (.tmapBcc x0 x1 x2 x3) := by intros; rintro c op p ⟨⟩; rfl
theorem tmapRevr : ∀ x0 x1 x2, Statement (.tmapRevr x0 x1 x2) := by intros; rintro c op p ⟨⟩; rfl
theorem tmapRevc : ∀ x0 x1 x2, Statement (.tmapRevc x0 x1 x2) := by intros; rintro c op p ⟨⟩; rfl
theorem tmapShift : ∀ x0 x1 x2 x3, Statement (.tmapShift x0 x1 x2 x3) := by intros; rintro c op p ⟨⟩; rfl
theorem tadd : ∀ x0 x1 x2 x3, Statement (.tadd x0 x1 x2 x3) := by intros; rintro c op p ⟨⟩; rfl
theorem tsub : ∀ x0 x1 x2 x3, Statement (.tsub x0 x1 x2 x3) := by intros; rintro c op p ⟨⟩; rfl
theorem tmul : ∀ x0 x1 x2 x3, Statement (.tmul x0 x1 x2 x3) := by intros; rintro c op p ⟨⟩; rfl
theorem tmax : ∀ x0 x1 x2 x3, Statement (.tmax x0 x1 x2 x3) := by intros; rintro c op p ⟨⟩; rfl
theorem tmin : ∀ x0 x1 x2 x3, Statement (.tmin x0 x1 x2 x3) := by intros; rintro c op p ⟨⟩; rfl
theorem texp : ∀ x0 x1 x2, Statement (.texp x0 x1 x2) := by intros; rintro c op p ⟨⟩; rfl
theorem tlog : ∀ x0 x1 x2, Statement (.tlog x0 x1 x2) := by intros; rintro c op p ⟨⟩; rfl
theorem trcp : ∀ x0 x1 x2, Statement (.trcp x0 x1 x2) := by intros; rintro c op p ⟨⟩; rfl
theorem tsig : ∀ x0 x1 x2, Statement (.tsig x0 x1 x2) := by intros; rintro c op p ⟨⟩; rfl
theorem tselm : ∀ x0 x1 x2 x3 x4, Statement (.tselm x0 x1 x2 x3 x4) := by intros; rintro c op p ⟨⟩; rfl
theorem tscan : ∀ x0 x1 x2 x3, Statement (.tscan x0 x1 x2 x3) := by intros; rintro c op p ⟨⟩; rfl
theorem tred : ∀ x0 x1 x2 x3, Statement (.tred x0 x1 x2 x3) := by intros; rintro c op p ⟨⟩; rfl
theorem tmma : ∀ x0 x1 x2 x3 x4, Statement (.tmma x0 x1 x2 x3 x4) := by intros; rintro c op p ⟨⟩; rfl
theorem tcvt : ∀ x0 x1 x2 x3, Statement (.tcvt x0 x1 x2 x3) := by intros; rintro c op p ⟨⟩; rfl
theorem tst : ∀ x0 x1 x2, Statement (.tst x0 x1 x2) := by intros; rintro c op p ⟨⟩; rfl
theorem tforce : ∀ x0 x1 x2, Statement (.tforce x0 x1 x2) := by intros; rintro c op p ⟨⟩; rfl
theorem tdrop : ∀ x0 x1, Statement (.tdrop x0 x1) := by intros; rintro c op p ⟨⟩; rfl
theorem tcfg : ∀ x0 x1, Statement (.tcfg x0 x1) := by intros; rintro c op p ⟨⟩; rfl
theorem tstatCounts : ∀ x0 x1, Statement (.tstatCounts x0 x1) := by intros; rintro c op p ⟨⟩; rfl
theorem tstatCap : ∀ x0 x1, Statement (.tstatCap x0 x1) := by intros; rintro c op p ⟨⟩; rfl
theorem tstatNode : ∀ x0 x1 x2, Statement (.tstatNode x0 x1 x2) := by intros; rintro c op p ⟨⟩; rfl
theorem tstatFault : ∀ x0 x1, Statement (.tstatFault x0 x1) := by intros; rintro c op p ⟨⟩; rfl
theorem cpy : ∀ x0 x1 x2, Statement (.cpy x0 x1 x2) := by intros; rintro c op p ⟨⟩; rfl
theorem cpym : ∀ x0 x1 x2, Statement (.cpym x0 x1 x2) := by intros; rintro c op p ⟨⟩; rfl
theorem cpyx : ∀ x0 x1 x2, Statement (.cpyx x0 x1 x2) := by intros; rintro c op p ⟨⟩; rfl
theorem tlwait : ∀ x0 x1 x2, Statement (.tlwait x0 x1 x2) := by intros; rintro c op p ⟨⟩; rfl
theorem tlrd : ∀ x0 x1 x2, Statement (.tlrd x0 x1 x2) := by intros; rintro c op p ⟨⟩; rfl
theorem waitp : ∀ x0 x1 x2, Statement (.waitp x0 x1 x2) := by intros; rintro c op p ⟨⟩; rfl
theorem bankcfg : ∀ x0 x1, Statement (.bankcfg x0 x1) := by intros; rintro c op p ⟨⟩; rfl
theorem fpush : ∀ x0 x1, Statement (.fpush x0 x1) := by intros; rintro c op p ⟨⟩; rfl
theorem fpop : ∀ x0 x1 x2, Statement (.fpop x0 x1 x2) := by intros; rintro c op p ⟨⟩; rfl
theorem portcfg : ∀ x0 x1 x2, Statement (.portcfg x0 x1 x2) := by intros; rintro c op p ⟨⟩; rfl
theorem cbarArrive : ∀ x0 x1, Statement (.cbarArrive x0 x1) := by intros; rintro c op p ⟨⟩; rfl
theorem cbarWait : ∀ x0 x1, Statement (.cbarWait x0 x1) := by intros; rintro c op p ⟨⟩; rfl
theorem rbind : ∀ x0 x1 x2 x3, Statement (.rbind x0 x1 x2 x3) := by intros; rintro c op p ⟨⟩; rfl
theorem rtrace : ∀ x0 x1 x2, Statement (.rtrace x0 x1 x2) := by intros; rintro c op p ⟨⟩; rfl
theorem rsave : ∀ x0, Statement (.rsave x0) := by intros; rintro c op p ⟨⟩; rfl
theorem rresume : ∀ x0 x1 x2, Statement (.rresume x0 x1 x2) := by intros; rintro c op p ⟨⟩; rfl
theorem rquery : ∀ x0 x1 x2, Statement (.rquery x0 x1 x2) := by intros; rintro c op p ⟨⟩; rfl
theorem launch : ∀ x0 x1, Statement (.launch x0 x1) := by intros; rintro c op p ⟨⟩; rfl
theorem tenq : ∀ x0 x1, Statement (.tenq x0 x1) := by intros; rintro c op p ⟨⟩; rfl
theorem rnext : ∀ x0 x1 x2, Statement (.rnext x0 x1 x2) := by intros; rintro c op p ⟨⟩; rfl
theorem recalloc : ∀ x0 x1 x2, Statement (.recalloc x0 x1 x2) := by intros; rintro c op p ⟨⟩; rfl
theorem recsend : ∀ x0 x1, Statement (.recsend x0 x1) := by intros; rintro c op p ⟨⟩; rfl
theorem gate : ∀ x0, Statement (.gate x0) := by intros; rintro c op p ⟨⟩; rfl
theorem release : ∀ x0, Statement (.release x0) := by intros; rintro c op p ⟨⟩; rfl
theorem qclaim : ∀ x0 x1 x2, Statement (.qclaim x0 x1 x2) := by intros; rintro c op p ⟨⟩; rfl
theorem pemit : ∀ x0 x1, Statement (.pemit x0 x1) := by intros; rintro c op p ⟨⟩; rfl
theorem pxout : ∀ x0 x1 x2, Statement (.pxout x0 x1 x2) := by intros; rintro c op p ⟨⟩; rfl
theorem nmv : ∀ x0 x1 x2, Statement (.nmv x0 x1 x2) := by intros; rintro c op p ⟨⟩; rfl
theorem sleepExpire : ∀ x0, Statement (.sleepExpire x0) := by intros; rintro c op p ⟨⟩
theorem batonTransfer : ∀ x0, Statement (.batonTransfer x0) := by intros; rintro c op p ⟨⟩
theorem matrixCommandStart : ∀ x0, Statement (.matrixCommandStart x0) := by intros; rintro c op p ⟨⟩
theorem accumulatorTileFill : ∀ x0 x1, Statement (.accumulatorTileFill x0 x1) := by intros; rintro c op p ⟨⟩
theorem matrixCommandComplete : ∀ x0, Statement (.matrixCommandComplete x0) := by intros; rintro c op p ⟨⟩
theorem demandOutputStep : ∀ x0, Statement (.demandOutputStep x0) := by intros; rintro c op p ⟨⟩
theorem demandComplete : ∀ x0, Statement (.demandComplete x0) := by intros; rintro c op p ⟨⟩
theorem viewCapture : ∀ x0, Statement (.viewCapture x0) := by intros; rintro c op p ⟨⟩
theorem bankModeChangeDone : ∀ x0 x1, Statement (.bankModeChangeDone x0 x1) := by intros; rintro c op p ⟨⟩
theorem fifoPushJoin : ∀ x0 x1, Statement (.fifoPushJoin x0 x1) := by intros; rintro c op p ⟨⟩
theorem fifoPopServe : ∀ x0 x1, Statement (.fifoPopServe x0 x1) := by intros; rintro c op p ⟨⟩
theorem creditReturn : ∀ x0 x1, Statement (.creditReturn x0 x1) := by intros; rintro c op p ⟨⟩
theorem portReadServe : ∀ x0 x1, Statement (.portReadServe x0 x1) := by intros; rintro c op p ⟨⟩
theorem copyRequestComplete : ∀ x0, Statement (.copyRequestComplete x0) := by intros; rintro c op p ⟨⟩
theorem followOnEnqueue : ∀ x0, Statement (.followOnEnqueue x0) := by intros; rintro c op p ⟨⟩
theorem promisedTimeReached : ∀ x0, Statement (.promisedTimeReached x0) := by intros; rintro c op p ⟨⟩
theorem rbindApply : ∀ x0, Statement (.rbindApply x0) := by intros; rintro c op p ⟨⟩
theorem rayStart : ∀ x0, Statement (.rayStart x0) := by intros; rintro c op p ⟨⟩
theorem nodeFetchReturn : ∀ x0, Statement (.nodeFetchReturn x0) := by intros; rintro c op p ⟨⟩
theorem rayWriteback : ∀ x0, Statement (.rayWriteback x0) := by intros; rintro c op p ⟨⟩
theorem traversalRequestComplete : ∀ x0, Statement (.traversalRequestComplete x0) := by intros; rintro c op p ⟨⟩
theorem nmvRequestComplete : ∀ x0, Statement (.nmvRequestComplete x0) := by intros; rintro c op p ⟨⟩
theorem pixelWaveLaunch : ∀ x0 x1 x2, Statement (.pixelWaveLaunch x0 x1 x2) := by intros; rintro c op p ⟨⟩
theorem aggregatorWindowClose : ∀ x0 x1, Statement (.aggregatorWindowClose x0 x1) := by intros; rintro c op p ⟨⟩
theorem taskStart : ∀ x0, Statement (.taskStart x0) := by intros; rintro c op p ⟨⟩
theorem rangeTaskSplit : ∀ x0, Statement (.rangeTaskSplit x0) := by intros; rintro c op p ⟨⟩
theorem batchTimeout : ∀ x0 x1, Statement (.batchTimeout x0 x1) := by intros; rintro c op p ⟨⟩
theorem batchGroupEnd : ∀ x0, Statement (.batchGroupEnd x0) := by intros; rintro c op p ⟨⟩
theorem cohortPlacement : ∀ x0 x1, Statement (.cohortPlacement x0 x1) := by intros; rintro c op p ⟨⟩
theorem waveEnd : ∀ x0, Statement (.waveEnd x0) := by intros; rintro c op p ⟨⟩
theorem registerLineFill : ∀ x0 x1, Statement (.registerLineFill x0 x1) := by intros; rintro c op p ⟨⟩
theorem wavePromotion : ∀ x0 x1, Statement (.wavePromotion x0 x1) := by intros; rintro c op p ⟨⟩
theorem fixedLatencyComplete : ∀ x0 x1, Statement (.fixedLatencyComplete x0 x1) := by intros; rintro c op p ⟨⟩
theorem loadComplete : ∀ x0 x1, Statement (.loadComplete x0 x1) := by intros; rintro c op p ⟨⟩
theorem storePerformed : ∀ x0 x1, Statement (.storePerformed x0 x1) := by intros; rintro c op p ⟨⟩
theorem rmwPerformed : ∀ x0 x1, Statement (.rmwPerformed x0 x1) := by intros; rintro c op p ⟨⟩
theorem fenceComplete : ∀ x0 x1, Statement (.fenceComplete x0 x1) := by intros; rintro c op p ⟨⟩
theorem mwaitWake : ∀ x0, Statement (.mwaitWake x0) := by intros; rintro c op p ⟨⟩
theorem waitPoll : ∀ x0, Statement (.waitPoll x0) := by intros; rintro c op p ⟨⟩
theorem trapDelivery : ∀ x0, Statement (.trapDelivery x0) := by intros; rintro c op p ⟨⟩
theorem pageWalk : ∀ x0 x1 x2 x3, Statement (.pageWalk x0 x1 x2 x3) := by intros; rintro c op p ⟨⟩
theorem tlbiGo : ∀ x0 x1, Statement (.tlbiGo x0 x1) := by intros; rintro c op p ⟨⟩
theorem tlbiComplete : ∀ x0, Statement (.tlbiComplete x0) := by intros; rintro c op p ⟨⟩
theorem preempt : ∀ x0 x1, Statement (.preempt x0 x1) := by intros; rintro c op p ⟨⟩
theorem contextHalt : ∀ x0 x1, Statement (.contextHalt x0 x1) := by intros; rintro c op p ⟨⟩
theorem controlStateSwap : ∀ x0 x1 x2, Statement (.controlStateSwap x0 x1 x2) := by intros; rintro c op p ⟨⟩
theorem shadowStoreDrain : ∀ x0, Statement (.shadowStoreDrain x0) := by intros; rintro c op p ⟨⟩
theorem restore : ∀ x0 x1 x2, Statement (.restore x0 x1 x2) := by intros; rintro c op p ⟨⟩
theorem waveEvict : ∀ x0, Statement (.waveEvict x0) := by intros; rintro c op p ⟨⟩
theorem l2LineFill : ∀ x0, Statement (.l2LineFill x0) := by intros; rintro c op p ⟨⟩
theorem packetPromotion : ∀ x0 x1 x2 x3, Statement (.packetPromotion x0 x1 x2 x3) := by intros; rintro c op p ⟨⟩
theorem tailFilterReport : ∀ x0, Statement (.tailFilterReport x0) := by intros; rintro c op p ⟨⟩
theorem launchPacket : ∀ x0, Statement (.launchPacket x0) := by intros; rintro c op p ⟨⟩
theorem launchStart : ∀ x0, Statement (.launchStart x0) := by intros; rintro c op p ⟨⟩
theorem launchComplete : ∀ x0, Statement (.launchComplete x0) := by intros; rintro c op p ⟨⟩
theorem graphDispatch : ∀ x0, Statement (.graphDispatch x0) := by intros; rintro c op p ⟨⟩
theorem drawGraph : ∀ x0, Statement (.drawGraph x0) := by intros; rintro c op p ⟨⟩
theorem dependency : ∀ x0, Statement (.dependency x0) := by intros; rintro c op p ⟨⟩
theorem dependencySatisfied : ∀ x0 x1, Statement (.dependencySatisfied x0 x1) := by intros; rintro c op p ⟨⟩
theorem timelineSignal : ∀ x0, Statement (.timelineSignal x0) := by intros; rintro c op p ⟨⟩
theorem timelineWait : ∀ x0, Statement (.timelineWait x0) := by intros; rintro c op p ⟨⟩
theorem timelineWaitSatisfied : ∀ x0 x1, Statement (.timelineWaitSatisfied x0 x1) := by intros; rintro c op p ⟨⟩
theorem handleDeclaration : ∀ x0, Statement (.handleDeclaration x0) := by intros; rintro c op p ⟨⟩
theorem noOp : ∀ x0, Statement (.noOp x0) := by intros; rintro c op p ⟨⟩
theorem firmwareDefinedPacket : ∀ x0, Statement (.firmwareDefinedPacket x0) := by intros; rintro c op p ⟨⟩
theorem queueRestart : ∀ x0, Statement (.queueRestart x0) := by intros; rintro c op p ⟨⟩
theorem qcbinv : ∀ x0 x1, Statement (.qcbinv x0 x1) := by intros; rintro c op p ⟨⟩
theorem mbdone : ∀ x0 x1, Statement (.mbdone x0 x1) := by intros; rintro c op p ⟨⟩
theorem mailboxPost : ∀ x0, Statement (.mailboxPost x0) := by intros; rintro c op p ⟨⟩
theorem mailboxActionApply : ∀ x0 x1, Statement (.mailboxActionApply x0 x1) := by intros; rintro c op p ⟨⟩
theorem contextCreate : ∀ x0, Statement (.contextCreate x0) := by intros; rintro c op p ⟨⟩
theorem windowDerive : ∀ x0 x1 x2 x3 x4 x5, Statement (.windowDerive x0 x1 x2 x3 x4 x5) := by intros; rintro c op p ⟨⟩
theorem windowInvalidate : ∀ x0 x1, Statement (.windowInvalidate x0 x1) := by intros; rintro c op p ⟨⟩
theorem capabilityAccess : ∀ x0 x1 x2 x3 x4, Statement (.capabilityAccess x0 x1 x2 x3 x4) := by intros; rintro c op p ⟨⟩
theorem doorbellWrite : ∀ x0, Statement (.doorbellWrite x0) := by intros; rintro c op p ⟨⟩
theorem queueTableFault : ∀ x0, Statement (.queueTableFault x0) := by intros; rintro c op p ⟨⟩
theorem queueErrorNotice : ∀ x0, Statement (.queueErrorNotice x0) := by intros; rintro c op p ⟨⟩
theorem partitionCreate : ∀ x0 x1, Statement (.partitionCreate x0 x1) := by intros; rintro c op p ⟨⟩
theorem partitionResize : ∀ x0 x1 x2, Statement (.partitionResize x0 x1 x2) := by intros; rintro c op p ⟨⟩
theorem surfWrite : ∀ x0 x1 x2, Statement (.surfWrite x0 x1 x2) := by intros; rintro c op p ⟨⟩
theorem verticalBlank : ∀ x0 x1, Statement (.verticalBlank x0 x1) := by intros; rintro c op p ⟨⟩
theorem sliceEncodeComplete : ∀ x0 x1, Statement (.sliceEncodeComplete x0 x1) := by intros; rintro c op p ⟨⟩
theorem flitCrcRetry : ∀ x0 x1, Statement (.flitCrcRetry x0 x1) := by intros; rintro c op p ⟨⟩
theorem linkRetrain : ∀ x0 x1, Statement (.linkRetrain x0 x1) := by intros; rintro c op p ⟨⟩
theorem linkRecover : ∀ x0 x1, Statement (.linkRecover x0 x1) := by intros; rintro c op p ⟨⟩
theorem linkDown : ∀ x0 x1, Statement (.linkDown x0 x1) := by intros; rintro c op p ⟨⟩
theorem cecntClear : ∀ x0 x1 x2, Statement (.cecntClear x0 x1 x2) := by intros; rintro c op p ⟨⟩
theorem dramPatrol : ∀ x0, Statement (.dramPatrol x0) := by intros; rintro c op p ⟨⟩
theorem governorTick : ∀ x0, Statement (.governorTick x0) := by intros; rintro c op p ⟨⟩
theorem coolantLimit : ∀ x0, Statement (.coolantLimit x0) := by intros; rintro c op p ⟨⟩
theorem coolantShutdown : Statement .coolantShutdown := by rintro c op p ⟨⟩
theorem peerRequest : ∀ x0, Statement (.peerRequest x0) := by intros; rintro c op p ⟨⟩
theorem peerUnreachable : ∀ x0, Statement (.peerUnreachable x0) := by intros; rintro c op p ⟨⟩
theorem hostWrite : ∀ x0 x1 x2, Statement (.hostWrite x0 x1 x2) := by intros; rintro c op p ⟨⟩
theorem hostRead : ∀ x0 x1, Statement (.hostRead x0 x1) := by intros; rintro c op p ⟨⟩
theorem feataccWrite : ∀ x0, Statement (.feataccWrite x0) := by intros; rintro c op p ⟨⟩
theorem shardFetch : ∀ x0 x1 x2, Statement (.shardFetch x0 x1 x2) := by intros; rintro c op p ⟨⟩
theorem shardVerify : ∀ x0 x1 x2, Statement (.shardVerify x0 x1 x2) := by intros; rintro c op p ⟨⟩
theorem shardFetchComplete : ∀ x0 x1, Statement (.shardFetchComplete x0 x1) := by intros; rintro c op p ⟨⟩
theorem shardScrub : ∀ x0, Statement (.shardScrub x0) := by intros; rintro c op p ⟨⟩
theorem boot : ∀ x0, Statement (.boot x0) := by intros; rintro c op p ⟨⟩
theorem getVersion : ∀ x0 x1, Statement (.getVersion x0 x1) := by intros; rintro c op p ⟨⟩
theorem getCapabilities : ∀ x0 x1, Statement (.getCapabilities x0 x1) := by intros; rintro c op p ⟨⟩
theorem negotiateAlgorithms : ∀ x0 x1, Statement (.negotiateAlgorithms x0 x1) := by intros; rintro c op p ⟨⟩
theorem getDigests : ∀ x0 x1, Statement (.getDigests x0 x1) := by intros; rintro c op p ⟨⟩
theorem getCertificate : ∀ x0 x1, Statement (.getCertificate x0 x1) := by intros; rintro c op p ⟨⟩
theorem challenge : ∀ x0 x1, Statement (.challenge x0 x1) := by intros; rintro c op p ⟨⟩
theorem getMeasurements : ∀ x0 x1, Statement (.getMeasurements x0 x1) := by intros; rintro c op p ⟨⟩
theorem registerWrite : ∀ x0 x1 x2, Statement (.registerWrite x0 x1 x2) := by intros; rintro c op p ⟨⟩
theorem eflerAccess : ∀ x0 x1, Statement (.eflerAccess x0 x1) := by intros; rintro c op p ⟨⟩
theorem hostAtomic : ∀ x0 x1 x2, Statement (.hostAtomic x0 x1 x2) := by intros; rintro c op p ⟨⟩
theorem peerPortDown : ∀ x0, Statement (.peerPortDown x0) := by intros; rintro c op p ⟨⟩
theorem recoveryImage : ∀ x0, Statement (.recoveryImage x0) := by intros; rintro c op p ⟨⟩

end Sys2Proof.Laws.Encodable
end

