-- ==== Sys2Proof/Tests/Slice0.lean ====
section
/-!
SUPPORT. The model's own tests: ill-formed terms that the checks refuse, words written out from the spec's bit layouts
that decode to their instructions, a few worked examples of the spec, and for every statement with hypotheses a concrete
state and operands that meet them.
-/

namespace Sys2Proof.Tests

open Sys2Proof Sys2Proof.Machine Sys2Proof.Says

-- One proof after another: the kernel evaluates whole walks here, and a queue of them asks for too many threads at once.
set_option Elab.async false

/-! Ill-formed terms: one for each check of `wellFormed`, which refuses it (R30, R31, R39, R45, R51, R55, R57, R58, R135,
R272). -/

/-- Controls of a word that tracks nothing and is not predicated. -/
def cn : Ctl := ⟨⟨0, 0, 15⟩, false, 0⟩
/-- A prefix that asks for nothing but its mask. -/
def px : Pfx := ⟨1, false, false, .rne, false, false, 0⟩

theorem test_refuses_setf_12 : wellFormed (.nop ⟨⟨0, 0, 12⟩, false, 0⟩) = false := by decide
theorem test_refuses_reply_past_s255 : wellFormed (.upcall cn 253 0 0) = false := by decide
theorem test_refuses_block_past_s255 : wellFormed (.cpy cn 0 249) = false := by decide
theorem test_refuses_pair_past_s255 : wellFormed (.cpy cn 255 0) = false := by decide
theorem test_refuses_params_past_s255 : wellFormed (.tld cn 0 252) = false := by decide
theorem test_refuses_matrix_block_past_s255 : wellFormed (.mma cn 0 253 0) = false := by decide
theorem test_refuses_unknown_special : wellFormed (.vsrd cn 0 0x009) = false := by decide
theorem test_refuses_lane_special_in_srd : wellFormed (.srd cn 0 0x001) = false := by decide
theorem test_refuses_write_of_read_only_special : wellFormed (.swr cn 0 0x008) = false := by decide
theorem test_refuses_odd_pair : wellFormed (.saddp cn 2 4 5) = false := by decide
theorem test_refuses_odd_address : wellFormed (.ldvB32 cn 0 9 0 .die .plain .dflt) = false := by decide
theorem test_refuses_quad_at_2 : wellFormed (.ldvB128 cn 6 8 0 .die .plain .dflt) = false := by decide
theorem test_refuses_block_destination : wellFormed (.cvt cn 4 5 .blk4 .f32) = false := by decide
theorem test_refuses_stack_24 : wellFormed (.tlwait cn 3 (.nmv 24)) = false := by decide
theorem test_refuses_promise_of_stack : wellFormed (.waitp cn 4 (.nmv 0)) = false := by decide
theorem test_refuses_one_bank : wellFormed (.dualWord cn.h .vadd 4 9 .fmul 8 10 false) = false := by decide
theorem test_refuses_one_source_bank : wellFormed (.dualWord cn.h .vadd 4 9 .fmul 6 13 false) = false := by decide
theorem test_refuses_prefix_before_scalar : wellFormed (.prefixedPair px (.sadd cn (.s 1) (.s 2) (.s 3))) = false := by decide
theorem test_refuses_prefix_before_predicated :
    wellFormed (.prefixedPair px (.vadd ⟨cn.h, false, 1⟩ 1 2 3)) = false := by decide
theorem test_refuses_prefix_before_prefix :
    wellFormed (.prefixedPair px (.prefixedPair px (.vadd cn 1 2 3))) = false := by decide
theorem test_refuses_saturating_load :
    wellFormed (.prefixedPair ⟨1, false, false, .rne, false, true, 0⟩ (.ldvB32 cn 0 8 0 .die .plain .dflt)) = false := by
  decide
theorem test_refuses_zeroing_store :
    wellFormed (.prefixedPair ⟨1, false, true, .rne, false, false, 0⟩ (.stvB32 cn 0 8 0 .die .plain .dflt)) = false := by
  decide
theorem test_accepts_zeroing_load :
    wellFormed (.prefixedPair ⟨1, false, true, .rne, false, false, 0⟩ (.ldvB32 cn 0 8 0 .die .plain .dflt)) = true := by
  decide

/-! Words written out field by field from R36, R42, R44 and the opcode map (R63): KIND, STALL, WAIT, SETF, OP, NEG, PM and
the fields of the format. `full` puts the first seven in their places, as R42 does. -/

/-- The upper 34 bits of a full word: its header, OP and predicate. -/
def full (stall : BitVec 3) (wait : BitVec 12) (setf : BitVec 4) (op : BitVec 9) (neg : BitVec 1) (pm : BitVec 3) : BitVec 34 :=
  0b00#2 ++ stall ++ wait ++ setf ++ op ++ neg ++ pm

/-- What the decoder reads from the bytes of one word. -/
def reads (w : DWord) (i : Instr) : Prop := Sys2Proof.decode (wordBytes w) = .ok (i, [])

theorem test_decodes_bra :
    reads (full 0 0x0 15 0x001 0 0 ++ 3#4 ++ 1#1 ++ 0x1FFFFFE#25) (.bra ⟨⟨0, 0x0, 15⟩, false, 0⟩ 3 true 0x1FFFFFE) := rfl
theorem test_decodes_jmpv :
    reads (full 1 0x0 15 0x006 1 2 ++ 0#10 ++ 700#10 ++ 0#10) (.jmpv ⟨⟨1, 0x0, 15⟩, true, 2⟩ 700) := rfl
theorem test_decodes_trap :
    reads (full 0 0x0 15 0x00b 0 0 ++ 0#10 ++ 0x01234#20) (.trap ⟨⟨0, 0x0, 15⟩, false, 0⟩ 0x1234) := rfl
theorem test_decodes_elect :
    reads (full 0 0x0 15 0x00d 0 0 ++ 9#10 ++ 0#10 ++ 0#10) (.elect ⟨⟨0, 0x0, 15⟩, false, 0⟩ 9) := rfl
theorem test_decodes_qcmp :
    reads (full 0 0x0 15 0x013 0 0 ++ 3#4 ++ 0#2 ++ 6#4 ++ 4#10 ++ 5#10) (.qcmp ⟨⟨0, 0x0, 15⟩, false, 0⟩ 3 .ltu 4 5) := rfl
theorem test_decodes_srd :
    reads (full 0 0x0 15 0x018 0 0 ++ 9#10 ++ 0x00028#20) (.srd ⟨⟨0, 0x0, 15⟩, false, 0⟩ 9 0x028) := rfl
theorem test_decodes_sadd :
    reads (full 1 0x801 15 0x040 0 0 ++ 5#10 ++ 0x104#10 ++ 255#10) (.sadd ⟨⟨1, 0x801, 15⟩, false, 0⟩ (.s 5) (.n 4) (.s 255)) := rfl
theorem test_decodes_mandn :
    reads (full 0 0x0 15 0x06b 0 0 ++ 5#10 ++ 6#10 ++ 15#10) (.mandn ⟨⟨0, 0x0, 15⟩, false, 0⟩ 5 6 15) := rfl
theorem test_decodes_vsub :
    reads (full 0 0x0 15 0x081 0 3 ++ 1000#10 ++ 2#10 ++ 1023#10) (.vsub ⟨⟨0, 0x0, 15⟩, false, 3⟩ 1000 2 1023) := rfl
theorem test_decodes_vcmpi :
    reads (full 0 0x0 15 0x0a1 0 0 ++ 7#4 ++ 0#2 ++ 5#4 ++ 9#10 ++ 0x3FF#10) (.vcmpi ⟨⟨0, 0x0, 15⟩, false, 0⟩ 7 .ge 9 0x3FF) := rfl
theorem test_decodes_fcmp :
    reads (full 0 0x0 15 0x0ca 0 0 ++ 2#4 ++ 0#2 ++ 0xB#4 ++ 6#10 ++ 7#10) (.fcmp ⟨⟨0, 0x0, 15⟩, false, 0⟩ 2 .uno 6 7) := rfl
theorem test_decodes_fadd :
    reads (full 0 0x0 15 0x0c0 0 0 ++ 4#10 ++ 5#10 ++ 6#10) (.fadd ⟨⟨0, 0x0, 15⟩, false, 0⟩ 4 5 6) := rfl
theorem test_decodes_cvt :
    reads (full 0 0x0 15 0x0d8 0 0 ++ 4#10 ++ 5#10 ++ 0x0A#5 ++ 0x08#5) (.cvt ⟨⟨0, 0x0, 15⟩, false, 0⟩ 4 5 .f16 .f32) := rfl
theorem test_decodes_fcosp :
    reads (full 0 0x0 15 0x0e6 0 0 ++ 4#10 ++ 5#10 ++ 0#10) (.fcosp ⟨⟨0, 0x0, 15⟩, false, 0⟩ 4 5) := rfl
theorem test_decodes_vshfl :
    reads (full 0 0x0 15 0x0f1 0 0 ++ 4#10 ++ 5#10 ++ 2#2 ++ 0#2 ++ 17#6) (.vshfl ⟨⟨0, 0x0, 15⟩, false, 0⟩ 4 5 2 17) := rfl
theorem test_decodes_ldv_b64 :
    reads (full 0 0x0 3 0x105 0 0 ++ 12#10 ++ 8#10 ++ 0#3 ++ 4#3 ++ 1#2 ++ 2#2) (.ldvB64 ⟨⟨0, 0x0, 3⟩, false, 0⟩ 12 8 0 .device .acquire .roPath) := rfl
theorem test_decodes_atom_cas :
    reads (full 0 0x0 3 0x129 0 0 ++ 12#10 ++ 8#10 ++ 6#3 ++ 5#3 ++ 3#2 ++ 3#2) (.casB32 ⟨⟨0, 0x0, 3⟩, false, 0⟩ 12 8 6 .system .acqRel .l2Direct) := rfl
theorem test_decodes_fence :
    reads (full 0 0x0 15 0x160 0 0 ++ 0xA5#8 ++ 2#2 ++ 4#3 ++ 0#17) (.fence ⟨⟨0, 0x0, 15⟩, false, 0⟩ 0xA5 .acqRel .device) := rfl
theorem test_decodes_bar_sync :
    reads (full 0 0x0 15 0x170 0 0 ++ 0#10 ++ 0#11 ++ 16#5 ++ 9#4) (.barSync ⟨⟨0, 0x0, 15⟩, false, 0⟩ 16 9) := rfl
theorem test_decodes_baton_pass :
    reads (full 0 0x0 5 0x187 0 0 ++ 0#10 ++ 0#10 ++ 0#3 ++ 0x13#7) (.batonPass ⟨⟨0, 0x0, 5⟩, false, 0⟩ (.wave 3)) := rfl
theorem test_decodes_tmma :
    reads (full 0 0x0 15 0x1a0 0 0 ++ 1#6 ++ 2#6 ++ 3#6 ++ 40#8 ++ 0#4) (.tmma ⟨⟨0, 0x0, 15⟩, false, 0⟩ 1 2 3 40) := rfl
theorem test_decodes_waitp :
    reads (full 0 0x0 15 0x1b5 0 0 ++ 0#10 ++ 6#10 ++ 1#10) (.waitp ⟨⟨0, 0x0, 15⟩, false, 0⟩ 6 .trav) := rfl
theorem test_decodes_tlwait_nmv :
    reads (full 0 0x0 15 0x1b3 0 0 ++ 0#10 ++ 6#10 ++ 31#10) (.tlwait ⟨⟨0, 0x0, 15⟩, false, 0⟩ 6 (.nmv 23)) := rfl
theorem test_decodes_portcfg :
    reads (full 0 0x0 15 0x1b9 0 0 ++ 0x107#10 ++ 6#10 ++ 0#10) (.portcfg ⟨⟨0, 0x0, 15⟩, false, 0⟩ 7 6) := rfl
theorem test_decodes_launch :
    reads (full 0 0x0 15 0x1d0 0 0 ++ 0#10 ++ 16#10 ++ 0#10) (.launch ⟨⟨0, 0x0, 15⟩, false, 0⟩ 16) := rfl
theorem test_decodes_pxout :
    reads (full 0 0x0 2 0x1d9 0 0 ++ 8#10 ++ 0#10 ++ 7#10) (.pxout ⟨⟨0, 0x0, 2⟩, false, 0⟩ 8 7) := rfl


/-- A dual word of R52: P, the slots' opcodes and registers. -/
theorem test_decodes_dual :
    reads (0b01#2 ++ 3#3 ++ 0x010#12 ++ 4#4 ++ 1#5 ++ 4#8 ++ 9#8 ++ 15#5 ++ 7#8 ++ 10#8 ++ 1#1)
      (.dualWord ⟨3, 0x010, 4⟩ .vadd 4 9 .fsub 7 10 true) := rfl

/-- The `loop` word of the worked example, from its bytes in memory. -/
theorem test_decodes_worked_loop :
    Sys2Proof.decode [0xFF, 0xFF, 0x5F, 0x00, 0x10, 0x78, 0x00, 0x08] = .ok (.loop ⟨⟨1, 0, 15⟩, false, 0⟩ 5 0xFFFFF, []) :=
  rfl
/-- KIND 11, an unassigned OP, a reserved field and SETF 13 are no instructions (R61). -/
theorem test_refuses_encodings :
    [0xC000_7800_0000_0000#64, 0x0000_783C_0000_0000#64, 0x0000_7800_0000_0001#64, 0x0000_6800_0000_0000#64].all
      (fun w => match Sys2Proof.decode (wordBytes w) with | .ok _ => false | .error _ => true) = true := by decide
/-- The words and micro-words that the spec writes out (R36, R42, R46, R52, R57, R299). -/
theorem test_decodes_worked_walks :
    decodeWalk 0x0800_0000 = some .ldn ∧ decodeWalk 0x4A00_0009 = some (.brc .l false 9) ∧
      decodeWalk 0x5800_0000 = some .wDone := ⟨rfl, rfl, rfl⟩
theorem test_decodes_worked_store : reads 0x1001_7C28_00C0_2134
    (.stvB32 ⟨⟨2, 0x002, 15⟩, false, 0⟩ 12 8 2 .die .release .dflt) := rfl

/-! Worked examples of the spec, and one word of a run. -/

/-- R325's example: the entries of router 9 for slice 30 and for itself. -/
theorem test_worked_route : routeEntry 9 30 = 0xC3 ∧ routeEntry 9 9 = 0x87 := by decide

/-! Small states, and the witnesses of the statements' hypotheses. -/

/-! Small states. -/

/-- Controls that name flag 1, and no flag. -/
def c1 : Ctl := ⟨⟨0, 0, 1⟩, false, 0⟩
def c0 : Ctl := ⟨⟨0, 0, 15⟩, false, 0⟩

/-- Lanes 0 and 63, the run of the wave below. -/
def run0 : Lanes := 0x8000000000000001

/-- A resident wave of two ready threads at PC 5 with a trap handler. -/
def w0 : Wave := { Wave.blank with
  group := 1, launch := 1, slot := some 0, launched := run0, threads := [(0, .ready), (63, .ready)],
  pcs := [(0, 5), (63, 5)], trapVec := 0x40, localsize := 0x1000, localbase := 0x2000 }

/-- Its group and cohort. -/
def g0 : Group := { Group.blank with
  waves := 1, slot := some 0, launch := 1, cohort := 1, localsize := 0x1000, localbase := 0x2000 }
def h0 : Cohort := { Cohort.blank with launch := 1, groups := [1], count := 1, base := 0x2000, size := 0x1000 }

/-- A page of memory at its own address, in the TLB of core 0. -/
def page (n : Nat) : TlbEntry := ⟨0, 0, n, 12, n, true, true, true, false, true, []⟩

/-- The machine with one wave, its translations at hand. -/
def st (w : Wave) : State := { State.reset with
  waves := [(0, w)], groups := [(1, g0)], cohorts := [(1, h0)], launches := [(1, Launch.blank)],
  cores := [(0, { CoreSt.blank with tlb := [page 0x100] })], clusters := [(0, { ClusterSt.blank with tlb := [page 0x100] })],
  nextId := 2 }

/-- The machine with changes of its wave, its group or its cohort. -/
def stw (f : Wave → Wave) : State := st (f w0)
def stg (f : Group → Group) : State := { st w0 with groups := [(1, f g0)] }

theorem steady (s : State) (f : BitVec 4) (h : (cw s).slot.isSome = true ∧ (s.core (cw s).core).missing = [] ∧
    (f.toNat ≤ 11 → ((cw s).flag f.toNat).toNat < 63)) : Steady s f :=
  ⟨h.1, by simp [h.2.1], h.2.2⟩

theorem at_of (s : State) (k o : Nat) (f : Flight) (h : AMap.find (s.wave k).flights o = some f ∧
    (s.wave k).slot.isSome = true ∧ (s.core (s.wave k).core).missing = []) : At s k o f :=
  ⟨h.1, h.2.1, by simp [h.2.2]⟩

theorem alone (s : State) (k o : Nat) (f : Flight) (a : LaneAcc) (h : AMap.find (s.wave k).flights o = some f)
    (i : f.accs = [a]) (j : ((s.wave k).flights.all fun e => decide (o ≤ e.1)) = true ∧ a.got = none ∧
      s.pathOpen (s.wave k).core f.kind a.loc = true ∧ (s.wave k).slot.isSome = true ∧
      (s.core (s.wave k).core).missing = []) : Alone s k o f a :=
  ⟨h, fun e he => of_decide_eq_true (List.all_eq_true.mp j.1 e he), i, j.2.1, j.2.2.1, j.2.2.2.1, by simp [j.2.2.2.2]⟩

theorem inDram {pa n : Nat} (h : pa + n ≤ dramEnd) : InDram pa n := h

/-- Results of the walks, told apart by the kernel: the state after is the second part. -/
theorem eq_pair {α σ : Type} [DecidableEq α] {f : α × σ} {a : α} (h : decide (f.1 = a) = true) : f = (a, f.2) :=
  Prod.ext (of_decide_eq_true h) rfl

theorem none_pair {α σ : Type} {f : Option α × σ} (h : f.1.isNone = true) : f = (none, f.2) :=
  Prod.ext (Option.isNone_iff_eq_none.mp h) rfl

theorem ok_pair {ε α σ : Type} [DecidableEq α] {f : Except ε α × σ} {a : α}
    (h : (match f.1 with | .ok b => decide (b = a) | .error _ => false) = true) : f = (.ok a, f.2) := by
  obtain ⟨x, y⟩ := f
  cases x with
  | error e => exact absurd h (by simp)
  | ok b => simp at h; subst h; rfl

def isOk {ε α : Type} : Except ε α → Bool
  | .ok _ => true
  | .error _ => false

def okOf {ε α : Type} : (x : Except ε α) → isOk x = true → α
  | .ok a, _ => a

theorem is_ok {ε α σ : Type} {f : Except ε α × σ} (h : isOk f.1 = true) : f = (.ok (okOf f.1 h), f.2) := by
  obtain ⟨x, y⟩ := f
  cases x with
  | error e => exact absurd h (by simp [isOk])
  | ok b => rfl

def isOkS {ε α : Type} : Option (Except ε α) → Bool
  | some (.ok _) => true
  | _ => false

def okOfS {ε α : Type} : (x : Option (Except ε α)) → isOkS x = true → α
  | some (.ok a), _ => a

theorem some_is_ok {ε α σ : Type} {f : Option (Except ε α) × σ} (h : isOkS f.1 = true) :
    f = (some (.ok (okOfS f.1 h)), f.2) := by
  obtain ⟨x, y⟩ := f
  match x with
  | none => exact absurd h (by simp [isOkS])
  | some (.error e) => exact absurd h (by simp [isOkS])
  | some (.ok b) => rfl

theorem is_error {ε α σ : Type} [DecidableEq ε] {f : Except ε α × σ} {c : ε}
    (h : (match f.1 with | .error b => decide (b = c) | .ok _ => false) = true) : f = (.error c, f.2) := by
  obtain ⟨x, y⟩ := f
  cases x with
  | ok b => exact absurd h (by simp)
  | error e => simp at h; subst h; rfl

theorem no_some {α : Type} {o : Option α} {P : α → Prop} (h : o = none) : ∀ c, o = some c → P c :=
  fun _ e => nomatch h.symm.trans e

theorem some_of {α : Type} {f : Option α} (h : f.isSome = true) : f = some (f.get h) := (Option.some_get h).symm

theorem some_ok_pair {ε α σ : Type} [DecidableEq α] {f : Option (Except ε α) × σ} {a : α}
    (h : (match f.1 with | some (.ok b) => decide (b = a) | _ => false) = true) : f = (some (.ok a), f.2) := by
  obtain ⟨x, y⟩ := f
  match x with
  | none => exact absurd h (by simp)
  | some (.error e) => exact absurd h (by simp)
  | some (.ok b) => simp at h; subst h; rfl

/-- Context 0's first GiB is mapped to itself at both stages by the tables of `pt`, A and D set, and lies in its
partition. -/
structure Mapped (s : State) : Prop where
  ctx : ∃ x p, AMap.find s.contexts 0 = some x ∧ x.desc.s1root = 0x1000 ∧ AMap.find s.parts x.desc.part.toNat = some p ∧
    p.spec.s2root = 0x1000 ∧ p.spec.memBase = 0 ∧ p.spec.memLen = 2 ^ 30
  lost : s.lost = []
  e1 : s.homeValue 0x1000 8 = 0x2001
  e2 : s.homeValue 0x2000 8 = 0x3001
  e3 : s.homeValue 0x3000 8 = 0xC6F
  b3 : s.homeByte 0x3000 = 0x6F

theorem walkTable_mapped (rd : EntryRead) (k va : Nat) (h : va < 2 ^ 30) (h1 : rd 4 0x1000 = .ok 0x2001)
    (h2 : rd 3 0x2000 = .ok 0x3001) (h3 : rd 2 0x3000 = .ok 0xC6F) :
    walkTable rd k walkLevels 0x1000 va = .ok ⟨0x3000, 0xC6F, 30⟩ ∧
      walkPath rd walkLevels 0x1000 va = [(4, 0x1000, 0x2001), (3, 0x2000, 0x3001), (2, 0x3000, 0xC6F)] := by
  have a : va / 2 ^ (12 + 9 * 4) % 512 = 0 := by omega
  have b : va / 2 ^ (12 + 9 * 3) % 512 = 0 := by omega
  have c : va / 2 ^ (12 + 9 * 2) % 512 = 0 := by omega
  have q (t : Nat) : t + 8 * 0 = t := rfl
  have n1 : natBits 0x2001 51 12 * 4096 = 0x2000 := by decide
  have n2 : natBits 0x3001 51 12 * 4096 = 0x3000 := by decide
  have n3 : checkLeaf 2 0xC6F = .ok 30 := rfl
  constructor
  · simp only [walkLevels, walkTable, entryAt, a, b, c, q, h1, n1, h2, n2, h3, n3]
    rfl
  · simp only [walkLevels, walkPath, entryAt, a, b, c, q, h1, n1, h2, n2, h3]
    rfl

theorem out_mapped (va : Nat) (h : va < 2 ^ 30) : (⟨0x3000, 0xC6F, 30⟩ : Leaf).out va = va := by
  have : natBits 0xC6F 51 30 = 0 := by decide
  simp only [Leaf.out, this]
  omega

theorem Mapped.entry {s : State} (m : Mapped s) {a v : Nat} (ha : a < dramEnd) (h : s.homeValue a 8 = v) :
    s.readEntry a = .ok v := by
  simp [State.readEntry, State.backed, paClass, ha, State.sectorLost, m.lost, AMap.find, h]

theorem Mapped.read2 {s : State} (m : Mapped s) {w : Walker} (d : w.die = none) (pp l a v : Nat) (ha : a < dramEnd)
    (h : s.homeValue a 8 = v) : s.read2 w pp l a = .ok v := by
  simp [State.read2, State.walkHit, d, m.entry ha h]

theorem Mapped.stage2 {s : State} (m : Mapped s) {w : Walker} (d : w.die = none) (r : w.root2 = 0x1000) (a : Nat)
    (acc : Access) (h : a < 2 ^ 30) : s.stage2 w a acc = .ok ⟨0x3000, 0xC6F, 30⟩ := by
  have p : permits 0xC6F acc = true := by cases acc <;> decide
  simp only [State.stage2, r, (walkTable_mapped _ w.k a h (m.read2 d _ _ _ _ (by decide) m.e1)
    (m.read2 d _ _ _ _ (by decide) m.e2) (m.read2 d _ _ _ _ (by decide) m.e3)).1, p, if_true]

theorem Mapped.read1 {s : State} (m : Mapped s) {w : Walker} (d : w.die = none) (r : w.root2 = 0x1000) (va l a v : Nat)
    (ha : a < 2 ^ 30) (h : s.homeValue a 8 = v) : s.read1 w va l a = .ok v := by
  have q : 2 ^ 30 ≤ dramEnd := by decide
  simp only [State.read1, State.walkHit, d, State.readStage1, m.stage2 d r a .load ha, out_mapped a ha]
  exact m.entry (by omega) h

/-- The walks number their free values; nothing else changes. -/
def after (s : State) (n : Nat) : State := { s with freeCtr := s.freeCtr + n }

theorem Mapped.after {s : State} (m : Mapped s) (n : Nat) : Mapped (after s n) := ⟨m.ctx, m.lost, m.e1, m.e2, m.e3, m.b3⟩

theorem Mapped.touch {s : State} (m : Mapped s) (d : Bool) : s.touch 0x3000 d = s := by
  have : ∀ d, (0x6F#8 : Byte) ||| (if d = true then 0x60#8 else 0x20#8) = 0x6F#8 := by decide
  simp [State.touch, m.b3, this]

theorem Mapped.touchVia {s : State} (m : Mapped s) {w : Walker} (d : w.die = none) (r : w.root2 = 0x1000) (b : Bool) :
    s.touchVia w 0x3000 b = s := by
  simp only [State.touchVia, m.stage2 d r 0x3000 .load (by decide), out_mapped 0x3000 (by decide), m.touch]

theorem Mapped.touchTables {s : State} (m : Mapped s) {w : Walker} (d : w.die = none) (r : w.root2 = 0x1000) (va : Nat)
    (path : List (Nat × Nat × Nat)) (h : ∀ e ∈ path, e.2.1 < 2 ^ 30) : s.touchTables w va path = s := by
  induction path with
  | nil => rfl
  | cons e t ih =>
    have i := ih fun x hx => h x (List.mem_cons_of_mem _ hx)
    have q := m.stage2 d r e.2.1 .load (h e (List.mem_cons_self ..))
    simp only [State.touchTables, List.foldl_cons, State.walkHit, d, Option.isSome_none, q, m.touch] at i ⊢
    exact i

theorem keepWalk_none (s : State) {w : Walker} (d : w.die = none) (va pp : Nat) : s.keepWalk w va pp = s := by
  have k : ∀ (s : State) b a p, s.keepPointers w b a p = s := fun s b a p => by simp [State.keepPointers, d]
  have f : ∀ l : List Nat, l.foldl (fun (s : State) a => s) s = s := fun l => by
    induction l with
    | nil => rfl
    | cons a t ih => exact ih
  simp only [State.keepWalk, k, f]

theorem Mapped.walk {s : State} (m : Mapped s) (a : Nat) (acc : Access) (h : a < 2 ^ 30) :
    ∃ part ps, s.walk none 0 a acc = (.ok ⟨0, part, 0, 30, 0, true, true, true, false, true, ps⟩, Tests.after s 1) := by
  obtain ⟨x, y, c1, c2, c3, c4, c5, c6⟩ := m.ctx
  have m' := m.after 1
  generalize hw : s.walker none 0 x ((Config.freeValue s.freeCtr).toNat % 16) = w
  have d : w.die = none := by rw [← hw]; rfl
  have r1 : w.root1 = 0x1000 := by rw [← hw]; simp [State.walker, c2]
  have r2 : w.root2 = 0x1000 := by rw [← hw]; simp [State.walker, c3, c4]
  obtain ⟨w1, w2⟩ := walkTable_mapped ((Tests.after s 1).read1 w a) w.k a h (m'.read1 d r2 _ _ _ _ (by decide) m'.e1)
    (m'.read1 d r2 _ _ _ _ (by decide) m'.e2) (m'.read1 d r2 _ _ _ _ (by decide) m'.e3)
  have tt := m'.touchTables d r2 a [(4, 0x1000, 0x2001), (3, 0x2000, 0x3001), (2, 0x3000, 0xC6F)] (by decide)
  have q : ∀ acc, permits 0xC6F acc = true := fun acc => by cases acc <;> decide
  have z : a / 2 ^ 30 = 0 := Nat.div_eq_of_lt h
  have e : ({ s with freeCtr := s.freeCtr + 1 } : State) = Tests.after s 1 := rfl
  simp only [State.walk, show (0 : BitVec 20).toNat = 0 from rfl, c1, hw, e, r1, w1, w2, tt, q, out_mapped a h,
    m'.stage2 d r2 a acc h, m'.touch, m'.touchVia d r2, keepWalk_none _ d]
  cases acc <;> simp only [Nat.min_self, z] <;> exact ⟨_, _, rfl⟩

theorem Mapped.feAddr {s : State} (m : Mapped s) (a n : Nat) (acc : Access) (h : a + n ≤ 2 ^ 30) (h0 : 0 < n) :
    s.feAddr 0 a n acc = (.ok a, Tests.after s 1) := by
  obtain ⟨part, ps, e⟩ := m.walk a acc (by omega)
  obtain ⟨x, y, c1, c2, c3, c4, c5, c6⟩ := m.ctx
  have g : ¬ 2 ^ 57 < a + n := by omega
  have d : a < dramEnd := by have : 2 ^ 30 ≤ dramEnd := by { decide }; omega
  have l : (Tests.after s 1).sectorLost a = false := by simp [State.sectorLost, Tests.after, m.lost, AMap.find]
  have b : ((Tests.after s 1).backed a).isSome = false := by simp [State.backed, paClass, d]
  have i : (Tests.after s 1).inPartition 0 a n = true := by
    simp [State.inPartition, Tests.after, c1, c3, c5, c6]; omega
  have z : a % 2 ^ 30 = a := Nat.mod_eq_of_lt (by omega)
  have al : ∀ acc, TlbEntry.allows ⟨0, part, 0, 30, 0, true, true, true, false, true, ps⟩ acc = true := fun acc => by
    cases acc <;> rfl
  simp only [State.feAddr, g, if_false, e, TlbEntry.hit, Nat.zero_mul, Nat.zero_add, z, l, b, i, al, Bool.not_true, Bool.and_false, Bool.or_self, Bool.false_eq_true]

theorem Mapped.feWords {s : State} (m : Mapped s) (a n : Nat) (h : a + 8 * n ≤ 2 ^ 30) :
    s.feWords 0 a n = (.ok ((List.range n).map fun k => s.homeValue (a + 8 * k) 8), Tests.after s n) := by
  induction n generalizing s a with
  | zero => rfl
  | succ n ih =>
    simp only [State.feWords, m.feAddr a 8 .load (by omega) (by omega), ih (m.after 1) (a + 8) (by omega)]
    simp [List.range_succ_eq_map, Tests.after, Function.comp_def, Nat.add_assoc, Nat.mul_add, Nat.add_comm]
    exact ⟨⟨rfl, fun _ _ => rfl⟩, by omega⟩

theorem Mapped.feStore {s : State} (m : Mapped s) (a n v : Nat) (h : a + n ≤ 2 ^ 30) (h0 : 0 < n) :
    s.feStore 0 a n v = (none, (Tests.after s 1).homeStore a n v) := by
  simp only [State.feStore, m.feAddr a n .store h h0]

theorem Mapped.stores {s : State} (m : Mapped s) (q : Nat) (p : Pkt) (k : keyPasid q = 0) (h : p.slot + 1 ≤ 2 ^ 30) :
    (s.feStore (keyPasid q) p.slot 1 0).1 = none := by
  rw [k, m.feStore p.slot 1 0 h (by decide)]

theorem opens (s : State) (q : Nat) (c : Qcb) (h : (s.fq q).qcb = some c)
    (g : (c.en && !c.err && c.ok && !c.kind && s.fabric.boot != .recovery && c.rdidx != c.wridx &&
      s.inPartition (keyPasid q) (s.fq q).at_ 128 && (s.fq q).coversSlots c c.rdidx 1) = true) :
    s.openQueue q = (some (.ok c), s) := by
  simp only [Bool.and_eq_true, bne_iff_ne, ne_eq, Bool.not_eq_true'] at g
  obtain ⟨⟨⟨⟨⟨⟨⟨g1, g2⟩, g3⟩, g4⟩, g5⟩, g6⟩, g7⟩, g8⟩ := g
  have l : s.loadQcb q = s := by simp [State.loadQcb, h]
  simp [State.openQueue, l, h, g1, g2, g3, g4, g5, g6, g7, g8]

/-- The packet of queue 2 of `pq`. -/
theorem Mapped.reads {s : State} (m : Mapped s) (q : Nat) (p : Pkt) (c : Qcb) (k : keyPasid q = 0)
    (h : (s.fq q).qcb = some c)
    (d : let e := p.words.headD 0
      (c.en && !c.err && c.ok && !c.kind && s.fabric.boot != .recovery && c.rdidx != c.wridx &&
        s.inPartition (keyPasid q) (s.fq q).at_ 128 && (s.fq q).coversSlots c c.rdidx 1) = true ∧
      p.words = ((List.range (8 * p.size)).map fun k => s.homeValue (p.slot + 8 * k) 8) ∧
      c.kind = false ∧ p.slot = c.ring + 64 * (c.rdidx % 2 ^ c.log2n) ∧ p.type = e % 2 ^ 8 ∧
      p.flags = e / 2 ^ 8 % 2 ^ 8 ∧ p.size = e / 2 ^ 16 % 2 ^ 16 ∧ p.tag = e / 2 ^ 32 % 2 ^ 32 ∧ p.type ≠ 0 ∧
      (p.type < 9 ∨ 0x80 ≤ p.type) ∧ 1 ≤ p.size ∧ p.size ≤ 16 ∧ p.flags < 4 ∧ c.rdidx % 2 ^ c.log2n + p.size ≤ 2 ^ c.log2n ∧
      p.slot + 1024 ≤ 2 ^ 30 ∧ s.linksSteady = true ∧ (s.fq q).coversSlots c c.rdidx p.size = true) :
    ReadsPacket s q p (Tests.after s (1 + 8 * p.size)) := by
  obtain ⟨g, w, d1, d2, d3, d4, d5, d6, d7, d8, d9, d10, d11, d12, d13, d14, d15⟩ := d
  have e : p.words.headD 0 = s.homeValue p.slot 8 := by
    obtain ⟨n, hn⟩ : ∃ n, 8 * p.size = n + 1 := ⟨8 * p.size - 1, by omega⟩
    simp [w, hn, List.range_succ_eq_map]
  refine ⟨d14, c, s, Tests.after s 1, p.words.headD 0, opens s q c h g, d1, d2, ?_, d3, d4, d5, d6, d7, d8, d9, d10, d11,
    d12, d15, ?_⟩
  · rw [k, m.feWords p.slot 1 (by omega), e]; simp [List.range_succ_eq_map]
  · rw [k, (m.after 1).feWords p.slot (8 * p.size) (by omega), w]
    simp only [Tests.after, Nat.add_assoc]
    rfl

/-- A graph of one compute node. -/
theorem Mapped.readNode {s : State} (m : Mapped s) (draw : Bool) (slot va : Nat) (ws : List Nat) (nd : GNode)
    (w : ws = (List.range 4).map fun k => s.homeValue (va + 8 * k) 8) (e : GNode.ofWords ws = nd)
    (g : va + 32 ≤ 2 ^ 30 ∧ (!nodeOk nd ws) = false ∧ (draw && nd.nkind == 1) = false) :
    s.readNodes 0 slot draw va 1 = (.ok [{ nd with pix := { KDesc.blank with groups := 1 } }], Tests.after s 4) := by
  simp only [State.readNodes, m.feWords va 4 (by omega), ← w, e, g.2.1, g.2.2, Bool.false_and]
  rfl

theorem Mapped.vet {s : State} (m : Mapped s) (slot a kk : Nat) (k : KDesc) (ws : List Nat)
    (w : ws = (List.range 8).map fun k => s.homeValue (a + 8 * k) 8) (e : KDesc.ofWords ws = k)
    (g : a % 64 = 0 ∧ a + 64 ≤ 2 ^ 30 ∧ kdescOk k ws = true ∧ k.kkind = kk ∧ k.feat = 0)
    (pl : (!(Tests.after s 8).placeable 0 k) = false) : s.vet 0 slot a kk = (.ok k, Tests.after s 8) := by
  obtain ⟨g1, g2, g3, g4, g5⟩ := g
  have n : ¬ (a % 64 ≠ 0 ∨ 2 ^ 57 ≤ a) := by omega
  have nk : ¬ ((!kdescOk k ws || k.kkind != kk) = true) := by simp [g3, g4]
  simp only [State.vet, if_neg n, m.feWords a 8 (by omega), ← w, e]
  rw [if_neg nk, if_neg (by simp [g5]), if_neg (by rw [pl]; decide)]


def isMapped (s : State) : Bool :=
  (match AMap.find s.contexts 0 with
    | some x => x.desc.s1root == 0x1000 && (match AMap.find s.parts x.desc.part.toNat with
      | some p => p.spec.s2root == 0x1000 && p.spec.memBase == 0 && p.spec.memLen == 2 ^ 30
      | none => false)
    | none => false) &&
  s.lost.isEmpty && s.homeValue 0x1000 8 == 0x2001 && s.homeValue 0x2000 8 == 0x3001 && s.homeValue 0x3000 8 == 0xC6F &&
  s.homeByte 0x3000 == 0x6F

theorem mapped {s : State} (h : isMapped s = true) : Mapped s := by
  simp only [isMapped, Bool.and_eq_true, beq_iff_eq, List.isEmpty_iff] at h
  obtain ⟨⟨⟨⟨⟨h1, h2⟩, h3⟩, h4⟩, h5⟩, h6⟩ := h
  refine ⟨?_, h2, h3, h4, h5, h6⟩
  split at h1
  · rename_i x hx
    simp only [Bool.and_eq_true, beq_iff_eq] at h1
    obtain ⟨a, b⟩ := h1
    split at b
    · rename_i p hp
      simp only [Bool.and_eq_true, beq_iff_eq] at b
      exact ⟨x, p, hx, a, hp, b.1.1, b.1.2, b.2⟩
    · exact absurd b (by simp)
  · exact absurd h1 (by simp)

/-- Packets that do not start by their turn alone. -/
def calm (n : Nat) (e : Nat × Packet) : Bool :=
  decide (e.1 = n) || e.2.started || match e.2.kind with
    | .launch _ => true
    | .dependency _ => true
    | .wait _ _ => true
    | _ => false

theorem quiet {f : FQ} {n : Nat} (h : f.packets.all (calm n) = true) : Quiet f n := by
  intro e he hn
  have k := List.all_eq_true.mp h e he
  obtain ⟨i, ⟨kd, b, st, af⟩⟩ := e
  simp only [calm, hn, decide_false, Bool.false_or, Bool.or_eq_true] at k
  rcases k with k | k
  · exact .inl k
  · cases kd with
    | launch l => exact .inr (.inl ⟨l, rfl⟩)
    | dependency es => exact .inr (.inr (.inl ⟨es, rfl⟩))
    | wait a v => exact .inr (.inr (.inr ⟨a, v, rfl⟩))
    | _ => exact nomatch k

theorem quiet_all {f : FQ} (h : f.packets = []) : ∀ n, Quiet f n := fun n e he => by
  rw [h] at he; exact nomatch he

theorem may_retire {s : State} {q : Nat} {p : Pkt} (f : (s.feStore (keyPasid q) p.slot 1 0).1 = none)
    (h : (s.fq q).qcb.isSome = true ∧ (s.fq q).at_ + 128 ≤ dramEnd ∧ (∀ e ∈ s.waves, e.2.sleepers = []) ∧
      (∀ e ∈ (s.fq q).packets, e.1 ≤ (s.fq q).tl.accepted) ∧
      (s.fq q).packets.all (calm ((s.fq q).tl.accepted + 1)) = true) : MayRetire s q p :=
  ⟨h.1, h.2.1, f, h.2.2.1, h.2.2.2.1, quiet h.2.2.2.2⟩

theorem next_of {s : State} {q n : Nat} (h : (s.fq q).tl.done = [] ∧ n = (s.fq q).tl.value + 1 ∧ n < 2 ^ 64 ∧
    (s.fq q).at_ + 128 ≤ dramEnd) : NextOf s q n := h

theorem idle_queues (s : State) (w : Nat) (h : (s.clusters.all fun c => c.2.queues.isEmpty) = true) :
    ∀ c ∈ s.clusters, ∀ q ∈ c.2.queues, ∀ k ∈ q.2.takers, ∀ o b, k ≠ .read w o b := fun c hc q hq => by
  have := List.all_eq_true.mp h c hc
  rw [List.isEmpty_iff.mp this] at hq
  exact absurd hq List.not_mem_nil

theorem witness_unhandledTrapEndsLaunch :
  (∃ (i : Instr) (c : Ctl) (cause : Cause) (code : BitVec 16) (s : State) (run : Lanes) (pc : Word),
    (trapForm i = some (c, cause, code)) ∧ (Runs s c run pc) ∧ ((cause = .breakpoint → debugs s (cw s) = false)) ∧ (¬ Handled (cw s) run) ∧ ((s.launch (s.errLaunch (cw s).launch)).error = none)) :=
  ⟨.brk c0 1, c0, .breakpoint, _, stw fun w => { w with trapVec := 0xFFFFFFFF }, run0, 5, rfl, ⟨by decide, by decide⟩, by decide, fun h => absurd h.1 (by decide), by decide⟩

theorem witness_trapWordParks :
  (∃ (i : Instr) (c : Ctl) (cause : Cause) (code : BitVec 16) (s : State) (run : Lanes) (pc : Word),
    (trapForm i = some (c, cause, code)) ∧ (Runs s c run pc) ∧ (Handled (cw s) run ∨ (cause = .breakpoint ∧ debugs s (cw s) = true))) :=
  ⟨.trap c0 0xFFFF, c0, .softTrap, _, st w0, run0, 5, rfl, ⟨by decide, by decide⟩, .inl ⟨by decide, by decide⟩⟩

theorem witness_sleepWaitsForCount :
  (∃ (c : Ctl) (a : SReg) (i : BitVec 10) (s : State) (run : Lanes) (pc : Word),
    (Runs s c run pc) ∧ ((cw s).rs a + i.signExtend 32 = 0)) ∧
  (∃ (c : Ctl) (a : SReg) (i : BitVec 10) (s : State) (run : Lanes) (pc : Word),
    (Runs s c run pc) ∧ ((cw s).rs a + i.signExtend 32 ≠ 0)) :=
  ⟨⟨c1, 2, -1, stw fun w => { w with s := [(2, 1)] }, run0, 5, ⟨by decide, by decide⟩, by decide⟩,
  ⟨c1, 2, 511, st w0, run0, 5, ⟨by decide, by decide⟩, by decide⟩⟩

theorem witness_yieldOnlyMovesOn :
  (∃ (c : Ctl) (s : State) (run : Lanes) (pc : Word),
    (Runs s c run pc)) :=
  ⟨c0, st w0, run0, 5, ⟨by decide, by decide⟩⟩

theorem witness_syncAndExitSettle :
  (∃ (c : Ctl) (s : State) (run : Lanes) (pc : Word),
    (Runs s c run pc)) :=
  ⟨c1, st w0, run0, 5, ⟨by decide, by decide⟩⟩

theorem witness_divergeWordPlacesThreads :
  (∃ (i : Instr) (c : Ctl) (f : Wave → Lanes → Word → Nat → Word) (s : State) (run : Lanes) (pc : Word),
    (divergeForm i = some (c, f)) ∧ (Runs s c run pc)) :=
  ⟨.split c1 2 false 9, c1, _, stw fun w => { w with m := [(2, 1)] }, run0, 5, rfl, ⟨by decide, by decide⟩⟩

theorem witness_linkWordResult :
  (∃ (i : Instr) (c : Ctl) (d : SReg) (f g : Wave → Word → Word) (s : State) (run : Lanes) (pc : Word),
    (linkForm i = some (c, d, f, g)) ∧ (Runs s c run pc) ∧ (Steady s c.h.setf)) :=
  ⟨.loop c1 7 (-1), c1, 7, _, _, stw fun w => { w with s := [(7, 1)] }, run0, 5, rfl, ⟨by decide, by decide⟩, steady _ _ (by decide)⟩

theorem witness_branchWordMovesRun :
  (∃ (i : Instr) (c : Ctl) (f : Wave → Word → Word) (s : State) (run : Lanes) (pc : Word),
    (branchForm i = some (c, f)) ∧ (Runs s c run pc)) :=
  ⟨.bra c0 1 true (-6), c0, _, st w0, run0, 5, rfl, ⟨by decide, by decide⟩⟩

theorem witness_specialRegisterWrite :
  (∃ (i : Instr) (c : Ctl) (n lat : Nat) (f : State → Wave → Word) (s : State) (run : Lanes) (pc : Word),
    (specialForm i = some (c, n, lat, f)) ∧ (wellFormed i = true) ∧ (Runs s c run pc) ∧ (Steady s c.h.setf)) :=
  ⟨.swr c1 2 0x021, c1, 0x021, _, _, stw fun w => { w with s := [(2, 63)] }, run0, 5, rfl, by decide, ⟨by decide, by decide⟩, steady _ _ (by decide)⟩

theorem witness_specialRegisterReadByLane :
  (∃ (c : Ctl) (d : VReg) (n : BitVec 12) (s : State) (run : Lanes) (pc : Word),
    (wellFormed (.vsrd c d n) = true) ∧ (Runs s c run pc) ∧ (Steady s c.h.setf) ∧ (run &&& ~~~(cw s).launched = 0)) :=
  ⟨c1, 1023, 0x000, st w0, run0, 5, by decide, ⟨by decide, by decide⟩, steady _ _ (by decide), by decide⟩

theorem witness_specialRegisterRead :
  (∃ (c : Ctl) (d : SReg) (n : BitVec 12) (s : State) (run : Lanes) (pc : Word),
    (wellFormed (.srd c d n) = true) ∧ (Runs s c run pc) ∧ (Steady s c.h.setf)) :=
  ⟨c1, 3, 0x010, st w0, run0, 5, by decide, ⟨by decide, by decide⟩, steady _ _ (by decide)⟩

theorem witness_predicatedOffWord :
  (∃ (i : Instr) (c : Ctl) (op : BitVec 9) (p : BitVec 30) (s : State) (run : Lanes) (pc : Word),
    (encParts i = some (c, op, p)) ∧ ((op ≠ 0x09E) ∧ ((cw s).head = some (run, pc)) ∧ ((cw s).enabled run c = 0) ∧ ((∀ k b, i = .barSync c k b ∨ i = .barArrive c k b → k.toNat ≤ (grp s).waves)))) :=
  ⟨.sadd ⟨⟨0, 0, 1⟩, true, 0⟩ (.s 1) (.s 2) (.s 3), ⟨⟨0, 0, 1⟩, true, 0⟩, _, _, st w0, run0, 5, rfl, by decide⟩

theorem witness_maskToScalarResult :
  (∃ (i : Instr) (c : Ctl) (d : SReg) (f : Wave → Word) (g : Option (Wave → Word)) (s : State) (run : Lanes) (pc : Word),
    (toScalarForm i = some (c, d, f, g)) ∧ (wellFormed i = true) ∧ (Runs s c run pc) ∧ (Steady s c.h.setf)) :=
  ⟨.mtos c1 254 15, c1, 254, _, _, stw fun w => { w with m := [(15, 0x8000000000000001)] }, run0, 5, rfl, by decide, ⟨by decide, by decide⟩, steady _ _ (by decide)⟩

theorem witness_maskWordResult :
  (∃ (i : Instr) (c : Ctl) (d : MReg) (f : Wave → Lanes → Nat → Bool) (s : State) (run : Lanes) (pc : Word),
    (maskForm i = some (c, d, f)) ∧ (Runs s c run pc) ∧ (Steady s c.h.setf)) :=
  ⟨.mfroms c1 15 254, c1, 15, _, stw fun w => { w with s := [(254, 1), (255, 0x80000000)] }, run0, 5, rfl, ⟨by decide, by decide⟩, steady _ _ (by decide)⟩

theorem witness_conditionWordResult :
  (∃ (i : Instr) (c : Ctl) (q : BitVec 4) (lat : Nat) (f : Wave → Lanes → Bool) (s : State) (run : Lanes) (pc : Word),
    (condForm i = some (c, q, lat, f)) ∧ (Runs s c run pc) ∧ (Steady s c.h.setf)) :=
  ⟨.qcmpi c1 15 .ltu 255 0, c1, 15, _, _, st w0, run0, 5, rfl, ⟨by decide, by decide⟩, steady _ _ (by decide)⟩

theorem witness_scalarWordResult :
  (∃ (i : Instr) (c : Ctl) (d : SReg) (srcs : List SSrc) (lat : Nat) (f : Word → Word → Word → Word) (s : State) (run : Lanes) (pc : Word),
    (scalarForm i = some (c, .s d, srcs, lat, f)) ∧ (noPorts srcs) ∧ (Runs s c run pc) ∧ (Steady s c.h.setf)) :=
  ⟨.saddi c1 (.s 255) (.s 254) 0x200, c1, 255, _, _, _, stw fun w => { w with s := [(254, 0xFFFFFFFF)] }, run0, 5, rfl, by unfold noPorts; decide, ⟨by decide, by decide⟩, steady _ _ (by decide)⟩

def trapped : Wave := w0.addParked (Parked.make 1 5 .softTrap false 0xFFFF 0)
theorem witness_trapDeliveryEntersHandler :
  (∃ (s : State) (k : Nat) (p : Parked),
    (((s.wave k).pending = some p) ∧ ((s.wave k).activeMembers = 0) ∧ ((s.wave k).slot.isSome) ∧ (s.ended (s.wave k).launch = false))) :=
  ⟨st trapped, 0, Parked.make 1 5 .softTrap false 0xFFFF 0, by decide⟩

def handling : Wave := { trapped.deliver (Parked.make 1 5 .softTrap false 0xFFFF 0) with pcs := [(0, 0x40), (63, 0x80)] }
theorem witness_prefixedPairResult :
  (∃ (x : Pfx) (i : Instr) (m : RMode) (h : Hdr) (d : VReg) (lat : Nat) (f : Wave → Nat → Word × Flags) (s : State) (run : Lanes) (pc : Word),
    (modeOf (cw s) x.rnd = some m) ∧ (pairForm x m i = some (h, d, lat, f)) ∧ (((cw s).head = some (run, pc)) ∧ (pairLanes (cw s) run x ≠ 0)) ∧ (Steady s h.setf) ∧ (Launched s run) ∧ (enables (cw s) = 0)) :=
  ⟨⟨0, false, false, .dyn, false, true, 1023⟩, .vmad c1 4 5 6, .rne, ⟨0, 0, 1⟩, 4, _, _, st ((w0.wv 5 0 0x10000).wv 6 0 0x10000), run0, 5, rfl, rfl, by decide, steady _ _ (by decide), by unfold Launched; decide, by decide⟩

theorem witness_dualWordResult :
  (∃ (h : Hdr) (opH opL : Slot) (dH aH dL aL : BitVec 8) (p : Bool) (s : State) (run : Lanes) (pc : Word),
    ((wellFormed (.dualWord h opH dH aH opL dL aL p) = true) ∧ ((cw s).head = some (run, pc)) ∧ (dualLanes (cw s) run p ≠ 0)) ∧ (Steady s h.setf) ∧ (Launched s run) ∧ (enables (cw s) = 0)) :=
  ⟨⟨0, 0, 1⟩, .vadd, .fmul, 4, 9, 255, 10, false, st ((w0.wv 4 0 7).wv 9 0 8), run0, 5, by decide, steady _ _ (by decide), by unfold Launched; decide, by decide⟩

theorem witness_randomWordResult :
  (∃ (i : Instr) (c : Ctl) (d : VReg) (f : Word → Word) (s : State) (run : Lanes) (pc : Word),
    (drawForm i = some (c, d, f)) ∧ (Runs s c run pc) ∧ (Steady s c.h.setf) ∧ (Launched s run)) ∧
  (∃ (c : Ctl) (a : SReg) (s : State) (run : Lanes) (pc : Word),
    (wellFormed (.vrseed c a) = true) ∧ (Runs s c run pc)) :=
  ⟨⟨.vrandf c1 4, c1, 4, _, stw fun w => { w with seed := 0x123456789 }, run0, 5, rfl, ⟨by decide, by decide⟩, steady _ _ (by decide), by unfold Launched; decide⟩,
  ⟨c1, 254, stw fun w => { w with s := [(254, 1), (255, 2)] }, run0, 5, by decide, ⟨by decide, by decide⟩⟩⟩

theorem witness_reductionAndScanResult :
  (∃ (c : Ctl) (d : SReg) (a : VReg) (op : RedOp) (s : State) (run : Lanes) (pc : Word),
    (Runs s c run pc) ∧ (Steady s c.h.setf) ∧ ((reduced op (laneValues (cw s) ((cw s).enabled run c) a)).2 &&& enables (cw s) = 0)) ∧
  (∃ (c : Ctl) (d a : VReg) (excl : Bool) (op : RedOp) (s : State) (run : Lanes) (pc : Word),
    (Runs s c run pc) ∧ (Steady s c.h.setf) ∧ (Launched s run) ∧ ((scanned op (laneValues (cw s) ((cw s).enabled run c) a)).2 &&& enables (cw s) = 0)) :=
  ⟨⟨c1, 255, 1, .min, st (w0.wv 1 63 0x80000000), run0, 5, ⟨by decide, by decide⟩, steady _ _ (by decide), by decide⟩,
  ⟨c1, 2, 1, true, .maxu, st (w0.wv 1 0 0x80000000), run0, 5, ⟨by decide, by decide⟩, steady _ _ (by decide), by unfold Launched; decide, by decide⟩⟩

theorem witness_floatCompareResult :
  (∃ (c : Ctl) (d : MReg) (cc : FloatCC) (a b : VReg) (s : State) (run : Lanes) (pc : Word),
    (Runs s c run pc) ∧ (Steady s c.h.setf) ∧ (((enables (cw s)).getLsbD 0 = false ∨ ∀ l, l < 64 → ((cw s).enabled run c).getLsbD l = true → (floatCompares cc (f32 ((cw s).rv a l)) (f32 ((cw s).rv b l))).2 = false))) :=
  ⟨c1, 1, .olt, 1, 2, st (w0.wv 1 0 0x7FC00000), run0, 5, ⟨by decide, by decide⟩, steady _ _ (by decide), by decide⟩

theorem witness_convertFormatTrapParksLanes :
  (∃ (c : Ctl) (d a : VReg) (dst src : Fmt) (s : State) (run : Lanes) (pc : Word),
    (Runs s c run pc) ∧ (Handled (cw s) run) ∧ ((∀ l, l < 64 → ((cw s).enabled run c).getLsbD l = true → convert dst src .rne false false ((cw s).rv a l) = none))) :=
  ⟨c1, 3, 1, .f32, .blk4, st ((w0.wv 1 0 0xFFFF0000).wv 1 63 0xFFFF0000), run0, 5, ⟨by decide, by decide⟩, ⟨by decide, by decide⟩, by decide⟩

theorem witness_floatTrapParksLanes :
  (∃ (i : Instr) (c : Ctl) (d : VReg) (lat : Nat) (f : Wave → Nat → Option (Word × Flags)) (s : State) (run : Lanes) (pc : Word) (bad : Lanes),
    (floatForm i = some (c, d, lat, f)) ∧ (Runs s c run pc) ∧ (Handled (cw s) run) ∧ (((∀ l, l < 64 → ((cw s).enabled run c).getLsbD l = true → (f (cw s) l).isSome)) ∧ ((∀ l, l < 64 → bad.getLsbD l = (((cw s).enabled run c).getLsbD l &&
      match f (cw s) l with
      | some r => r.2 &&& enables (cw s) != 0
      | none => false))) ∧ (bad ≠ 0))) :=
  ⟨.fadd c1 3 1 2, c1, 3, _, _, st { (w0.wv 1 0 0x7F800000).wv 2 0 0xFF800000 with fpctl := 0x100 }, run0, 5, 1, rfl, ⟨by decide, by decide⟩, ⟨by decide, by decide⟩, by decide⟩

theorem witness_floatWordResult :
  (∃ (i : Instr) (c : Ctl) (d : VReg) (lat : Nat) (f : Wave → Nat → Option (Word × Flags)) (s : State) (run : Lanes) (pc : Word),
    (floatForm i = some (c, d, lat, f)) ∧ (Runs s c run pc) ∧ (Steady s c.h.setf) ∧ (Launched s run) ∧ ((∀ l, l < 64 → ((cw s).enabled run c).getLsbD l = true → ∃ r g, f (cw s) l = some (r, g) ∧ g &&& enables (cw s) = 0))) :=
  ⟨.fadd c1 3 1 2, c1, 3, _, _, st ((w0.wv 1 0 0x7F800000).wv 2 0 0xFF800000), run0, 5, rfl, ⟨by decide, by decide⟩, steady _ _ (by decide), by unfold Launched; decide, fun l hl _ => ⟨_, _, rfl, by show _ &&& 0#5 = 0#5; simp⟩⟩

theorem witness_vectorCompareResult :
  (∃ (i : Instr) (c : Ctl) (d : MReg) (f : Wave → Nat → Bool) (s : State) (run : Lanes) (pc : Word),
    (maskedForm i = some (c, d, f)) ∧ (Runs s c run pc) ∧ (Steady s c.h.setf)) :=
  ⟨.vcmpi c1 1 .lt 1023 0, c1, 1, _, st (w0.wv 1023 63 0x80000000), run0, 5, rfl, ⟨by decide, by decide⟩, steady _ _ (by decide)⟩

theorem witness_pairSumAndSelectResult :
  (∃ (c : Ctl) (d a b : VReg) (s : State) (run : Lanes) (pc : Word),
    (wellFormed (.vaddp c d a b) = true) ∧ (Runs s c run pc) ∧ (Steady s c.h.setf) ∧ (Launched s run)) ∧
  (∃ (c : Ctl) (d a b : VReg) (s : State) (run : Lanes) (pc : Word),
    (((cw s).head = some (run, pc)) ∧ (run ≠ 0)) ∧ (Steady s c.h.setf) ∧ (Launched s run)) :=
  ⟨⟨c1, 1022, 1022, 0, st ((w0.wv 1022 0 0xFFFFFFFF).wv 0 0 1), run0, 5, by decide, ⟨by decide, by decide⟩, steady _ _ (by decide), by unfold Launched; decide⟩,
  ⟨⟨⟨0, 0, 1⟩, false, 1⟩, 3, 1, 2, st ({ w0 with m := [(1, 1)] }.wv 1 0 7), run0, 5, by decide, steady _ _ (by decide), by unfold Launched; decide⟩⟩

theorem witness_vectorWordResult :
  (∃ (i : Instr) (c : Ctl) (d : VReg) (lat : Nat) (f : Wave → Nat → Word) (s : State) (run : Lanes) (pc : Word),
    (vecForm i = some (c, d, lat, f)) ∧ (Runs s c run pc) ∧ (Steady s c.h.setf) ∧ (Launched s run)) :=
  ⟨.vshfl c1 1023 1023 1 63, c1, 1023, _, _, st ((w0.wv 1023 0 7).wv 1023 63 9), run0, 5, rfl, ⟨by decide, by decide⟩, steady _ _ (by decide), by unfold Launched; decide⟩

theorem witness_upcallParksForKernel :
  (∃ (c : Ctl) (d a : SReg) (chan : BitVec 6) (s : State) (run : Lanes) (pc : Word),
    (Runs s c run pc)) :=
  ⟨c1, 252, 252, 63, stw fun w => { w with s := [(252, 1), (255, 4)] }, run0, 5, ⟨by decide, by decide⟩⟩

theorem witness_rteReturnsFromHandler :
  (∃ (c : Ctl) (s : State) (run : Lanes) (pc : Word),
    (Runs s c run pc) ∧ (run &&& ~~~(cw s).activeMembers = 0)) ∧
  (∃ (c : Ctl) (s : State) (run : Lanes) (pc : Word),
    (Runs s c run pc) ∧ (run &&& ~~~(cw s).activeMembers ≠ 0) ∧ (Handled (cw s) run)) :=
  ⟨⟨c1, st handling, 1, 0x40, ⟨by decide, by decide⟩, by decide⟩,
  ⟨c0, st w0, run0, 5, ⟨by decide, by decide⟩, by decide, ⟨by decide, by decide⟩⟩⟩

/-- A wave with port 3 receiving from queue 2 of cluster 0, and port 4 sending to it. -/
def wp : Wave := { w0 with ports := [(3, ⟨2, 0, 0, none, 2, 0, 0⟩), (4, ⟨1, 2, 1, none, 2, 0x77, 5⟩)] }
/-- The queue holds two messages, of eight words each. -/
def sp (w : Wave) (q : FQueue) : State := { st w with
  clusters := [(0, { ClusterSt.blank with modes := [(0, 2)], queues := [(2, q)] })] }
def e1 : QEntry := ⟨[0x77, 9, 0, 0, 0, 0, 0, 0], none⟩
def e2 : QEntry := ⟨[0x78, 10, 0, 0, 0, 0, 0, 0], none⟩
theorem witness_portWordResult :
  (∃ (i : Instr) (c : Ctl) (d : SOp) (srcs pre rest : List SSrc) (lat : Nat) (f : Word → Word → Word → Word) (p : Port) (e : QEntry) (es : List QEntry) (s : State) (run : Lanes) (pc : Word),
    (scalarForm i = some (c, d, srcs, lat, f)) ∧ (srcs = pre ++ [.op (.n p)] ++ rest) ∧ (noPorts pre) ∧ (noPorts rest) ∧ (Runs s c run pc) ∧ (Steady s c.h.setf) ∧ (((cw s).port p.toNat).mode = 2) ∧ (CanWrite (cw s) d) ∧ (((portQueue s p).takers = []) ∧ ((portQueue s p).entries = e :: es))) ∧
  (∃ (i : Instr) (c : Ctl) (d : SOp) (lat : Nat) (f : Word → Word → Word → Word) (p q : Port) (e g : QEntry) (es gs : List QEntry) (s : State) (run : Lanes) (pc : Word),
    (scalarForm i = some (c, d, [.op (.n p), .op (.n q)], lat, f)) ∧ (Runs s c run pc) ∧ (Steady s c.h.setf) ∧ ((((cw s).port p.toNat).mode = 2) ∧ (((cw s).port q.toNat).mode = 2)) ∧ (CanWrite (cw s) d) ∧ (((portQueue s p).takers = []) ∧ ((portQueue s q).takers = []) ∧ ((portQueue s p).entries = e :: es) ∧ ((if portCluster s p = portCluster s q ∧ portNumber s p = portNumber s q then es = g :: gs else (portQueue s q).entries = g :: gs)) ∧ (((cw s).port p.toNat).target.toNat < 2 ^ 14) ∧ (((cw s).port q.toNat).target.toNat < 2 ^ 14))) ∧
  (∃ (i : Instr) (c : Ctl) (d : SOp) (srcs pre rest : List SSrc) (lat : Nat) (f : Word → Word → Word → Word) (p : Port) (s : State) (run : Lanes) (pc : Word),
    (scalarForm i = some (c, d, srcs, lat, f)) ∧ (srcs = pre ++ [.op (.n p)] ++ rest) ∧ (noPorts pre) ∧ (noPorts rest) ∧ (Runs s c run pc) ∧ (Steady s c.h.setf) ∧ (((cw s).port p.toNat).mode = 2) ∧ (CanWrite (cw s) d) ∧ ((portQueue s p).takers ≠ [] ∨ (portQueue s p).entries = [])) ∧
  (∃ (i : Instr) (c : Ctl) (srcs : List SSrc) (lat : Nat) (f : Word → Word → Word → Word) (p : Port) (s : State) (run : Lanes) (pc : Word),
    (scalarForm i = some (c, .n p, srcs, lat, f)) ∧ (noPorts srcs) ∧ (Runs s c run pc) ∧ (Steady s c.h.setf) ∧ (CanWrite (cw s) (.n p))) ∧
  (∃ (i : Instr) (c : Ctl) (d : SOp) (srcs : List SSrc) (lat : Nat) (f : Word → Word → Word → Word) (p : Port) (s : State) (run : Lanes) (pc : Word),
    (scalarForm i = some (c, d, srcs, lat, f)) ∧ (Runs s c run pc) ∧ (Handled (cw s) run) ∧ ((∃ pre rest, srcs = pre ++ [.op (.n p)] ++ rest ∧ ((cw s).port p.toNat).mode ≠ 2 ∧ ∀ q, .op (.n q) ∈ pre → ((cw s).port q.toNat).mode = 2) ∨ (d = .n p ∧ (((cw s).port p.toNat).mode ≠ 1 ∨ ((cw s).port p.toNat).full.isSome) ∧ ∀ q, .op (.n q) ∈ srcs → ((cw s).port q.toNat).mode = 2))) :=
  ⟨⟨.ssub c1 (.s 1) (.s 2) (.n 3), c1, .s 1, [.op (.s 2), .op (.n 3)], [.op (.s 2)], [], _, _, 3, e1, [e2], sp wp ⟨[e1, e2], [], [], []⟩, run0, 5, rfl, rfl, fun o h p' => by simp at h; simp [h], fun o h p' => by simp at h, ⟨by decide, by decide⟩, steady _ _ (by decide), by decide, trivial, by decide⟩,
  ⟨.ssub c1 (.s 1) (.n 3) (.n 3), c1, .s 1, _, _, 3, 3, e1, e2, [e2], [], sp wp ⟨[e1, e2], [], [], []⟩, run0, 5, rfl, ⟨by decide, by decide⟩, steady _ _ (by decide), by decide, trivial, by decide⟩,
  ⟨.ssub c1 (.s 1) (.s 2) (.n 3), c1, .s 1, [.op (.s 2), .op (.n 3)], [.op (.s 2)], [], _, _, 3, sp wp FQueue.blank, run0, 5, rfl, rfl, fun o h p' => by simp at h; simp [h], fun o h p' => by simp at h, ⟨by decide, by decide⟩, steady _ _ (by decide), by decide, trivial, by decide⟩,
  ⟨.sadd c1 (.n 4) (.s 2) (.s 3), c1, [.op (.s 2), .op (.s 3)], _, _, 4, sp wp FQueue.blank, run0, 5, rfl, fun o h p' => by simp at h; rcases h with h | h <;> simp [h], ⟨by decide, by decide⟩, steady _ _ (by decide), ⟨by decide, by decide, by decide⟩⟩,
  ⟨.sadd c1 (.n 3) (.s 2) (.s 3), c1, .n 3, [.op (.s 2), .op (.s 3)], _, _, 3, sp wp FQueue.blank, run0, 5, rfl, ⟨by decide, by decide⟩, ⟨by decide, by decide⟩, .inr ⟨rfl, by decide, fun q h => by simp at h⟩⟩⟩

/-- Lane addresses in the page, and local offsets. -/
def wm : Wave := ((((w0.wv 0 0 0x100FF0).wv 0 63 0x100000).wv 2 0 0xFF0).wv 2 63 0).wv 4 0 0x11223344
theorem witness_uniformMemoryWordIssues :
  (∃ (i : Instr) (c : Ctl) (k : FlightKind) (a d : SReg) (d2 : Nat) (s s1 : State) (p : Loc) (addr : Nat) (run : Lanes) (pc : Word),
    (uniformMemForm i = some (c, k, a, d, d2)) ∧ (Runs s c run pc) ∧ (addr = (SMap.get (cw s).s a.toNat).toNat + 2 ^ 32 * (SMap.get (cw s).s (a.toNat + 1)).toNat) ∧ (s.resolve s.cur .global addr k.size (asks k) (isRmw k) = (.ok p, s1)) ∧ (s1.peerPcie p = false) ∧ (Steady s1 c.h.setf)) :=
  ⟨.ldsB128 c1 252 2 0 .die .plain .roPath, c1, .load 16 .zero (.s 252) .plain .die .roPath, 2, 252, 0, stw fun w => { w with s := [(2, 0x100FF0)] }, stw fun w => { w with s := [(2, 0x100FF0)] }, .mem 0x100FF0, 0x100FF0, run0, 5, rfl, ⟨by decide, by decide⟩, rfl, rfl, by decide, steady _ _ (by decide)⟩

theorem witness_laneMemoryWordIssues :
  (∃ (i : Instr) (c : Ctl) (sp : Space) (k : FlightKind) (a d : VReg) (d2 : Nat) (s s1 : State) (rs : List Resolved) (run : Lanes) (pc : Word),
    (laneMemForm i = some (c, sp, k, a, d, d2)) ∧ (Runs s c run pc) ∧ (s.resolveAll s.cur sp k.size (asks k) (isRmw k) (laneAddresses (cw s) sp a ((cw s).enabled run c)) = (rs, s1)) ∧ (AllResolve s1 rs) ∧ (Steady s1 c.h.setf)) ∧
  (∃ (i : Instr) (c : Ctl) (k : FlightKind) (a : VReg) (s s1 : State) (rs : List Resolved) (run : Lanes) (pc : Word),
    (lineForm i = some (c, k, a)) ∧ (Runs s c run pc) ∧ (s.resolveAll s.cur .global 64 .load false ((laneAddresses (cw s) .global a ((cw s).enabled run c)).map fun x => (x.1, x.2 / 64 * 64)) = (rs, s1)) ∧ (AllResolve s1 rs) ∧ (Steady s1 c.h.setf)) :=
  ⟨⟨.ldvB128 c1 4 0 2 .die .relaxed .dflt, c1, .global, .load 16 .zero (.v 4) .relaxed .die .dflt, 0, 4, 0, st wm, st wm, [⟨0, 0x100FF0, .ok (.mem 0x100FF0)⟩, ⟨63, 0x100000, .ok (.mem 0x100000)⟩], run0, 5, rfl, ⟨by decide, by decide⟩, rfl, by simp [AllResolve]; decide, steady _ _ (by decide)⟩,
  ⟨.cwb c1 0 2 .die .dflt, c1, .cache true false false false false, 0, st wm, st wm, [⟨0, 0x100FC0, .ok (.mem 0x100FC0)⟩, ⟨63, 0x100000, .ok (.mem 0x100000)⟩], run0, 5, rfl, ⟨by decide, by decide⟩, rfl, by simp [AllResolve]; decide, steady _ _ (by decide)⟩⟩

/-- The scratch space of cluster 0 has lost a piece. -/
def torn : State := { st w0 with clusters := [(0, { ClusterSt.blank with upset := [0x2000 / 64], tlb := [page 0x100] })] }
/-- A peer package behind PCI Express. -/
def peers : Fabric := { Fabric.blank with pkgid := 3, peerport := [(5, 0xC0)] }
theorem witness_faultingAddressesPark :
  (∃ (s : State) (w addr n : Nat) (sp : Space) (acc : Access) (rmw : Bool),
    (addr % n ≠ 0)) ∧
  (∃ (s : State) (w addr n : Nat) (acc : Access) (rmw : Bool),
    ((addr % n = 0) ∧ ((acc = .load ∨ rmw = true → ((s.wave w).localbase.toNat + addr) / 64 ∉ (s.cluster ((s.wave w).core / 12)).upset)))) ∧
  (∃ (s : State) (w addr n : Nat) (acc : Access) (rmw : Bool),
    ((addr % n = 0) ∧ (2 ^ 57 ≤ addr))) ∧
  (∃ (s : State) (w addr n : Nat) (acc : Access) (rmw : Bool),
    ((addr % n = 0) ∧ (addr < 2 ^ 23) ∧ (addr + n ≤ (s.wave w).localsize.toNat)) ∧ (acc = .load ∨ rmw = true) ∧ (((s.wave w).localbase.toNat + addr) / 64 ∈ (s.cluster ((s.wave w).core / 12)).upset)) ∧
  (∃ (s s1 : State) (w addr n : Nat) (h : Hit),
    (addr % n = 0) ∧ (s.translate (some (s.wave w).core) ((s.wave w).core / 12) (s.wave w).pasid addr .store = (.ok h, s1)) ∧ ((s1.aliasHit w addr n = false) ∧ (s1.sectorLost h.pa = true))) ∧
  (∃ (i : Instr) (c : Ctl) (sp : Space) (k : FlightKind) (a d : VReg) (d2 : Nat) (s s1 : State) (rs : List Resolved) (run bad : Lanes) (pc : Word) (cause : Cause) (first : Nat),
    (laneMemForm i = some (c, sp, k, a, d, d2)) ∧ (Runs s c run pc) ∧ (s.resolveAll s.cur sp k.size (asks k) (isRmw k) (laneAddresses (cw s) sp a ((cw s).enabled run c)) = (rs, s1)) ∧ (cause ∈ [.misalignment, .translation, .access, .dataLoss]) ∧ ((∀ r ∈ rs, if bad.getLsbD r.lane then r.loc = .error cause else ∃ p, r.loc = .ok p ∧ s1.peerPcie p = false)) ∧ ((bad ≠ 0) ∧ (bad &&& ~~~(cw s).enabled run c = 0)) ∧ ((bad.getLsbD first = true ∧ ∀ l, l < first → bad.getLsbD l = false)) ∧ (Steady s1 c.h.setf) ∧ ((cause = .misalignment → Handled (cw s1) bad))) ∧
  (∃ (i : Instr) (c : Ctl) (k : FlightKind) (a d : SReg) (d2 : Nat) (s s1 : State) (addr : Nat) (run : Lanes) (pc : Word) (cause : Cause),
    (uniformMemForm i = some (c, k, a, d, d2)) ∧ (Runs s c run pc) ∧ (addr = (SMap.get (cw s).s a.toNat).toNat + 2 ^ 32 * (SMap.get (cw s).s (a.toNat + 1)).toNat) ∧ (s.resolve s.cur .global addr k.size (asks k) (isRmw k) = (.error cause, s1)) ∧ (cause ∈ [.misalignment, .translation, .access, .dataLoss]) ∧ ((cause = .misalignment → Handled (cw s1) run))) ∧
  (∃ (f : RmwFn) (s : State) (r : Resolved) (p : Loc),
    (r.loc = .ok p) ∧ (s.peerPcie p = true)) :=
  ⟨⟨st w0, 0, 0x10000F, 16, .local_, .store, false, by decide⟩,
  ⟨st w0, 0, 0xFF0, 16, .load, false, by decide⟩,
  ⟨st w0, 0, 2 ^ 57, 8, .load, false, by decide⟩,
  ⟨torn, 0, 0x3C, 4, .store, true, by decide, .inr rfl, by decide⟩,
  ⟨{ st w0 with lost := [(0x100FC0 / 64, (0, false))] }, { st w0 with lost := [(0x100FC0 / 64, (0, false))] }, 0, 0x100FFC, 4, ⟨0x100FFC, false⟩, by decide, rfl, by decide⟩,
  ⟨.stlB32 c1 4 2 2 .die .plain .dflt, c1, .local_, .store 4 .plain .die .dflt 2, 2, 4, 0, st (wm.wv 2 63 0x1000), st (wm.wv 2 63 0x1000), [⟨0, 0xFF0, .ok (.scratch 0x2FF0)⟩, ⟨63, 0x1000, .error .access⟩], run0, 0x8000000000000000, 5, .access, 63, rfl, ⟨by decide, by decide⟩, rfl, by decide, by simp; decide, by decide, ⟨by decide, by decide⟩, steady _ _ (by decide), fun h => by cases h⟩,
  ⟨.ldsB32 c1 4 2 0 .die .plain .dflt, c1, .load 4 .zero (.s 4) .plain .die .dflt, 2, 4, 0, stw fun w => { w with s := [(2, 0x100FFE)] }, stw fun w => { w with s := [(2, 0x100FFE)] }, 0x100FFE, run0, 5, .misalignment, rfl, ⟨by decide, by decide⟩, rfl, rfl, by decide, fun _ => ⟨by decide, by decide⟩⟩,
  ⟨.op .add, { st w0 with fabric := peers }, ⟨0, 0x100, .ok (.mem (0x8000000000000 + 2 ^ 42 * 5))⟩, .mem (0x8000000000000 + 2 ^ 42 * 5), rfl, by decide⟩⟩

def acc (l : Nat) (p : Loc) (d : BitVec 128) (g : Option (BitVec 128)) : LaneAcc := ⟨l, p, d, 0x1234, g, 0x100, 5⟩
/-- One operation in flight. -/
def fl (k : FlightKind) (as : List LaneAcc) : Flight := ⟨k, 1, run0, as⟩
def wf (k : FlightKind) (as : List LaneAcc) : Wave := { w0 with flights := [(3, fl k as)], nextOp := 4, f := [(1, 1)] }
theorem witness_loadCompletionWritesRegisters :
  (∃ (s : State) (k o n : Nat) (ext : Extend) (d : VReg) (ord : LdOrd) (sco : Scope) (ch : Chan) (f : Flight),
    (At s k o f) ∧ (f.kind = .load n ext (.v d) ord sco ch) ∧ ((n ∈ sizes) ∧ ((f.accs.map fun a => a.lane).Nodup)) ∧ ((∀ a ∈ f.accs, a.lane < 64 ∧ (s.wave k).launched.getLsbD a.lane = true ∧ ∃ v, a.got = some v ∧ v.toNat < 256 ^ n))) ∧
  (∃ (s : State) (k o n : Nat) (ext : Extend) (d : SReg) (ord : LdOrd) (sco : Scope) (ch : Chan) (f : Flight) (a : LaneAcc) (v : BitVec 128),
    (At s k o f) ∧ (f.kind = .load n ext (.s d) ord sco ch) ∧ ((n ∈ sizes) ∧ (f.accs = [a]) ∧ (a.got = some v) ∧ (v.toNat < 256 ^ n))) ∧
  (∃ (s : State) (k o n : Nat) (ext : Extend) (d : VReg) (ord : LdOrd) (sco : Scope) (ch : Chan) (f : Flight) (a : LaneAcc) (v : Nat),
    (Alone s k o f a) ∧ (f.kind = .load n ext (.v d) ord sco ch) ∧ ((n ∈ sizes) ∧ (a.lane < 64) ∧ ((s.wave k).launched.getLsbD a.lane = true)) ∧ (((∃ off, a.loc = .scratch off ∧ (ord = .acquire → atL2 sco = false) ∧ v = inScratch s (clusterOf (s.wave k).core) off n) ∨ (∃ pa, a.loc = .mem pa ∧ InDram pa n ∧ pa % n = 0 ∧ ord = .plain ∧ ((ch = .dflt ∧ v = seenValue s (s.wave k).core pa n) ∨ (ch = .l2Direct ∧ v = atHome s pa n ∧ ∀ x, pa / 4 ≤ x / 4 → x / 4 * 4 < pa + n → AMap.find (s.core (s.wave k).core).l1 x = none)))))) :=
  ⟨⟨st (wf (.load 2 .sign (.v 4) .plain .die .dflt) [acc 0 (.mem 0x100000) 0 (some 0x8000), acc 63 (.mem 0x100002) 0 (some 7)]), 0, 3, 2, .sign, 4, .plain, .die, .dflt, fl (.load 2 .sign (.v 4) .plain .die .dflt) [acc 0 (.mem 0x100000) 0 (some 0x8000), acc 63 (.mem 0x100002) 0 (some 7)], at_of _ _ _ _ (by decide), rfl, by decide, by simp [fl, acc]; decide⟩,
  ⟨st (wf (.load 16 .zero (.s 252) .plain .die .dflt) [acc 64 (.mem 0x100000) 0 (some 0x8000000000000000000000000000001)]), 0, 3, 16, .zero, 252, .plain, .die, .dflt, fl (.load 16 .zero (.s 252) .plain .die .dflt) [acc 64 (.mem 0x100000) 0 (some 0x8000000000000000000000000000001)], acc 64 (.mem 0x100000) 0 (some 0x8000000000000000000000000000001), 0x8000000000000000000000000000001, at_of _ _ _ _ (by decide), rfl, by decide⟩,
  ⟨{ st (wf (.load 4 .zero (.v 4) .plain .die .l2Direct) [acc 63 (.mem 0x100004) 0 none]) with mem := [(0x100004, 0x80)] }, 0, 3, 4, .zero, 4, .plain, .die, .l2Direct, fl (.load 4 .zero (.v 4) .plain .die .l2Direct) [acc 63 (.mem 0x100004) 0 none], acc 63 (.mem 0x100004) 0 none, 0x80, alone _ _ _ _ _ rfl rfl (by decide), rfl, by decide, .inr ⟨0x100004, rfl, inDram (by decide), by decide, rfl, .inr ⟨rfl, by decide, fun _ _ _ => rfl⟩⟩⟩⟩

/-- A core whose L1 holds two bytes of a line and one of another, two of them dirty. -/
def l1 : AMap L1Byte := [(0x100FC0, ⟨1, true, 2⟩), (0x100FFF, ⟨2, false, 2⟩), (0x101000, ⟨3, true, 3⟩)]
def sl (w : Wave) : State := { st w with cores := [(0, { CoreSt.blank with l1 := l1, tlb := [page 0x100] })] }
theorem witness_fenceOrdersAndCompletes :
  (∃ (c : Ctl) (cols : BitVec 8) (fk : FenceKind) (sco : Scope) (s : State) (run : Lanes) (pc : Word),
    (Runs s c run pc) ∧ (Steady s c.h.setf)) ∧
  (∃ (s : State) (k o : Nat) (fk : FenceKind) (sco : Scope) (cols : BitVec 8) (f : Flight),
    (At s k o f) ∧ (f.kind = .fence fk sco cols) ∧ (((∀ e ∈ (s.wave k).flights, o ≤ e.1)) ∧ ((s.canRelease (s.wave k).core cols = true)) ∧ (AMap.sorted (s.core (s.wave k).core).l1 = true)) ∧ ((∀ e ∈ (s.core (s.wave k).core).l1, e.2.dirty = true → InDram e.1 1))) ∧
  (∃ (s : State) (k o p : Nat) (fk : FenceKind) (sco : Scope) (cols : BitVec 8) (f g : Flight) (n : Nat) (ext : Extend) (dest : MemDest) (ord : LdOrd) (sco2 : Scope) (ch : Chan),
    (AMap.find (s.wave k).flights o = some f) ∧ (f.kind = .fence fk sco cols) ∧ ((p, g) ∈ (s.wave k).flights) ∧ (p < o) ∧ (g.kind = .load n ext dest ord sco2 ch)) :=
  ⟨⟨c1, 0xFF, .acqRel, .system, st w0, run0, 5, ⟨by decide, by decide⟩, steady _ _ (by decide)⟩,
  ⟨sl (wf (.fence .acqRel .cohort 4) []), 0, 3, .acqRel, .cohort, 4, fl (.fence .acqRel .cohort 4) [], at_of _ _ _ _ (by decide), rfl, by decide, by unfold InDram; decide⟩,
  ⟨st { wf (.fence .acqRel .cohort 4) [] with flights := [(2, fl (.load 4 .zero (.v 4) .plain .die .dflt) [acc 0 (.mem 0x100000) 0 none]), (3, fl (.fence .acqRel .cohort 4) [])] }, 0, 3, 2, .acqRel, .cohort, 4, fl (.fence .acqRel .cohort 4) [], fl (.load 4 .zero (.v 4) .plain .die .dflt) [acc 0 (.mem 0x100000) 0 none], 4, .zero, .v 4, .plain, .die, .dflt, by decide, rfl, List.mem_cons_self, by decide, rfl⟩⟩

theorem witness_rmwPerformedSwapsValue :
  (∃ (s : State) (k o n old : Nat) (fn : RmwFn) (dest : MemDest) (ord : RmwOrd) (sco : Scope) (col : BitVec 3) (f : Flight) (a : LaneAcc) (new : Option Nat),
    (Alone s k o f a) ∧ (f.kind = .rmw n fn dest ord sco col) ∧ (((n = 4 ∨ (n = 8 ∧ fn ≠ .addF32 ∧ fn ≠ .addBf16x2))) ∧ ((ord = .relaxed ∨ atL2 sco = false))) ∧ (((∃ off, a.loc = .scratch off ∧ old = inScratch s (clusterOf (s.wave k).core) off n) ∨ (∃ pa, a.loc = .mem pa ∧ InDram pa n ∧ pa % n = 0 ∧ old = atHome s pa n ∧ ∀ j, j < n → AMap.find (s.core (s.wave k).core).l1 (pa + j) = none))) ∧ ((match dest with
      | .v _ => a.lane < 64 ∧ (s.wave k).launched.getLsbD a.lane = true
      | .s _ => n = 4)) ∧ (new = rmwRule fn n old (a.data.toNat % 256 ^ n) (a.data2.toNat % 256 ^ n))) :=
  ⟨{ st (wf (.rmw 8 (.op .min) (.v 4) .relaxed .die 2) [acc 63 (.mem 0x100FF8) 0x8000000000000001 none]) with mem := [(0x100FFF, 0x80)] }, 0, 3, 8, 0x8000000000000000, .op .min, .v 4, .relaxed, .die, 2, fl (.rmw 8 (.op .min) (.v 4) .relaxed .die 2) [acc 63 (.mem 0x100FF8) 0x8000000000000001 none], acc 63 (.mem 0x100FF8) 0x8000000000000001 none, some 0x8000000000000000, alone _ _ _ _ _ rfl rfl (by decide), rfl, by decide, .inr ⟨0x100FF8, rfl, inDram (by decide), by decide, by decide, by decide⟩, ⟨by decide, by decide⟩, by decide⟩

theorem witness_storePerformedWritesBytes :
  (∃ (s : State) (k o n off : Nat) (ord : StOrd) (sco : Scope) (ch : Chan) (col : BitVec 3) (f : Flight) (a : LaneAcc),
    (Alone s k o f a) ∧ (f.kind = .store n ord sco ch col) ∧ (n ∈ sizes) ∧ (a.loc = .scratch off) ∧ ((ord = .release → atL2 sco = false))) ∧
  (∃ (s : State) (k o n pa : Nat) (sco : Scope) (col : BitVec 3) (f : Flight) (a : LaneAcc),
    (Alone s k o f a) ∧ (f.kind = .store n .plain sco .dflt col) ∧ (n ∈ sizes) ∧ (a.loc = .mem pa) ∧ (InDram pa n) ∧ (pa % n = 0)) ∧
  (∃ (s : State) (k o n pa : Nat) (sco : Scope) (col : BitVec 3) (f : Flight) (a : LaneAcc),
    (Alone s k o f a) ∧ ((f.kind = .store n .plain sco .l2Direct col ∨ f.kind = .store n .plain sco .stream col ∨ (f.kind = .pxout ∧ n = 4 ∧ s.pixelTurn k = true))) ∧ (n ∈ sizes) ∧ (a.loc = .mem pa) ∧ (InDram pa n) ∧ ((pa % n = 0) ∧ (AMap.sorted (s.core (s.wave k).core).l1 = true))) ∧
  (∃ (s : State) (k o pa : Nat) (wr inv : Bool) (f : Flight) (a : LaneAcc),
    (Alone s k o f a) ∧ (f.kind = .cache wr inv false false false) ∧ (a.loc = .mem pa) ∧ (InDram (pa / 64 * 64) 64) ∧ (AMap.sorted (s.core (s.wave k).core).l1 = true)) :=
  ⟨⟨st (wf (.store 16 .plain .die .dflt 2) [acc 63 (.scratch 0x2FF0) 0x112233445566778899AABBCCDDEEFF00 none]), 0, 3, 16, 0x2FF0, .plain, .die, .dflt, 2, fl (.store 16 .plain .die .dflt 2) [acc 63 (.scratch 0x2FF0) 0x112233445566778899AABBCCDDEEFF00 none], acc 63 (.scratch 0x2FF0) 0x112233445566778899AABBCCDDEEFF00 none, alone _ _ _ _ _ rfl rfl (by decide), rfl, by decide, rfl, fun h => by cases h⟩,
  ⟨st { wf (.store 8 .plain .die .dflt 2) [acc 0 (.mem 0x100FF8) 0x1122334455667788 none] with watch := some ⟨0x100FFC, 0x100FFC, false, true⟩ }, 0, 3, 8, 0x100FF8, .die, 2, fl (.store 8 .plain .die .dflt 2) [acc 0 (.mem 0x100FF8) 0x1122334455667788 none], acc 0 (.mem 0x100FF8) 0x1122334455667788 none, alone _ _ _ _ _ rfl rfl (by decide), rfl, by decide, rfl, inDram (by decide), by decide⟩,
  ⟨st { wf (.store 4 .plain .die .l2Direct 2) [acc 0 (.mem 0x100FFC) 0x11223344 none] with watch := some ⟨0x100FFC, 0x100FFC, false, true⟩ }, 0, 3, 4, 0x100FFC, .die, 2, fl (.store 4 .plain .die .l2Direct 2) [acc 0 (.mem 0x100FFC) 0x11223344 none], acc 0 (.mem 0x100FFC) 0x11223344 none, alone _ _ _ _ _ rfl rfl (by decide), .inl rfl, by decide, rfl, inDram (by decide), by decide⟩,
  ⟨sl (wf (.cache true true false false false) [acc 0 (.mem 0x100FC0) 0 none]), 0, 3, 0x100FC0, true, true, fl (.cache true true false false false) [acc 0 (.mem 0x100FC0) 0 none], acc 0 (.mem 0x100FC0) 0 none, alone _ _ _ _ _ rfl rfl (by decide), rfl, rfl, inDram (by decide), by decide⟩⟩

def ws (v : Word) : Wave := { w0 with s := [(2, v)] }
/-- A sleeping run. -/
def zz (w : Wait) (e : Bool) (p : Option Nat) : Sleeper := ⟨run0, 5, w, 1, e, p, 0⟩
def wz (w : Wait) (e : Bool) (p : Option Nat) : Wave := { w0 with
  threads := [(0, .sleeping), (63, .sleeping)], sleepers := [zz w e p], f := [(1, 1)], nextOrder := 1 }
theorem witness_groupBarrierWords :
  (∃ (c : Ctl) (count : BitVec 5) (b : BitVec 4) (s r : State) (run : Lanes) (pc : Word),
    (Runs s c run pc) ∧ (r = s.releaseAll s.cur .group) ∧ ((count.toNat ≤ (s.group (cw s).group).waves) ∧ ((cw r).waveid.toNat < 16) ∧ ((cw r).waveid = (cw s).waveid) ∧ ((cw r).group = (cw s).group) ∧ (barMore r count b = true))) ∧
  (∃ (c : Ctl) (count : BitVec 5) (b : BitVec 4) (s r : State) (run : Lanes) (pc : Word),
    (Runs s c run pc) ∧ (r = s.releaseAll s.cur .group) ∧ ((count.toNat ≤ (s.group (cw s).group).waves) ∧ ((cw r).waveid.toNat < 16) ∧ ((cw r).waveid = (cw s).waveid) ∧ ((cw r).group = (cw s).group) ∧ (barMore r count b = false) ∧ ((∀ e ∈ r.waves, e.2.sleepers = []))) ∧ (Steady r c.h.setf)) ∧
  (∃ (c : Ctl) (count : BitVec 5) (b : BitVec 4) (s : State) (run : Lanes) (pc : Word),
    (Runs s c run pc)) ∧
  (∃ (i : Instr) (c : Ctl) (count : BitVec 5) (b : BitVec 4) (s : State) (run : Lanes) (pc : Word),
    ((i = .barSync c count b ∨ i = .barArrive c count b)) ∧ ((cw s).head = some (run, pc)) ∧ ((run ≠ 0) ∧ ((s.group (cw s).group).waves < count.toNat)) ∧ (Handled (cw s) run)) :=
  ⟨⟨c1, 2, 15, stg fun g => { g with waves := 2 }, (stg fun g => { g with waves := 2 }).releaseAll 0 .group, run0, 5, ⟨by decide, by decide⟩, rfl, by decide⟩,
  ⟨c1, 0, 15, st w0, (st w0).releaseAll 0 .group, run0, 5, ⟨by decide, by decide⟩, rfl, by decide, steady _ _ (by decide)⟩,
  ⟨c1, 0, 15, stg fun g => { g with bars := [(15, ⟨1, 0, true⟩)] }, run0, 5, ⟨by decide, by decide⟩⟩,
  ⟨.barSync c1 2 15, c1, 2, 15, st w0, run0, 5, .inl rfl, rfl, by decide, by unfold Handled; decide⟩⟩

theorem witness_watchWaitAndPrefetch :
  (∃ (c : Ctl) (a : SReg) (col : BitVec 3) (sco : Scope) (ch : Chan) (s s1 : State) (addr pa : Nat) (run : Lanes) (pc : Word),
    (Runs s c run pc) ∧ (addr = (SMap.get (cw s).s a.toNat).toNat + 2 ^ 32 * (SMap.get (cw s).s (a.toNat + 1)).toNat) ∧ (s.resolve s.cur .global addr 4 .load false = (.ok (.mem pa), s1))) ∧
  (∃ (c : Ctl) (d a : SReg) (col : BitVec 3) (sco : Scope) (s s1 : State) (addr pa : Nat) (run : Lanes) (pc : Word) (written : Bool),
    (Runs s c run pc) ∧ (Steady s1 c.h.setf) ∧ (addr = (SMap.get (cw s).s a.toNat).toNat + 2 ^ 32 * (SMap.get (cw s).s (a.toNat + 1)).toNat) ∧ (s.resolve s.cur .global addr 4 .load false = (.ok (.mem pa), s1)) ∧ (InDram pa 4) ∧ ((pa % 4 = 0) ∧ ((cw s).mayRead (cw s).nextOp run pa d .plain sco .dflt = true) ∧ (written = (match (cw s).watch with
      | some u => u.pa / 64 == pa / 64 && match (cw s1).watch with
        | some u1 => u1.written
        | none => false
      | none => false)))) ∧
  (∃ (c : Ctl) (d a : SReg) (col : BitVec 3) (sco : Scope) (ord : LdOrd) (ch : Chan) (s s1 : State) (addr pa : Nat) (run : Lanes) (pc : Word),
    (Runs s c run pc) ∧ (Steady s1 c.h.setf) ∧ (addr = (SMap.get (cw s).s a.toNat).toNat + 2 ^ 32 * (SMap.get (cw s).s (a.toNat + 1)).toNat) ∧ (s.resolve s.cur .global addr 4 .load false = (.ok (.mem pa), s1)) ∧ ((cw s).mayRead (cw s).nextOp run pa d ord sco ch = false)) ∧
  (∃ (s : State) (k pa va : Nat) (z : Sleeper) (old : Word) (d : SReg) (sco : Scope) (u : Watch),
    ((s.wave k).sleepers = [z]) ∧ (z.wait = .mwait va pa old d .plain sco .dflt none) ∧ (z.entry = true) ∧ (((s.wave k).slot.isSome) ∧ ((s.wave k).watch = some u) ∧ (u.written = true)) ∧ (InDram pa 4) ∧ (pa % 4 = 0)) ∧
  (∃ (c : Ctl) (a : VReg) (col : BitVec 3) (sco : Scope) (ch : Chan) (s : State) (run : Lanes) (pc : Word),
    (Runs s c run pc)) :=
  ⟨⟨c1, 2, 0, .die, .dflt, st (ws 0x100FFC), st (ws 0x100FFC), 0x100FFC, 0x100FFC, run0, 5, ⟨by decide, by decide⟩, rfl, rfl⟩,
  ⟨c1, 255, 2, 0, .die, st (ws 0x100FFC), st (ws 0x100FFC), 0x100FFC, 0x100FFC, run0, 5, false, ⟨by decide, by decide⟩, steady _ _ (by decide), rfl, rfl, inDram (by decide), by decide⟩,
  ⟨c1, 255, 2, 0, .die, .plain, .dflt, st { ws 0x100FFC with flights := [(3, fl (.store 4 .plain .die .dflt 2) [acc 0 (.mem 0x100FFC) 0x11223344 none])], nextOp := 4 }, st { ws 0x100FFC with flights := [(3, fl (.store 4 .plain .die .dflt 2) [acc 0 (.mem 0x100FFC) 0x11223344 none])], nextOp := 4 }, 0x100FFC, 0x100FFC, run0, 5, ⟨by decide, by decide⟩, steady _ _ (by decide), rfl, rfl, by decide⟩,
  ⟨st { wz (.mwait 0x100FFC 0x100FFC 0 255 .plain .die .dflt none) true none with watch := some ⟨0x100FFC, 0x100FFC, true, true⟩ }, 0, 0x100FFC, 0x100FFC, zz (.mwait 0x100FFC 0x100FFC 0 255 .plain .die .dflt none) true none, 0, 255, .die, ⟨0x100FFC, 0x100FFC, true, true⟩, by decide, rfl, rfl, by decide, inDram (by decide), by decide⟩,
  ⟨c1, 0, 0, .die, .dflt, st wm, run0, 5, ⟨by decide, by decide⟩⟩⟩

/-- The wave holds its group's baton. -/
def hb (f : Group → Group) : State := stg fun g => f { g with baton := some 0, waves := 2 }
def mwv (x y : Word) (sc : List (Nat × Word)) : State := { hb (fun g => { g with localsize := 0x10000 }) with waves := [(0, (({ w0 with s := sc }).wv 4 0 x).wv 4 63 y)] }
def cmd0 : Cmd := ⟨0x182, 2, 0, false, 0, 0, 0, 15, [], none, 4, [], none, none, 0, none⟩
theorem witness_batonAndQueryWords :
  (∃ (c : Ctl) (d : SReg) (s : State) (run : Lanes) (pc : Word),
    (Runs s c run pc) ∧ (Steady s c.h.setf)) ∧
  (∃ (c : Ctl) (to_ : PassTarget) (s : State) (run : Lanes) (pc : Word),
    (Runs s c run pc) ∧ ((∀ n, to_ = .wave n → n.toNat < (grp s).waves)) ∧ (HoldsBaton s) ∧ (Steady s c.h.setf)) ∧
  (∃ (c : Ctl) (to_ : PassTarget) (s : State) (run : Lanes) (pc : Word),
    (Runs s c run pc) ∧ ((∀ n, to_ = .wave n → n.toNat < (grp s).waves)) ∧ (¬ HoldsBaton s) ∧ (Handled (cw s) run)) ∧
  (∃ (c : Ctl) (to_ : PassTarget) (s : State) (run : Lanes) (pc : Word) (n : _),
    (Runs s c run pc) ∧ (to_ = .wave n) ∧ ((grp s).waves ≤ n.toNat) ∧ (Handled (cw s) run)) ∧
  (∃ (c : Ctl) (d : SReg) (sub : MQuery) (s : State) (run : Lanes) (pc : Word),
    (Runs s c run pc) ∧ (Steady s c.h.setf)) ∧
  (∃ (c : Ctl) (d : SReg) (s : State) (run : Lanes) (pc : Word),
    (Runs s c run pc) ∧ (Steady s c.h.setf)) ∧
  (∃ (s : State) (k o due : Nat) (d : SReg) (sub : MQuery) (clear : Bool) (f : Flight),
    ((AMap.find (s.wave k).flights o = some f) ∧ (f.kind = .query due d sub clear))) :=
  ⟨⟨c1, 255, st w0, run0, 5, ⟨by decide, by decide⟩, steady _ _ (by decide)⟩,
  ⟨c1, .wave 1, hb id, run0, 5, ⟨by decide, by decide⟩, fun n h => by cases h; decide, by unfold HoldsBaton; decide, steady _ _ (by decide)⟩,
  ⟨c1, .wave 1, stg fun g => { g with waves := 2, baton := some 1 }, run0, 5, ⟨by decide, by decide⟩, fun n h => by cases h; decide, by unfold HoldsBaton; decide, ⟨by decide, by decide⟩⟩,
  ⟨c1, .wave 1, st w0, run0, 5, 1, ⟨by decide, by decide⟩, rfl, by decide, ⟨by decide, by decide⟩⟩,
  ⟨c1, 255, .outstanding, hb fun g => { g with queue := [cmd0] }, run0, 5, ⟨by decide, by decide⟩, steady _ _ (by decide)⟩,
  ⟨c1, 255, hb fun g => { g with sticky := 0x1F }, run0, 5, ⟨by decide, by decide⟩, steady _ _ (by decide)⟩,
  ⟨{ hb fun g => { g with sticky := 0x1F } with waves := [(0, { w0 with flights := [(3, fl (.query 30 240 .flags true) [])], nextOp := 4 })] }, 0, 3, 30, 240, .flags, true, fl (.query 30 240 .flags true) [], by decide⟩⟩

theorem witness_matrixWordEnqueues :
  (∃ (i : Instr) (c : Ctl) (op : Nat) (d : Option VReg) (a : SReg) (acc : BitVec 3) (sub : Nat) (s : State) (run : Lanes) (pc : Word) (f : _),
    (matrixForm i = some (c, op, d, a, acc, sub)) ∧ (Runs s c run pc) ∧ (AllFormat (cw s) ((cw s).enabled run c) d f) ∧ ((formatOk s.fabric.featacc op sub f = true) ∧ (descBad op sub (grp s).localsize.toNat f ((cw s).block a (wordsOf op)) = none)) ∧ (HoldsBaton s) ∧ ((grp s).queue.length ≤ 6) ∧ (Steady s c.h.setf)) ∧
  (∃ (i : Instr) (c : Ctl) (op : Nat) (d : Option VReg) (a : SReg) (acc : BitVec 3) (sub : Nat) (s : State) (run : Lanes) (pc : Word) (f : _),
    (matrixForm i = some (c, op, d, a, acc, sub)) ∧ (Runs s c run pc) ∧ (AllFormat (cw s) ((cw s).enabled run c) d f) ∧ ((formatOk s.fabric.featacc op sub f = true) ∧ (descBad op sub (grp s).localsize.toNat f ((cw s).block a (wordsOf op)) = none)) ∧ (HoldsBaton s) ∧ ((7 ≤ (grp s).queue.length) ∧ (s.halting (cw s).core (cw s).pasid = false))) ∧
  (∃ (i : Instr) (c : Ctl) (op : Nat) (d : Option VReg) (a : SReg) (acc : BitVec 3) (sub : Nat) (s : State) (run : Lanes) (pc : Word) (f : _),
    (matrixForm i = some (c, op, d, a, acc, sub)) ∧ (Runs s c run pc) ∧ (AllFormat (cw s) ((cw s).enabled run c) d f) ∧ ((formatOk s.fabric.featacc op sub f = true) ∧ (descBad op sub (grp s).localsize.toNat f ((cw s).block a (wordsOf op)) = none)) ∧ (¬ HoldsBaton s) ∧ (Handled (cw s) run)) ∧
  (∃ (i : Instr) (c : Ctl) (op : Nat) (d : Option VReg) (a : SReg) (acc : BitVec 3) (sub : Nat) (s : State) (run : Lanes) (pc : Word) (f : _) (k : _),
    (matrixForm i = some (c, op, d, a, acc, sub)) ∧ (Runs s c run pc) ∧ (AllFormat (cw s) ((cw s).enabled run c) d f) ∧ ((formatOk s.fabric.featacc op sub f = true) ∧ (descBad op sub (grp s).localsize.toNat f ((cw s).block a (wordsOf op)) = some k)) ∧ (Handled (cw s) run)) ∧
  (∃ (i : Instr) (c : Ctl) (op : Nat) (d : Option VReg) (a : SReg) (acc : BitVec 3) (sub : Nat) (s : State) (run : Lanes) (pc : Word) (f : _),
    (matrixForm i = some (c, op, d, a, acc, sub)) ∧ (Runs s c run pc) ∧ (AllFormat (cw s) ((cw s).enabled run c) d f) ∧ (formatOk s.fabric.featacc op sub f = false) ∧ (Handled (cw s) run)) ∧
  (∃ (i : Instr) (c : Ctl) (op : Nat) (d : Option VReg) (a : SReg) (acc : BitVec 3) (sub : Nat) (s : State) (run : Lanes) (pc : Word) (v : _) (l : _) (k : _),
    (matrixForm i = some (c, op, d, a, acc, sub)) ∧ (Runs s c run pc) ∧ ((d = some v) ∧ (((cw s).enabled run c).getLsbD l = true) ∧ (((cw s).enabled run c).getLsbD k = true) ∧ (l < 64) ∧ (k < 64) ∧ ((∀ j, j < l → ((cw s).enabled run c).getLsbD j = false)) ∧ ((cw s).rv v k ≠ (cw s).rv v l) ∧ (formatOk s.fabric.featacc op sub ((cw s).rv v l) = true) ∧ (descBad op sub (grp s).localsize.toNat ((cw s).rv v l) ((cw s).block a (wordsOf op)) = none)) ∧ (HoldsBaton s) ∧ (Handled (cw s) run)) :=
  ⟨⟨.macz c1 2, c1, 0x182, none, 0, 2, 0, hb id, run0, 5, 0, rfl, ⟨by decide, by decide⟩, rfl, by decide, by unfold HoldsBaton; decide, by decide, steady _ _ (by decide)⟩,
  ⟨.macz c1 2, c1, 0x182, none, 0, 2, 0, hb fun g => { g with queue := List.replicate 7 cmd0 }, run0, 5, 0, rfl, ⟨by decide, by decide⟩, rfl, by decide, by unfold HoldsBaton; decide, by decide⟩,
  ⟨.mepiRelu c1 4 10 2, c1, 0x185, some 4, 10, 2, 3, st w0, run0, 5, 0, rfl, ⟨by decide, by decide⟩, by unfold AllFormat; decide, by decide, by unfold HoldsBaton; decide, ⟨by decide, by decide⟩⟩,
  ⟨.macld c1 4 10 2, c1, 0x183, some 4, 10, 2, 0, stw fun w => { w with s := [(10, 0x100), (11, 130)] }, run0, 5, 0, 1, rfl, ⟨by decide, by decide⟩, by unfold AllFormat; decide, by decide, ⟨by decide, by decide⟩⟩,
  ⟨.mepiScale c1 4 10 2, c1, 0x185, some 4, 10, 2, 0, mwv 1 1 [], run0, 5, 1, rfl, ⟨by decide, by decide⟩, by unfold AllFormat; decide, by decide, ⟨by decide, by decide⟩⟩,
  ⟨.mepiScale c1 4 10 2, c1, 0x185, some 4, 10, 2, 0, mwv 0 1 [], run0, 5, 4, 0, 63, rfl, ⟨by decide, by decide⟩, by decide, by unfold HoldsBaton; decide, ⟨by decide, by decide⟩⟩⟩

/-- A node of the chrysalis table: tag, operands, rows, columns. -/
def nd (tag : BitVec 8) (a b : Option Nat) (r c : Nat) : Node := ⟨1, 0, tag, false, false, 1, a, b, r, c, 0, 3, 0, [1, 2], [], 0⟩
def hn (f : Group → Group) : State := hb fun g => f { g with handles := [(1, 0), (2, 1)], nodes := [(0, nd 8 none none 4 6), (1, nd 8 (some 0) none 4 6)], nodeAge := 2 }
def sw (f : Group → Group) (x : List (Nat × Word)) : State := { hn f with waves := [(0, { w0 with s := x })] }
theorem witness_appendWordMakesNode_5 :
  (∃ (c : Ctl) (hd : BitVec 6) (sb : SReg) (s : State) (run : Lanes) (pc : Word),
    (Runs s c run pc) ∧ (Handled (cw s) run) ∧ (((((cw s).rs sb).toNat % 65536 ≠ 0 ∧ ((cw s).rs sb).toNat / 65536 ≠ 0)) ∧ ((∀ k, k < 256 → (AMap.find (grp s).nodes k).isSome)))) :=
  ⟨c1, 63, 10, sw (fun g => { g with nodes := (List.range 256).map fun k => (k, nd 8 none none 1 1) }) [(10, 0x10001)], run0, 5, ⟨by decide, by decide⟩, ⟨by decide, by decide⟩, by decide +kernel⟩

theorem witness_appendWordMakesNode_4 :
  (∃ (c : Ctl) (hd : BitVec 6) (sb : SReg) (s : State) (run : Lanes) (pc : Word),
    (Runs s c run pc) ∧ (Handled (cw s) run) ∧ ((((cw s).rs sb).toNat % 65536 = 0 ∨ ((cw s).rs sb).toNat / 65536 = 0))) :=
  ⟨c1, 63, 10, stw fun w => { w with s := [(10, 0x10000)] }, run0, 5, ⟨by decide, by decide⟩, ⟨by decide, by decide⟩, by decide +kernel⟩

theorem witness_appendWordMakesNode_3 :
  (∃ (i : Instr) (c : Ctl) (hd ha : BitVec 6) (hb : Option (BitVec 6)) (kind sub : Nat) (sh : Nat → Nat → Nat → Nat × Nat × Nat) (s : State) (run : Lanes) (pc : Word),
    (appendForm i = some (c, hd, ha, hb, kind, sub, sh)) ∧ (Runs s c run pc) ∧ (Handled (cw s) run) ∧ ((AMap.find (grp s).handles ha.toNat = none ∨ ∃ k, hb = some k ∧ AMap.find (grp s).handles k.toNat = none))) :=
  ⟨.tadd c1 3 1 5, c1, 3, 1, some 5, 4, 0, fun _ r k => (8, r, k), hn id, run0, 5, rfl, ⟨by decide, by decide⟩, ⟨by decide, by decide⟩, .inr ⟨5, rfl, by decide⟩⟩

theorem witness_appendWordMakesNode_2 :
  (∃ (i : Instr) (c : Ctl) (hd : BitVec 6) (ha hb : Option (BitVec 6)) (sb : SReg) (n kind sub idx : Nat) (sh : Nat × Nat × Nat) (s : State) (run : Lanes) (pc : Word),
    (appendParamForm i = some (c, hd, ha, hb, sb, n, kind, sub)) ∧ (Runs s c run pc) ∧ (((ha.isSome → (nodeOf (grp s) ha).isSome)) ∧ ((hb.isSome → (nodeOf (grp s) hb).isSome)) ∧ (paramShape i (fun k => (SMap.get (cw s).s (sb.toNat + k)).toNat) (tagOf (nodeOf (grp s) ha)) (rowsOf (nodeOf (grp s) ha)) (colsOf (nodeOf (grp s) ha)) (tagOf (nodeOf (grp s) hb)) (rowsOf (nodeOf (grp s) hb)) (colsOf (nodeOf (grp s) hb)) = some sh) ∧ (AMap.find (grp s).handles hd.toNat = none)) ∧ (RoomFor s kind idx)) :=
  ⟨.tconst c1 63 10, c1, 63, none, none, 10, 2, 1, 0, 0, (8, 65535, 1), stw fun w => { w with s := [(10, 0x1FFFF)] }, run0, 5, rfl, ⟨by decide, by decide⟩, by decide +kernel, by unfold RoomFor; decide⟩

theorem witness_appendWordMakesNode_1 :
  (∃ (i : Instr) (c : Ctl) (hd ha : BitVec 6) (hb : Option (BitVec 6)) (kind sub idx : Nat) (sh : Nat → Nat → Nat → Nat × Nat × Nat) (na : Nat) (a : Node) (s : State) (run : Lanes) (pc : Word),
    (appendForm i = some (c, hd, ha, hb, kind, sub, sh)) ∧ (Runs s c run pc) ∧ ((AMap.find (grp s).handles ha.toNat = some na) ∧ (AMap.find (grp s).nodes na = some a)) ∧ ((∀ k, hb = some k → ∃ nb b, AMap.find (grp s).handles k.toNat = some nb ∧ AMap.find (grp s).nodes nb = some b ∧ b.rows = a.rows ∧ b.cols = a.cols)) ∧ (((kind = 3 → sub ≠ 4 → a.tag ≠ 0x0D ∧ a.tag ≠ 0x0E)) ∧ (AMap.find (grp s).handles hd.toNat = none)) ∧ (RoomFor s kind idx)) :=
  ⟨.tsub c1 63 1 2, c1, 63, 1, some 2, 5, 0, 2, fun _ r k => (8, r, k), 0, nd 8 none none 4 6, hn id, run0, 5, rfl, ⟨by decide, by decide⟩, by decide +kernel, fun k h => by cases h; exact ⟨1, nd 8 (some 0) none 4 6, by decide⟩, by decide +kernel, by unfold RoomFor; decide⟩

def tc : TileCfg := ⟨true, 3, 1, 4, 0x100040, 4, 1⟩
theorem witness_demandAndStatusWords_9 :
  (∃ (c : Ctl) (sb : SReg) (s : State) (run : Lanes) (pc : Word) (bs : _) (s1 : _),
    (Runs s c run pc) ∧ (Steady s c.h.setf) ∧ ((cw s).tfault.getLsbD 8 = true) ∧ (s.loadBytes (cw s).core (cw s).pasid ((grp s).tcfg.farea + 64 * ((cw s).tfault.toNat % 256)) 64 = (.ok bs, s1)) ∧ (Steady s1 c.h.setf)) :=
  ⟨c1, 239, { hn (fun g => { g with tcfg := tc }) with waves := [(0, { w0 with tfault := 0x101 })], mem := [(0x100085, 0x77)] }, run0, 5, _, _, ⟨by decide, by decide⟩, steady _ _ (by decide +kernel), by decide +kernel, is_ok (by decide +kernel), steady _ _ (by decide +kernel)⟩

theorem witness_demandAndStatusWords_8 :
  (∃ (c : Ctl) (sb : SReg) (s : State) (run : Lanes) (pc : Word),
    (Runs s c run pc) ∧ (Steady s c.h.setf) ∧ ((cw s).tfault.getLsbD 8 = false)) :=
  ⟨c1, 239, st w0, run0, 5, ⟨by decide, by decide⟩, steady _ _ (by decide +kernel), by decide +kernel⟩

theorem witness_demandAndStatusWords_7 :
  (∃ (c : Ctl) (sb : SReg) (s : State) (run : Lanes) (pc : Word) (ha : VReg),
    (Runs s c run pc) ∧ (Steady s c.h.setf) ∧ (AMap.find (grp s).handles ha.toNat = none)) :=
  ⟨c1, 239, hn id, run0, 5, 63, ⟨by decide, by decide⟩, steady _ _ (by decide +kernel), by decide +kernel⟩

theorem witness_demandAndStatusWords_6 :
  (∃ (c : Ctl) (sb : SReg) (s : State) (run : Lanes) (pc : Word) (ha : BitVec 6) (k : Nat) (n : Node),
    (Runs s c run pc) ∧ (Steady s c.h.setf) ∧ ((AMap.find (grp s).handles ha.toNat = some k) ∧ (AMap.find (grp s).nodes k = some n))) :=
  ⟨c1, 239, hn fun g => { g with ranges := [(1, ⟨0, 16, 0⟩)] }, run0, 5, 1, 0, nd 8 none none 4 6, ⟨by decide, by decide⟩, steady _ _ (by decide +kernel), by decide +kernel⟩

theorem witness_demandAndStatusWords_5 :
  (∃ (c : Ctl) (sb : SReg) (s : State) (run : Lanes) (pc : Word) (p : Nat → Nat),
    (Runs s c run pc) ∧ (p = (fun k => (SMap.get (cw s).s (sb.toNat + k)).toNat)) ∧ ((16 ≤ p 0 ∨ (s.die ((cw s).core / 144)).seqset.getLsbD (p 0) = false)) ∧ (Handled (cw s) run)) :=
  ⟨c1, 10, sw id [(10, 16)], run0, 5, fun k => (SMap.get [(10, 16)] (10 + k) : Word).toNat, ⟨by decide, by decide⟩, rfl, .inl (by decide), ⟨by decide, by decide⟩⟩

theorem witness_demandAndStatusWords_4 :
  (∃ (c : Ctl) (sb : SReg) (s : State) (run : Lanes) (pc : Word) (p : Nat → Nat),
    (Runs s c run pc) ∧ (p = (fun k => (SMap.get (cw s).s (sb.toNat + k)).toNat)) ∧ ((p 0 < 16) ∧ ((s.die ((cw s).core / 144)).seqset.getLsbD (p 0) = true) ∧ (p 1 % 256 = 0) ∧ (p 2 % 256 = 0) ∧ ((∀ e ∈ (grp s).nodes, e.2.captured = false)) ∧ (p 1 + p 2 ≤ (grp s).localsize.toNat) ∧ (p 3 % 64 = 0) ∧ (p 4 < 2 ^ 25) ∧ (1 ≤ p 5) ∧ (p 5 ≤ 256))) :=
  ⟨c1, 10, { sw (fun g => { g with tcfg := tc }) [(10, 3), (11, 0x100), (12, 0x400), (13, 0x100040), (15, 4)] with dies := [(0, { DieSt.blank with seqset := 8 })] }, run0, 5, fun k => (SMap.get [(10, 3), (11, 0x100), (12, 0x400), (13, 0x100040), (15, 4)] (10 + k) : Word).toNat, ⟨by decide, by decide⟩, rfl, by decide +kernel⟩

theorem witness_demandAndStatusWords_3 :
  (∃ (c : Ctl) (hd : BitVec 6) (s : State) (run : Lanes) (pc : Word),
    (Runs s c run pc)) :=
  ⟨c1, 2, hn id, run0, 5, ⟨by decide, by decide⟩⟩

theorem witness_demandAndStatusWords_2 :
  (∃ (tst : Bool) (c : Ctl) (ha : BitVec 6) (sb : SReg) (s : State) (run : Lanes) (pc : Word),
    (Runs s c run pc) ∧ (Handled (cw s) run) ∧ ((c.h.setf = 15 ∨ AMap.find (grp s).handles ha.toNat = none))) :=
  ⟨true, c0, 1, 10, hn id, run0, 5, ⟨by decide, by decide⟩, ⟨by decide, by decide⟩, .inl rfl⟩

theorem witness_demandAndStatusWords_1 :
  (∃ (tst : Bool) (c : Ctl) (ha : BitVec 6) (sb : SReg) (ni : Nat) (n : Node) (s : State) (run : Lanes) (pc : Word),
    (Runs s c run pc) ∧ (Steady s c.h.setf) ∧ ((c.h.setf.toNat ≤ 11) ∧ (AMap.find (grp s).handles ha.toNat = some ni) ∧ (AMap.find (grp s).nodes ni = some n) ∧ (ni < 256) ∧ ((grp s).tcfg.on = true)) ∧ (HoldsBaton s) ∧ (((grp s).queue.length ≤ 6) ∧ ((grp s).ranges = [])) ∧ (RegionFits n (fun k => (SMap.get (cw s).s (sb.toNat + k)).toNat) (if tst then 2 else 1) (if tst then none else some (grp s).localsize.toNat))) :=
  ⟨false, c1, 1, 10, 0, nd 8 none none 4 6, sw (fun g => { g with tcfg := tc }) [(10, 0x10), (11, 0x10001), (12, 0x20003), (13, 16)], run0, 5, ⟨by decide, by decide⟩, steady _ _ (by decide +kernel), by decide +kernel, by unfold HoldsBaton; decide +kernel, by decide +kernel, ⟨by decide, by decide, by decide, by decide, by decide, by decide, by decide, by decide, And.intro (by decide) (by decide)⟩⟩

/-- The wave with a descriptor in its scalars from s16. -/
def ds (l : List (Nat × Word)) : State := stw fun w => { w with s := l }
/-- A `cpym` of a context in clusters 0 and 1 that names no cluster. -/
def none0 : State := { ds [(16, 0x100000), (18, 0x40), (20, 4), (21, 0x400003), (22, 0x10), (23, 0x400)] with contexts := [(0, ⟨⟨0, 0, 0, 0, 0, 0, 0, 0, 0, 1⟩, [], []⟩)], parts := [(1, ⟨⟨[0, 1], 0, 0, 0, [], none⟩, [], none, [], []⟩)] }
/-- A request of a timeline, to be changed. -/
def rq (k : ReqKind) (sel : Timeline) (n : Nat) (d : List Word) : Req := ⟨k, d, 1, 0, 0, 0, 1, 0, 15, sel, n, 5, [], [], false, none, none, false, false, 0, [], []⟩
def many (k : ReqKind) (sel : Timeline) : AMap Req := (List.range 256).map fun n => (n + 10, rq k sel (n + 1) [])
theorem witness_badDescriptorsTrap :
  (∃ (c : Ctl) (d a : SReg) (s : State) (run : Lanes) (pc : Word) (p : Nat → Nat) (k v : Nat),
    (Runs s c run pc) ∧ (p = (fun k => (SMap.get (cw s).s (a.toNat + k)).toNat)) ∧ (Handled (cw s) run) ∧ (CopyOk (fun j => if j = k then v else p j) (cw s).localsize.toNat (cw s).localsize.toNat false) ∧ ((((k = 4 ∧ (p 4 = 0 ∨ 2 ^ 24 ≤ p 4)) ∨ (k = 1 ∧ 2 ^ 25 ≤ p 1) ∨ (k = 3 ∧ 2 ^ 25 ≤ p 3) ∨ (k = 5 ∧ 2 ^ 23 ≤ p 5 ∧ (p 5).testBit 21 = v.testBit 21 ∧ (p 5).testBit 22 = v.testBit 22 ∧ p 5 % 2 ^ 16 = v % 2 ^ 16))) ∧ ((k = 4 → (p 5).testBit 21 = false ∧ (p 5).testBit 22 = false)))) ∧
  (∃ (resume : Bool) (c : Ctl) (d a : SReg) (s : State) (run : Lanes) (pc : Word) (p : Nat → Nat),
    (Runs s c run pc) ∧ (p = (fun k => (SMap.get (cw s).s (a.toNat + k)).toNat)) ∧ (Handled (cw s) run) ∧ ((p 0 % 256 = 0) ∧ (p 1 < 2 ^ 25)) ∧ ((p 2 = 0 ∨ 2 ^ 16 ≤ p 2))) ∧
  (∃ (c : Ctl) (d a : SReg) (s : State) (run : Lanes) (pc : Word) (p : Nat → Nat) (k : Nat),
    (Runs s c run pc) ∧ (p = (fun k => (SMap.get (cw s).s (a.toNat + k)).toNat)) ∧ (CopyOk p (cw s).localsize.toNat 0x600000 true) ∧ ((p 9 < 2 ^ 16) ∧ (k < 48) ∧ ((p 8 + 2 ^ 32 * p 9).testBit k = true)) ∧ (¬ inPartition s k) ∧ ((∀ j, j < k → (p 8 + 2 ^ 32 * p 9).testBit j = true → inPartition s j))) :=
  ⟨⟨c1, 240, 16, ds [(16, 0x100000), (18, 0x40), (20, 0x1000000), (21, 3), (22, 0x10), (23, 0x400)], run0, 5, _, 4, 4, ⟨by decide, by decide⟩, rfl, ⟨by decide, by decide⟩, by simp only [CopyOk]; decide, by decide⟩,
  ⟨true, c1, 0, 16, ds [(16, 0x100100), (18, 0x10000), (19, 0x11)], run0, 5, _, ⟨by decide, by decide⟩, rfl, ⟨by decide, by decide⟩, by decide, .inr (by decide)⟩,
  ⟨c1, 0, 16, { ds [(16, 0x100000), (18, 0x40), (20, 4), (21, 0x400003), (22, 0x10), (23, 0x400), (24, 6)] with contexts := [(0, ⟨⟨0, 0, 0, 0, 0, 0, 0, 0, 0, 1⟩, [], []⟩)], parts := [(1, ⟨⟨[0, 1], 0, 0, 0, [], none⟩, [], none, [], []⟩)] }, run0, 5, _, 2, ⟨by decide, by decide⟩, rfl, by simp only [CopyOk]; decide, by decide, by simp [inPartition]; decide, fun j _ h => ⟨_, _, rfl, rfl, by have : j = 0 ∨ j = 1 := (by omega); rcases this with rfl | rfl <;> decide⟩⟩⟩

theorem witness_requestWordIsNumbered_3 :
  (∃ (i : Instr) (c : Ctl) (d a : SReg) (n : Nat) (kind : (Nat → Nat) → ReqKind) (sel : (Nat → Nat) → Timeline) (s r : State) (run : Lanes) (pc : Word) (p : Nat → Nat),
    (requestForm i = some (c, d, a, n, kind, sel)) ∧ (Runs s c run pc) ∧ (r = s.releaseAll s.cur .device) ∧ (p = (fun k => (SMap.get (cw s).s (a.toNat + k)).toNat)) ∧ (RequestOk s i p) ∧ ((r.nextId = s.nextId) ∧ (256 ≤ s.reqs.countP (fun e => decide (e.2.cohort = cohortNow s ∧ e.2.sel = sel p))))) :=
  ⟨.rtrace c1 0 16, c1, 0, 16, 5, fun _ => .trace false, fun _ => .trav, { ds [(16, 0x100100), (18, 0xFFFF), (19, 0x10)] with reqs := many (.trace true) .trav }, { ds [(16, 0x100100), (18, 0xFFFF), (19, 0x10)] with reqs := many (.trace true) .trav }, run0, 5, _, rfl, ⟨by decide, by decide⟩, rfl, rfl, by simp only [RequestOk]; decide, by decide +kernel⟩

theorem witness_requestWordIsNumbered_2 :
  (∃ (i : Instr) (c : Ctl) (d a : SReg) (n : Nat) (kind : (Nat → Nat) → ReqKind) (sel : (Nat → Nat) → Timeline) (s r : State) (run : Lanes) (pc : Word) (p : Nat → Nat),
    (requestForm i = some (c, d, a, n, kind, sel)) ∧ (Runs s c run pc) ∧ (r = s.releaseAll s.cur .device) ∧ (p = (fun k => (SMap.get (cw s).s (a.toNat + k)).toNat)) ∧ (RequestOk s i p) ∧ ((r.nextId = s.nextId) ∧ (kind p = .multi 0) ∧ (s.reqs.countP (fun e => decide (e.2.cohort = cohortNow s ∧ e.2.sel = sel p)) < 256)) ∧ (Steady r c.h.setf) ∧ (((timeline r (sel p)).accepted = (timeline r (sel p)).value) ∧ ((timeline r (sel p)).done = []) ∧ (AMap.find r.reqs r.nextId = none) ∧ ((∀ e ∈ r.waves, e.2.sleepers = []))) ∧ ((∃ g ∈ (r.cohort (cohortNow r)).groups, (r.group g).slot.isSome))) :=
  ⟨.cpym c1 240 16, c1, 240, 16, 10, fun p => .multi (BitVec.ofNat 48 (p 8 + 2 ^ 32 * p 9)), fun _ => .copy, none0, none0, run0, 5, _, rfl, ⟨by decide, by decide⟩, rfl, rfl, by simp only [RequestOk, CopyOk]; refine ⟨by decide, by decide, fun k hk h => absurd (show (0 : Nat).testBit k = true from h) (by simp)⟩, by decide +kernel, steady _ _ (by decide +kernel), by decide +kernel, ⟨1, by decide, by decide⟩⟩

theorem witness_requestWordIsNumbered_1 :
  (∃ (i : Instr) (c : Ctl) (d a : SReg) (n : Nat) (kind : (Nat → Nat) → ReqKind) (sel : (Nat → Nat) → Timeline) (s r : State) (run : Lanes) (pc : Word) (p : Nat → Nat),
    (requestForm i = some (c, d, a, n, kind, sel)) ∧ (Runs s c run pc) ∧ (r = s.releaseAll s.cur .device) ∧ (p = (fun k => (SMap.get (cw s).s (a.toNat + k)).toNat)) ∧ (RequestOk s i p) ∧ (r.nextId = s.nextId) ∧ (kind p ≠ .multi 0) ∧ (s.reqs.countP (fun e => decide (e.2.cohort = cohortNow s ∧ e.2.sel = sel p)) < 256) ∧ (Steady r c.h.setf)) :=
  ⟨.cpy c1 240 16, c1, 240, 16, 8, fun _ => .copy, fun _ => .copy, ds [(16, 0x100000), (18, 0x40), (20, 4), (21, 0x400003), (22, 0x10), (23, 0x400)], ds [(16, 0x100000), (18, 0x40), (20, 4), (21, 0x400003), (22, 0x10), (23, 0x400)], run0, 5, _, rfl, ⟨by decide, by decide⟩, rfl, rfl, by simp only [RequestOk, CopyOk]; decide, by decide +kernel, nofun, by decide +kernel, steady _ _ (by decide +kernel)⟩

def tl (c : Cohort → Cohort) (w : Wave → Wave) : State := { stw w with cohorts := [(1, c h0)] }
def dc (n : BitVec 64) (s : State) : State := { s with dies := [(0, { DieSt.blank with counter := n })] }
/-- A ray of a cohort on its way, with a four-word program. -/
def ry (f : Ray → Ray) : Ray := f { req := 20, cohort := 1, cluster := 0, pasid := 0, at_ := 0x100100, binding := some ⟨⟨0, 0, 0, 0, []⟩, [0x08000000, 0x4A000009, 0, 0x58000000]⟩, org := [0, 0, 0], tmin := 0, dir := [0, 0, 0x3F800000], tmax := 0x7F800000, flags := 0, cls := 0, upc := 0, status := 1, cause := 0, inst := 0, node := 0x100000, hitt := 0x7F800000, prim := 0xFFFFFFFF, hitu := 0, hitv := 0, stack := [], buf := none, kids := [], cand := none, z := false, h := false, m := false, savers := [], fetching := false, out := false, depth := 0 }
def rays (n : Nat) : State := { st w0 with rays := [(7, ry id), (8, ry fun r => { r with cohort := n })], reqs := [(20, { rq (.trace false) .trav 1 [0x100100, 0, 3, 0x10, 0] with next := 2 })] }
theorem witness_timelineWordsComplete :
  (∃ (c : Ctl) (s : State) (run : Lanes) (pc : Word) (a : SReg) (sel : Timeline),
    (Runs s c run pc) ∧ (Steady s c.h.setf) ∧ ((timeline s sel).fail = none) ∧ (hasReached (timeline s sel).value ((cw s).rs a))) ∧
  (∃ (c : Ctl) (s : State) (run : Lanes) (pc : Word) (a : SReg) (sel : Timeline),
    (Runs s c run pc) ∧ (Steady s c.h.setf) ∧ ((timeline s sel).fail = none) ∧ (hasReached (timeline s sel).value ((cw s).rs a)) ∧ (hasReached (s.die ((cw s).core / 144)).counter.toNat (SMap.get (cw s).s (a.toNat + 1)))) ∧
  (∃ (c : Ctl) (s : State) (run : Lanes) (pc : Word) (d : SReg) (sel : Timeline),
    (Runs s c run pc) ∧ (Steady s c.h.setf)) ∧
  (∃ (c : Ctl) (s : State) (run : Lanes) (pc : Word) (d : SReg) (sub : RQuery),
    (Runs s c run pc) ∧ (Steady s c.h.setf)) ∧
  (∃ (c : Ctl) (s : State) (run : Lanes) (pc : Word),
    (Runs s c run pc) ∧ (Steady s c.h.setf) ∧ ((∃ e ∈ s.rays, e.2.cohort = cohortNow s ∧ e.2.cluster = clusterNow s))) :=
  ⟨⟨c1, tl (fun c => { c with nmv := [(23, ⟨0x100000007, 0x100000007, [], none⟩)] }) fun w => { w with s := [(2, 0x80000008)] }, run0, 5, 2, .nmv 23, ⟨by decide, by decide⟩, steady _ _ (by decide), by decide, by unfold hasReached; decide⟩,
  ⟨c1, dc 0x200000000 (stw fun w => { w with s := [(2, 0), (3, 0)] }), run0, 5, 2, .trav, ⟨by decide, by decide⟩, steady _ _ (by decide), by decide, by unfold hasReached; decide, by unfold hasReached; decide⟩,
  ⟨c1, tl (fun c => { c with trav := ⟨0x300000007, 9, [], none⟩ }) id, run0, 5, 254, .trav, ⟨by decide, by decide⟩, steady _ _ (by decide)⟩,
  ⟨c1, rays 1, run0, 5, 255, .inflight, ⟨by decide, by decide⟩, steady _ _ (by decide)⟩,
  ⟨c1, rays 3, run0, 5, ⟨by decide, by decide⟩, steady _ _ (by decide), ⟨(7, ry id), by decide, rfl, rfl⟩⟩⟩

theorem witness_timelineAndRayWords :
  (∃ (c : Ctl) (a : SReg) (sel : Timeline) (s : State) (run : Lanes) (pc : Word),
    (Runs s c run pc) ∧ (hasReached (timeline s sel).value ((cw s).rs a)) ∧ ((∀ cause addr, ¬ Covers s sel ((cw s).rs a) cause addr))) ∧
  (∃ (c : Ctl) (a : SReg) (sel : Timeline) (s : State) (run : Lanes) (pc : Word) (cause : _) (addr : _),
    (Runs s c run pc) ∧ (hasReached (timeline s sel).value ((cw s).rs a)) ∧ (Covers s sel ((cw s).rs a) cause addr)) ∧
  (∃ (c : Ctl) (a : SReg) (sel : Timeline) (s : State) (run : Lanes) (pc : Word),
    (Runs s c run pc) ∧ (¬ hasReached (timeline s sel).value ((cw s).rs a))) ∧
  (∃ (c : Ctl) (d : SReg) (sel : Timeline) (s : State) (run : Lanes) (pc : Word),
    (Runs s c run pc) ∧ (Steady s c.h.setf)) ∧
  (∃ (c : Ctl) (a : SReg) (sel : Timeline) (s : State) (run : Lanes) (pc m q : Word) (now : BitVec 64),
    (Runs s c run pc) ∧ (m = (cw s).rs a) ∧ (q = SMap.get (cw s).s (a.toNat + 1)) ∧ (now = (s.die ((cw s).core / 144)).counter) ∧ (¬ hasReached now.toNat q)) ∧
  (∃ (c : Ctl) (a : SReg) (sel : Timeline) (s : State) (run : Lanes) (pc m q : Word) (now : BitVec 64),
    (Runs s c run pc) ∧ (m = (cw s).rs a) ∧ (q = SMap.get (cw s).s (a.toNat + 1)) ∧ (now = (s.die ((cw s).core / 144)).counter) ∧ (hasReached now.toNat q) ∧ (hasReached (timeline s sel).value m) ∧ ((∀ cause addr, ¬ Covers s sel m cause addr))) ∧
  (∃ (c : Ctl) (a : SReg) (sel : Timeline) (s : State) (run : Lanes) (pc m q : Word) (now : BitVec 64) (cause : _) (addr : _),
    (Runs s c run pc) ∧ (m = (cw s).rs a) ∧ (q = SMap.get (cw s).s (a.toNat + 1)) ∧ (now = (s.die ((cw s).core / 144)).counter) ∧ (hasReached now.toNat q) ∧ (hasReached (timeline s sel).value m) ∧ (Covers s sel m cause addr)) ∧
  (∃ (c : Ctl) (a : SReg) (sel : Timeline) (s : State) (run : Lanes) (pc m q : Word) (now : BitVec 64),
    (Runs s c run pc) ∧ (m = (cw s).rs a) ∧ (q = SMap.get (cw s).s (a.toNat + 1)) ∧ (now = (s.die ((cw s).core / 144)).counter) ∧ (hasReached now.toNat q) ∧ (¬ hasReached (timeline s sel).value m) ∧ ((s.ctlw (cw s).pasid).getLsbD 1 = true) ∧ (Handled (cw s) run)) ∧
  (∃ (c : Ctl) (a : SReg) (sel : Timeline) (s : State) (run : Lanes) (pc m q : Word) (now : BitVec 64),
    (Runs s c run pc) ∧ (m = (cw s).rs a) ∧ (q = SMap.get (cw s).s (a.toNat + 1)) ∧ (now = (s.die ((cw s).core / 144)).counter) ∧ (hasReached now.toNat q) ∧ (¬ hasReached (timeline s sel).value m) ∧ ((s.ctlw (cw s).pasid).getLsbD 1 = false)) ∧
  (∃ (c : Ctl) (d : SReg) (sub : RQuery) (s : State) (run : Lanes) (pc : Word),
    (Runs s c run pc) ∧ (Steady s c.h.setf)) ∧
  (∃ (c : Ctl) (s : State) (run : Lanes) (pc : Word),
    (Runs s c run pc) ∧ (Steady s c.h.setf) ∧ ((∃ e ∈ s.rays, e.2.cohort = cohortNow s ∧ e.2.cluster = clusterNow s))) ∧
  (∃ (c : Ctl) (s : State) (run : Lanes) (pc : Word),
    (Runs s c run pc) ∧ (Steady s c.h.setf) ∧ (((∀ e ∈ s.rays, ¬ (e.2.cohort = cohortNow s ∧ e.2.cluster = clusterNow s) ∧ (s.cur, (cw s).nextOp) ∉ e.2.savers)) ∧ (s.reqs = []))) :=
  ⟨⟨c1, 2, .nmv 23, tl (fun c => { c with nmv := [(23, ⟨0x100000007, 0x100000007, [], none⟩)] }) fun w => { w with s := [(2, 0x80000008)] }, run0, 5, ⟨by decide, by decide⟩, by unfold hasReached; decide, by rintro c a ⟨n, h, _⟩; exact nomatch h⟩,
  ⟨c1, 2, .copy, tl (fun c => { c with copy := ⟨7, 9, [], some (6, .access, 0x100000)⟩ }) fun w => { w with s := [(2, 6)] }, run0, 5, .access, 0x100000, ⟨by decide, by decide⟩, by unfold hasReached; decide, ⟨6, rfl, by unfold hasReached; decide⟩⟩,
  ⟨c1, 2, .trav, tl (fun c => { c with trav := ⟨7, 9, [], none⟩ }) fun w => { w with s := [(2, 8)] }, run0, 5, ⟨by decide, by decide⟩, by unfold hasReached; decide⟩,
  ⟨c1, 254, .trav, tl (fun c => { c with trav := ⟨0x300000007, 9, [], none⟩ }) id, run0, 5, ⟨by decide, by decide⟩, steady _ _ (by decide)⟩,
  ⟨c1, 2, .trav, dc 0x1FFFFFFFF (stw fun w => { w with s := [(2, 0), (3, 0)] }), run0, 5, 0, 0, 0x1FFFFFFFF, ⟨by decide, by decide⟩, by decide, rfl, by decide, by unfold hasReached; decide⟩,
  ⟨c1, 2, .trav, dc 0x200000000 (stw fun w => { w with s := [(2, 0), (3, 0)] }), run0, 5, 0, 0, 0x200000000, ⟨by decide, by decide⟩, by decide, rfl, by decide, by unfold hasReached; decide, by unfold hasReached; decide, by rintro c a ⟨n, h, _⟩; exact nomatch h⟩,
  ⟨c1, 2, .trav, { dc 0x200000000 (tl (fun c => { c with trav := ⟨7, 9, [], some (6, .access, 0x100000)⟩ }) fun w => { w with s := [(2, 6), (3, 0)] }) with nextId := 2 }, run0, 5, 6, 0, 0x200000000, .access, 0x100000, ⟨by decide, by decide⟩, by decide, rfl, by decide, by unfold hasReached; decide, by unfold hasReached; decide, ⟨6, rfl, by unfold hasReached; decide⟩⟩,
  ⟨c1, 2, .copy, { dc 0x200000010 (stw fun w => { w with s := [(2, 5), (3, 7)] }) with contexts := [(0, ⟨⟨7, 0, 0, 0, 0, 0, 0, 0, 0, 1⟩, [], []⟩)] }, run0, 5, 5, 7, 0x200000010, ⟨by decide, by decide⟩, by decide, rfl, by decide, by unfold hasReached; decide, by unfold hasReached; decide, by decide, ⟨by decide, by decide⟩⟩,
  ⟨c1, 2, .copy, dc 0x200000010 (stw fun w => { w with s := [(2, 5), (3, 7)] }), run0, 5, 5, 7, 0x200000010, ⟨by decide, by decide⟩, by decide, rfl, by decide, by unfold hasReached; decide, by unfold hasReached; decide, by decide⟩,
  ⟨c1, 255, .inflight, rays 1, run0, 5, ⟨by decide, by decide⟩, steady _ _ (by decide)⟩,
  ⟨c1, rays 3, run0, 5, ⟨by decide, by decide⟩, steady _ _ (by decide), ⟨(7, ry id), by decide, rfl, rfl⟩⟩,
  ⟨c1, { st w0 with rays := [(8, ry fun r => { r with cohort := 3 })] }, run0, 5, ⟨by decide, by decide⟩, steady _ _ (by decide), by decide⟩⟩

/-- Cluster 0 with banks in the modes of a list, and queues. -/
def cl0 (m : List (Nat × BitVec 2)) (q : AMap FQueue) (s : State) : State := { s with clusters := [(0, { s.cluster 0 with modes := m, queues := q })] }
/-- Context 0 in a partition of clusters 0 and 47. -/
def ctx0 : Ctx := ⟨⟨0, 0, 0, 0x1000, 0, 0, 0, 0, 0, 1⟩, [], []⟩
def part1 : Part := ⟨⟨[0, 47], 0x1000, 0, 2 ^ 30, [], none⟩, [], none, [], []⟩
def inP (s : State) : State := { s with contexts := [(0, ctx0)], parts := [(1, part1)] }
/-- A second wave of the group. -/
def w1 : Wave := { w0 with waveid := 1, slot := some 1 }
def st2 (f : Wave → Wave) : State := { st w0 with waves := [(0, f w0), (1, w1)], groups := [(1, { g0 with waves := 2 })] }
theorem witness_bankQueuePortWords :
  (∃ (c : Ctl) (a : SReg) (s : State) (run : Lanes) (pc : Word) (v b : Nat),
    (Runs s c run pc) ∧ (v = ((cw s).rs a).toNat) ∧ (b = v % 16) ∧ ((AMap.find (s.cluster (clusterNow s)).changing b = none) ∧ (v < 48) ∧ (v / 16 = (SMap.get (s.cluster (clusterNow s)).modes b).toNat))) ∧
  (∃ (c : Ctl) (a : SReg) (s : State) (run : Lanes) (pc : Word) (v b : Nat),
    (Runs s c run pc) ∧ (v = ((cw s).rs a).toNat) ∧ (b = v % 16) ∧ ((AMap.find (s.cluster (clusterNow s)).changing b = none) ∧ (v < 48) ∧ (v / 16 ≠ (SMap.get (s.cluster (clusterNow s)).modes b).toNat) ∧ ((SMap.get (s.cluster (clusterNow s)).modes b = 1 → s.bankAllocated (clusterNow s) b = false)) ∧ ((SMap.get (s.cluster (clusterNow s)).modes b = 2 → s.bankQueued (clusterNow s) b = false))) ∧ ((SMap.get (s.cluster (clusterNow s)).modes b = 0 → (s.cluster (clusterNow s)).cache = [])) ∧ (Steady s c.h.setf)) ∧
  (∃ (c : Ctl) (a : SReg) (s : State) (run : Lanes) (pc : Word) (v b : Nat),
    (Runs s c run pc) ∧ (v = ((cw s).rs a).toNat) ∧ (b = v % 16) ∧ ((AMap.find (s.cluster (clusterNow s)).changing b = none) ∧ (v < 48) ∧ (v / 16 ≠ (SMap.get (s.cluster (clusterNow s)).modes b).toNat) ∧ (((SMap.get (s.cluster (clusterNow s)).modes b = 1 ∧ s.bankAllocated (clusterNow s) b = true) ∨ (SMap.get (s.cluster (clusterNow s)).modes b = 2 ∧ s.bankQueued (clusterNow s) b = true))))) ∧
  (∃ (c : Ctl) (a : SReg) (s : State) (run : Lanes) (pc : Word) (v b : Nat),
    (Runs s c run pc) ∧ (v = ((cw s).rs a).toNat) ∧ (b = v % 16) ∧ ((AMap.find (s.cluster (clusterNow s)).changing b = none) ∧ (48 ≤ v)) ∧ (Handled (cw s) run)) ∧
  (∃ (c : Ctl) (a : SReg) (s : State) (run : Lanes) (pc : Word) (v : Nat),
    (Runs s c run pc) ∧ (v = ((cw s).rs a).toNat) ∧ (v < 256) ∧ (IsFifo s (clusterNow s) v) ∧ (Steady s c.h.setf)) ∧
  (∃ (c : Ctl) (a : SReg) (s : State) (run : Lanes) (pc : Word) (v : Nat) (d : SReg),
    (Runs s c run pc) ∧ (v = ((cw s).rs a).toNat) ∧ (v < 256) ∧ (IsFifo s (clusterNow s) v) ∧ (Steady s c.h.setf)) ∧
  (∃ (c : Ctl) (a : SReg) (s : State) (run : Lanes) (pc : Word) (v : Nat) (i : Instr),
    (Runs s c run pc) ∧ (v = ((cw s).rs a).toNat) ∧ (v < 256) ∧ (¬ IsFifo s (clusterNow s) v) ∧ (i = .fpush c a ∨ (∃ d, i = .fpop c d a))) ∧
  (∃ (c : Ctl) (a : SReg) (s : State) (run : Lanes) (pc : Word) (v : Nat) (i : Instr),
    (Runs s c run pc) ∧ (v = ((cw s).rs a).toNat) ∧ (256 ≤ v) ∧ (Handled (cw s) run) ∧ (i = .fpush c a ∨ (∃ d, i = .fpop c d a))) ∧
  (∃ (c : Ctl) (p : Port) (a : SReg) (s : State) (run : Lanes) (pc tgt hdr : Word) (v : Nat),
    (Runs s c run pc) ∧ (v = ((cw s).rs a).toNat) ∧ ((tgt = SMap.get (cw s).s (a.toNat + 1)) ∧ (hdr = SMap.get (cw s).s (a.toNat + 2)) ∧ (((cw s).port p.toNat).mode = 0) ∧ (tgt.toNat < 2 ^ 14) ∧ (tgt.toNat / 2 ^ 8 % 16 ≤ 11)) ∧ (Steady s c.h.setf) ∧ (v = 0) ∧ (hdr = 0)) ∧
  (∃ (c : Ctl) (p : Port) (a : SReg) (s : State) (run : Lanes) (pc tgt hdr : Word) (v : Nat),
    (Runs s c run pc) ∧ (v = ((cw s).rs a).toNat) ∧ ((tgt = SMap.get (cw s).s (a.toNat + 1)) ∧ (hdr = SMap.get (cw s).s (a.toNat + 2)) ∧ (((cw s).port p.toNat).mode = 0) ∧ (tgt.toNat < 2 ^ 14) ∧ (tgt.toNat / 2 ^ 8 % 16 ≤ 11)) ∧ (Steady s c.h.setf) ∧ (v = 2) ∧ (hdr = 0) ∧ (inPartition s (targetCluster tgt)) ∧ (IsFifo s (targetCluster tgt) (targetQueue tgt))) ∧
  (∃ (c : Ctl) (p : Port) (a : SReg) (s : State) (run : Lanes) (pc tgt hdr : Word) (v : Nat),
    (Runs s c run pc) ∧ (v = ((cw s).rs a).toNat) ∧ ((tgt = SMap.get (cw s).s (a.toNat + 1)) ∧ (hdr = SMap.get (cw s).s (a.toNat + 2)) ∧ (((cw s).port p.toNat).mode = 0) ∧ (tgt.toNat < 2 ^ 14) ∧ (tgt.toNat / 2 ^ 8 % 16 ≤ 11)) ∧ (Steady s c.h.setf) ∧ ((v % 4 = 1) ∧ (0 < v / 4) ∧ (v < 256)) ∧ (inPartition s (targetCluster tgt)) ∧ (IsFifo s (targetCluster tgt) (targetQueue tgt)) ∧ ((s.queue (targetCluster tgt) (targetQueue tgt)).reserved + v / 4 ≤ 768)) ∧
  (∃ (c : Ctl) (p : Port) (a : SReg) (s : State) (run : Lanes) (pc tgt hdr : Word) (v : Nat),
    (Runs s c run pc) ∧ (v = ((cw s).rs a).toNat) ∧ ((tgt = SMap.get (cw s).s (a.toNat + 1)) ∧ (hdr = SMap.get (cw s).s (a.toNat + 2)) ∧ (((cw s).port p.toNat).mode = 0) ∧ (tgt.toNat < 2 ^ 14) ∧ (tgt.toNat / 2 ^ 8 % 16 ≤ 11)) ∧ (Steady s c.h.setf) ∧ ((v = 2 ∧ hdr = 0 ∨ v % 4 = 1 ∧ 0 < v / 4 ∧ v < 256)) ∧ ((¬ inPartition s (targetCluster tgt) ∨ ¬ IsFifo s (targetCluster tgt) (targetQueue tgt)))) ∧
  (∃ (c : Ctl) (p : Port) (a : SReg) (s : State) (run : Lanes) (pc tgt hdr : Word) (v : Nat),
    (Runs s c run pc) ∧ (v = ((cw s).rs a).toNat) ∧ ((tgt = SMap.get (cw s).s (a.toNat + 1)) ∧ (hdr = SMap.get (cw s).s (a.toNat + 2)) ∧ (((cw s).port p.toNat).mode = 0) ∧ (tgt.toNat < 2 ^ 14) ∧ (tgt.toNat / 2 ^ 8 % 16 ≤ 11)) ∧ (Steady s c.h.setf) ∧ (v % 4 = 3) ∧ (Handled (cw s) run)) ∧
  (∃ (c : Ctl) (b : BitVec 4) (s r : State) (run : Lanes) (pc : Word),
    (Runs s c run pc) ∧ (r = s.releaseAll s.cur .cohort) ∧ ((∃ e ∈ r.cohortWaves (r.cohortOf r.cur), e.1 ≠ r.cur ∧ e.2 = r.wave e.1 ∧ e.2.arrivals.getLsbD b.toNat = false))) ∧
  (∃ (c : Ctl) (b : BitVec 4) (s r : State) (run : Lanes) (pc : Word),
    (Runs s c run pc) ∧ (r = s.releaseAll s.cur .cohort) ∧ ((r.cohortWaves (r.cohortOf r.cur) = [(r.cur, cw r)]) ∧ ((cw r).slot.isSome) ∧ ((cw r).sleepers = []))) ∧
  (∃ (c : Ctl) (b : BitVec 4) (s : State) (run : Lanes) (pc : Word),
    (Runs s c run pc) ∧ ((cw s).arrivals.getLsbD b.toNat = true)) ∧
  (∃ (c : Ctl) (b : BitVec 4) (s : State) (run : Lanes) (pc : Word),
    (Runs s c run pc) ∧ ((cw s).arrivals.getLsbD b.toNat = false)) :=
  ⟨⟨c1, 2, cl0 [(3, 1)] [] (stw fun w => { w with s := [(2, 0x13)] }), run0, 5, 0x13, 3, ⟨by decide, by decide⟩, rfl, rfl, by decide⟩,
  ⟨c1, 2, cl0 [(3, 1)] [] (stw fun w => { w with s := [(2, 0x2F)] }), run0, 5, 0x2F, 15, ⟨by decide, by decide⟩, rfl, rfl, by decide, fun _ => rfl, steady _ _ (by decide)⟩,
  ⟨c1, 2, cl0 [(0, 1)] [] (stw fun w => { w with s := [(2, 0x20)] }), run0, 5, 0x20, 0, ⟨by decide, by decide⟩, rfl, rfl, by decide⟩,
  ⟨c1, 2, stw fun w => { w with s := [(2, 48)] }, run0, 5, 48, 0, ⟨by decide, by decide⟩, rfl, rfl, by decide, ⟨by decide, by decide⟩⟩,
  ⟨c1, 2, cl0 [(15, 2)] [] (stw fun w => { w with s := [(2, 0xFF), (3, 7), (10, 8)] }), run0, 5, 255, ⟨by decide, by decide⟩, rfl, by decide, by unfold IsFifo; decide, steady _ _ (by decide)⟩,
  ⟨c1, 2, cl0 [(15, 2)] [] (stw fun w => { w with s := [(2, 0xFF), (3, 7), (10, 8)] }), run0, 5, 255, 248, ⟨by decide, by decide⟩, rfl, by decide, by unfold IsFifo; decide, steady _ _ (by decide)⟩,
  ⟨c1, 2, stw fun w => { w with s := [(2, 0xFF), (3, 7), (10, 8)] }, run0, 5, 255, .fpush c1 2, ⟨by decide, by decide⟩, rfl, by decide, by unfold IsFifo; decide, .inl rfl⟩,
  ⟨c1, 2, stw fun w => { w with s := [(2, 0x100), (3, 7), (10, 8)] }, run0, 5, 256, .fpop c1 8 2, ⟨by decide, by decide⟩, rfl, by decide, ⟨by decide, by decide⟩, .inr ⟨8, rfl⟩⟩,
  ⟨c1, 3, 2, stw fun w => { w with s := [(3, 0x3B10)] }, run0, 5, 0x3B10, 0, 0, ⟨by decide, by decide⟩, rfl, by decide, steady _ _ (by decide), rfl, by decide⟩,
  ⟨c1, 15, 2, inP (cl0 [(1, 2)] [] (stw fun w => { w with s := [(2, 2), (3, 0x10)] })), run0, 5, 0x10, 0, 2, ⟨by decide, by decide⟩, rfl, by decide, steady _ _ (by decide), rfl, by decide, ⟨_, _, rfl, rfl, by decide⟩, by unfold IsFifo; decide⟩,
  ⟨c1, 0, 2, inP (cl0 [(1, 2)] [(0x10, ⟨[], [], [], [⟨3, 9, 2, 705, 0, false, none⟩]⟩)] (stw fun w => { w with s := [(2, 0xFD), (3, 0x10), (4, 0x77)] })), run0, 5, 0x10, 0x77, 0xFD, ⟨by decide, by decide⟩, rfl, by decide, steady _ _ (by decide), by decide, ⟨_, _, rfl, rfl, by decide⟩, by unfold IsFifo; decide, by decide⟩,
  ⟨c1, 0, 2, inP (stw fun w => { w with s := [(2, 5), (3, 0x10), (4, 0x77)] }), run0, 5, 0x10, 0x77, 5, ⟨by decide, by decide⟩, rfl, by decide, steady _ _ (by decide), by decide, .inr (by unfold IsFifo; decide)⟩,
  ⟨c1, 0, 2, stw fun w => { w with s := [(2, 3), (3, 0x10), (4, 0x77)] }, run0, 5, 0x10, 0x77, 3, ⟨by decide, by decide⟩, rfl, by decide, steady _ _ (by decide), by decide, ⟨by decide, by decide⟩⟩,
  ⟨c1, 15, st2 id, st2 id, run0, 5, ⟨by decide, by decide⟩, rfl, ⟨(1, w1), by decide, by decide, by decide, by decide⟩⟩,
  ⟨c1, 15, st w0, st w0, run0, 5, ⟨by decide, by decide⟩, rfl, by decide⟩,
  ⟨c1, 15, st2 fun w => { w with arrivals := 0x8000 }, run0, 5, ⟨by decide, by decide⟩, by decide⟩,
  ⟨c1, 15, st2 id, run0, 5, ⟨by decide, by decide⟩, by decide⟩⟩

/-- Tables that map the first GiB to itself at both stages, and more bytes after them. -/
def pt (l : Memory) : Memory := [(0x1000, 0x01), (0x1001, 0x20), (0x2000, 0x01), (0x2001, 0x30), (0x3000, 0x6F), (0x3001, 0x0C)] ++ l
/-- The same machine with those tables and its context. -/
def vm (l : Memory) (s : State) : State := inP { s with mem := pt l }
/-- A kernel descriptor at 0x24000. -/
def kd0 : Memory := [(0x24002, 4), (0x2400C, 2), (0x2400D, 1), (0x24010, 1)]
def lw (l : List (Nat × Word)) (s : State) : State := { s with waves := [(0, { w0 with s := l })] }
def kd1 : KDesc := { KDesc.blank with code := 0x40000, trapvec := 0, waves := 2 }
/-- Queue tables with queue 2 of packets and queue 3 of tasks, each of four slots. -/
def qt (l : Memory) : Memory := [(0x8000, 7), (0x8002, 1), (0x10000, 7), (0x10001, 0x80), (0x10002, 1)] ++ l
def q2 : Memory := [(0x18100, 2), (0x18102, 2), (0x18118, 1), (0x1811A, 0xFF)]
def q3 (n : Byte) : Memory := [(0x18180, 2), (0x18182, 2), (0x18190, n), (0x18198, 0x81)]
def qm (l : Memory) (s : State) : State := { vm (qt l) s with dies := [(0, { DieSt.blank with qroot := 0x8000 })] }
def tw : List (Nat × Word) := [(16, 3), (17, 0x24000), (18, 0x30001), (19, 1), (29, 4)]
theorem witness_childAndTaskWords_10 :
  (∃ (c : Ctl) (d : SReg) (q : BitVec 4) (s : State) (run : Lanes) (pc : Word) (k : _) (hi : _),
    (Runs s c run pc) ∧ (Steady s c.h.setf) ∧ (((s.cohort (cohortNow s)).task = some k) ∧ (hi = (if k.cur.toNat < k.hi.toNat then min (k.cur.toNat + k.grain.toNat) k.hi.toNat else k.cur.toNat)))) :=
  ⟨c1, 254, 15, tl (fun c => { c with task := some ⟨7, 0xFFFFFFFF, 0xFFFFFFFF⟩ }) id, run0, 5, ⟨7, 0xFFFFFFFF, 0xFFFFFFFF⟩, 0xFFFFFFFF, ⟨by decide, by decide⟩, steady _ _ (by decide +kernel), by decide +kernel⟩

theorem witness_childAndTaskWords_9 :
  (∃ (c : Ctl) (d : SReg) (q : BitVec 4) (s : State) (run : Lanes) (pc : Word),
    (Runs s c run pc) ∧ (Steady s c.h.setf) ∧ ((s.cohort (cohortNow s)).task = none)) :=
  ⟨c1, 254, 15, st w0, run0, 5, ⟨by decide, by decide⟩, steady _ _ (by decide +kernel), by decide +kernel⟩

theorem witness_childAndTaskWords_8 :
  (∃ (c : Ctl) (d a : SReg) (s s1 : State) (run : Lanes) (pc : Word) (v n key pa : Nat) (qc : Qcb),
    (Runs s c run pc) ∧ (v = ((cw s).rs a).toNat) ∧ (v < 2 ^ 13) ∧ (n = v / 2 ^ 8) ∧ ((1 ≤ n) ∧ (n ≤ 16)) ∧ (key = 2 ^ 28 * ((cw s).core / 144) + 256 * (cw s).pasid.toNat + v % 256) ∧ (s.findQueue key = (.qcb pa, s1)) ∧ (qc = s1.readQcb pa) ∧ ((qc.kind = true ∨ qc.err = true))) :=
  ⟨c1, 250, 2, qm (q3 0) (lw [(2, 0x103)] (st w0)), _, run0, 5, 0x103, 1, 3, 0x18180, _, ⟨by decide, by decide⟩, rfl, by decide +kernel, rfl, by decide +kernel, rfl, eq_pair (by decide +kernel), rfl, .inl (by decide)⟩

theorem witness_childAndTaskWords_7 :
  (∃ (c : Ctl) (d a : SReg) (s s1 : State) (run : Lanes) (pc : Word) (v n key pa : Nat) (qc : Qcb),
    (Runs s c run pc) ∧ (v = ((cw s).rs a).toNat) ∧ (v < 2 ^ 13) ∧ (n = v / 2 ^ 8) ∧ ((1 ≤ n) ∧ (n ≤ 16)) ∧ (key = 2 ^ 28 * ((cw s).core / 144) + 256 * (cw s).pasid.toNat + v % 256) ∧ (s.findQueue key = (.qcb pa, s1)) ∧ (qc = s1.readQcb pa) ∧ ((qc.kind = false) ∧ (qc.err = false) ∧ (2 ^ qc.log2n < (qc.wridx + n + 2 ^ 64 - qc.rdidx) % 2 ^ 64))) :=
  ⟨c1, 250, 2, qm q2 (lw [(2, 0x502)] (st w0)), _, run0, 5, 0x502, 5, 2, 0x18100, _, ⟨by decide, by decide⟩, rfl, by decide +kernel, rfl, by decide +kernel, rfl, eq_pair (by decide +kernel), rfl, by decide +kernel⟩

theorem witness_childAndTaskWords_6 :
  (∃ (c : Ctl) (d a : SReg) (s s1 : State) (run : Lanes) (pc : Word) (v n key pa : Nat) (qc : Qcb),
    (Runs s c run pc) ∧ (v = ((cw s).rs a).toNat) ∧ (v < 2 ^ 13) ∧ (n = v / 2 ^ 8) ∧ ((1 ≤ n) ∧ (n ≤ 16)) ∧ (key = 2 ^ 28 * ((cw s).core / 144) + 256 * (cw s).pasid.toNat + v % 256) ∧ (s.findQueue key = (.qcb pa, s1)) ∧ (qc = s1.readQcb pa) ∧ ((qc.kind = false) ∧ (qc.err = false) ∧ ((qc.wridx + n + 2 ^ 64 - qc.rdidx) % 2 ^ 64 ≤ 2 ^ qc.log2n))) :=
  ⟨c1, 250, 2, qm q2 (lw [(2, 0x402)] (st w0)), _, run0, 5, 0x402, 4, 2, 0x18100, _, ⟨by decide, by decide⟩, rfl, by decide +kernel, rfl, by decide +kernel, rfl, eq_pair (by decide +kernel), rfl, by decide +kernel⟩

theorem witness_childAndTaskWords_5 :
  (∃ (c : Ctl) (a : SReg) (s s1 : State) (run : Lanes) (pc : Word) (p : Nat → Nat) (x : Nat → Word) (key pa : Nat) (qc : Qcb),
    (Runs s c run pc) ∧ (x = (fun k => SMap.get (cw s).s (a.toNat + k))) ∧ (p = (fun k => (x k).toNat)) ∧ ((p 0 < 256) ∧ (p 14 = 0) ∧ (p 15 = 0) ∧ (p 16 = 0) ∧ (p 2 / 2 ^ 21 = 0) ∧ (p 2 / 4 % 64 = 0) ∧ (1 ≤ p 2 / 2 ^ 16 % 32) ∧ (p 2 / 2 ^ 16 % 32 ≤ 16) ∧ ((p 2 % 4 = 0 ∨ p 2 % 4 = 1 ∧ p 13 ≠ 0))) ∧ (key = 2 ^ 28 * ((cw s).core / 144) + 256 * (cw s).pasid.toNat + p 0) ∧ (s.findQueue key = (.qcb pa, s1)) ∧ (qc = s1.readQcb pa) ∧ (qc.kind = false)) :=
  ⟨c1, 16, qm q2 (lw ((16, 2) :: tw.tail) (st w0)), _, run0, 5, _, _, 2, 0x18100, _, ⟨by decide, by decide⟩, rfl, rfl, by decide +kernel, rfl, eq_pair (by decide +kernel), rfl, by decide +kernel⟩

theorem witness_childAndTaskWords_4 :
  (∃ (c : Ctl) (a : SReg) (s s1 : State) (run : Lanes) (pc : Word) (p : Nat → Nat) (x : Nat → Word) (key pa : Nat) (qc : Qcb),
    (Runs s c run pc) ∧ (x = (fun k => SMap.get (cw s).s (a.toNat + k))) ∧ (p = (fun k => (x k).toNat)) ∧ ((p 0 < 256) ∧ (p 14 = 0) ∧ (p 15 = 0) ∧ (p 16 = 0) ∧ (p 2 / 2 ^ 21 = 0) ∧ (p 2 / 4 % 64 = 0) ∧ (1 ≤ p 2 / 2 ^ 16 % 32) ∧ (p 2 / 2 ^ 16 % 32 ≤ 16) ∧ ((p 2 % 4 = 0 ∨ p 2 % 4 = 1 ∧ p 13 ≠ 0))) ∧ (key = 2 ^ 28 * ((cw s).core / 144) + 256 * (cw s).pasid.toNat + p 0) ∧ (s.findQueue key = (.qcb pa, s1)) ∧ (qc = s1.readQcb pa) ∧ ((qc.kind = true) ∧ (2 ^ qc.log2n < (qc.wridx + 1 + 2 ^ 64 - qc.rdidx) % 2 ^ 64))) :=
  ⟨c1, 16, qm (q3 4) (lw tw (st w0)), _, run0, 5, _, _, 3, 0x18180, _, ⟨by decide, by decide⟩, rfl, rfl, by decide +kernel, rfl, eq_pair (by decide +kernel), rfl, by decide +kernel⟩

theorem witness_childAndTaskWords_3 :
  (∃ (c : Ctl) (a : SReg) (s s1 : State) (run : Lanes) (pc : Word) (p : Nat → Nat) (x : Nat → Word) (key pa : Nat) (qc : Qcb) (r : _) (l : _) (s2 : _),
    (Runs s c run pc) ∧ (x = (fun k => SMap.get (cw s).s (a.toNat + k))) ∧ (p = (fun k => (x k).toNat)) ∧ ((p 0 < 256) ∧ (p 14 = 0) ∧ (p 15 = 0) ∧ (p 16 = 0) ∧ (p 2 / 2 ^ 21 = 0) ∧ (p 2 / 4 % 64 = 0) ∧ (1 ≤ p 2 / 2 ^ 16 % 32) ∧ (p 2 / 2 ^ 16 % 32 ≤ 16) ∧ ((p 2 % 4 = 0 ∨ p 2 % 4 = 1 ∧ p 13 ≠ 0))) ∧ (key = 2 ^ 28 * ((cw s).core / 144) + 256 * (cw s).pasid.toNat + p 0) ∧ (s.findQueue key = (.qcb pa, s1)) ∧ (qc = s1.readQcb pa) ∧ ((qc.kind = true) ∧ ((qc.wridx + 1 + 2 ^ 64 - qc.rdidx) % 2 ^ 64 ≤ 2 ^ qc.log2n)) ∧ (r = s1.releaseAll s.cur .device) ∧ (l = (r.launch (cw s).launch).lref) ∧ (r.feStores (cw s).pasid (qc.ring + 64 * (qc.wridx % 2 ^ qc.log2n)) [p 1 + 2 ^ 32 * p 2, p 3 + 2 ^ 32 * p 4, p 5 + 2 ^ 32 * p 6, p 7 + 2 ^ 32 * p 8, p 9 + 2 ^ 32 * p 10, p 11 + 2 ^ 32 * p 12, p 13 + 2 ^ 32 * (l.toNat % 2 ^ 32), l.toNat / 2 ^ 32] = (none, s2))) :=
  ⟨c1, 16, qm (q3 3) (lw tw (st w0)), _, run0, 5, _, _, 3, 0x18180, _, _, _, _, ⟨by decide, by decide⟩, rfl, rfl, by decide +kernel, rfl, eq_pair (by decide +kernel), rfl, by decide +kernel, rfl, rfl, none_pair (by decide +kernel)⟩

theorem witness_childAndTaskWords_2 :
  (∃ (c : Ctl) (a : SReg) (s s1 r : State) (run : Lanes) (pc : Word) (p : Nat → Nat) (k : KDesc) (addr : Nat) (child : Child) (i : _) (y : _),
    (Runs s c run pc) ∧ (p = (fun k => (SMap.get (cw s).s (a.toNat + k)).toNat)) ∧ (addr = p 0 + 2 ^ 32 * p 1) ∧ ((p 0 % 64 = 0) ∧ (p 1 < 2 ^ 25) ∧ (p 2 ≠ 0) ∧ (p 3 < 2 ^ 11) ∧ (p 4 % 8 = 0) ∧ (p 5 < 2 ^ 25)) ∧ (s.vet (cw s).pasid 0 addr 0 = (.ok k, s1)) ∧ (p 3 ≤ 64 * k.waves) ∧ (r = s1.releaseAll s.cur .device) ∧ ((child = ⟨(cw s).launch, p 2, p 3, p 4 + 2 ^ 32 * p 5, [6, 7, 8, 9, 10, 11, 12, 13].map fun k => SMap.get (cw s).s (a.toNat + k)⟩) ∧ (AMap.find r.windows i = some y) ∧ (y.die = (cw s).core / 144) ∧ (y.pasid = (cw s).pasid) ∧ (y.kdesc = addr) ∧ (r.windows.find? (fun e => decide (e.2.die = (cw s).core / 144 ∧ e.2.pasid = (cw s).pasid ∧ e.2.kdesc = addr)) = some (i, y)) ∧ (y.children.length < 4095))) :=
  ⟨c1, 16, { vm kd0 (lw [(16, 0x24000), (18, 1), (19, 128), (20, 8), (22, 3), (29, 4)] (st w0)) with windows := [(1, ⟨0, 0, 0x24000, kd1, 0, 2048, [⟨1, 1, 1, 0, []⟩]⟩)] }, _, _, run0, 5, _, _, 0x24000, ⟨1, 1, 128, 8, [3, 0, 0, 0, 0, 0, 0, 4]⟩, 1, ⟨0, 0, 0x24000, kd1, 0, 2048, [⟨1, 1, 1, 0, []⟩]⟩, ⟨by decide, by decide⟩, rfl, rfl, by decide +kernel, is_ok (by decide +kernel), by decide +kernel, rfl, by decide +kernel⟩

theorem witness_childAndTaskWords_1 :
  (∃ (c : Ctl) (a : SReg) (s s1 r : State) (run : Lanes) (pc : Word) (p : Nat → Nat) (k : KDesc) (addr : Nat) (child : Child),
    (Runs s c run pc) ∧ (p = (fun k => (SMap.get (cw s).s (a.toNat + k)).toNat)) ∧ (addr = p 0 + 2 ^ 32 * p 1) ∧ ((p 0 % 64 = 0) ∧ (p 1 < 2 ^ 25) ∧ (p 2 ≠ 0) ∧ (p 3 < 2 ^ 11) ∧ (p 4 % 8 = 0) ∧ (p 5 < 2 ^ 25)) ∧ (s.vet (cw s).pasid 0 addr 0 = (.ok k, s1)) ∧ (p 3 ≤ 64 * k.waves) ∧ (r = s1.releaseAll s.cur .device) ∧ ((child = ⟨(cw s).launch, p 2, p 3, p 4 + 2 ^ 32 * p 5, [6, 7, 8, 9, 10, 11, 12, 13].map fun k => SMap.get (cw s).s (a.toNat + k)⟩) ∧ ((∀ e ∈ r.windows, ¬(e.2.die = (cw s).core / 144 ∧ e.2.pasid = (cw s).pasid ∧ e.2.kdesc = addr))))) :=
  ⟨c1, 16, vm kd0 (lw [(16, 0x24000), (18, 1), (19, 128), (20, 8), (22, 3), (29, 4)] (st w0)), _, _, run0, 5, _, _, 0x24000, ⟨1, 1, 128, 8, [3, 0, 0, 0, 0, 0, 0, 4]⟩, ⟨by decide, by decide⟩, rfl, rfl, by decide +kernel, is_ok (by decide +kernel), by decide +kernel, rfl, by decide +kernel⟩

def ln (f : Launch → Launch) (s : State) : State := { s with launches := [(1, f Launch.blank), (2, Launch.blank)] }
/-- A work graph of two nodes and four slots, launched as launch 2; launch 1 is a batch of its node 1. -/
def gn (f : GNode → GNode) : GNode := f ⟨3, 4, 0, 0, 0, 0, 1, 0, KDesc.blank⟩
def gr (f : Graph → Graph) : Graph := f ⟨2, 0, 0x200000, 4, 0, false, [], [gn id, gn fun n => { n with reserve := 2 }], [(0, ⟨1, none, some 0, some 1⟩)], 1, [], [], 0⟩
def gs (f : Graph → Graph) (w : Wave) : State := { ln (fun l => { l with kind := .batch 9 1 [(0, 0)] }) (st w) with graphs := [(9, gr f)] }
def gsl : Graph → Graph := fun y => { y with slots := [(0, ⟨1, none, some 0, some 1⟩), (3, ⟨0, some 1, none, none⟩)] }
def gd (c : Nat) : Graph → Graph := fun y => { y with draw := true, nodes := [gn id, gn fun n => { n with nkind := 1, cls := c }], prims := 5 }
def tri0 : List (Nat × Word) := [(16, 0), (17, 0), (18, 0x41000000), (19, 0), (20, 0), (21, 0x41000000), (22, 1)]
/-- A wave of pixels of a block at an edge of the target. -/
def gx : Graph → Graph := fun y => { y with draw := true, targets := [⟨0x100000, 64, 16, 9⟩] }
def px0 : State := { ln (fun l => { l with kind := .pixel 4 1 1 }) (st (({ w0 with pixel := some 4 }).wv 7 0 0x11223344)) with graphs := [(9, gr gx)], prims := [(4, ⟨9, 1, 0, 0, [], [], [], true, 0, []⟩)] }
theorem witness_graphAndPixelWords :
  (∃ (c : Ctl) (s : State) (run : Lanes) (pc : Word),
    (Runs s c run pc) ∧ (((s.launch (cw s).launch).gate = none ∨ ∃ p, (s.launch (cw s).launch).gate = some p ∧ (AMap.find s.launches p = none ∨ (s.launch p).ngroups ≤ (s.launch p).releasedGroups)))) ∧
  (∃ (c : Ctl) (s : State) (run : Lanes) (pc : Word) (p : _),
    (Runs s c run pc) ∧ (((s.launch (cw s).launch).gate = some p) ∧ ((AMap.find s.launches p).isSome) ∧ ((s.launch p).releasedGroups < (s.launch p).ngroups))) ∧
  (∃ (c : Ctl) (s r : State) (run : Lanes) (pc : Word),
    (Runs s c run pc) ∧ (r = s.releaseAll s.cur .device) ∧ ((grp r).released = true)) ∧
  (∃ (c : Ctl) (s r : State) (run : Lanes) (pc : Word),
    (Runs s c run pc) ∧ (r = s.releaseAll s.cur .device) ∧ (((grp r).released = false) ∧ ((∀ e ∈ r.waves, ∀ z ∈ e.2.sleepers, z.wait ≠ .gate)))) ∧
  (∃ (c : Ctl) (d a : SReg) (s : State) (run : Lanes) (pc : Word) (v g : Nat) (y : Graph) (nd : GNode),
    (Runs s c run pc) ∧ (v = ((cw s).rs a).toNat) ∧ ((v < 256) ∧ (s.graphOf s.cur = some g) ∧ (AMap.find s.graphs g = some y) ∧ (y.nodes[v]? = some nd)) ∧ (Admits y v nd) ∧ (((∀ e ∈ y.waiters, e.1 ≠ v)) ∧ (y.slots.length < y.nslot)) ∧ (Steady s c.h.setf)) ∧
  (∃ (c : Ctl) (d a : SReg) (s : State) (run : Lanes) (pc : Word) (v g : Nat) (y : Graph) (nd : GNode),
    (Runs s c run pc) ∧ (v = ((cw s).rs a).toNat) ∧ ((v < 256) ∧ (s.graphOf s.cur = some g) ∧ (AMap.find s.graphs g = some y) ∧ (y.nodes[v]? = some nd)) ∧ ((¬ Admits y v nd ∨ ∃ e ∈ y.waiters, e.1 = v))) ∧
  (∃ (c : Ctl) (a : SReg) (s r : State) (run : Lanes) (pc : Word) (g k : Nat) (y : Graph) (sl : RecSlot) (nd : GNode) (ks : List Nat) (since : Nat),
    (Runs s c run pc) ∧ ((s.graphOf s.cur = some g) ∧ (AMap.find s.graphs g = some y)) ∧ (r = s.releaseAll s.cur .device) ∧ ((r.graphs = s.graphs) ∧ (AMap.find y.slots k = some sl) ∧ (sl.commit = none) ∧ ((SMap.get (cw s).s a.toNat).toNat + 2 ^ 32 * (SMap.get (cw s).s (a.toNat + 1)).toNat = y.pool + 256 * k) ∧ (y.nodes[sl.node]? = some nd)) ∧ ((AMap.find y.pending sl.node = some (ks, since) ∧ ks ≠ [] ∨ AMap.find y.pending sl.node = none ∧ ks = [] ∧ since = (r.die y.die).counter.toNat)) ∧ (ks.length + 1 < nd.batch)) ∧
  (∃ (c : Ctl) (a : SReg) (s r : State) (run : Lanes) (pc : Word) (p : Nat → Word) (g n cm slot : Nat) (y : Graph) (nd : GNode) (ks : List (Nat × Nat)) (tri : Tri),
    (Runs s c run pc) ∧ (p = (fun k => SMap.get (cw s).s (a.toNat + k))) ∧ (((s.launch (cw s).launch).kind = .batch g n ks) ∧ (AMap.find s.graphs g = some y) ∧ (y.draw = true) ∧ (y.nodes[n]? = some nd) ∧ (nd.nkind = 1) ∧ ((p 8).toNat < 64) ∧ (p 9 = 0) ∧ (ks[(p 8).toNat]? = some (slot, cm))) ∧ (r = s.releaseAll s.cur .device) ∧ ((r.graphs = s.graphs) ∧ (r.prims = s.prims) ∧ (triOf [p 0, p 1, p 2, p 3, p 4, p 5] = some tri) ∧ (tri.area ≠ 0))) ∧
  (∃ (c : Ctl) (a : SReg) (s r : State) (run : Lanes) (pc : Word) (p : Nat → Word) (g n cm slot : Nat) (y : Graph) (nd : GNode) (ks : List (Nat × Nat)) (tri : Tri),
    (Runs s c run pc) ∧ (p = (fun k => SMap.get (cw s).s (a.toNat + k))) ∧ (((s.launch (cw s).launch).kind = .batch g n ks) ∧ (AMap.find s.graphs g = some y) ∧ (y.draw = true) ∧ (y.nodes[n]? = some nd) ∧ (nd.nkind = 1) ∧ ((p 8).toNat < 64) ∧ (p 9 = 0) ∧ (ks[(p 8).toNat]? = some (slot, cm))) ∧ (r = s.releaseAll s.cur .device) ∧ ((r.graphs = s.graphs) ∧ (r.prims = s.prims)) ∧ ((triOf [p 0, p 1, p 2, p 3, p 4, p 5] = none ∨ triOf [p 0, p 1, p 2, p 3, p 4, p 5] = some tri ∧ tri.area = 0))) ∧
  (∃ (c : Ctl) (d : VReg) (tgt : BitVec 3) (s s1 : State) (run : Lanes) (pc : Word) (g prim bx by' : Nat) (y : Graph) (z : Target) (px : List (Nat × Nat)) (rs : List Resolved),
    (Runs s c run pc) ∧ (((s.launch (cw s).launch).kind = .pixel prim bx by') ∧ (s.graphOf s.cur = some g) ∧ (AMap.find s.graphs g = some y) ∧ (y.targets[tgt.toNat]? = some z) ∧ (z.width ≠ 0) ∧ (px = (((List.range 64).filter fun l => ((cw s).enabled run c).getLsbD l && decide (8 * bx + l % 8 < z.width ∧ 8 * by' + l / 8 < z.height)).map fun l => (l, z.base + z.pitch * (8 * by' + l / 8) + 4 * (8 * bx + l % 8))))) ∧ (s.resolveAll s.cur .global 4 .store false px = (rs, s1)) ∧ (AllResolve s1 rs) ∧ (Steady s1 c.h.setf)) :=
  ⟨⟨c1, ln (fun l => { l with gate := some 3 }) (st w0), run0, 5, ⟨by decide, by decide⟩, .inr ⟨3, rfl, .inl (by decide)⟩⟩,
  ⟨c1, ln (fun l => { l with gate := some 2 }) (st w0), run0, 5, 2, ⟨by decide, by decide⟩, by decide⟩,
  ⟨c1, stg fun g => { g with released := true }, stg fun g => { g with released := true }, run0, 5, ⟨by decide, by decide⟩, rfl, by decide⟩,
  ⟨c1, st w0, st w0, run0, 5, ⟨by decide, by decide⟩, rfl, by decide⟩,
  ⟨c1, 254, 2, gs id { w0 with s := [(2, 1)] }, run0, 5, 1, 9, gr id, gn fun n => { n with reserve := 2 }, ⟨by decide, by decide⟩, rfl, by decide, .inl (by decide), by decide, steady _ _ (by decide)⟩,
  ⟨c1, 254, 2, gs (fun y => { y with nslot := 2 }) w0, run0, 5, 0, 9, gr fun y => { y with nslot := 2 }, gn id, ⟨by decide, by decide⟩, rfl, by decide, .inl (by simp [Admits]; decide)⟩,
  ⟨c1, 2, gs gsl { w0 with s := [(2, 0x200300)] }, gs gsl { w0 with s := [(2, 0x200300)] }, run0, 5, 9, 3, gr gsl, ⟨0, some 1, none, none⟩, gn id, [], 0, ⟨by decide, by decide⟩, by decide, rfl, by decide, .inr (by decide), by decide⟩,
  ⟨c1, 16, gs (gd 1) { w0 with s := tri0 }, gs (gd 1) { w0 with s := tri0 }, run0, 5, _, 9, 1, 0, 0, gr (gd 1), gn fun n => { n with nkind := 1, cls := 1 }, [(0, 0)], ⟨0, 0, 2 ^ 152, 0, 0, 2 ^ 152⟩, ⟨by decide, by decide⟩, rfl, by decide, rfl, by decide⟩,
  ⟨c1, 16, gs (gd 1) { w0 with s := [(16, 0x3F800000)] }, gs (gd 1) { w0 with s := [(16, 0x3F800000)] }, run0, 5, _, 9, 1, 0, 0, gr (gd 1), gn fun n => { n with nkind := 1, cls := 1 }, [(0, 0)], ⟨2 ^ 149, 0, 0, 0, 0, 0⟩, ⟨by decide, by decide⟩, rfl, by decide, rfl, by decide, .inr (by decide)⟩,
  ⟨c1, 7, 0, px0, px0, run0, 5, 9, 4, 1, 1, gr gx, ⟨0x100000, 64, 16, 9⟩, [(0, 0x100220)], [⟨0, 0x100220, .ok (.mem 0x100220)⟩], ⟨by decide, by decide⟩, by decide, rfl, by simp [AllResolve]; decide, steady _ _ (by decide)⟩⟩

/-- A layout of two boxes and a leaf of one triangle in 128 bytes, and a node. -/
def lay0 : Layout := ⟨0x02080088, 0x1008800, 0, 0, [0x3000, 0x7020, 0, 0, 0, 0, 0, 0]⟩
def nb : List Byte := ([0xBF800000, 0xBF800000, 0x3F800000, 0x3F800000, 0x3F800000, 0x40000000, 0x100100, 0,
  0xBF800000, 0xBF800000, 0x3F000000, 0x3F800000, 0x3F800000, 0x40400000, 0x100200, 0, 0x101, 0xBF800000,
  0xBF800000, 0x40800000, 0x3F800000, 0xBF800000, 0x40800000, 0, 0x3F800000, 0x40800000, 7, 0, 0, 0, 0, 0] : List Nat).flatMap
  fun w => (List.range 4).map fun k => byteOf w k
def ry2 (f : Ray → Ray) : Ray := ry fun r => f { r with binding := some ⟨lay0, [0x08000000, 0x4A000009, 0, 0x58000000]⟩ }
def rs (f : Ray → Ray) : State := { st w0 with rays := [(7, ry2 f), (8, ry id)], curRay := 7 }
theorem witness_walkOperationsOnRay :
  (∃ (s : State) (r : Ray),
    (Walking s r)) :=
  ⟨rs id, ry2 id, by unfold Walking; decide⟩

/-- The core of the wave with its matrix engine, the group with a queue of commands, and the wave's operation. -/
def eng (e : Option (Nat × Nat)) (n : Nat) (q : List Cmd) (f : Group → Group) : State := { st (wf .command []) with
  groups := [(1, f { g0 with queue := q })], cores := [(0, { CoreSt.blank with tlb := [page 0x100], engine := e, cycle := n })] }
def cmd (op : BitVec 9) (fw : Word) (d : List Word) (sn : Option (SMap 8)) : Cmd := ⟨op, 2, 0, false, 0, 0, fw, 1, d, some 3, 4, [], none, sn, 0, none⟩
/-- The image of tile 2 lies in a page at 4 GiB that is mapped to DRAM, and has lost a piece. -/
def lostT : State := { eng none 100 [cmd 0x180 0x33 [0, 0, 32, 1] none] fun g => { g with away := 0x84 } with
  contexts := [(0, ⟨⟨0, 0, 0, 0x1000, 0, 0, 0, 0, 0, 1⟩, [], []⟩)], parts := [(1, ⟨⟨[0, 47], 0x1000, 0, 2 ^ 30, [], none⟩, [], none, [], []⟩)]
  mem := [(0x1000, 0x01), (0x1001, 0x20), (0x2000, 0x01), (0x2001, 0x30), (0x3000, 0x6F), (0x3001, 0x0C), (0x3020, 0x6F), (0x3021, 0x0C)]
  lost := [(0x24820040 / 64, (0, false))] }
theorem witness_matrixEngineEvents :
  (∃ (s : State) (core g k : Nat) (c : Cmd) (rest : List Cmd),
    (Serves s core g k c rest) ∧ (((s.core core).engine = none) ∧ (c.snap = none) ∧ ((s.group g).away = 0) ∧ (c.op ∈ [0x180, 0x181, 0x182, 0x183, 0x184, 0x185]) ∧ ((c.op ∈ [0x180, 0x181] → (blockStep (c.format.toNat % 16) (c.format.toNat / 16 % 16) (c.format.toNat / 256 % 16)).isSome)) ∧ ((∀ m ∈ c.marks, ∀ e ∈ (s.wave m.1).flights, m.2 ≤ e.1)) ∧ ((∀ e ∈ s.groups, ∀ j, e.2.core = core → e.2.slot = some j → e.2.queue ≠ [] → (k + 15 - (s.core core).lastSlot % 8) % 8 ≤ (j.toNat + 15 - (s.core core).lastSlot % 8) % 8 ∧ (j.toNat = k → e.1 = g))))) ∧
  (∃ (s u : State) (g : Nat) (n : BitVec 3) (c : Cmd) (rest : List Cmd),
    (((s.group g).queue = c :: rest) ∧ ((s.group g).away.getLsbD n.toNat = true) ∧ (c.acc = n) ∧ (c.op.toNat < 0x190)) ∧ (u = s.useImage (s.group g).pasid (groupImageOff (s.group g).image + 65536 * n.toNat) 65536 false) ∧ (s.lostTile g n.toNat = none)) ∧
  (∃ (s u : State) (g : Nat) (n : BitVec 3) (c : Cmd) (rest : List Cmd) (a : _),
    (((s.group g).queue = c :: rest) ∧ ((s.group g).away.getLsbD n.toNat = true) ∧ (c.acc = n) ∧ (c.op.toNat < 0x190)) ∧ (u = s.useImage (s.group g).pasid (groupImageOff (s.group g).image + 65536 * n.toNat) 65536 false) ∧ (s.lostTile g n.toNat = some a) ∧ ((s.launch (s.errLaunch (s.group g).launch)).error = none)) ∧
  (∃ (s : State) (core g k due o : Nat) (c : Cmd) (rest : List Cmd) (f : Flight),
    (Engaged s core g due c rest) ∧ ((s.group g).slot = some (BitVec.ofNat 3 k)) ∧ ((k < 8) ∧ (due ≤ (s.core core).cycle) ∧ (c.op = 0x182) ∧ (c.snap = some []) ∧ ((s.group g).report = none) ∧ (c.opId = some o) ∧ (c.req = none)) ∧ (At s c.wave o f) ∧ ((f.kind = .command) ∧ (f.accs = []))) ∧
  (∃ (s : State) (g w o : Nat) (to_ : PassTarget) (f : Flight),
    (((s.group g).pass = some to_) ∧ ((s.group g).queue = []) ∧ ((∀ e ∈ s.reqs, e.2.kind = .follow → e.2.group ≠ g)) ∧ ((s.group g).passOp = some (w, o))) ∧ (At s w o f) ∧ ((f.kind = .command) ∧ (f.accs = []))) :=
  ⟨⟨eng none 100 [cmd 0x180 0x33 [0, 0, 32, 1] none] id, 0, 1, 0, cmd 0x180 0x33 [0, 0, 32, 1] none, [], ⟨by decide, by decide, rfl, by decide, rfl, by decide⟩, by decide⟩,
  ⟨{ eng none 100 [cmd 0x180 0x33 [0, 0, 32, 1] none] fun g => { g with away := 0x84, acc := [(5, 7), (32768, 9)] } with mem := [(4097, 0x77)] }, _, 1, 2, cmd 0x180 0x33 [0, 0, 32, 1] none, [], by decide, rfl, by decide⟩,
  ⟨lostT, _, 1, 2, cmd 0x180 0x33 [0, 0, 32, 1] none, [], 0x124820040, by decide, rfl, by decide +kernel, by decide⟩,
  ⟨eng (some (1, 100)) 100 [cmd 0x182 0 [] (some [])] fun g => { g with acc := [(5, 7), (32768, 9)] }, 0, 1, 0, 100, 3, cmd 0x182 0 [] (some []), [], fl .command [], ⟨rfl, rfl⟩, rfl, by decide, at_of _ _ _ _ (by decide), by decide⟩,
  ⟨eng none 0 [] fun g => { g with pass := some (.wave 1), passOp := some (0, 3), baton := some 0 }, 1, 0, 3, .wave 1, fl .command [], by decide, at_of _ _ _ _ (by decide), by decide⟩⟩

def i8 (x : Word) (sn : Option (SMap 8)) : Cmd := cmd 0x180 x [0, 0x1000, 32, 0] sn
def i8s (x : Word) : State := { eng (some (1, 56)) 200 [i8 x (some [(0x2000, 0xFF), (0x2001, 2), (0x3000, 3), (0x3021, 0x80), (0x3FFF, 0x80)])] fun g => { g with acc := [(5, 7), (32768, 9)] } with clusters := [(0, { ClusterSt.blank with scratch := [(0x2000, 0xFF), (0x2001, 2), (0x3000, 3), (0x3021, 0x80), (0x3FFF, 0x80)] })] }
theorem witness_int8ProductIsExact :
  (∃ (s : State) (core g k due o n base : Nat) (c : Cmd) (rest : List Cmd) (f : Flight),
    (Engaged s core g due c rest) ∧ ((s.group g).slot = some (BitVec.ofNat 3 k)) ∧ ((k < 8) ∧ (due ≤ (s.core core).cycle) ∧ (c.op = 0x180)) ∧ ((c.format = 0xA55 ∨ c.format = 0x2A55)) ∧ ((c.step = 0) ∧ (c.bad = none)) ∧ (base = (s.group g).localbase.toNat) ∧ (((c.desc.getD 2 0).toNat = 32 * n) ∧ (c.snap = some (regionBytes (s.cluster (core / 12)).scratch (c.regions base))) ∧ ((s.group g).report = none) ∧ (c.opId = some o) ∧ (c.req = none)) ∧ (At s c.wave o f) ∧ ((f.kind = .command) ∧ (f.accs = []))) :=
  ⟨i8s 0xA55, 0, 1, 0, 56, 3, 1, 0x2000, i8 0xA55 (some [(0x2000, 0xFF), (0x2001, 2), (0x3000, 3), (0x3021, 0x80), (0x3FFF, 0x80)]), [], fl .command [], ⟨rfl, rfl⟩, rfl, by decide, .inl rfl, by decide, rfl, by decide, at_of _ _ _ _ (by decide), by decide⟩

def fd (sh : Word) : Cmd := cmd 0x1A3 0x300 [0x10, 0x10001, sh, 16] none
def kn (f : Node → Node) : Node := f { nd 8 none none 4 6 with param := [0x60004, 0x3F800001] }
/-- A live view of memory, which a held store touches. -/
def vw : Node := { nd 8 none none 2 2 with kind := 0, param := [0x100010, 0, 0x20002, 16, 8] }
theorem witness_demandEvents :
  (∃ (s u : State) (core g due cl base r0 c0 rows cols stride : Nat) (c : Cmd) (rest : List Cmd) (n : Node),
    (Engaged s core g due c rest) ∧ ((c.op = 0x1A3) ∧ (AMap.find (s.group g).nodes (c.format.toNat % 256) = some n) ∧ (n.kind = 1) ∧ (n.tag = 8) ∧ (n.kept = false) ∧ (n.prog = 0)) ∧ (cl = core / 12) ∧ (base = (s.group g).localbase.toNat) ∧ (((c.desc.getD 1 0).toNat = r0 + 65536 * c0) ∧ ((c.desc.getD 2 0).toNat = rows + 65536 * cols) ∧ (r0 < 128) ∧ (c0 < 128) ∧ (0 < rows) ∧ (0 < cols) ∧ (r0 + rows ≤ 128) ∧ (c0 + cols ≤ 128) ∧ (stride = (c.desc.getD 3 0).toNat) ∧ (4 * cols ≤ stride)) ∧ (u = s.sampleEngine core)) ∧
  (∃ (s : State) (core g k due o r0 c0 rows cols : Nat) (c : Cmd) (rest : List Cmd) (n : Node) (f : Flight),
    (Engaged s core g due c rest) ∧ ((c.op = 0x1A3) ∧ (AMap.find (s.group g).nodes (c.format.toNat % 256) = some n)) ∧ ((s.group g).slot = some (BitVec.ofNat 3 k)) ∧ ((k < 8) ∧ (n.prog = 1) ∧ ((c.desc.getD 1 0).toNat = r0 + 65536 * c0) ∧ ((c.desc.getD 2 0).toNat = rows + 65536 * cols) ∧ (r0 < 128) ∧ (c0 < 128) ∧ (0 < rows) ∧ (0 < cols) ∧ (r0 + rows ≤ 128) ∧ (c0 + cols ≤ 128) ∧ (1 < n.refs) ∧ (c.opId = some o) ∧ (c.req = none)) ∧ (At s c.wave o f) ∧ ((f.kind = .command) ∧ (f.accs = []))) ∧
  (∃ (s s1 : State) (w g v u : Nat) (n : Node),
    ((g = (s.wave w).group) ∧ ((s.wave w).captures = [v]) ∧ ((∀ e ∈ s.waves, e.2.group = g → e.2.flights = [])) ∧ (AMap.find (s.group g).nodes v = some n) ∧ ((s.group g).captureRoom n.units = some u)) ∧ (s.captureRows g n (256 * u) (upTo n.rows) = some s1)) :=
  ⟨⟨eng (some (1, 0)) 100 [fd 0x20003] fun g => { g with nodes := [(0, kn id), (4, kn id)] }, _, 0, 1, 0, 0, 0x2000, 1, 1, 3, 2, 16, fd 0x20003, [], kn id, ⟨rfl, rfl⟩, by decide, rfl, rfl, by decide, rfl⟩,
  ⟨eng (some (1, 0)) 100 [fd 0x20003] fun g => { g with nodes := [(0, kn fun n => { n with prog := 1, refs := 2 }), (4, kn id)] }, 0, 1, 0, 0, 3, 1, 1, 3, 2, fd 0x20003, [], kn fun n => { n with prog := 1, refs := 2 }, fl .command [], ⟨rfl, rfl⟩, by decide, rfl, by decide, at_of _ _ _ _ (by decide), by decide⟩,
  ⟨{ st { w0 with captures := [1] } with groups := [(1, { g0 with nodes := [(1, vw)], ranges := [(1, ⟨0x100010, 24, 1⟩)], tcfg := tc })], mem := [(0x100010, 7), (0x100021, 9)] }, _, 0, 1, 1, 1, vw, by decide, rfl⟩⟩

def qe (n : Word) (p : Option (Nat × Nat × Nat)) : QEntry := ⟨[n, n + 1, n + 2, n + 3, n + 4, n + 5, n + 6, n + 7], p⟩
def qs (q : FQueue) (w : Wave) : State := cl0 [(15, 2)] [(0xF0, FQueue.blank), (0xFF, q)] (st w)
def pw (b : Bool) : Wave := wz (.port .sub (.op (.n 3)) (.op (.s 2)) (.s 7) (if b then some 9 else none) (if b then none else some 4)) true none
def cw1 (f : Option Word) : Wave := { w0 with ports := [(3, ⟨1, 2, 1, f, 0xFF, 0x77, 5⟩)] }
theorem witness_bankAndQueueEvents_6 :
  (∃ (s : State) (w cl qw : Nat) (p : BitVec 3) (r : QResv) (ps : PortSt),
    ((s.owing w p.toNat = some (cl, qw)) ∧ (s.linkOpen (cl / 12) ((s.wave w).core / 144) = true) ∧ ((s.queue cl qw).resv = [r]) ∧ (r.wave = w) ∧ (r.port = p.toNat) ∧ (0 < r.owed) ∧ (r.closing = false) ∧ ((s.wave w).slot.isSome) ∧ (ps = (s.wave w).port p.toNat))) :=
  ⟨qs ⟨[], [], [], [⟨5, 0, 3, 2, 1, false, none⟩]⟩ (cw1 (some 5)), 0, 0, 0xFF, 3, ⟨5, 0, 3, 2, 1, false, none⟩, ⟨1, 2, 1, some 5, 0xFF, 0x77, 5⟩, by decide +kernel⟩

theorem witness_bankAndQueueEvents_5 :
  (∃ (s : State) (cl w order : Nat) (qw : BitVec 8) (second : Bool) (q : FQueue) (e : QEntry) (es : List QEntry) (ts : List QTaker) (z : Sleeper) (g : SAlu) (a b : SSrc) (d : SReg) (va vb : Option Word) (x : Word),
    (q = s.queue cl qw.toNat) ∧ ((q.entries = e :: es) ∧ (q.takers = .read w order second :: ts) ∧ ((∀ r ∈ q.resv, r.closing = false)) ∧ ((s.wave w).slot.isSome) ∧ ((s.wave w).sleepers = [z]) ∧ (z.order = order) ∧ (z.entry = true) ∧ (z.wait = .port g a b (.s d) va vb) ∧ ((if second then va else vb) = some x))) :=
  ⟨qs ⟨[qe 8 (some (9, 1, 3))], [], [.read 0 0 false], [⟨3, 9, 1, 67, 0, false, none⟩]⟩ (pw false), 0, 0, 0, 0xFF, false, ⟨[qe 8 (some (9, 1, 3))], [], [.read 0 0 false], [⟨3, 9, 1, 67, 0, false, none⟩]⟩, qe 8 (some (9, 1, 3)), [], [], zz (.port .sub (.op (.n 3)) (.op (.s 2)) (.s 7) none (some 4)) true none, .sub, .op (.n 3), .op (.s 2), 7, none, some 4, 4, rfl, by decide +kernel⟩

theorem witness_bankAndQueueEvents_4 :
  (∃ (s : State) (cl w o : Nat) (qw : BitVec 8) (d : SReg) (q : FQueue) (e : QEntry) (es : List QEntry) (ts : List QTaker) (f : Flight),
    (q = s.queue cl qw.toNat) ∧ ((q.entries = e :: es) ∧ (q.takers = .pop w o d :: ts) ∧ ((∀ r ∈ q.resv, r.closing = false)) ∧ (e.port = none) ∧ (e.words.length = 8)) ∧ (At s w o f) ∧ ((f.kind = .command) ∧ (f.accs = []))) :=
  ⟨qs ⟨[qe 8 none, qe 1 none], [], [.pop 0 3 247, .pop 5 3 2], []⟩ (wf .command []), 0, 0, 3, 0xFF, 247, ⟨[qe 8 none, qe 1 none], [], [.pop 0 3 247, .pop 5 3 2], []⟩, qe 8 none, [qe 1 none], [.pop 5 3 2], fl .command [], rfl, by decide +kernel, at_of _ _ _ _ (by decide), by decide +kernel⟩

theorem witness_bankAndQueueEvents_3 :
  (∃ (s : State) (cl : Nat) (qw : BitVec 8) (q : FQueue) (p : QPush) (ps : List QPush) (w : _) (k : _) (n : _),
    (q = s.queue cl qw.toNat) ∧ ((q.pushes = p :: ps) ∧ (p.entry.port = some (w, k, n)) ∧ (p.op = none) ∧ (s.linkOpen ((s.wave w).core / 144) (cl / 12) = true))) :=
  ⟨qs ⟨[], [⟨qe 8 (some (0, 2, 3)), none⟩], [], [⟨3, 0, 2, 3, 0, false, none⟩]⟩ w0, 0, 0xFF, ⟨[], [⟨qe 8 (some (0, 2, 3)), none⟩], [], [⟨3, 0, 2, 3, 0, false, none⟩]⟩, ⟨qe 8 (some (0, 2, 3)), none⟩, [], 0, 2, 3, rfl, by decide +kernel⟩

theorem witness_bankAndQueueEvents_2 :
  (∃ (s : State) (cl : Nat) (qw : BitVec 8) (q : FQueue) (p : QPush) (ps : List QPush) (w : _) (o : _) (f : _),
    (q = s.queue cl qw.toNat) ∧ ((q.pushes = p :: ps) ∧ (p.entry.port = none) ∧ (p.op = some (w, o))) ∧ (At s w o f) ∧ ((f.kind = .command) ∧ (f.accs = []) ∧ (q.entries.countP (fun e => decide (e.port = none)) + (q.resv.map fun r => r.cred).sum < 768))) :=
  ⟨qs ⟨List.replicate 700 (qe 1 none), [⟨qe 8 none, some (0, 3)⟩, ⟨qe 9 none, none⟩], [], [⟨3, 9, 1, 67, 0, false, none⟩]⟩ (wf .command []), 0, 0xFF, ⟨List.replicate 700 (qe 1 none), [⟨qe 8 none, some (0, 3)⟩, ⟨qe 9 none, none⟩], [], [⟨3, 9, 1, 67, 0, false, none⟩]⟩, ⟨qe 8 none, some (0, 3)⟩, [⟨qe 9 none, none⟩], 0, 3, fl .command [], rfl, by decide +kernel, at_of _ _ _ _ (by decide), by decide +kernel⟩

theorem witness_bankAndQueueEvents_1 :
  (∃ (s : State) (cl w o : Nat) (b : BitVec 4) (m : BitVec 2) (f : Flight),
    (AMap.find (s.cluster cl).changing b.toNat = some (m, w, o)) ∧ (At s w o f) ∧ ((f.kind = .command) ∧ (f.accs = []))) :=
  ⟨{ st (wf .command []) with clusters := [(0, { ClusterSt.blank with modes := [(3, 1), (4, 2)], changing := [(3, (2, 0, 3)), (5, (1, 9, 9))], scratch := [(5, 1), (0x120000, 2), (0x180000, 3)], queues := [(0x31, ⟨[⟨[1], none⟩], [], [], []⟩), (0x41, ⟨[⟨[1], none⟩], [], [], []⟩)] })] }, 0, 0, 3, 3, 2, fl .command [], by decide +kernel, at_of _ _ _ _ (by decide), by decide +kernel⟩

/-- A copy of two rows of four bytes in the local space. -/
def cp (k : ReqKind) (l : List Word) : Req := rq k .copy 1 ([0x10, 0, 0x40, 0, 4, 0x600002, 8, 16] ++ l)
def cs (q : Req) : State := { st w0 with reqs := [(20, q)], clusters := [(0, { ClusterSt.blank with tlb := [page 0x100], scratch := [(0x2010, 1), (0x2013, 2), (0x2019, 3), (0x2040, 9), (0x2044, 8)] })] }
def pz (m : Word) : State := { dc 0x200000010 (st (wz (.promise .copy m 7 true 0) true none)) with cohorts := [(1, { h0 with copy := ⟨5, 6, [], none⟩ })] }
theorem witness_copyAndPromiseEvents_4 :
  (∃ (s : State) (w : Nat) (z : Sleeper) (sel : Timeline) (m q : Word) (tl : Tl),
    (((s.wave w).sleepers = [z]) ∧ (z.entry = true) ∧ ((s.wave w).slot.isSome) ∧ (z.wait = .promise sel m q true ((s.wave w).core / 144))) ∧ (hasReached (s.die ((s.wave w).core / 144)).counter.toNat q) ∧ (tl = (s.cohort (s.group (s.wave w).group).cohort).tl sel) ∧ (¬ hasReached tl.value m) ∧ ((s.ctlw (s.wave w).pasid).getLsbD 1 = false)) :=
  ⟨pz 6, 0, zz (.promise .copy 6 7 true 0) true none, .copy, 6, 7, ⟨5, 6, [], none⟩, by decide +kernel, by unfold hasReached; decide +kernel, rfl, by unfold hasReached; decide +kernel, by decide +kernel⟩

theorem witness_copyAndPromiseEvents_3 :
  (∃ (s : State) (w : Nat) (z : Sleeper) (sel : Timeline) (m q : Word) (tl : Tl),
    (((s.wave w).sleepers = [z]) ∧ (z.entry = true) ∧ ((s.wave w).slot.isSome) ∧ (z.wait = .promise sel m q true ((s.wave w).core / 144))) ∧ (hasReached (s.die ((s.wave w).core / 144)).counter.toNat q) ∧ (tl = (s.cohort (s.group (s.wave w).group).cohort).tl sel) ∧ (hasReached tl.value m) ∧ (tl.fail = none)) :=
  ⟨pz 5, 0, zz (.promise .copy 5 7 true 0) true none, .copy, 5, 7, ⟨5, 6, [], none⟩, by decide +kernel, by unfold hasReached; decide +kernel, rfl, by unfold hasReached; decide +kernel, by decide +kernel⟩

theorem witness_copyAndPromiseEvents_2 :
  (∃ (s s1 : State) (r g : Nat) (q q1 : Req) (c : Cmd),
    ((AMap.find s.reqs r = some q) ∧ (q.kind = .follow) ∧ (q.queued = false)) ∧ (s.copyRest r = (true, s1)) ∧ (AMap.find s1.reqs r = some q1) ∧ ((q1.failed = false) ∧ (g ∈ (s1.cohort q1.cohort).groups) ∧ ((∀ j ∈ (s1.cohort q1.cohort).groups, (s1.group j).index = descWord q1 8 / 2 ^ 12 % 16 ↔ j = g)) ∧ ((s1.group g).slot.isSome) ∧ ((s1.group g).queue.length < 7)) ∧ (c = ⟨BitVec.ofNat 9 (descWord q1 8 % 2 ^ 9), BitVec.ofNat 3 (descWord q1 8 / 2 ^ 9 % 8), 0, true, q1.wave, q1.wid, q1.desc.getD 9 0, 15, [10, 11, 12, 13, 14].map fun k => q1.desc.getD k 0, none, q1.pc, [], some r, none, 0, none⟩)) :=
  ⟨cs (cp .follow [0x982, 0, 0, 0, 0, 0]), _, 20, 1, cp .follow [0x982, 0, 0, 0, 0, 0], _, _, by decide +kernel, eq_pair (by decide +kernel), some_of (by decide +kernel), by decide +kernel, rfl⟩

theorem witness_copyAndPromiseEvents_1 :
  (∃ (s : State) (r rows rowb base : Nat) (q : Req) (src dst : Nat → Nat → Nat),
    (NextDone s r q) ∧ ((q.kind = .copy) ∧ (q.queued = false) ∧ (q.read = []) ∧ (q.written = []) ∧ (s.streamOpen r q none = true) ∧ ((descWord q 5).testBit 21 = true) ∧ ((descWord q 5).testBit 22 = true) ∧ (descWord q 1 = 0) ∧ (descWord q 3 = 0)) ∧ (rows = descWord q 5 % 2 ^ 16) ∧ (rowb = descWord q 4 % 2 ^ 24) ∧ (base = (s.cohort q.cohort).base) ∧ (src = (fun i j => base + descWord q 0 + i * descWord q 6 + j)) ∧ (dst = (fun i j => base + descWord q 2 + i * descWord q 7 + j)) ∧ ((∀ i j i' j', i < rows → i' < rows → j < rowb → j' < rowb → src i j ≠ dst i' j' ∧ (dst i j = dst i' j' → i = i' ∧ j = j')))) :=
  ⟨cs (cp .copy []), 20, 2, 4, 0x2000, cp .copy [], _, _, ⟨by decide, by decide, by decide, by decide, by decide, ⟨1, by decide, by decide⟩⟩, by decide +kernel, rfl, rfl, rfl, rfl, rfl, fun i j i' j' _ _ _ _ => by simp [cp, rq, descWord, h0]; omega⟩

/-- A program of two micro-words and a layout in memory. -/
def lm : Memory := [(0x100000, 0x88), (0x100002, 0x08), (0x100003, 2), (0x100005, 0x88), (0x100007, 1), (0x100021, 0x30), (0x100024, 0x20), (0x100025, 0x70), (0x100043, 8), (0x100047, 0x58)]
def bs0 : State := { st w0 with mem := lm, reqs := [(20, rq (.bind 7) .trav 1 [0x100000, 0, 0x100040, 0, 2])] }
def bd : Binding := ⟨lay0, [0x08000000, 0x58000000]⟩
def ts0 (n : Nat) (sv : List (Nat × Nat)) : State := { st w0 with mem := [(0x100100, 1), (0x10011F, 0x40), (0x100120, 6), (0x100121, 7), (0x10012A, 0x10)], reqs := [(20, { rq (.trace false) .trav 1 [0x100100, 0, 3, 0, 0] with next := n, savers := sv, counts := [0, 0, 0, 0, 0] })], cohorts := [(1, { h0 with classes := [(7, bd)] })] }
def fs (n : Nat) : State := { st w0 with mem := [(0x100000, 0x80)], rays := [(7, ry2 fun r => { r with fetching := true, node := n }), (8, ry id)] }
def fq : State := { st w0 with clusters := [(0, { ClusterSt.blank with tlb := [{ page 0x100 with r := false }] })], rays := [(7, ry2 fun r => { r with fetching := true }), (8, ry id)] }
def wb : State := { ts0 3 [] with rays := [(7, suspended (ry2 fun r => { r with stack := [1, 2], hitt := 0x40000000 }) 2 0 3), (8, ry id)] }
def sm : State := { ts0 3 [] with reqs := [(20, { rq (.trace true) .trav 1 [0x100100, 0, 3, 0x100200, 0] with next := 3, counts := [3, 0, 0, 1, 257] })] }
def nq : Req := { rq .nmv (.nmv 0) 1 [0x100100, 0, 3, 32, 0x10, 0x100, 0x100, 0x13] with read := [(0x2010, 0), (0x2011, 0x3C)] }
def ns : State := { st w0 with mem := [(0x100100, 0x77), (0x100105, 0x21)], reqs := [(20, nq)], dies := [(0, { DieSt.blank with near := 1 })], clusters := [(0, { ClusterSt.blank with tlb := [⟨0, 0, 0, 30, 0, true, true, true, false, true, []⟩], scratch := [(0x2010, 0), (0x2011, 0x3C)] })] }
theorem witness_traversalEvents_8 :
  (∃ (s s1 : State) (r rows vecs base pa : Nat) (e : TlbEntry) (q : Req),
    ((AMap.find s.reqs r = some q) ∧ (q.kind = .nmv)) ∧ (rows = descWord q 2 % 2 ^ 16) ∧ (vecs = descWord q 6 / 2 ^ 8 % 8 + 1) ∧ (s.lookup none q.cluster q.pasid (descAddr q 0) .load = (.ok e, s1)) ∧ ((e.r = true) ∧ (e.bits = 30) ∧ (pa = e.ppage * 2 ^ 30 + descAddr q 0 % 2 ^ 30) ∧ (descAddr q 0 % 2 ^ 30 + 256 * rows * nmChunks q.desc ≤ 2 ^ 30) ∧ (pa < dramEnd) ∧ ((s1.die (homeDie pa)).near.getLsbD (pa % 0x9000000000 / 0x180000000) = true) ∧ (6 * homeDie pa + pa % 0x9000000000 % 0x180000000 / 2 ^ 30 = descWord q 6 % 32) ∧ (q.read = s1.nmVectors q) ∧ (q.weights = none) ∧ (q.written = []) ∧ (s1.linkOpen (q.cluster / 12) (homeDie pa) = true) ∧ (s1.lost = [])) ∧ (NextDone s1 r q) ∧ (base = (s1.cohort q.cohort).base)) :=
  ⟨ns, ns, 20, 3, 2, 0x2000, 0x100100, ⟨0, 0, 0, 30, 0, true, true, true, false, true, []⟩, nq, by decide +kernel, rfl, rfl, rfl, by decide +kernel, ⟨by decide +kernel, by decide +kernel, by decide +kernel, by decide +kernel, by decide +kernel, ⟨1, by decide +kernel, by decide +kernel⟩⟩, rfl⟩

theorem witness_traversalEvents_7 :
  (∃ (s s1 s2 : State) (r : Nat) (resume : Bool) (q : Req),
    ((AMap.find s.reqs r = some q) ∧ (q.kind = .trace resume) ∧ (descWord q 2 % 2 ^ 16 ≤ q.next) ∧ ((∀ e ∈ s.rays, e.2.req ≠ r)) ∧ (descAddr q 3 ≠ 0)) ∧ (s.engineMapped q.cluster q.pasid (descAddr q 3) 16 = (true, s1)) ∧ (s1.engineStore q.cluster q.pasid (descAddr q 3) ((List.range 12).map (fun k => byteOf (q.counts.getD (k / 2) 0) (k % 2)) ++ [0, 0, 0, 0]) = (none, s2)) ∧ (NextDone s2 r q)) :=
  ⟨sm, (sm.engineMapped 0 0 0x100200 16).2, ((sm.engineMapped 0 0 0x100200 16).2.engineStore 0 0 0x100200 [3, 0, 0, 0, 0, 0, 1, 0, 1, 1, 0, 0, 0, 0, 0, 0]).2, 20, true, { rq (.trace true) .trav 1 [0x100100, 0, 3, 0x100200, 0] with next := 3, counts := [3, 0, 0, 1, 257] }, by decide +kernel, eq_pair (by decide +kernel), none_pair (by decide +kernel), ⟨by decide +kernel, by decide +kernel, by decide +kernel, by decide +kernel, by decide +kernel, ⟨1, by decide +kernel, by decide +kernel⟩⟩⟩

theorem witness_traversalEvents_6 :
  (∃ (s s1 s2 : State) (r : Nat) (resume : Bool) (q : Req),
    ((AMap.find s.reqs r = some q) ∧ (q.kind = .trace resume) ∧ (descWord q 2 % 2 ^ 16 ≤ q.next) ∧ ((∀ e ∈ s.rays, e.2.req ≠ r)) ∧ (descAddr q 3 = 0)) ∧ (NextDone s r q)) :=
  ⟨ts0 3 [], ts0 3 [], ts0 3 [], 20, false, { rq (.trace false) .trav 1 [0x100100, 0, 3, 0, 0] with next := 3, counts := [0, 0, 0, 0, 0] }, by decide +kernel, ⟨by decide +kernel, by decide +kernel, by decide +kernel, by decide +kernel, by decide +kernel, ⟨1, by decide +kernel, by decide +kernel⟩⟩⟩

theorem witness_traversalEvents_5 :
  (∃ (s s1 s2 : State) (k : Nat) (y : Ray) (q : Req),
    ((AMap.find s.rays k = some y) ∧ (y.out = true) ∧ (y.savers = [])) ∧ (s.engineMapped y.cluster y.pasid y.at_ 256 = (true, s1)) ∧ (s1.engineStore y.cluster y.pasid y.at_ y.bytes = (none, s2)) ∧ (AMap.find s2.reqs y.req = some q)) :=
  ⟨wb, _, _, 7, suspended (ry2 fun r => { r with stack := [1, 2], hitt := 0x40000000 }) 2 0 3, { rq (.trace false) .trav 1 [0x100100, 0, 3, 0, 0] with next := 3, counts := [0, 0, 0, 0, 0] }, by decide +kernel, eq_pair (by decide +kernel), none_pair (by decide +kernel), by decide +kernel⟩

theorem witness_traversalEvents_4 :
  (∃ (s s1 : State) (k : Nat) (y : Ray) (c : _),
    ((AMap.find s.rays k = some y) ∧ (y.fetching = true) ∧ (y.out = false)) ∧ (s.nodeBytes y.cluster y.pasid y.node (16 * (y.layout.geom % 64)) = (.error c, s1))) :=
  ⟨fq, fq, 7, ry2 fun r => { r with fetching := true }, .access, by decide +kernel, is_error (by decide +kernel)⟩

theorem witness_traversalEvents_3 :
  (∃ (s s1 : State) (k : Nat) (y : Ray) (bs : _),
    ((AMap.find s.rays k = some y) ∧ (y.fetching = true) ∧ (y.out = false)) ∧ (s.nodeBytes y.cluster y.pasid y.node (16 * (y.layout.geom % 64)) = (.ok bs, s1))) :=
  ⟨fs 0x100000, ((fs 0x100000).nodeBytes 0 0 0x100000 128).2, 7, ry2 fun r => { r with fetching := true }, _, by decide +kernel, is_ok (by decide +kernel)⟩

theorem witness_traversalEvents_2 :
  (∃ (s s1 : State) (r at' : Nat) (q : Req) (bs : List Byte) (b : Binding) (w : Nat → Word),
    ((AMap.find s.reqs r = some q) ∧ (q.kind = .trace false)) ∧ (FirstInOrder s q) ∧ ((q.next < descWord q 2 % 2 ^ 16) ∧ (s.rays.countP (fun e => decide (e.2.cluster = q.cluster)) < 256) ∧ (q.savers = [])) ∧ (at' = descAddr q 0 + 256 * q.next) ∧ (s.engineBytes q.cluster q.pasid at' 256 = (some (.ok bs), s1)) ∧ (AMap.find s1.reqs r = some q) ∧ (w = (fun o => BitVec.ofNat 32 (inNode bs o 4))) ∧ (((bs.getD 0x21 0).toNat < 8) ∧ ((bs.getD 0x20 0).toNat < 8) ∧ ((bs.getD 0x22 0).toNat < 64) ∧ (inNode bs 0x28 8 < 2 ^ 57) ∧ (AMap.find (s1.cohort q.cohort).classes (8 * q.cluster + (bs.getD 0x21 0).toNat) = some b))) :=
  ⟨ts0 0 [], _, 20, 0x100100, { rq (.trace false) .trav 1 [0x100100, 0, 3, 0, 0] with counts := [0, 0, 0, 0, 0] }, _, bd, _, by decide +kernel, by unfold FirstInOrder; decide +kernel, by decide +kernel, rfl, some_is_ok (by decide +kernel), by decide +kernel, rfl, by decide +kernel⟩

theorem witness_traversalEvents_1 :
  (∃ (s s1 s2 : State) (r n : Nat) (cls : BitVec 3) (q : Req) (bs ps : List Byte),
    (NextDone s2 r q) ∧ ((AMap.find s.reqs r = some q) ∧ (q.kind = .bind cls)) ∧ (FirstInOrder s q) ∧ (n = descWord q 4 % 2 ^ 7) ∧ (s.engineBytes q.cluster q.pasid (descAddr q 0) 64 = (some (.ok bs), s1)) ∧ (s1.engineBytes q.cluster q.pasid (descAddr q 2) (4 * n) = (some (.ok ps), s2)) ∧ ((layoutBad bs = none) ∧ ((∀ k, k < n → walkWordOk (Layout.ofBytes bs) n (BitVec.ofNat 32 (inNode ps (4 * k) 4)) = true)))) :=
  ⟨bs0, _, _, 20, 2, 7, rq (.bind 7) .trav 1 [0x100000, 0, 0x100040, 0, 2], _, _, ⟨by decide +kernel, by decide +kernel, by decide +kernel, by decide +kernel, by decide +kernel, ⟨1, by decide +kernel, by decide +kernel⟩⟩, by decide +kernel, by unfold FirstInOrder; decide +kernel, rfl, some_is_ok (by decide +kernel), some_is_ok (by decide +kernel), by decide +kernel⟩

/-- Launch 1 on queue 3, packet 1 of its list. -/
def fqs (f : FQ → FQ) : AMap FQ := [(3, f { FQ.blank with at_ := 0x18180, resident := true })]
def lq (f : Launch → Launch) (g : FQ → FQ) (s : State) : State := { s with
  launches := [(1, f { Launch.blank with queue := some (3, 1) }), (2, Launch.blank)], queues := fqs g, fabric := { Fabric.blank with lock := true } }
def pk0 : Packet := ⟨.launch 1, false, false, []⟩
def win : Window := ⟨0, 0, 0x24000, kd1, 5, 2048, [⟨1, 3, 7, 8, [1]⟩, ⟨2, 4, 0, 0, [2]⟩]⟩
def ws1 : State := { dc 2053 (lq id id (st w0)) with windows := [(9, win)], nextId := 12 }
/-- A machine with an unplaced launch of 50 threads with local space in cluster 0. -/
def pl : State := inP (cl0 [(0, 1), (1, 1)] [] { lq (fun l => { l with started := true, queue := none, kd := { KDesc.blank with local_ := 16, regs := 2 }, threads := 50, entry := 7, args := [1, 2, 3, 4, 5, 6, 7, 8] }) id (st w0) with cohorts := [], groups := [], waves := [] })
def endw : Wave := { w0 with threads := [(0, .exited), (63, .exited)] }
def lc : State := { lq (fun l => { l with started := true, nextCohort := 1, cores := [0] }) (fun f => { f with packets := [(1, pk0)] }) (st w0) with groups := [], waves := [(0, { w0 with slot := none })], cores := [(0, { CoreSt.blank with l1 := [(0x100000, ⟨5, true, 3⟩), (0x100001, ⟨6, false, 3⟩)] })] }
theorem witness_launchEvents_5 :
  (∃ (s r : State) (l q n : Nat) (x : Launch),
    ((AMap.find s.launches l = some x) ∧ (x.started = true) ∧ (x.kind = .grid) ∧ (x.cohorts ≤ x.nextCohort) ∧ ((∀ e ∈ s.groups, e.2.launch ≠ l)) ∧ ((∀ e ∈ s.launches, e.2.parent ≠ some l)) ∧ ((∀ e ∈ s.windows, ∀ c ∈ e.2.children, c.parent ≠ l)) ∧ ((∀ e ∈ s.graphs, e.2.launch ≠ l)) ∧ (x.queue = some (q, n)) ∧ (x.handles = []) ∧ (x.error = none)) ∧ (r = x.cores.foldl (fun s c => s.release c 0xFF) s) ∧ (InDram ((s.fq q).at_ + 0x28) 8) ∧ ((s.fq q).tl.done = []) ∧ (n = (s.fq q).tl.value + 1) ∧ (((∀ e ∈ s.waves, e.2.sleepers = [])) ∧ (s.linksSteady = true)) ∧ (Quiet (s.fq q) n) ∧ ((∀ e ∈ s.reqs, (s.cohort e.2.cohort).launch ≠ l))) :=
  ⟨lc, _, 1, 3, 1, { Launch.blank with queue := some (3, 1), started := true, nextCohort := 1, cores := [0] }, by decide +kernel, rfl, inDram (by decide), by decide +kernel, rfl, by decide +kernel, quiet (by decide +kernel), by decide +kernel⟩

theorem witness_launchEvents_4 :
  (∃ (s : State) (w v : Nat) (x : Wave),
    ((AMap.find s.waves w = some x) ∧ (x.lanesIn .exited = x.launched) ∧ (x.flights = []) ∧ (x.tileFaults = []) ∧ (x.ports = []) ∧ (s.reportFor w = none) ∧ ((s.group x.group).bars = [])) ∧ ((∀ c ∈ s.clusters, ∀ q ∈ c.2.queues, ∀ k ∈ q.2.takers, ∀ o b, k ≠ .read w o b)) ∧ (((∀ e ∈ s.graphs, ∀ u ∈ e.2.waiters, u.2.1 ≠ w)) ∧ ((s.group x.group).baton ≠ some (BitVec.ofNat 4 x.waveid.toNat)) ∧ (v ≠ w) ∧ ((AMap.find s.waves v).isSome) ∧ ((s.wave v).group = x.group) ∧ ((s.wave v).arrivals = 0) ∧ ((s.wave v).waveid.toNat < (s.group x.group).waves) ∧ ((s.group x.group).waves ≤ 16) ∧ ((s.wave v).waveid ≠ x.waveid) ∧ ((s.group x.group).ended.getLsbD (s.wave v).waveid.toNat = false) ∧ (x.waveid.toNat < 16)) ∧ ((∀ i, (s.group x.group).waves ≤ i → (s.group x.group).ended.getLsbD i = false)) ∧ (x.waveid.toNat < (s.group x.group).waves)) :=
  ⟨{ st2 fun _ => endw with cores := [(0, { CoreSt.blank with missing := [(0, 3), (1, 4)], draining := [0] })] }, 0, 1, endw, by decide +kernel, idle_queues _ _ (by decide), by decide +kernel, fun i _ => (BitVec.getLsbD_zero : (0#16).getLsbD i = false), by decide +kernel⟩

theorem witness_launchEvents_3 :
  (∃ (s t : State) (l cl : Nat) (x : Launch),
    ((AMap.find s.launches l = some x) ∧ (x.started = true)) ∧ (Alive s l) ∧ ((x.nextCohort < x.cohorts) ∧ (x.behind = none)) ∧ ((∀ a b c, x.kind ≠ .pixel a b c)) ∧ (cl ∈ s.clustersOf x.pasid) ∧ (s.placeCohort l cl ((List.range 12).map fun k => 12 * cl + k) = some t)) :=
  ⟨pl, _, 1, 0, { Launch.blank with started := true, queue := none, kd := { KDesc.blank with local_ := 16, regs := 2 }, threads := 50, entry := 7, args := [1, 2, 3, 4, 5, 6, 7, 8] }, by decide +kernel, by unfold Alive; decide +kernel, by decide +kernel, by intros; nofun, by decide +kernel, some_of (by decide +kernel)⟩

theorem witness_launchEvents_2 :
  (∃ (s : State) (die i : Nat) (y : Window),
    ((s.windows = [(i, y)]) ∧ (y.die = die) ∧ ((4096 ≤ y.children.length ∨ y.since + y.timeout ≤ (s.die die).counter.toNat)) ∧ ((∀ c ∈ y.children, c.parent < s.nextId)))) :=
  ⟨ws1, 0, 9, win, by decide +kernel⟩

theorem witness_launchEvents_1 :
  (∃ (s : State) (l q n : Nat) (x : Launch) (p : Packet),
    ((AMap.find s.launches l = some x) ∧ (x.queue = some (q, n)) ∧ (x.kind = .grid) ∧ (x.started = false) ∧ (x.handles = []) ∧ (s.fabric.lock = true)) ∧ (MayStart (s.fq q) n p) ∧ ((s.linksSteady = true) ∧ (s.queueOn q = true)) ∧ (Quiet (s.fq q) n)) :=
  ⟨lq (fun l => { l with kd := { KDesc.blank with prio := 9 } }) (fun f => { f with packets := [(1, pk0)], qcb := some ⟨0x20000, 2, 0, 1, 0x070001, 0, 0, 0, 0, true⟩ }) (st w0), 1, 3, 1, { Launch.blank with queue := some (3, 1), kd := { KDesc.blank with prio := 9 } }, pk0, by decide +kernel, ⟨by decide, by decide, by decide⟩, by decide +kernel, quiet (by decide +kernel)⟩

def tq : State := { lq id id (st w0) with mem := pt (qt ([(0x18180, 2), (0x18182, 2), (0x18190, 1), (0x18198, 0x81), (0x1819A, 0xFF), (0x181C1, 0x40), (0x181C2, 2), (0x20000, 5), (0x20004, 1), (0x20005, 9), (0x20006, 2), (0x20008, 8), (0x20028, 3), (0x2002C, 20), (0x20030, 4), (0x20034, 9)] ++ kd0)), fabric := { Fabric.blank with lock := true, featacc := 0x400 }, dies := [(0, { DieSt.blank with qroot := 0x8000 })] }
def sp1 : State := inP { lq (fun l => { l with kind := .task, started := true, nextCohort := 1, queue := none }) id (st w0) with cohorts := [(1, { h0 with task := some ⟨0, 17, 4⟩ })] }
def gb : Graph → Graph := fun y => { y with btab := 0x300000, slots := [(1, ⟨1, none, some 3, none⟩), (3, ⟨0, some 1, some 0x100000005, none⟩)], pending := [(0, [3], 77)] }
def gbs (g : Graph → Graph) : State := vm [] (dc 77 (gs g w0))
def ge : Graph → Graph := fun y => { y with slots := [(0, ⟨1, none, some 0, some 1⟩), (1, ⟨1, some 1, none, none⟩), (2, ⟨1, some 1, some 4, none⟩), (3, ⟨1, some 2, none, none⟩)] }
def pm : Prim := ⟨9, 1, 0, 0, [0, 0, 0x41000000, 0, 0, 0x41000000], [5, 6], [(3, 3)], false, 0, [0]⟩
def pms : State := inP { gs (gd 0) w0 with prims := [(4, pm)] }
theorem witness_taskAndGraphEvents_5 :
  (∃ (s : State) (prim bx by' die : Nat) (p : Prim) (y : Graph) (tri : Tri) (nd : GNode) (root : Launch),
    ((AMap.find s.prims prim = some p) ∧ (AMap.find s.graphs p.graph = some y) ∧ (triOf p.pts = some tri) ∧ (y.nodes[p.node]? = some nd)) ∧ (root = s.launch y.launch) ∧ ((s.regionDie root.pasid bx by' = some die) ∧ (tri.blockCover bx by' ≠ 0) ∧ (bx < 8192) ∧ (by' < 8192) ∧ ((bx, by') ∉ p.launched)) ∧ (Alive s y.launch) ∧ ((p.ordered = false) ∧ (die ∈ p.reached))) :=
  ⟨pms, 4, 0, 0, 0, pm, gr (gd 0), ⟨0, 0, 2 ^ 152, 0, 0, 2 ^ 152⟩, gn fun n => { n with nkind := 1, cls := 0 }, _, by decide +kernel, rfl, by decide +kernel, by unfold Alive; decide +kernel, by decide +kernel⟩

theorem witness_taskAndGraphEvents_4 :
  (∃ (s : State) (g k n : Nat) (ks : List (Nat × Nat)) (y : Group) (gr : Graph),
    ((AMap.find s.groups g = some y) ∧ ((s.launch y.launch).kind = .batch k n ks)) ∧ ((∀ i, i < y.waves → y.ended.getLsbD i = true)) ∧ ((y.waves ≤ 16) ∧ (y.released = true) ∧ (AMap.find s.graphs k = some gr) ∧ (gr.waiters = []) ∧ ((s.cohort y.cohort).groups = [g]) ∧ ((∀ e ∈ s.reqs, e.2.cohort ≠ y.cohort)))) :=
  ⟨{ gs ge w0 with groups := [(1, { g0 with ended := 1, released := true })], waves := [] }, 1, 9, 1, [(0, 0)], { g0 with ended := 1, released := true }, gr ge, by decide +kernel, fun i h => by have : i = 0 := by { simp [g0] at h; omega }; subst this; decide, by decide +kernel⟩

theorem witness_taskAndGraphEvents_3 :
  (∃ (s s2 : State) (g node table l : Nat) (y : Graph) (nd : GNode) (ks : List Nat) (since : Nat) (p : Launch) (r0 : RecSlot) (cm : Nat),
    ((AMap.find s.graphs g = some y) ∧ (y.nodes[node]? = some nd) ∧ (AMap.find y.pending node = some (ks, since)) ∧ (ks ≠ []) ∧ (ks.length ≤ nd.batch) ∧ (since + nd.timeout ≤ (s.die y.die).counter.toNat)) ∧ (Alive s y.launch) ∧ (p = s.launch y.launch) ∧ ((table = y.btab + 512 * ks.headD 0) ∧ (AMap.find y.slots (ks.headD 0) = some r0) ∧ (r0.commit = some cm)) ∧ (s.feStores p.pasid table (ks.map fun k => y.pool + 256 * k) = (none, s2)) ∧ (l = s2.nextId) ∧ ((s2.graphs = s.graphs) ∧ (s.linksSteady = true))) :=
  ⟨gbs gb, _, 9, 0, 0x300600, _, gr gb, gn id, [3], 77, _, ⟨0, some 1, some 0x100000005, none⟩, 0x100000005, by decide +kernel, by unfold Alive; decide +kernel, rfl, by decide +kernel, none_pair (by decide +kernel), rfl, by decide +kernel⟩

theorem witness_taskAndGraphEvents_2 :
  (∃ (s t : State) (core h m : Nat) (k : TaskReg) (p : Launch),
    ((s.taskQueued (core / 12) = false) ∧ ((s.usedGroupSlots core []).length < 8) ∧ (s.splitTask (core / 12) = some (h, k))) ∧ (k.chunks = 2 * m ∨ k.chunks + 1 = 2 * m) ∧ (k.cur.toNat + k.grain.toNat * m < k.hi.toNat) ∧ (p = s.launch (s.cohort h).launch) ∧ (((s.addLaunch { p with parent := some (s.cohort h).launch, queue := none, error := none, reported := false, nextCohort := 0, endedGroups := 0, releasedGroups := 0, cores := [], task := some ⟨BitVec.ofNat 32 (k.cur.toNat + k.grain.toNat * m), k.hi, k.grain⟩ }).onCohort h fun c => { c with task := some { k with hi := BitVec.ofNat 32 (k.cur.toNat + k.grain.toNat * m) } }).placeCohort s.nextId (core / 12) [core] = some t)) :=
  ⟨sp1, _, 1, 1, 3, ⟨0, 17, 4⟩, _, by decide +kernel, .inr rfl, by decide +kernel, rfl, rfl⟩

theorem witness_taskAndGraphEvents_1 :
  (∃ (s s1 s2 s3 : State) (q n l : Nat) (qc : Qcb) (ws : List Nat) (r : Nat → Nat) (k : KDesc) (x : Launch),
    (s.linksSteady = true) ∧ (s.openQueue q = (some (.ok qc), s1)) ∧ ((qc.kind = true) ∧ (s1.fabric.lock = true)) ∧ (s1.feWords (keyPasid q) (qc.ring + 64 * (qc.rdidx % 2 ^ qc.log2n)) 8 = (.ok ws, s2)) ∧ (ws.length = 8) ∧ (r = (fun i => ws.getD (i / 2) 0 / 2 ^ (32 * (i % 2)) % 2 ^ 32)) ∧ ((r 1 / 2 ^ 21 = 0) ∧ (r 1 / 4 % 64 = 0) ∧ (1 ≤ r 1 / 2 ^ 16 % 32) ∧ (r 1 / 2 ^ 16 % 32 ≤ 16) ∧ ((r 1 % 4 = 0 ∨ r 1 % 4 = 1 ∧ r 12 ≠ 0)) ∧ (r 15 = 0)) ∧ (s2.vet (keyPasid q) qc.tkdesc qc.tkdesc 0 = (.ok k, s3)) ∧ (n = (s3.fq q).tl.accepted + 1) ∧ (l = s3.nextId) ∧ (x = { Launch.blank with lref := BitVec.ofNat 64 (r 13 + 2 ^ 32 * r 14), pasid := keyPasid q, die := keyDie q, kind := .task, queue := some (q, n), root := q, kd := { k with groups := 1, waves := r 1 / 2 ^ 16 % 32 }, kaddr := qc.tkdesc, threads := 64 * (r 1 / 2 ^ 16 % 32), entry := BitVec.ofNat 32 (r 0), args := (List.range 8).map fun i => BitVec.ofNat 32 (r (2 + i)), ceil := qc.ceil, prio := min (r 1 / 2 ^ 8 % 2 ^ 8) qc.ceil, started := true, task := if r 1 % 4 = 1 then some ⟨BitVec.ofNat 32 (r 10), BitVec.ofNat 32 (r 11), BitVec.ofNat 32 (r 12)⟩ else none })) :=
  ⟨inP tq, _, _, _, 3, _, _, _, [0x0002090100000005, 8, 0, 0, 0, 0x1400000003, 0x900000004, 0], _, _, _, by decide +kernel, some_is_ok (by decide +kernel), by decide +kernel, ok_pair (by decide +kernel), by decide +kernel, rfl, by decide +kernel, is_ok (by decide +kernel), rfl, rfl, rfl⟩

def pz2 (v : Nat) : State := { st (wz (.timeline .trav 5) false (some 90)) with cohorts := [(1, { h0 with trav := ⟨v, 9, [], none⟩ })], cores := [(0, { CoreSt.blank with cycle := 100, l1 := [(0x100000, ⟨5, true, 3⟩), (0x100001, ⟨6, false, 3⟩)] })] }
theorem witness_waitEvents :
  (∃ (s : State) (w : Nat) (z : Sleeper) (u : BitVec 64),
    (((s.wave w).slot.isSome) ∧ ((s.wave w).sleepers = [z]) ∧ (z.wait = .sleep u))) ∧
  (∃ (s : State) (w due : Nat) (z : Sleeper) (sel : Timeline) (v : Word),
    (((s.wave w).slot.isSome) ∧ ((s.wave w).sleepers = [z]) ∧ ((s.wave w).parked = []) ∧ (z.wait = .timeline sel v) ∧ (z.poll = some due) ∧ (due ≤ (s.core (s.wave w).core).cycle))) :=
  ⟨⟨dc 77 (st (wz (.sleep 77) true none)), 0, zz (.sleep 77) true none, 77, by decide⟩,
  ⟨pz2 5, 0, 90, zz (.timeline .trav 5) false (some 90), .trav, 5, by decide⟩⟩

def ti (n : BitVec 64) : State := { st w0 with dies := [(3, { DieSt.blank with tlbiCtl := n, tlbiAddr := 0x100000 })] }
theorem witness_translationEvents_5 :
  (∃ (s : State) (die ctl page : Nat) (named : Nat → Bool),
    ((ctl = (s.die die).tlbiCtl.toNat) ∧ (ctl.testBit 0 = true) ∧ (ctl.testBit 40 = false) ∧ (page = (s.die die).tlbiAddr.toNat / 2 ^ 12 % 2 ^ 45) ∧ ((∀ e ∈ s.waves, ∀ f ∈ e.2.flights, ∀ a ∈ f.2.accs, a.got.isSome))) ∧ ((∀ d, named d = (decide (d = die) || ctl.testBit 1)))) :=
  ⟨ti 0x103, 3, 0x103, 0x100, fun d => decide (d = 3) || Nat.testBit 0x103 1, by decide +kernel, fun _ => rfl⟩

theorem witness_translationEvents_4 :
  (∃ (s : State) (die : Nat) (v : BitVec 64),
    ((die < 4) ∧ ((s.die die).tlbiCtl.getLsbD 0 = false))) :=
  ⟨ti 0x10000, 3, 0xFFFFFFFFFFFFFFFF, by decide +kernel⟩

theorem witness_translationEvents_3 :
  (∃ (s : State) (die : Nat) (v : BitVec 64),
    ((die < 4) ∧ ((s.die die).tlbiCtl.getLsbD 0 = true))) :=
  ⟨ti 1, 3, 0, by decide +kernel⟩

theorem witness_translationEvents_2 :
  (∃ (s : State) (core : Nat) (pasid : BitVec 20) (va : BitVec 64) (acc : Access) (e : TlbEntry),
    ((e ∈ (s.core core).tlb) ∧ (e.serves pasid va.toNat acc = true))) :=
  ⟨st w0, 0, 0, 0x100123, .store, page 0x100, by decide +kernel⟩

theorem witness_translationEvents_1 :
  (∃ (s s1 : State) (core : Nat) (pasid : BitVec 20) (va : BitVec 64) (acc : Access) (e : TlbEntry),
    ((core < 576) ∧ (va.toNat < 2 ^ 57) ∧ ((∀ e ∈ (s.core core).tlb, e.serves pasid va.toNat acc = false)) ∧ ((∀ e ∈ (s.cluster (core / 12)).tlb, e.serves pasid va.toNat acc = false))) ∧ (s.walk (some (core / 144)) pasid va.toNat acc = (.ok e, s1))) :=
  ⟨vm [] (st w0), _, 0, 0, 0x5123, .store, _, by decide +kernel, is_ok (by decide +kernel)⟩

def hl (b : Bool) (w : Wave) : State := { st w with cores := [(0, { CoreSt.blank with halting := [(0, b)] })] }
def w31 : Wave := { w0 with slot := some 31 }
def wo : Wave := { w0 with slot := none }
theorem witness_haltEvents :
  (∃ (s : State) (core w : Nat) (pasid : BitVec 20) (x : Wave),
    (((w, x) ∈ s.waves) ∧ (x.core = core) ∧ (x.pasid = pasid) ∧ (x.slot.isSome) ∧ (AMap.find (s.core core).halting pasid.toNat = none))) ∧
  (∃ (s : State) (core : Nat) (pasid : BitVec 20),
    ((AMap.find (s.core core).halting pasid.toNat = some false) ∧ ((s.core core).draining = [])) ∧ ((∃ e ∈ s.waves, e.2.core = core ∧ e.2.pasid = pasid ∧ e.2.slot.isSome ∧ e.2.holding.isSome))) ∧
  (∃ (s : State) (core : Nat) (pasid : BitVec 20),
    ((AMap.find (s.core core).halting pasid.toNat = some false) ∧ ((s.core core).draining = []) ∧ ((∀ e ∈ s.waves, e.2.holding = none)) ∧ ((s.core core).engine = none))) ∧
  (∃ (s r : State) (core w g : Nat) (outgoing incoming : BitVec 20),
    ((AMap.find (s.core core).halting outgoing.toNat = some true) ∧ ((s.core core).draining = []) ∧ (outgoing ≠ incoming) ∧ ((s.resident core outgoing).map (fun e => e.1) = [w]) ∧ ((s.groups.filter fun e => e.2.core == core && e.2.pasid == outgoing && e.2.slot.isSome).map (fun e => e.1) = [g])) ∧ (r = ((s.leaveSlot w).onGroup g fun y => { y with slot := none }).saveGroup g)) ∧
  (∃ (s : State) (core w : Nat),
    ((s.core core).draining = [w])) ∧
  (∃ (s : State) (w : Nat) (x : Wave) (z : Sleeper) (u : BitVec 64),
    ((AMap.find s.waves w = some x) ∧ (x.slot.isSome) ∧ (x.lanesIn .ready = 0) ∧ (x.lanesIn .syncing = 0) ∧ (x.sleepers = [z]) ∧ (z.wait = .sleep u) ∧ (x.holding = none) ∧ ((s.core x.core).draining = []) ∧ (AMap.find (s.core x.core).halting x.pasid.toNat = none)) ∧ (NoLine s w)) ∧
  (∃ (s : State) (w core : Nat) (slot : BitVec 5) (x : Wave),
    ((AMap.find s.waves w = some x) ∧ (x.slot = some 31#5) ∧ (x.core = core) ∧ (slot ≠ 31#5) ∧ ((∀ e ∈ s.waves, ¬(e.2.core = core ∧ e.2.slot = some slot))))) ∧
  (∃ (s : State) (w core : Nat) (slot : BitVec 5) (x : Wave) (rd : Nat → Nat → Nat),
    ((AMap.find s.waves w = some x) ∧ (x.slot = none) ∧ (x.corrupt = none) ∧ (x.core = core) ∧ (core / 12 = (s.cohort (s.group x.group).cohort).cluster) ∧ ((∀ e ∈ s.waves, ¬(e.2.core = core ∧ e.2.slot = some slot))) ∧ (slot ≠ 31#5) ∧ (AMap.find (s.core core).halting x.pasid.toNat = none) ∧ ((s.group x.group).slot.isSome) ∧ ((s.group x.group).core = core) ∧ (w ∉ (s.core core).draining)) ∧ ((rd = fun o n => s.imageRead x.pasid (266240 * x.image + 262144 + o) n)) ∧ ((pageOk rd = true) ∧ ((s.group x.group).image = rd 0x1B4 4) ∧ ((s.launch x.launch).lref.toNat = rd 0x1C8 8) ∧ (rd 0x190 8 % 2 = 0) ∧ ((∀ k, k < 64 → rd (0xA00 + 24 * k + 12) 1 = 0)) ∧ ((s.group x.group).tcfg.on = false)) ∧ ((∀ e ∈ x.flights, ∀ a b d, e.2.kind ≠ .fence a b d)) ∧ (((∀ e ∈ s.waves, e.2.sleepers = [])) ∧ ((∀ e ∈ s.graphs, e.2.waiters = [])))) :=
  ⟨⟨st w0, 0, 0, 0, w0, by decide⟩,
  ⟨hl false { w0 with holding := some (run0, 5, true) }, 0, 0, by decide, ⟨(0, { w0 with holding := some (run0, 5, true) }), by decide, by decide⟩⟩,
  ⟨hl false w0, 0, 0, by decide⟩,
  ⟨inP (hl true { w0 with flights := [] }), _, 0, 0, 1, 0, 7, by decide, rfl⟩,
  ⟨inP { st { w0 with slot := none } with cores := [(0, { CoreSt.blank with draining := [0] })] }, 0, 0, by decide⟩,
  ⟨dc 70 (st (wz (.sleep 77) true none)), 0, wz (.sleep 77) true none, zz (.sleep 77) true none, 77, by decide, ⟨idle_queues _ _ (by decide), by decide⟩⟩,
  ⟨st w31, 0, 0, 30, w31, by decide⟩,
  ⟨inP (st wo), 0, 0, 30, wo, _, by decide, rfl, by decide, fun e he => absurd he (by simp [wo, w0, Wave.blank]), by decide⟩⟩

def ag (a b : Nat) (l : AMap Nat) : State := { st w0 with waves := [(0, { w0 with aging := a, age := 64 }), (1, { w1 with aging := b, age := 64 })], cores := [(0, { CoreSt.blank with cycle := 103, lastPromotion := l })] }
def np (h : NetHead) (l : AMap Nat) : State := { st w0 with dies := [(0, { DieSt.blank with net := [(512 + 8 * 9 + 1, h)], netCycle := 204, netPromo := l })] }
theorem witness_lineAndPromotionEvents :
  (∃ (s u : State) (w r q : Nat) (x : Wave),
    (x = s.wave w) ∧ ((x.slot.isSome) ∧ (r < 1024) ∧ (q < 4) ∧ ((w, 4 * r + q) ∈ (s.core x.core).missing)) ∧ (u = s.useImage x.pasid (266240 * x.image + 4096 * (r / 16) + 256 * (r % 16) + 64 * q) 64 false) ∧ (u.wave w = x)) ∧
  (∃ (s : State) (pa : Nat),
    ((pa < dramEnd) ∧ (s.sectorLost pa = false))) ∧
  (∃ (s : State) (core w : Nat) (quad : BitVec 2) (x : Wave) (k : BitVec 5) (n : _),
    ((AMap.sorted s.waves = true) ∧ ((w, x) ∈ s.waves)) ∧ (MayRise core quad.toNat x k) ∧ ((∀ e ∈ s.waves, ∀ j, e.1 ≠ w → MayRise core quad.toNat e.2 j → e.2.aging < x.aging ∨ (e.2.aging = x.aging ∧ k.toNat < j.toNat))) ∧ ((AMap.find (s.core core).lastPromotion quad.toNat = some n) ∧ ((s.core core).cycle < n + 4))) ∧
  (∃ (s : State) (core w : Nat) (quad : BitVec 2) (x : Wave) (k : BitVec 5),
    ((AMap.sorted s.waves = true) ∧ ((w, x) ∈ s.waves)) ∧ (MayRise core quad.toNat x k) ∧ ((∀ e ∈ s.waves, ∀ j, e.1 ≠ w → MayRise core quad.toNat e.2 j → e.2.aging < x.aging ∨ (e.2.aging = x.aging ∧ k.toNat < j.toNat))) ∧ ((∀ n, AMap.find (s.core core).lastPromotion quad.toNat = some n → n + 4 ≤ (s.core core).cycle))) ∧
  (∃ (s : State) (die router k o : Nat) (net : Bool) (port : BitVec 3) (h : NetHead),
    ((k = (if net then 512 else 0) + 8 * router + port.toNat) ∧ (o = (if net then 512 else 0) + 8 * router + h.out.toNat) ∧ (AMap.find (s.die die).net k = some h)) ∧ ((h.waited < 64 ∨ h.promoted.isSome ∨ ∃ n, AMap.find (s.die die).netPromo o = some n ∧ (s.die die).netCycle < n + 5))) ∧
  (∃ (s : State) (die router k o : Nat) (net : Bool) (port : BitVec 3) (h : NetHead),
    ((k = (if net then 512 else 0) + 8 * router + port.toNat) ∧ (o = (if net then 512 else 0) + 8 * router + h.out.toNat) ∧ (AMap.find (s.die die).net k = some h) ∧ (64 ≤ h.waited) ∧ (h.promoted = none) ∧ ((∀ n, AMap.find (s.die die).netPromo o = some n → n + 5 ≤ (s.die die).netCycle)))) :=
  ⟨⟨inP { st w0 with cores := [(0, { CoreSt.blank with missing := [(0, 9), (0, 4092), (1, 9)] })], mem := [(0x1000, 1), (0x1234, 8)] }, _, 0, 2, 1, w0, rfl, by decide, rfl, by decide⟩,
  ⟨{ st w0 with mem := [(0x100001, 7)], l2 := [(0x100000, (5, true)), (0x100003, (6, false))] }, 0x10002A, by decide⟩,
  ⟨ag 64 64 [(0, 100)], 0, 0, 0, { w0 with aging := 64, age := 64 }, 0, 100, by decide, by unfold MayRise; decide, by simp [ag, MayRise, w1, w0], by decide⟩,
  ⟨ag 64 65 [(0, 99)], 0, 1, 0, { w1 with aging := 65, age := 64 }, 1, by decide, by unfold MayRise; decide, by simp [ag, MayRise, w1, w0], by decide⟩,
  ⟨np ⟨7, 2, 5, 64, none⟩ [(512 + 8 * 9 + 2, 200)], 0, 9, 585, 586, true, 1, ⟨7, 2, 5, 64, none⟩, by decide, .inr (.inr ⟨200, by decide⟩)⟩,
  ⟨np ⟨7, 2, 5, 64, none⟩ [(512 + 8 * 9 + 2, 199)], 0, 9, 585, 586, true, 1, ⟨7, 2, 5, 64, none⟩, by decide⟩⟩

/-- Packet queue 2 with RDIDX 5 and WRIDX 7: packet 7 comes next, at 0x20040, and more bytes after it. -/
def qc2 : Qcb := ⟨0x20000, 2, 5, 7, 0xFF0001, 0x30000, 0x28000, 0, 0, true⟩
def q2b : Memory := [(0x18100, 2), (0x18102, 2), (0x18108, 5), (0x18110, 7), (0x18118, 1), (0x1811A, 0xFF), (0x18132, 3), (0x18139, 0x80), (0x1813A, 2)]
def pq (g : FQ → FQ) (m : Memory) : State := { qm (q2b ++ m) (st w0) with
  queues := [(2, g { FQ.blank with at_ := 0x18100, resident := true, qcb := some qc2, tl := ⟨6, 6, [], none⟩, caps := some ⟨0x20000, 256, 0x30000, 0x28000⟩ })] }
def pkt (ws : List Nat) : Pkt := let h := ws.headD 0; ⟨0x20040, h % 256, h / 2 ^ 16 % 2 ^ 16, h / 2 ^ 8 % 2 ^ 8, h / 2 ^ 32, ws⟩
def lpf (f : FQ) : FQ := { f with tl := ⟨3, 6, [], none⟩, writer := [(3, 4)], readers := [(3, [5]), (5, [5])], last := some (1, true), packets := [(4, { pk0 with started := true }), (5, { pk0 with started := true }), (6, pk0)] }
def lq0 : List Nat := [0x700010301, 0x24000, 0x3200000002, 0x200000001, 0x400000003, 0x600000005, 0x800000007, 0]
def lq0M : Memory := [(0x20040, 0x1), (0x20041, 0x3), (0x20042, 0x1), (0x20044, 0x7), (0x20049, 0x40), (0x2004A, 0x2), (0x20050, 0x2), (0x20054, 0x32), (0x20058, 0x1), (0x2005C, 0x2), (0x20060, 0x3), (0x20064, 0x4), (0x20068, 0x5), (0x2006C, 0x6), (0x20070, 0x7), (0x20074, 0x8)]
def np8 : List Nat := [0x700010008, 1, 2, 3, 4, 5, 6, 7]
def np8M : Memory := [(0x20040, 0x8), (0x20042, 0x1), (0x20044, 0x7), (0x20048, 0x1), (0x20050, 0x2), (0x20058, 0x3), (0x20060, 0x4), (0x20068, 0x5), (0x20070, 0x6), (0x20078, 0x7)]
def np8b : List Nat := [0x700010108, 1, 2, 3, 4, 5, 6, 7]
def np8bM : Memory := [(0x20040, 0x8), (0x20041, 0x1), (0x20042, 0x1), (0x20044, 0x7), (0x20048, 0x1), (0x20050, 0x2), (0x20058, 0x3), (0x20060, 0x4), (0x20068, 0x5), (0x20070, 0x6), (0x20078, 0x7)]
def dp4 : List Nat := [0x700010104, 0x0300000000000009, 0x0400000000000001, 0, 0x0500000000000001, 5, 6, 7]
def dp4M : Memory := [(0x20040, 0x4), (0x20041, 0x1), (0x20042, 0x1), (0x20044, 0x7), (0x20048, 0x9), (0x2004F, 0x3), (0x20050, 0x1), (0x20057, 0x4), (0x20060, 0x1), (0x20067, 0x5), (0x20068, 0x5), (0x20070, 0x6), (0x20078, 0x7)]
def wt6 : List Nat := [0x700010106, 0x50008, 9, 1, 1, 5, 6, 7]
def wt6M : Memory := [(0x20040, 0x6), (0x20041, 0x1), (0x20042, 0x1), (0x20044, 0x7), (0x20048, 0x8), (0x2004A, 0x5), (0x20050, 0x9), (0x20058, 0x1), (0x20060, 0x1), (0x20068, 0x5), (0x20070, 0x6), (0x20078, 0x7)]
def sg5 : List Nat := [0x700010105, 0x50008, 9, 1, 1, 5, 6, 7]
def sg5M : Memory := [(0x20040, 0x5), (0x20041, 0x1), (0x20042, 0x1), (0x20044, 0x7), (0x20048, 0x8), (0x2004A, 0x5), (0x20050, 0x9), (0x20058, 0x1), (0x20060, 0x1), (0x20068, 0x5), (0x20070, 0x6), (0x20078, 0x7)]
def one (f : FQ) : FQ := { f with tl := ⟨5, 6, [], none⟩, packets := [(6, pk0)], writer := [(5, 4)], readers := [(5, [6])] }
def hd7 : List Nat := [0x700010107, 0x305, 0x60010, 0x1000, 1, 5, 6, 7]
def hd7M : Memory := [(0x20040, 0x7), (0x20041, 0x1), (0x20042, 0x1), (0x20044, 0x7), (0x20048, 0x5), (0x20049, 0x3), (0x20050, 0x10), (0x20052, 0x6), (0x20059, 0x10), (0x20060, 0x1), (0x20068, 0x5), (0x20070, 0x6), (0x20078, 0x7)]
def fw80 : List Nat := [0x700010180, 0x405, 0, 0, 1, 5, 6, 7]
def fw80M : Memory := [(0x20040, 0x80), (0x20041, 0x1), (0x20042, 0x1), (0x20044, 0x7), (0x20048, 0x5), (0x20049, 0x4), (0x20060, 0x1), (0x20068, 0x5), (0x20070, 0x6), (0x20078, 0x7)]
theorem witness_packetsRetire_9 :
  (∃ (i : Instr) (s s1 s2 : State) (q h slot at_ ctl : Nat) (c : Qcb),
    (i ∈ [.launchPacket q, .dependency q, .timelineWait q, .noOp q]) ∧ (s.linksSteady = true) ∧ (s.openQueue q = (some (.ok c), s1)) ∧ ((c.kind = false) ∧ (slot = c.ring + 64 * (c.rdidx % 2 ^ c.log2n))) ∧ (s1.feWords (keyPasid q) slot 1 = (.ok [h], s2)) ∧ ((9 ≤ h % 256) ∧ (h % 256 < 0x80) ∧ (at_ = (s2.fq q).at_)) ∧ (InDram at_ 128) ∧ (((s.fq q).tl = (s2.fq q).tl) ∧ (ctl = atHome s2 (at_ + 0x18) 4) ∧ (ctl.testBit 2 = false) ∧ ((s2.fq q).qcb = some c) ∧ (c.err = false) ∧ (Notice.queueError q ∉ s2.notices))) :=
  ⟨.noOp 2, pq one [(0x20040, 9), (0x20041, 1), (0x20042, 1), (0x20044, 7)], _, _, 2, 0x700010109, 0x20040, 0x18100, 0xFF0001, qc2, by simp, by decide +kernel, opens _ _ qc2 rfl (by decide +kernel), by decide +kernel, (mapped (by decide +kernel)).feWords 0x20040 1 (by decide), by decide +kernel, inDram (by decide), by decide +kernel⟩

theorem witness_packetsRetire_8 :
  (∃ (s s1 : State) (q : Nat) (p : Pkt),
    (ReadsPacket s q p s1) ∧ ((0x80 ≤ p.type) ∧ ((∀ e ∈ (s.fq q).packets, e.2.kind ≠ .firmware)))) :=
  ⟨pq one fw80M, _, 2, pkt fw80, (mapped (by decide +kernel)).reads _ _ qc2 rfl rfl (by decide +kernel), by decide +kernel⟩

theorem witness_packetsRetire_7 :
  (∃ (s s1 s2 : State) (q w m pa : Nat) (p : Pkt) (e : Packet) (rest : AMap Packet),
    (ReadsPacket s q p s1) ∧ ((p.type = 7) ∧ (p.size = 1)) ∧ (w = partOf p 8 4) ∧ (w < 2 ^ 11) ∧ ((w.testBit 10 = true ∨ 0 < partOf p 0x18 8 ∧ partOf p 0x18 8 < 2 ^ 48 ∧ partOf p 0x10 8 < 2 ^ 57 ∧ partOf p 0x10 8 + partOf p 0x18 8 ≤ 2 ^ 57)) ∧ (s1.feHandle q (w % 256) = (.ok pa, s2)) ∧ (MayRetire s2 q p) ∧ (((s2.fq q).packets = (m, e) :: rest) ∧ (e.started = false)) ∧ ((∀ k ∈ (s1.fq q).packets ++ (s2.fq q).packets, ∀ h b d r y z, k.2.kind ≠ .handle h b d r y z))) :=
  ⟨pq one hd7M, _, _, 2, 0x305, 6, _, pkt hd7, pk0, [], (mapped (by decide +kernel)).reads _ _ qc2 rfl rfl (by decide +kernel), by decide +kernel, rfl, by decide +kernel, .inr (by decide), is_ok (by decide +kernel), may_retire ((mapped (by decide +kernel)).stores _ _ rfl (by decide)) (by decide +kernel), by decide +kernel, by intro k hk; have : k = (6, pk0) := by { rcases List.mem_append.mp hk with h | h <;> exact List.mem_singleton.mp h }; subst this; intros; nofun⟩

theorem witness_packetsRetire_6 :
  (∃ (s s1 s2 : State) (q a pa m : Nat) (p : Pkt) (e : Packet) (rest : AMap Packet),
    (ReadsPacket s q p s1) ∧ ((p.type = 5) ∧ (p.size = 1) ∧ (a = partOf p 8 8) ∧ (a % 8 = 0) ∧ (a < 2 ^ 57) ∧ (partOf p 0x18 8 < 2)) ∧ (s1.feAddr (keyPasid q) a 8 .store = (.ok pa, s2)) ∧ (MayRetire s2 q p) ∧ ((s2.fq q).packets = (m, e) :: rest) ∧ ((∀ b v f, e.kind ≠ .signal b v f))) :=
  ⟨pq one sg5M, _, _, 2, 0x50008, 0x50008, 6, pkt sg5, pk0, [], (mapped (by decide +kernel)).reads _ _ qc2 rfl rfl (by decide +kernel), by decide +kernel, ((mapped (by decide +kernel)).after 9).feAddr 0x50008 8 .store (by decide) (by decide), may_retire ((mapped (by decide +kernel)).stores _ _ rfl (by decide)) (by decide +kernel), by decide +kernel, by intros; nofun⟩

theorem witness_packetsRetire_5 :
  (∃ (s s1 s2 : State) (q a pa : Nat) (p : Pkt),
    (ReadsPacket s q p s1) ∧ ((p.type = 6) ∧ (p.size = 1) ∧ (a = partOf p 8 8) ∧ (a % 8 = 0) ∧ (a < 2 ^ 57)) ∧ (s1.feAddr (keyPasid q) a 8 .load = (.ok pa, s2)) ∧ (MayRetire s2 q p)) :=
  ⟨pq id wt6M, _, _, 2, 0x50008, 0x50008, pkt wt6, (mapped (by decide +kernel)).reads _ _ qc2 rfl rfl (by decide +kernel), by decide +kernel, ((mapped (by decide +kernel)).after 9).feAddr 0x50008 8 .load (by decide) (by decide), may_retire ((mapped (by decide +kernel)).stores _ _ rfl (by decide)) (by decide +kernel)⟩

theorem witness_packetsRetire_4 :
  (∃ (s s1 : State) (q : Nat) (p : Pkt),
    (ReadsPacket s q p s1) ∧ ((p.type = 4) ∧ (p.size = 1)) ∧ (MayRetire s1 q p)) :=
  ⟨pq id dp4M, _, 2, pkt dp4, (mapped (by decide +kernel)).reads _ _ qc2 rfl rfl (by decide +kernel), by decide +kernel, may_retire ((mapped (by decide +kernel)).stores _ _ rfl (by decide)) (by decide +kernel)⟩

theorem witness_packetsRetire_3 :
  (∃ (s s1 : State) (q n : Nat) (p : Pkt),
    (ReadsPacket s q p s1) ∧ (p.type = 8) ∧ (MayRetire s1 q p) ∧ ((s.fq q).tl = (s1.fq q).tl) ∧ (n = (s1.fq q).tl.accepted + 1) ∧ ((p.flags % 2 = 1) ∧ ((s1.fq q).packets ≠ []))) :=
  ⟨pq lpf np8bM, _, 2, 7, pkt np8b, (mapped (by decide +kernel)).reads _ _ qc2 rfl rfl (by decide +kernel), by decide +kernel, may_retire ((mapped (by decide +kernel)).stores _ _ rfl (by decide)) (by decide +kernel), by decide +kernel, rfl, by decide +kernel⟩

theorem witness_packetsRetire_2 :
  (∃ (s s1 : State) (q n : Nat) (p : Pkt),
    (ReadsPacket s q p s1) ∧ (p.type = 8) ∧ (MayRetire s1 q p) ∧ ((s.fq q).tl = (s1.fq q).tl) ∧ (n = (s1.fq q).tl.accepted + 1) ∧ ((p.flags % 2 = 0 ∨ (s1.fq q).packets = [])) ∧ (NextOf s1 q n)) :=
  ⟨pq id np8M, _, 2, 7, pkt np8, (mapped (by decide +kernel)).reads _ _ qc2 rfl rfl (by decide +kernel), by decide +kernel, may_retire ((mapped (by decide +kernel)).stores _ _ rfl (by decide)) (by decide +kernel), by decide +kernel, rfl, by decide +kernel, next_of (by decide +kernel)⟩

theorem witness_packetsRetire_1 :
  (∃ (s s1 s2 s3 s4 : State) (q l : Nat) (p : Pkt) (k : KDesc) (hs : List (Nat × Bool)) (x : Launch),
    (ReadsPacket s q p s1) ∧ ((p.type = 1) ∧ (p.size ≤ 2) ∧ (partOf p 0x10 4 ≠ 0) ∧ (partOf p 0x14 4 ≤ 64 * k.waves) ∧ (partOf p 0x14 4 < 2 ^ 11) ∧ (partOf p 0x38 4 ≤ 16) ∧ ((partOf p 0x38 4 = 0 ∨ p.size = 2)) ∧ (partOf p 0x3C 4 = 0) ∧ ((∀ i, i < partOf p 0x38 4 → partOf p (0x40 + 4 * i) 4 < 512))) ∧ (hs = ((List.range (partOf p 0x38 4)).map fun i => (partOf p (0x40 + 4 * i) 4 % 256, decide (partOf p (0x40 + 4 * i) 4 / 256 = 1)))) ∧ (s1.vet (keyPasid q) p.slot (partOf p 8 8) 0 = (.ok k, s2)) ∧ (s2.checkHandles q p.slot ((List.range (partOf p 0x38 4)).map fun i => partOf p (0x40 + 4 * i) 4) = (none, s3)) ∧ (l = s3.nextId) ∧ (x = { Launch.blank with
      lref := BitVec.ofNat 64 (2 ^ 32 * p.tag + 2 ^ 20 * (q % 256) + (keyPasid q).toNat), pasid := keyPasid q,
      die := q / 2 ^ 28, queue := some (q, (s3.fq q).tl.accepted + 1), root := q, kd := k, kaddr := partOf p 8 8,
      ngroups := partOf p 0x10 4, threads := if partOf p 0x14 4 = 0 then 64 * k.waves else partOf p 0x14 4,
      args := (List.range 8).map fun i => BitVec.ofNat 32 (partOf p (0x18 + 4 * i) 4), handles := hs,
      gate := match (s3.fq q).last with
        | some (m, true) => some m
        | _ => none }) ∧ (s4 = { s3 with launches := AMap.put s3.launches l x, nextId := l + 1, queues := AMap.put s3.queues q { (s3.fq q).track ((s3.fq q).tl.accepted + 1) hs with last := some (l, (p.flags / 2) % 2 == 1) } }) ∧ (MayRetire s4 q p)) :=
  ⟨pq lpf (lq0M ++ kd0), _, _, _, _, 2, _, pkt lq0, kd1, _, _, (mapped (by decide +kernel)).reads _ _ qc2 rfl rfl (by decide +kernel), by decide +kernel, rfl, ((mapped (by decide +kernel)).after 9).vet 0x20040 0x24000 0 kd1 [0x40000, 0x10200000000, 1, 0, 0, 0, 0, 0] (by decide +kernel) rfl (by decide +kernel) (by decide +kernel), rfl, rfl, rfl, rfl, may_retire ((mapped (by decide +kernel)).stores _ _ rfl (by decide)) (by decide +kernel)⟩

def fin (k : PacketKind) (b : Bool) (f : FQ) : FQ := { f with tl := ⟨6, 7, [], none⟩, packets := [(7, ⟨k, false, b, []⟩)] }
def qrs (c : Nat) (b : Byte) : State := { st w0 with mem := [(0x18100, 2), (0x18102, 2), (0x18108, 5), (0x18110, 8), (0x18118, b), (0x1811A, 0x40), (0x1811C, 7)], queues := [(2, { FQ.blank with at_ := 0x18100, qcb := some { qc2 with ctl := c } })] }
theorem witness_packetsComplete_8 :
  (∃ (s : State) (die q : Nat) (v : BitVec 64) (f : FQ),
    (q = 2 ^ 28 * die + v.toNat % 2 ^ 28) ∧ (AMap.find s.queues q = some f)) :=
  ⟨{ st w0 with queues := [(2 ^ 28 + 0x105, { FQ.blank with qcb := some qc2 })] }, 1, 2 ^ 28 + 0x105, 0xF000000000000105, { FQ.blank with qcb := some qc2 }, rfl, by decide +kernel⟩

theorem witness_packetsComplete_7 :
  (∃ (s : State) (q pa ctl : Nat) (c : Qcb),
    ((s.linksSteady = true) ∧ ((s.fq q).qcb = some c) ∧ (pa = (s.fq q).at_)) ∧ (InDram pa 128) ∧ ((pa % 8 = 0) ∧ (ctl = atHome s (pa + 0x18) 4) ∧ (ctl.testBit 3 = true))) :=
  ⟨qrs 0xFF0005 0x0D, 2, 0x18100, 0x40000D, { qc2 with ctl := 0xFF0005 }, by decide +kernel, inDram (by decide), by decide +kernel⟩

theorem witness_packetsComplete_6 :
  (∃ (s : State) (q pa : Nat) (c : Qcb),
    ((s.linksSteady = true) ∧ ((s.fq q).qcb = some c) ∧ (pa = (s.fq q).at_)) ∧ (InDram pa 128) ∧ (pa % 8 = 0) ∧ ((∀ n, Quiet (s.fq q) n)) ∧ ((atHome s (pa + 0x18) 4).testBit 2 = c.ctl.testBit 2)) :=
  ⟨pq (fun f => { f with qcb := some { qc2 with wridx := 5 } }) [], 2, 0x18100, { qc2 with wridx := 5 }, by decide +kernel, inDram (by decide), by decide +kernel, quiet_all (by decide), by decide +kernel⟩

theorem witness_packetsComplete_5 :
  (∃ (s : State) (q n : Nat) (p : Packet),
    ((s.linksSteady = true) ∧ (AMap.find (s.fq q).packets n = some p) ∧ (p.kind = .firmware) ∧ (p.started = true) ∧ ((∀ e ∈ (s.fq q).packets, e.1 ≠ n → e.2.kind ≠ .firmware))) ∧ (NextOf s q n) ∧ (Quiet (s.fq q) n)) :=
  ⟨pq (fun f => { fin .firmware true f with qcb := some { qc2 with wridx := 5 } }) [], 2, 7, ⟨.firmware, false, true, []⟩, by decide +kernel, next_of (by decide +kernel), quiet (by decide +kernel)⟩

theorem witness_packetsComplete_4 :
  (∃ (s s1 s2 : State) (q n h base bytes htab : Nat) (ro dram retire b : Bool) (p : Packet),
    (s.linksSteady = true) ∧ (s.openQueue q = (none, s1)) ∧ (p = ⟨.handle h ro dram retire base bytes, b, true, []⟩) ∧ (MayStart (s1.fq q) n p) ∧ ((∀ e ∈ (s1.fq q).packets, ∀ h b d r y z, e.1 ≠ n → e.2.kind ≠ .handle h b d r y z)) ∧ (htab = s1.homeValue ((s1.fq q).at_ + 0x30) 8 / 2 ^ 12 % 2 ^ 45 * 2 ^ 12) ∧ (s1.feStores (keyPasid q) (htab + 16 * h) (if retire then [0, 0] else [base, bytes + 2 ^ 48 + (if ro then 2 ^ 49 else 0) + (if dram then 2 ^ 50 else 0)]) = (none, s2)) ∧ (NextOf s2 q n) ∧ (Quiet (s2.fq q) n)) :=
  ⟨pq (fun f => { fin (.handle 5 true true false 0x60010 0x1000) true f with qcb := some { qc2 with wridx := 5 } }) [], _, _, 2, 7, 5, 0x60010, 0x1000, _, true, true, false, false, _, by decide +kernel, none_pair (by decide +kernel), rfl, by unfold MayStart; decide +kernel, fun e he _ _ _ _ _ _ hn => absurd (congrArg Prod.fst (List.mem_singleton.mp (show e ∈ [((7 : Nat), (⟨.handle 5 true true false 0x60010 0x1000, false, true, []⟩ : Packet))] from he))) hn, rfl, none_pair (by decide +kernel), next_of (by decide +kernel), quiet (by decide +kernel)⟩

theorem witness_packetsComplete_3 :
  (∃ (s s1 s2 : State) (q n a v pa : Nat) (add b : Bool) (rest : AMap Packet),
    (s.linksSteady = true) ∧ (s.openQueue q = (none, s1)) ∧ ((s1.fq q).packets = (n, ⟨.signal a v add, b, true, []⟩) :: rest) ∧ (s1.feAddr (keyPasid q) a 8 .store = (.ok pa, s2)) ∧ (InDram pa 8) ∧ (pa % 8 = 0) ∧ (NextOf s2 q n) ∧ (Quiet (s2.fq q) n)) :=
  ⟨{ pq (fin (.signal 0x50008 (2 ^ 64 - 2) true) true) [(0x50008, 5), (0x50009, 1)] with dies := [(0, { DieSt.blank with qroot := 0x8000 })], queues := (pq (fun f => { fin (.signal 0x50008 (2 ^ 64 - 2) true) true f with qcb := some { qc2 with wridx := 5 } }) []).queues }, _, _, 2, 7, 0x50008, 2 ^ 64 - 2, 0x50008, true, false, [], by decide +kernel, none_pair (by decide +kernel), by decide +kernel, (mapped (by decide +kernel)).feAddr 0x50008 8 .store (by decide) (by decide), inDram (by decide), by decide +kernel, next_of (by decide +kernel), quiet (by decide +kernel)⟩

theorem witness_packetsComplete_2 :
  (∃ (s s1 : State) (q n a v pa : Nat) (b : Bool),
    (s.linksSteady = true) ∧ (MayStart (s.fq q) n ⟨.wait a v, b, false, []⟩) ∧ (s.feAddr (keyPasid q) a 8 .load = (.ok pa, s1)) ∧ (NextOf s1 q n) ∧ (Quiet (s1.fq q) n)) :=
  ⟨pq (fin (.wait 0x50008 0x105) false) [(0x50008, 5), (0x50009, 1)], _, 2, 7, 0x50008, 0x105, 0x50008, false, by decide +kernel, by unfold MayStart; decide +kernel, (mapped (by decide +kernel)).feAddr 0x50008 8 .load (by decide) (by decide), next_of (by decide +kernel), quiet (by decide +kernel)⟩

theorem witness_packetsComplete_1 :
  (∃ (s s1 : State) (q n k v pa : Nat) (b : Bool),
    (s.linksSteady = true) ∧ (MayStart (s.fq q) n ⟨.dependency [(k, v)], b, false, []⟩) ∧ (s.findQueue (queueKey (keyDie q) (keyPasid q) k) = (.qcb pa, s1)) ∧ (NextOf s1 q n) ∧ (Quiet (s1.fq q) n)) :=
  ⟨pq (fin (.dependency [(3, 9)]) false) ([(0x181A8, 9)]), _, 2, 7, 3, 9, 0x18180, false, by decide +kernel, by unfold MayStart; decide +kernel, eq_pair (by decide +kernel), next_of (by decide +kernel), quiet (by decide +kernel)⟩

def gds : List Nat := [0x700010102, 0x24000, 0x200000, 4 + 2 ^ 49, 0x300000, 0, 0, 0]
def gdsM : Memory := [(0x20040, 0x2), (0x20041, 0x1), (0x20042, 0x1), (0x20044, 0x7), (0x20049, 0x40), (0x2004A, 0x2), (0x20052, 0x20), (0x20058, 0x4), (0x2005E, 0x2), (0x20062, 0x30)]
def gpq (m : Memory) (n : Nat) : State := { pq id m with fabric := { Fabric.blank with featacc := BitVec.ofNat 64 (2 ^ n) } }
def dgs : List Nat := [0x700010102 + 1, 0x24000, 0x200000, 4 + 2 ^ 49, 0x300000, 0x2A000, 0, 0]
def dgsM : Memory := [(0x20040, 0x3), (0x20041, 0x1), (0x20042, 0x1), (0x20044, 0x7), (0x20049, 0x40), (0x2004A, 0x2), (0x20052, 0x20), (0x20058, 0x4), (0x2005E, 0x2), (0x20062, 0x30), (0x20069, 0xA0), (0x2006A, 0x2)]
def dgtM : Memory := [(0x2A002, 0x10), (0x2A008, 0x40), (0x2A00C, 0x10), (0x2A00E, 0x9)]
def gk1 : KDesc := { kd1 with kkind := 1, nodes := 0x26000, nnodes := 1 }
def gkm1 : Memory := [(0x24002, 4), (0x2400C, 2), (0x2400D, 1), (0x24010, 1), (0x24013, 1), (0x24021, 0x60), (0x24022, 2), (0x24028, 1), (0x26000, 3), (0x26004, 0x10), (0x26006, 4), (0x26008, 1), (0x2600C, 9), (0x26011, 1)]
def gnd : GNode := ⟨3, 4, 0, 1, 9, 0, 1, 0, KDesc.blank⟩
def gpk : Packet := ⟨.launch 2, false, false, []⟩
def gst : State := { pq (fun f => { f with qcb := some { qc2 with wridx := 5 }, packets := [(7, gpk)] }) [] with
  launches := [(1, Launch.blank), (2, { Launch.blank with kind := .graph, kd := { KDesc.blank with prio := 9 } })], graphs := [(9, gr fun y => { y with slots := [(0, ⟨1, none, none, none⟩)] })], fabric := { Fabric.blank with lock := true } }
theorem witness_graphPackets_3 :
  (∃ (i : Instr) (s s1 : State) (q n l g : Nat) (p : Packet) (x : Launch) (y : Graph) (nd : GNode) (r : RecSlot),
    ((i = .graphDispatch q ∨ i = .drawGraph q) ∧ (s.linksSteady = true)) ∧ (s.openQueue q = (none, s1)) ∧ ((s1.fabric.lock = true) ∧ (s1.queueOn q = true)) ∧ (Quiet (s1.fq q) n) ∧ (MayStart (s1.fq q) n p) ∧ ((p.kind = .launch l) ∧ (p.started = false) ∧ (AMap.find s1.launches l = some x) ∧ (x.kind = .graph) ∧ ((∀ e ∈ (s1.fq q).packets, e.1 ≠ n → e.2.started = true)) ∧ (s1.graphs = [(g, y)]) ∧ (y.launch = l) ∧ (y.slots = [(0, r)]) ∧ (y.pending = []) ∧ (y.nodes[r.node]? = some nd) ∧ (2 ≤ nd.batch))) :=
  ⟨.graphDispatch 2, gst, _, 2, 7, 2, 9, gpk, { Launch.blank with kind := .graph, kd := { KDesc.blank with prio := 9 } }, gr fun y => { y with slots := [(0, ⟨1, none, none, none⟩)] }, gn fun n => { n with reserve := 2 }, ⟨1, none, none, none⟩, by decide +kernel, none_pair (by decide +kernel), by decide +kernel, quiet (by decide +kernel), by unfold MayStart; decide +kernel, by decide +kernel⟩

theorem witness_graphPackets_2 :
  (∃ (draw : Bool) (s s1 s2 s3 s4 s5 : State) (q l : Nat) (p : Pkt) (k : KDesc) (ns : List GNode) (nd : GNode) (ws : List Nat) (ts : List Target) (x : Launch) (y : Graph),
    (ReadsPacket s q p s1) ∧ ((p.type = (if draw then 3 else 2)) ∧ (p.size = 1) ∧ (partOf p 0x10 8 % 256 = 0) ∧ (partOf p 0x10 8 < 2 ^ 57) ∧ (1 ≤ partOf p 0x18 4) ∧ (partOf p 0x18 4 ≤ 2 ^ 24) ∧ (partOf p 0x20 8 % 512 = 0) ∧ (partOf p 0x20 8 < 2 ^ 57) ∧ (partOf p 0x28 8 % 128 = 0) ∧ (partOf p 0x28 8 < 2 ^ 57) ∧ ((draw = true ↔ partOf p 0x28 8 ≠ 0)) ∧ (partOf p 0x30 8 = 0) ∧ (partOf p 0x38 8 = 0) ∧ (s1.fabric.featacc.getLsbD (if draw then 5 else 4) = true)) ∧ (s1.vet (keyPasid q) p.slot (partOf p 8 8) 1 = (.ok k, s2)) ∧ (s2.readNodes (keyPasid q) p.slot draw k.nodes k.nnodes = (.ok ns, s3)) ∧ ((ns[partOf p 0x1C 2]? = some nd) ∧ ((ns.map fun n => n.reserve).sum ≤ partOf p 0x18 4) ∧ (partOf p 0x1E 2 + ((ns.map fun n => n.reserve).sum - nd.reserve) ≤ partOf p 0x18 4)) ∧ ((if draw then s3.feWords (keyPasid q) (partOf p 0x28 8) 16 = (.ok ws, s4) ∧ targetsOf ws = some ts else s4 = s3 ∧ ts = [])) ∧ (l = s4.nextId) ∧ (x = { Launch.blank with lref := BitVec.ofNat 64 (2 ^ 32 * p.tag + 2 ^ 20 * (q % 256) + (keyPasid q).toNat), pasid := keyPasid q, die := q / 2 ^ 28, kind := .graph, queue := some (q, (s4.fq q).tl.accepted + 1), root := q, kd := { k with groups := 1 }, kaddr := partOf p 8 8 }) ∧ (s5 = { s4 with launches := AMap.put s4.launches l x, nextId := l + 2, freeCtr := s4.freeCtr + 1, graphs := AMap.put s4.graphs (l + 1) y }) ∧ (y.launch = l) ∧ (y.die = q / 2 ^ 28) ∧ (y.pool = partOf p 0x10 8) ∧ (y.nslot = partOf p 0x18 4) ∧ (y.btab = partOf p 0x20 8) ∧ (y.draw = draw) ∧ (y.targets = ts) ∧ (y.nodes = ns) ∧ (y.slots = ((List.range (partOf p 0x1E 2)).map fun i => (i, ⟨partOf p 0x1C 2, none, none, none⟩))) ∧ (y.commits = (Config.freeValue s4.freeCtr).toNat) ∧ (y.pending = []) ∧ (y.waiters = []) ∧ (y.prims = 0) ∧ (MayRetire s5 q p) ∧ (draw = true)) :=
  ⟨true, gpq (dgsM ++ gkm1 ++ dgtM) 5, _, _, _, _, _, 2, _, pkt dgs, gk1, [{ gnd with pix := { KDesc.blank with groups := 1 } }], { gnd with pix := { KDesc.blank with groups := 1 } }, _, _, _, ⟨_, _, _, _, _, _, _, _, _, _, _, _, _⟩, (mapped (by decide +kernel)).reads _ _ qc2 rfl rfl (by decide +kernel), by decide +kernel, ((mapped (by decide +kernel)).after 9).vet 0x20040 0x24000 1 gk1 [0x40000, 0x10200000000, 0x1000001, 0, 0x26000, 1, 0, 0] (by decide +kernel) rfl (by decide +kernel) (by decide +kernel), (mapped (by decide +kernel)).readNode _ 0x20040 0x26000 [0x4001000000003, 0x900000001, 0x100, 0] gnd (by decide +kernel) rfl (by decide +kernel), by decide +kernel, ⟨(mapped (by decide +kernel)).feWords 0x2A000 16 (by decide), some_of (by decide +kernel)⟩, rfl, rfl, rfl, rfl, rfl, rfl, rfl, rfl, rfl, rfl, rfl, rfl, rfl, rfl, rfl, rfl, may_retire ((mapped (by decide +kernel)).stores _ _ rfl (by decide)) (by decide +kernel), by decide +kernel⟩

theorem witness_graphPackets_1 :
  (∃ (draw : Bool) (s s1 s2 s3 s4 s5 : State) (q l : Nat) (p : Pkt) (k : KDesc) (ns : List GNode) (nd : GNode) (ws : List Nat) (ts : List Target) (x : Launch) (y : Graph),
    (ReadsPacket s q p s1) ∧ ((p.type = (if draw then 3 else 2)) ∧ (p.size = 1) ∧ (partOf p 0x10 8 % 256 = 0) ∧ (partOf p 0x10 8 < 2 ^ 57) ∧ (1 ≤ partOf p 0x18 4) ∧ (partOf p 0x18 4 ≤ 2 ^ 24) ∧ (partOf p 0x20 8 % 512 = 0) ∧ (partOf p 0x20 8 < 2 ^ 57) ∧ (partOf p 0x28 8 % 128 = 0) ∧ (partOf p 0x28 8 < 2 ^ 57) ∧ ((draw = true ↔ partOf p 0x28 8 ≠ 0)) ∧ (partOf p 0x30 8 = 0) ∧ (partOf p 0x38 8 = 0) ∧ (s1.fabric.featacc.getLsbD (if draw then 5 else 4) = true)) ∧ (s1.vet (keyPasid q) p.slot (partOf p 8 8) 1 = (.ok k, s2)) ∧ (s2.readNodes (keyPasid q) p.slot draw k.nodes k.nnodes = (.ok ns, s3)) ∧ ((ns[partOf p 0x1C 2]? = some nd) ∧ ((ns.map fun n => n.reserve).sum ≤ partOf p 0x18 4) ∧ (partOf p 0x1E 2 + ((ns.map fun n => n.reserve).sum - nd.reserve) ≤ partOf p 0x18 4)) ∧ ((if draw then s3.feWords (keyPasid q) (partOf p 0x28 8) 16 = (.ok ws, s4) ∧ targetsOf ws = some ts else s4 = s3 ∧ ts = [])) ∧ (l = s4.nextId) ∧ (x = { Launch.blank with lref := BitVec.ofNat 64 (2 ^ 32 * p.tag + 2 ^ 20 * (q % 256) + (keyPasid q).toNat), pasid := keyPasid q, die := q / 2 ^ 28, kind := .graph, queue := some (q, (s4.fq q).tl.accepted + 1), root := q, kd := { k with groups := 1 }, kaddr := partOf p 8 8 }) ∧ (s5 = { s4 with launches := AMap.put s4.launches l x, nextId := l + 2, freeCtr := s4.freeCtr + 1, graphs := AMap.put s4.graphs (l + 1) y }) ∧ (y.launch = l) ∧ (y.die = q / 2 ^ 28) ∧ (y.pool = partOf p 0x10 8) ∧ (y.nslot = partOf p 0x18 4) ∧ (y.btab = partOf p 0x20 8) ∧ (y.draw = draw) ∧ (y.targets = ts) ∧ (y.nodes = ns) ∧ (y.slots = ((List.range (partOf p 0x1E 2)).map fun i => (i, ⟨partOf p 0x1C 2, none, none, none⟩))) ∧ (y.commits = (Config.freeValue s4.freeCtr).toNat) ∧ (y.pending = []) ∧ (y.waiters = []) ∧ (y.prims = 0) ∧ (MayRetire s5 q p) ∧ (draw = false)) :=
  ⟨false, gpq (gdsM ++ gkm1) 4, _, _, _, _, _, 2, _, pkt gds, gk1, [{ gnd with pix := { KDesc.blank with groups := 1 } }], { gnd with pix := { KDesc.blank with groups := 1 } }, [], [], _, ⟨_, _, _, _, _, _, _, _, _, _, _, _, _⟩, (mapped (by decide +kernel)).reads _ _ qc2 rfl rfl (by decide +kernel), by decide +kernel, ((mapped (by decide +kernel)).after 9).vet 0x20040 0x24000 1 gk1 [0x40000, 0x10200000000, 0x1000001, 0, 0x26000, 1, 0, 0] (by decide +kernel) rfl (by decide +kernel) (by decide +kernel), (mapped (by decide +kernel)).readNode _ 0x20040 0x26000 [0x4001000000003, 0x900000001, 0x100, 0] gnd (by decide +kernel) rfl (by decide +kernel), by decide +kernel, ⟨rfl, rfl⟩, rfl, rfl, rfl, rfl, rfl, rfl, rfl, rfl, rfl, rfl, rfl, rfl, rfl, rfl, rfl, rfl, may_retire ((mapped (by decide +kernel)).stores _ _ rfl (by decide)) (by decide +kernel), by decide +kernel⟩

def gs0 : State := { gst with graphs := [(9, gr fun y => { y with slots := [] })] }
theorem witness_frontEndMovesComplete_6 :
  (∃ (i : Instr) (s s1 : State) (q n l g : Nat) (p : Packet) (x : Launch) (y : Graph),
    ((i = .graphDispatch q ∨ i = .drawGraph q) ∧ (s.linksSteady = true)) ∧ (s.openQueue q = (none, s1)) ∧ ((s1.fabric.lock = true) ∧ (s1.queueOn q = true)) ∧ (Quiet (s1.fq q) n) ∧ (MayStart (s1.fq q) n p) ∧ ((p.kind = .launch l) ∧ (p.started = false) ∧ (AMap.find s1.launches l = some x) ∧ (x.kind = .graph) ∧ ((∀ e ∈ (s1.fq q).packets, e.1 ≠ n → e.2.started = true)) ∧ (s1.graphs = [(g, y)]) ∧ (y.launch = l) ∧ (y.slots = []) ∧ (y.pending = []))) :=
  ⟨.drawGraph 2, gs0, _, 2, 7, 2, 9, gpk, { Launch.blank with kind := .graph, kd := { KDesc.blank with prio := 9 } }, gr fun y => { y with slots := [] }, by decide +kernel, none_pair (by decide +kernel), by decide +kernel, quiet (by decide +kernel), by unfold MayStart; decide +kernel, by decide +kernel⟩

theorem witness_frontEndMovesComplete_5 :
  (∃ (s s1 : State) (q n a v pa : Nat) (b : Bool),
    (s.linksSteady = true) ∧ (MayStart (s.fq q) n ⟨.wait a v, b, false, []⟩) ∧ (s.feAddr (keyPasid q) a 8 .load = (.ok pa, s1)) ∧ (NextOf s1 q n) ∧ (Quiet (s1.fq q) n) ∧ (v ≤ s1.homeValue pa 8)) :=
  ⟨pq (fin (.wait 0x50008 0x105) false) [(0x50008, 5), (0x50009, 1)], _, 2, 7, 0x50008, 0x105, 0x50008, false, by decide +kernel, by unfold MayStart; decide +kernel, (mapped (by decide +kernel)).feAddr 0x50008 8 .load (by decide) (by decide), next_of (by decide +kernel), quiet (by decide +kernel), by decide +kernel⟩

theorem witness_frontEndMovesComplete_4 :
  (∃ (s s1 : State) (q n k v pa : Nat) (b : Bool),
    (s.linksSteady = true) ∧ (MayStart (s.fq q) n ⟨.dependency [(k, v)], b, false, []⟩) ∧ (s.findQueue (queueKey (keyDie q) (keyPasid q) k) = (.qcb pa, s1)) ∧ (NextOf s1 q n) ∧ (Quiet (s1.fq q) n) ∧ (v ≤ s1.homeValue (pa + 0x28) 8)) :=
  ⟨pq (fin (.dependency [(3, 9)]) false) ([(0x181A8, 9)]), _, 2, 7, 3, 9, 0x18180, false, by decide +kernel, by unfold MayStart; decide +kernel, eq_pair (by decide +kernel), next_of (by decide +kernel), quiet (by decide +kernel), by decide +kernel⟩

theorem witness_frontEndMovesComplete_3 :
  (∃ (s : State) (die : Nat) (v : BitVec 64) (f : FQ),
    (AMap.find s.queues (2 ^ 28 * die + v.toNat % 2 ^ 28) = some f)) :=
  ⟨{ st w0 with queues := [(2 ^ 28 + 0x105, { FQ.blank with qcb := some qc2 })] }, 1, 0xF000000000000105, { FQ.blank with qcb := some qc2 }, by decide +kernel⟩

theorem witness_frontEndMovesComplete_2 :
  (∃ (s : State) (q pa : Nat) (c : Qcb),
    ((s.linksSteady = true) ∧ ((s.fq q).qcb = some c) ∧ (pa = (s.fq q).at_)) ∧ (InDram pa 128) ∧ ((pa % 8 = 0) ∧ (c.ctl.testBit 2 = true) ∧ ((atHome s (pa + 0x18) 4).testBit 2 = true) ∧ ((atHome s (pa + 0x18) 4).testBit 3 = true))) :=
  ⟨qrs 0xFF0005 0x0D, 2, 0x18100, { qc2 with ctl := 0xFF0005 }, by decide +kernel, inDram (by decide), by decide +kernel⟩

theorem witness_frontEndMovesComplete_1 :
  (∃ (s : State) (q pa : Nat) (c : Qcb),
    ((s.linksSteady = true) ∧ ((s.fq q).qcb = some c) ∧ (pa = (s.fq q).at_)) ∧ (InDram pa 128) ∧ (pa % 8 = 0) ∧ ((∀ n, Quiet (s.fq q) n)) ∧ ((c.ctl.testBit 2 = false) ∧ ((atHome s (pa + 0x18) 4).testBit 2 = false))) :=
  ⟨pq (fun f => { f with qcb := some { qc2 with wridx := 5 } }) [], 2, 0x18100, { qc2 with wridx := 5 }, by decide +kernel, inDram (by decide), by decide +kernel, quiet_all (by decide), by decide +kernel⟩

def run (s : State) : State := { s with fabric := { Fabric.blank with boot := .running } }
def cd : CtxDesc := ⟨1, 7, 0xFFFFFFFFFFFFFFFF, 0xFFFFFFFFFFFFFFFF, 0xFFFFFFFFFFFFFFFF, 0xFFFFFFFFFFFFFFFF, 0xFFFFFFFFFFFFFFFF, 3, 2, 1⟩
/-- A mailbox at 0x60000 whose entry 0 is not free. -/
def mb (m : Memory) (a : List (Nat × Bool)) (s : State) : State := { vm m s with contexts := [(0, ⟨⟨0, 0, 0, 0x1000, 0, 0, 0x60000, 3, 0, 1⟩, a, []⟩)] }
def pku (c : Cause) (po : Option (BitVec 8)) : Parked := ⟨run0, 5, c, true, 0x1234567, 1, false, po, [1, 2, 3, 4], 8, 2, none, none, 0⟩
def pwm (c : Cause) (po : Option (BitVec 8)) : Wave := { w0 with threads := [(0, .parked), (63, .parked)], parked := [pku c po], f := [(2, 1)] }
def mba (a : Bool) (c : Cause) : State := mb [(0x60081, 2), (0x600B0, 9), (0x600B4, 8), (0x600B9, 7), (0x600BF, 6)] [(2, a)] (st (pwm c (some 2)))
def cxa (a : Bool) : Ctx := ⟨⟨0, 0, 0, 0x1000, 0, 0, 0x60000, 3, 0, 1⟩, [(2, a)], []⟩
theorem witness_contextEvents_7 :
  (∃ (s u : State) (pasid : BitVec 20) (e w : Nat) (entry : BitVec 8) (act : Bool) (x : Ctx) (y : Wave) (p : Parked) (reply : Nat → Nat),
    ((AMap.find s.contexts pasid.toNat = some x) ∧ (e = entry.toNat) ∧ (x.actions = [(e, act)]) ∧ (s.waves = [(w, y)]) ∧ (y.pasid = pasid) ∧ (y.slot.isSome) ∧ (y.parked = [p]) ∧ (p.posted = some entry) ∧ (p.polling = none) ∧ (p.onTl = none) ∧ (p.flag.toNat < 12) ∧ (p.cause ∈ [.upcall, .translation, .fetchFault, .access, .dataLoss, .breakpoint])) ∧ (u = s.acquire y.core) ∧ ((∀ k, k < 4 → ∃ pa, u.mailPa pasid e (0x30 + 4 * k) = some pa ∧ reply k = u.homeValue pa 4))) :=
  ⟨mba false .upcall, _, 0, 2, 0, 2, false, cxa false, pwm .upcall (some 2), pku .upcall (some 2), fun k => [9, 8, 0x700, 0x6000000].getD k 0, by decide +kernel, rfl, fun k h => ⟨0x600B0 + 4 * k, by have : k = 0 ∨ k = 1 ∨ k = 2 ∨ k = 3 := by { omega }; rcases this with rfl | rfl | rfl | rfl <;> decide⟩⟩

theorem witness_contextEvents_6 :
  (∃ (s r : State) (die pasid entry action : Nat) (v : BitVec 64) (x : Ctx),
    ((v.toNat = 2 ^ 44 * pasid + 2 ^ 8 * action + entry) ∧ (pasid < 2 ^ 20) ∧ (entry < 256) ∧ (action < 4) ∧ (AMap.find s.contexts pasid = some x)) ∧ ((2 ≤ action ∨ x.desc.mbdie.toNat ≠ die ∨ s.mailState (BitVec.ofNat 20 pasid) entry ≠ 1))) :=
  ⟨mb [(0x60081, 2)] [(9, false)] (st w0), st w0, 0, 0, 2, 1, 0x102, ⟨⟨0, 0, 0, 0x1000, 0, 0, 0x60000, 3, 0, 1⟩, [(9, false)], []⟩, by decide +kernel, by decide⟩

theorem witness_contextEvents_5 :
  (∃ (s r : State) (die pasid entry action : Nat) (v : BitVec 64) (x : Ctx),
    ((v.toNat = 2 ^ 44 * pasid + 2 ^ 8 * action + entry) ∧ (pasid < 2 ^ 20) ∧ (entry < 256) ∧ (action < 4) ∧ (AMap.find s.contexts pasid = some x)) ∧ ((action < 2 ∧ x.desc.mbdie.toNat = die ∧ s.mailState (BitVec.ofNat 20 pasid) entry = 1)) ∧ (r = s.setMailState (BitVec.ofNat 20 pasid) entry 2)) :=
  ⟨mb [(0x60081, 1)] [(9, false)] (st w0), (mb [(0x60081, 1)] [(9, false)] (st w0)).setMailState 0 2 2, 0, 0, 2, 1, 0x102, ⟨⟨0, 0, 0, 0x1000, 0, 0, 0x60000, 3, 0, 1⟩, [(9, false)], []⟩, by decide +kernel, by decide, rfl⟩

theorem witness_contextEvents_4 :
  (∃ (s : State) (w : Nat),
    (((s.wave w).parked ≠ []) ∧ (s.mailFree (s.wave w).pasid = none))) :=
  ⟨inP (st (pwm .upcall none)), 0, by decide +kernel⟩

theorem witness_contextEvents_3 :
  (∃ (s r : State) (w e : Nat) (p : Parked) (arg : Nat → Nat),
    (((s.wave w).parked = [p]) ∧ (p.system = true) ∧ (p.posted = none) ∧ (s.mailFree (s.wave w).pasid = some e) ∧ (e < 256) ∧ ((∀ y ∈ s.waves, y.1 = w → y.2 = s.wave w)) ∧ ((∀ y ∈ s.waves, y.1 ≠ w → y.2.pasid = (s.wave w).pasid → ∀ z ∈ y.2.parked, z.system = true → z.posted = none → p.seq < z.seq)) ∧ (p.cause ∈ [.upcall, .translation, .fetchFault, .access, .dataLoss, .breakpoint])) ∧ ((arg = fun k => if p.cause = .upcall then (p.args.getD k 0).toNat else 0)) ∧ (r = (s.release (s.wave w).core 0xFF).postMail (s.wave w).pasid e [(0, 1, (mailKind p).1), (2, 1, (mailKind p).2), (3, 1, (s.wave w).waveid.toNat), (4, 4, (s.wave w).image), (8, 8, p.addr.toNat % 2 ^ 57), (0x10, 4, arg 0), (0x14, 4, arg 1), (0x18, 4, arg 2), (0x1C, 4, arg 3), (0x20, 4, p.pc.toNat), (0x24, 4, (s.wave w).place.toNat), (0x28, 8, p.members.toNat)]) ∧ ((r.wave w).parked = [p])) :=
  ⟨{ mb [(0x60001, 2)] [] (st (pwm .upcall none)) with cores := [(0, { CoreSt.blank with l1 := [(0x100000, ⟨5, true, 3⟩), (0x100001, ⟨6, false, 3⟩)] })] }, _, 0, 1, pku .upcall none, _, by decide +kernel, rfl, rfl, by decide +kernel⟩

theorem witness_contextEvents_2 :
  (∃ (s : State) (d : CtxDesc),
    (Firmware s) ∧ (((AMap.find s.parts d.part.toNat).isSome) ∧ ((AMap.find s.contexts d.pasid.toNat).isSome ∨ 8 ≤ d.ctlw.toNat))) :=
  ⟨run (inP (st w0)), { cd with pasid := 0 }, by unfold Firmware; decide, by decide +kernel⟩

theorem witness_contextEvents_1 :
  (∃ (s : State) (d : CtxDesc),
    (Firmware s) ∧ (((AMap.find s.parts d.part.toNat).isSome) ∧ (AMap.find s.contexts d.pasid.toNat = none) ∧ (d.ctlw.toNat < 8))) :=
  ⟨run (inP (st w0)), cd, by unfold Firmware; decide, by decide +kernel⟩

def tur : Turel := ⟨[(0, ⟨0, 2 ^ 57, 0, 15, 0, true⟩), (1, ⟨0x100000, 0x1000, 4, 11, 0, true⟩), (2, ⟨0x100100, 0x100, 7, 3, 1, true⟩), (3, ⟨0, 0, 9, 0, 1, false⟩)], 0, true⟩
def tus : State := { st w0 with turels := [(4, tur)] }
theorem witness_capabilityEvents :
  (∃ (s : State) (k win off : Nat) (gen fresh : Word) (w : BitVec 10) (base len : Nat) (perm : BitVec 4) (p : TWin),
    ((win < 1024) ∧ (off < 2 ^ 57) ∧ (AMap.find (s.turel k).wins win = some p) ∧ (p.valid = true) ∧ (p.gen = gen)) ∧ ((p.perm.getLsbD 3 = true ∧ w ≠ 0 ∧ perm &&& ~~~p.perm = 0 ∧ 1 ≤ len ∧ p.base ≤ base ∧
        base + len ≤ p.base + p.len ∧ fresh = (match AMap.find (s.turel k).wins w.toNat with
          | some y => y.gen
          | none => 0) ∧
        ∀ y, AMap.find (s.turel k).wins w.toNat = some y → y.valid = false ∧ y.gen ≠ 0xFFFFFFFF))) ∧
  (∃ (s : State) (k win off : Nat) (gen fresh : Word) (w : BitVec 10) (base len : Nat) (perm : BitVec 4) (p : TWin),
    ((win < 1024) ∧ (off < 2 ^ 57) ∧ (AMap.find (s.turel k).wins win = some p) ∧ (p.valid = true) ∧ (p.gen = gen)) ∧ ((p.perm.getLsbD 3 = false ∨ w = 0 ∨ perm &&& ~~~p.perm ≠ 0 ∨ len = 0 ∨ base < p.base ∨ p.base + p.len < base + len ∨ ∃ y, AMap.find (s.turel k).wins w.toNat = some y ∧ (y.valid = true ∨ y.gen = 0xFFFFFFFF)))) ∧
  (∃ (s : State) (k : Nat) (w : BitVec 10) (p : TWin),
    ((w ≠ 0) ∧ (AMap.find (s.turel k).wins w.toNat = some p) ∧ (p.valid = true))) ∧
  (∃ (s : State) (k win off n : Nat) (gen : Word) (acc : Access) (v : BitVec 64) (p : TWin) (may : Bool),
    ((win < 1024) ∧ (off < 2 ^ 57) ∧ (n ∈ [1, 2, 4, 8]) ∧ (AMap.find (s.turel k).wins win = some p)) ∧ (may = (p.valid && p.gen == gen && decide (off + n ≤ p.len) && s.servable (p.base + off) n acc && (match acc with
      | .load => p.perm.getLsbD 0
      | .store => p.perm.getLsbD 1
      | .fetch => p.perm.getLsbD 2)))) :=
  ⟨⟨tus, 4, 1, 0x30, 4, 9, 3, 0x100000, 0x1000, 3, ⟨0x100000, 0x1000, 4, 11, 0, true⟩, by decide, ⟨by decide, by decide, by decide, by decide, by decide, by decide, rfl, fun y h => by cases h; decide⟩⟩,
  ⟨tus, 4, 1, 0x30, 4, 9, 3, 0x100000, 0x1001, 3, ⟨0x100000, 0x1000, 4, 11, 0, true⟩, by decide, .inr (.inr (.inr (.inr (.inr (.inl (by decide))))))⟩,
  ⟨tus, 4, 1, ⟨0x100000, 0x1000, 4, 11, 0, true⟩, by decide⟩,
  ⟨{ tus with mem := [(0x100130, 7), (0x100133, 8)] }, 4, 2, 0x30, 4, 7, .load, 0x1122334455667788, ⟨0x100100, 0x100, 7, 3, 1, true⟩, _, by decide, rfl⟩⟩

def nqs (f : FQ → FQ) : State := run { pq f [] with fabric := Fabric.blank }
def np2 (n : List Notice) (m : Memory) : State := { nqs (fun f => { f with qcb := none, caps := none }) with
  mem := pt ([(0x8000, 5), (0x8002, 1), (0x10000, 7), (0x10001, 0x80), (0x10002, 1)] ++ m), notices := n }
def qes : State := run { mb [] [] (st w0) with notices := [.notPresent 2, .queueError 2] }
theorem witness_queueServiceEvents_5 :
  (∃ (s : State) (q e : Nat),
    (Firmware s) ∧ ((.queueError q ∈ s.notices) ∧ (s.mailFree (keyPasid q) = some e))) :=
  ⟨qes, 2, 0, by unfold Firmware; decide, by decide +kernel⟩

theorem witness_queueServiceEvents_4 :
  (∃ (s : State) (q : Nat),
    (Firmware s) ∧ ((.notPresent q ∉ s.notices) ∧ (.noQueue q ∈ s.notices))) :=
  ⟨np2 [.packet 2 3, .noQueue 2] q2b, 2, by unfold Firmware; decide, by decide +kernel⟩

theorem witness_queueServiceEvents_3 :
  (∃ (s r r1 : State) (q e pa : Nat),
    (Firmware s) ∧ ((.notPresent q ∈ s.notices) ∧ (s.absentEntry q = some e)) ∧ (InDram e 8) ∧ (r = ({ s with notices := s.notices.erase (.notPresent q) } : State).homeWrite e (s.homeByte e ||| 2)) ∧ (((s.fq q).resident = true) ∧ ((s.fq q).qcb = none) ∧ ((s.fq q).caps = none)) ∧ (r.walkQueue q = (.qcb pa, r1)) ∧ (((r1.queues.filter fun e => keyDie e.1 == keyDie q && e.2.qcb.isSome).length < 256) ∧ ((∀ k ∈ s.waves, k.2.sleepers = [])))) :=
  ⟨np2 [.noQueue 5, .notPresent 2] q2b, _, _, 2, 0x8000, 0x18100, by unfold Firmware; decide, by decide +kernel, inDram (by decide), rfl, by decide +kernel, eq_pair (by decide +kernel), by decide +kernel⟩

theorem witness_queueServiceEvents_2 :
  (∃ (s : State) (q : Nat),
    ((s.fq q).resident = true)) :=
  ⟨nqs id, 2, by decide +kernel⟩

theorem witness_queueServiceEvents_1 :
  (∃ (s r r1 : State) (q pa : Nat),
    (Firmware s) ∧ (((s.fq q).resident = false) ∧ ((s.queues.filter fun e => e.2.resident && keyDie e.1 == keyDie q).length < 1024)) ∧ (r = { s with queues := AMap.put s.queues q { s.fq q with resident := true, qcb := none, caps := none, written := (s.die (q / 2 ^ 28)).counter.toNat } }) ∧ (r.walkQueue q = (.qcb pa, r1)) ∧ ((r1.queues.filter fun e => keyDie e.1 == keyDie q && e.2.qcb.isSome).length < 256)) :=
  ⟨nqs fun _ => { FQ.blank with written := 3 }, _, _, 2, 0x18100, by unfold Firmware; decide, by decide +kernel, rfl, eq_pair (by decide +kernel), by decide +kernel⟩

def ps : PartSpec := ⟨[14, 13], 0x1000, 0, 2 ^ 30, [], some 0xC0000039⟩
def psh : Part := { part1 with shards := [(0, 5), (3, 6)] }
def pss : State := { run (inP (st w0)) with parts := [(1, psh)] }
def wh : Wave := { w0 with slot := none }
def pmv : State := { run (cl0 [] [] (inP (st wh))) with
  clusters := [(0, { ClusterSt.blank with scratch := [(0x2000, 1), (0x2FFF, 2), (0x3000, 3)], modes := [(0, 1)] }), (47, { ClusterSt.blank with scratch := [(0, 5), (0x1000, 9)], modes := [(0, 1)] })],
  groups := [(1, { g0 with slot := none })] }
/-- The same with no scratch bank in the cluster that stays. -/
def pnr : State := { pmv with clusters := [(0, { ClusterSt.blank with scratch := [(0x2000, 1), (0x2FFF, 2), (0x3000, 3)], modes := [(0, 1)] }), (47, ClusterSt.blank)] }
theorem witness_partitionEvents_5 :
  (∃ (s : State) (part : BitVec 8) (p : Part) (h g w a b base : Nat) (c : Cohort) (y : Group) (x : Wave),
    (Firmware s) ∧ ((AMap.find s.parts part.toNat = some p) ∧ (p.spec.clusters = [a, b]) ∧ (a ≠ b) ∧ (s.cohorts = [(h, c)]) ∧ (c.cluster = a) ∧ (c.groups = [g]) ∧ (s.groups = [(g, y)]) ∧ (y.slot = none) ∧ (y.cohort = h) ∧ (s.waves = [(w, x)]) ∧ (x.group = g) ∧ (s.reqs = []) ∧ (p.resizing = none) ∧ (p.leaving = []) ∧ ((s.cluster b).changing = []) ∧ (({ s with freeCtr := s.freeCtr + 1 } : State).allocBase b c.size = none))) :=
  ⟨pnr, 1, part1, 1, 1, 0, 0, 47, 0, h0, { g0 with slot := none }, wh, by unfold Firmware; decide, by decide +kernel⟩

theorem witness_partitionEvents_4 :
  (∃ (s : State) (part : BitVec 8) (p : Part) (h g w a b base : Nat) (c : Cohort) (y : Group) (x : Wave),
    (Firmware s) ∧ ((AMap.find s.parts part.toNat = some p) ∧ (p.spec.clusters = [a, b]) ∧ (a ≠ b) ∧ (s.cohorts = [(h, c)]) ∧ (c.cluster = a) ∧ (c.groups = [g]) ∧ (s.groups = [(g, y)]) ∧ (y.slot = none) ∧ (y.cohort = h) ∧ (s.waves = [(w, x)]) ∧ (x.group = g) ∧ (s.reqs = []) ∧ (p.resizing = none) ∧ (p.leaving = []) ∧ ((s.cluster b).changing = [])) ∧ (({ s with freeCtr := s.freeCtr + 1 } : State).allocBase b c.size = some base)) :=
  ⟨pmv, 1, part1, 1, 1, 0, 0, 47, _, h0, { g0 with slot := none }, wh, by unfold Firmware; decide, by decide +kernel, some_of (by decide +kernel)⟩

theorem witness_partitionEvents_3 :
  (∃ (s : State) (part : BitVec 8) (p : Part) (k : Nat),
    (Firmware s) ∧ ((AMap.find s.parts part.toNat = some p) ∧ (k < 48) ∧ (p.resizing = none) ∧ (p.leaving = []) ∧ ((∀ e ∈ s.parts, k ∉ e.2.spec.clusters ++ e.2.leaving))) ∧ ((∃ x ∈ p.shards, x.1 = k / 12))) :=
  ⟨pss, 1, psh, 46, by unfold Firmware; decide, by decide +kernel, ⟨(3, 6), by decide, by decide⟩⟩

theorem witness_partitionEvents_2 :
  (∃ (s : State) (part : BitVec 8) (spec : PartSpec),
    ((AMap.find s.parts part.toNat).isSome ∨ (∃ e ∈ s.parts, ∃ c ∈ e.2.spec.clusters ++ e.2.leaving, c ∈ spec.clusters))) :=
  ⟨run (inP (st w0)), 2, { ps with clusters := [14, 47] }, .inr ⟨(1, part1), by decide, 47, by decide, by decide⟩⟩

theorem witness_partitionEvents_1 :
  (∃ (s : State) (part : BitVec 8) (spec : PartSpec) (d : Nat),
    (Firmware s) ∧ ((AMap.find s.parts part.toNat = none) ∧ ((∀ e ∈ s.parts, ∀ c ∈ e.2.spec.clusters ++ e.2.leaving, c ∉ spec.clusters)) ∧ ((∀ e ∈ s.parts, e.2.shards = [])) ∧ (spec.clusters ≠ []) ∧ (spec.clusters.Nodup) ∧ ((∀ c ∈ spec.clusters, c / 12 = d)) ∧ (d < 4))) :=
  ⟨run (cl0 [] [] (inP (st w0))), 2, ps, 1, by unfold Firmware; decide, by decide +kernel⟩

def hds (c : BitVec 64) : State := { vm [] (st w0) with
  parts := [(1, { part1 with spec := { part1.spec with heads := [17] } })],
  dies := [(2, { DieSt.blank with heads := [(1, ⟨0x100, 0x0081000000000000, c, 0x100000, 0x0000000300000009, 0x300, 1, 0x1F8, 129, []⟩)] })] }
def hd1 : Head := ⟨0x100, 0x0081000000000000, 7, 0x100000, 0x0000000300000009, 0x300, 1, 0x1F8, 129, []⟩
theorem witness_displayEvents :
  (∃ (s : State) (die : Nat) (k : BitVec 3),
    ((die < 4) ∧ ((s.head die k.toNat).ctlt.getLsbD 0 = false))) ∧
  (∃ (s : State) (die : Nat) (k : BitVec 3),
    ((die < 4) ∧ ((s.head die k.toNat).ctlt.getLsbD 0 = true))) ∧
  (∃ (s r : State) (die size rows : Nat) (k : BitVec 3) (h : Head),
    ((die < 4) ∧ (h = s.head die k.toNat) ∧ (h.ctlt.getLsbD 0 = true) ∧ (h.ctlt.getLsbD 1 = true)) ∧ (rows = (if h.ctlt.getLsbD 2 then 128 else 64)) ∧ ((h.slice * rows < h.geom.toNat / 2 ^ 48) ∧ (min (h.geom.toNat / 2 ^ 48) ((h.slice + 1) * rows) ≤ h.row)) ∧ (size = 2 ^ (h.obcfg.toNat % 32))) :=
  ⟨⟨hds 6, 2, 1, by decide⟩,
  ⟨hds 7, 2, 1, by decide⟩,
  ⟨hds 7, hds 7, 2, 512, 128, 1, hd1, by decide, rfl, by decide, rfl⟩⟩

def lk (n : Nat) (l : Link) : State := { dc n (st w0) with dies := [(1, { DieSt.blank with links := [(2, l), (0, ⟨.up, 7, 0⟩)], counter := BitVec.ofNat 64 n }), (0, { DieSt.blank with links := [(0, l)] })] }
theorem witness_linkAndPowerEvents_8 :
  (∃ (s : State) (pa d k : Nat),
    ((pa < dramEnd) ∧ (d = pa / 0x9000000000)) ∧ (k = s.stackOf pa) ∧ ((SMap.get (s.die d).retcnt k).toNat < 4096)) :=
  ⟨{ st w0 with dies := [(0, { DieSt.blank with retcnt := [(0, 2)] })], lost := [(9, (1, false))] }, 0x10002A, 0, _, by decide +kernel, rfl, by decide +kernel⟩

theorem witness_linkAndPowerEvents_7 :
  (∃ (s : State) (die : Nat),
    (die < 4)) :=
  ⟨{ st w0 with cores := [(143, { CoreSt.blank with clock := 20 }), (144, { CoreSt.blank with clock := 20 })], fabric := { Fabric.blank with hot := true } }, 0, by decide +kernel⟩

theorem witness_linkAndPowerEvents_6 :
  (∃ (s : State) (die : Nat) (k : BitVec 3) (v : BitVec 64),
    ((die < 4) ∧ (k.toNat < 6))) :=
  ⟨{ st w0 with dies := [(1, { DieSt.blank with cecnt := [(2, 0xFF), (3, 0xFF)] })] }, 1, 2, 0x1200000055, by decide +kernel⟩

theorem witness_linkAndPowerEvents_5 :
  (∃ (s : State) (die j : Nat) (k : BitVec 2) (l : Link),
    ((die < 4) ∧ (j < 3) ∧ (k.toNat = j)) ∧ (l = linkOf s die j) ∧ ((l.mode ≠ .retraining ∨ (s.die die).counter.toNat < l.since + 1000000))) :=
  ⟨lk 1000076 ⟨.retraining, 0, 77⟩, 1, 2, 2, ⟨.retraining, 0, 77⟩, by decide +kernel, rfl, .inr (by decide)⟩

theorem witness_linkAndPowerEvents_4 :
  (∃ (s : State) (die j : Nat) (k : BitVec 2) (l : Link),
    ((die < 4) ∧ (j < 3) ∧ (k.toNat = j)) ∧ (l = linkOf s die j) ∧ ((l.mode = .retraining) ∧ (l.since + 1000000 ≤ (s.die die).counter.toNat))) :=
  ⟨lk 1000077 ⟨.retraining, 0, 77⟩, 1, 2, 2, ⟨.retraining, 0, 77⟩, by decide +kernel, rfl, by decide +kernel⟩

theorem witness_linkAndPowerEvents_3 :
  (∃ (s : State) (die j : Nat) (k : BitVec 2) (l : Link),
    ((die < 4) ∧ (j < 3) ∧ (k.toNat = j)) ∧ (l = linkOf s die j) ∧ (l.mode = .retraining)) :=
  ⟨lk 1000077 ⟨.retraining, 0, 77⟩, 1, 2, 2, ⟨.retraining, 0, 77⟩, by decide +kernel, rfl, by decide +kernel⟩

theorem witness_linkAndPowerEvents_2 :
  (∃ (s : State) (die j : Nat) (k : BitVec 2) (l : Link),
    ((die < 4) ∧ (j < 3) ∧ (k.toNat = j)) ∧ (l = linkOf s die j) ∧ ((l.mode = .up) ∧ (2 ≤ l.retries))) :=
  ⟨lk 77 ⟨.up, 5, 0⟩, 1, 2, 2, ⟨.up, 5, 0⟩, by decide +kernel, rfl, by decide +kernel⟩

theorem witness_linkAndPowerEvents_1 :
  (∃ (s : State) (die j : Nat) (k : BitVec 2) (l : Link),
    ((die < 4) ∧ (j < 3) ∧ (k.toNat = j)) ∧ (l = linkOf s die j) ∧ (l.mode = .up)) :=
  ⟨lk 77 ⟨.up, 5, 0⟩, 1, 2, 2, ⟨.up, 5, 0⟩, by decide +kernel, rfl, by decide +kernel⟩

def bus : State := { st w0 with mem := [(0x100001, 7)], l2 := [(0x100002, (5, true))], eflers := [(3, ⟨9, some 0x4000, [], 0⟩), (5, ⟨8, some 0x4000, [], 0⟩), (7, ⟨7, some 0x4001, [], 0⟩)] }
theorem witness_hostAndHartAccesses_12 :
  (∃ (s : State) (h : Nat) (op : EflerOp),
    (64 ≤ h)) :=
  ⟨bus, 64, .lr 0x100000 true true, by decide +kernel⟩

theorem witness_hostAndHartAccesses_11 :
  (∃ (s : State) (h pa n old : Nat) (wide : Bool) (v : BitVec 64) (a : Bool) (b : Bool) (c : Bool) (d : Bool),
    (h < 64) ∧ (n = (if wide then 8 else 4)) ∧ (Sound s pa n) ∧ ((pa % n = 0) ∧ (old = atHome s pa n))) :=
  ⟨bus, 3, 0x100000, 4, 0x50700, false, 0x1122334455667788, true, true, true, false, by decide +kernel, rfl, ⟨inDram (by decide), by decide, by decide +kernel⟩, by decide +kernel⟩

theorem witness_hostAndHartAccesses_10 :
  (∃ (s : State) (h pa n old : Nat) (wide : Bool) (v : BitVec 64) (rl : Bool),
    (h < 64) ∧ (n = (if wide then 8 else 4)) ∧ (Sound s pa n) ∧ ((pa % n = 0) ∧ (old = atHome s pa n) ∧ ((hartOf s h).resv ≠ some (pa / 64)))) :=
  ⟨bus, 7, 0x100000, 8, 0x50700, true, 5, true, by decide +kernel, rfl, ⟨inDram (by decide), by decide, by decide +kernel⟩, by decide +kernel⟩

theorem witness_hostAndHartAccesses_9 :
  (∃ (s : State) (h pa n old : Nat) (wide : Bool) (v : BitVec 64) (rl : Bool),
    (h < 64) ∧ (n = (if wide then 8 else 4)) ∧ (Sound s pa n) ∧ ((pa % n = 0) ∧ (old = atHome s pa n) ∧ ((hartOf s h).resv = some (pa / 64)))) :=
  ⟨bus, 3, 0x100000, 8, 0x50700, true, 0, true, by decide +kernel, rfl, ⟨inDram (by decide), by decide, by decide +kernel⟩, by decide +kernel⟩

theorem witness_hostAndHartAccesses_8 :
  (∃ (s : State) (h pa n old : Nat) (wide : Bool) (v : BitVec 64) (o : AtomOp) (aq : Bool) (rl : Bool),
    (h < 64) ∧ (n = (if wide then 8 else 4)) ∧ (Sound s pa n) ∧ ((pa % n = 0) ∧ (old = atHome s pa n))) :=
  ⟨bus, 3, 0x100000, 8, 0x50700, true, 0, .add, true, true, by decide +kernel, rfl, ⟨inDram (by decide), by decide, by decide +kernel⟩, by decide +kernel⟩

theorem witness_hostAndHartAccesses_7 :
  (∃ (s : State) (h pa n old : Nat) (wide : Bool) (v : BitVec 64),
    (h < 64) ∧ (n = (if wide then 8 else 4)) ∧ (Sound s pa n) ∧ ((pa % n = 0) ∧ (old = atHome s pa n))) :=
  ⟨bus, 3, 0x100000, 4, 0x50700, false, 0x1122334455667788, by decide +kernel, rfl, ⟨inDram (by decide), by decide, by decide +kernel⟩, by decide +kernel⟩

theorem witness_hostAndHartAccesses_6 :
  (∃ (s : State) (h pa n old : Nat) (wide : Bool) (v : BitVec 64) (aq : Bool),
    (h < 64) ∧ (n = (if wide then 8 else 4)) ∧ (Sound s pa n) ∧ ((pa % n = 0) ∧ (old = atHome s pa n))) :=
  ⟨bus, 3, 0x100000, 8, 0x50700, true, 0, true, by decide +kernel, rfl, ⟨inDram (by decide), by decide, by decide +kernel⟩, by decide +kernel⟩

theorem witness_hostAndHartAccesses_5 :
  (∃ (s : State) (h pa n old : Nat) (wide : Bool) (v : BitVec 64),
    (h < 64) ∧ (n = (if wide then 8 else 4)) ∧ (Sound s pa n) ∧ ((pa % n = 0) ∧ (old = atHome s pa n))) :=
  ⟨bus, 3, 0x100000, 4, 0x50700, false, 0x1122334455667788, by decide +kernel, rfl, ⟨inDram (by decide), by decide, by decide +kernel⟩, by decide +kernel⟩

theorem witness_hostAndHartAccesses_4 :
  (∃ (s : State) (pa n old : Nat) (wide : Bool) (op : HostAtomicOp) (new : Option Nat),
    (n = (if wide then 8 else 4)) ∧ (Sound s pa n) ∧ ((pa % n = 0) ∧ (old = atHome s pa n)) ∧ (new = (match op with
      | .fetchAdd v => some ((old + v.toNat) % 2 ^ (8 * n))
      | .swap v => some (v.toNat % 2 ^ (8 * n))
      | .cas c v => if old = c.toNat % 2 ^ (8 * n) then some (v.toNat % 2 ^ (8 * n)) else none))) :=
  ⟨bus, 0x100000, 4, 0x50700, false, .fetchAdd 0xFFFFFFFFFFFFFFFF, _, rfl, ⟨inDram (by decide), by decide, by decide +kernel⟩, by decide +kernel, rfl⟩

theorem witness_hostAndHartAccesses_3 :
  (∃ (s : State) (pa n : Nat),
    (InDram pa n) ∧ (1 ≤ n)) :=
  ⟨{ st w0 with mem := [(0x100001, 7)], l2 := [(0x100002, (5, true))] }, 0x100000, 3, inDram (by decide), by decide +kernel⟩

theorem witness_hostAndHartAccesses_2 :
  (∃ (s : State) (pa : Nat) (bs : List Byte) (relaxed : Bool),
    ((bs ≠ []) ∧ (dramEnd ≤ pa) ∧ (pa < windowBase))) :=
  ⟨st w0, dramEnd, [5, 0, 9], false, by decide +kernel⟩

theorem witness_hostAndHartAccesses_1 :
  (∃ (s : State) (pa : Nat) (bs : List Byte) (relaxed : Bool),
    (bs ≠ []) ∧ (InDram pa bs.length)) :=
  ⟨{ st w0 with mem := [(0x100001, 7)] }, 0x100000, [5, 0, 9], true, by decide +kernel, inDram (by decide)⟩

def exs : State := { st w0 with mem := [(0x100001, 7)], fabric := { Fabric.blank with exported := [(0x100000, 0x20), (0x100020, 0x20)] }, peers := [(9, ⟨[(1, 1)], true, [(0x22, [])], []⟩)] }
theorem exported (a n : Nat) (h : 0x100000 ≤ a ∧ a + n ≤ 0x100040) : Exported exs a n := fun k hk =>
  if l : a + k < 0x100020 then ⟨(0x100000, 0x20), by decide, by simp; omega, by simp; omega⟩
  else ⟨(0x100020, 0x20), by decide, by simp; omega, by simp; omega⟩
def pfl : Flight := fl (.load 4 .zero (.v 4) .plain .die .dflt) [acc 63 (.mem (0x8000000000000 + 2 ^ 42 * 9 + 0x40)) 0 none]
theorem witness_peerEvents_6 :
  (∃ (s : State) (id : BitVec 9) (w o pa n : Nat) (x : Wave) (f : Flight) (a : LaneAcc) (ext : Extend) (dest : MemDest) (ord : LdOrd) (sco : Scope) (ch : Chan),
    ((s.waves = [(w, x)]) ∧ (x.flights = [(o, f)]) ∧ (f.accs = [a]) ∧ (f.kind = .load n ext dest ord sco ch) ∧ (a.got = none) ∧ (a.loc = .mem (0x8000000000000 + 2 ^ 42 * id.toNat + pa)) ∧ (id.toNat < 432) ∧ (pa < 2 ^ 42) ∧ (a.lane < 64) ∧ (x.stateOf a.lane = .ready))) :=
  ⟨{ exs with waves := [(0, { w0 with flights := [(3, pfl)], nextOp := 4, f := [(1, 1)] })] }, 9, 0, 3, 0x40, 4, { w0 with flights := [(3, pfl)], nextOp := 4, f := [(1, 1)] }, pfl, acc 63 (.mem (0x8000000000000 + 2 ^ 42 * 9 + 0x40)) 0 none, .zero, .v 4, .plain, .die, .dflt, by decide +kernel⟩

theorem witness_peerEvents_5 :
  (∃ (s : State) (id : BitVec 9),
    ((∀ e ∈ s.waves, e.2.flights = []))) :=
  ⟨exs, 9, by decide +kernel⟩

theorem witness_peerEvents_4 :
  (∃ (s : State) (id : BitVec 9) (pa n old : Nat) (wide : Bool) (k : ExtKind) (new : Option Nat),
    (n = (if wide then 8 else 4)) ∧ (Exported s pa n) ∧ (Sound s pa n) ∧ (old = atHome s pa n) ∧ (((∃ op v, k = .atomic wide op v ∧ new = rmwRule (.op op) n old (v.toNat % 2 ^ (8 * n)) 0) ∨ ∃ c v, k = .cas wide c v ∧ new = rmwRule .cas n old (c.toNat % 2 ^ (8 * n)) (v.toNat % 2 ^ (8 * n))))) :=
  ⟨exs, 9, 0x100000, 8, 0x700, true, .atomic true .add 5, some 0x705, rfl, exported _ _ (by decide), ⟨inDram (by decide), by decide, by decide +kernel⟩, by decide +kernel, .inl ⟨.add, 5, rfl, by decide⟩⟩

theorem witness_peerEvents_3 :
  (∃ (s : State) (id : BitVec 9) (pa : Nat) (bs : List Byte),
    (Exported s pa bs.length) ∧ (InDram pa bs.length)) :=
  ⟨exs, 9, 0x10001F, [9, 8], exported _ _ (by decide), inDram (by decide)⟩

theorem witness_peerEvents_2 :
  (∃ (s : State) (id : BitVec 9) (pa n : Nat),
    (Exported s pa n) ∧ (Sound s pa n)) :=
  ⟨exs, 9, 0x10001E, 4, exported _ _ (by decide), ⟨inDram (by decide), by decide, by decide +kernel⟩⟩

theorem witness_peerEvents_1 :
  (∃ (s : State) (r : ExtReq),
    (¬ Exported s r.pa (match r.kind with
      | .read n => n
      | .write bs => bs.length
      | .atomic wide .. => if wide then 8 else 4
      | .cas wide .. => if wide then 8 else 4))) :=
  ⟨exs, ⟨9, 0x10003F, .read 2⟩, fun h => by have := h 1 (by decide); revert this; decide⟩

/-- The manifest of shard context 5 of die 0 at 0x60000: entry 2 fetches "abc" from 0x70000 to 0x80000. -/
def mf (x : Byte) (l : Memory) : Memory := (if x = 0 then [] else [(0x60100, x)]) ++ [(0x60106, 1), (0x6010A, 8), (0x60112, 7), (0x60118, 3)] ++ l
def shs (c : Shard) (m : Memory) : State := { vm m (st w0) with parts := [(1, { part1 with shards := [(3, 4), (0, 5)] })], dies := [(0, { DieSt.blank with irq := 4, shards := [(5, { c with base := 0x60000, count := 3 })] })] }
def shc (l : List (Bool × Nat)) (b : Option Nat) (r : List Byte) : Shard := ⟨0x60000, 3, l, b, r, true⟩
/-- No partition has the shard. -/
def shu : State := { shs (shc [(false, 2), (true, 3)] none []) (mf 3 []) with parts := [] }
def abc : List Byte := [0x61, 0x62, 0x63]
def shz (m : Memory) (f : Memory) : State := { shs (shc [] none []) (f ++ m) with dies := [(0, { DieSt.blank with irq := 4, shards := [(5, ⟨0x60100, 1, [], none, [], true⟩)] })] }
theorem witness_shardEvents_6 :
  (∃ (s : State) (die : Nat),
    (s.fabric.scrubint = 0)) :=
  ⟨{ st w0 with fabric := { Fabric.blank with scrubint := 0 } }, 0, by decide +kernel⟩

theorem witness_shardEvents_5 :
  (∃ (s u : State) (die pa pc : Nat) (k : BitVec 6) (i : BitVec 16) (c : Shard) (rest : List (Bool × Nat)) (bs : List Byte) (good : Bool),
    ((c = s.shard die k.toNat) ∧ (s.manifestPa die k.toNat i.toNat 0 = some pa) ∧ ((s.manifestPa die k.toNat i.toNat 64).isSome)) ∧ (InDram pa 4) ∧ (s.manifestPa die k.toNat i.toNat 4 = some pc) ∧ (InDram pc 4) ∧ ((atHome s pa 4 % 4 = 2) ∧ (s.shardDest die k.toNat i.toNat = some bs)) ∧ (good = decide (digestBytes (sha512 bs) = (List.range 64).map fun j => BitVec.ofNat 8 (s.manifest die k.toNat i.toNat (0x40 + j) 1))) ∧ (((s.die die).shards = [(k.toNat, c)]) ∧ (c.count.toNat = 1) ∧ (i = 0) ∧ (s.fabric.scrubint ≠ 0))) :=
  ⟨shz [(0x80000, 0x61), (0x80001, 0x62), (0x80002, 0x63)] (mf 2 []), st w0, 0, 0x60100, 0x60104, 5, 0, ⟨0x60100, 1, [], none, [], true⟩, [], abc, _, by decide +kernel, inDram (by decide), by decide +kernel, inDram (by decide), by decide +kernel, rfl, by decide +kernel⟩

theorem witness_shardEvents_4 :
  (∃ (s u : State) (die pa pc : Nat) (k : BitVec 6) (i : BitVec 16) (c : Shard) (rest : List (Bool × Nat)) (bs : List Byte) (good : Bool),
    ((c = s.shard die k.toNat) ∧ (s.manifestPa die k.toNat i.toNat 0 = some pa) ∧ ((s.manifestPa die k.toNat i.toNat 64).isSome)) ∧ (InDram pa 4) ∧ (s.manifestPa die k.toNat i.toNat 4 = some pc) ∧ (InDram pc 4) ∧ ((atHome s pa 4 % 4 = 2) ∧ (s.shardDest die k.toNat i.toNat = some bs)) ∧ (good = decide (digestBytes (sha512 bs) = (List.range 64).map fun j => BitVec.ofNat 8 (s.manifest die k.toNat i.toNat (0x40 + j) 1))) ∧ ((s.shardTurn die = some k.toNat) ∧ (c.cmds = (true, i.toNat) :: rest)) ∧ (u = (s.onDie die fun d => { d with shardLast := k.toNat }))) :=
  ⟨shs (shc [(true, 2), (true, 3)] none []) (mf 2 [(0x80000, 0x61), (0x80001, 0x62), (0x80002, 0x63)]), _, 0, 0x60100, 0x60104, 5, 2, shc [(true, 2), (true, 3)] none [], [(true, 3)], abc, _, by decide +kernel, inDram (by decide), by decide +kernel, inDram (by decide), by decide +kernel, rfl, by decide +kernel, rfl⟩

theorem witness_shardEvents_3 :
  (∃ (s : State) (die pa i : Nat) (k : BitVec 6) (c : Shard),
    ((c = s.shard die k.toNat) ∧ (c.busy = some i) ∧ (c.ok = true) ∧ (c.read.length = s.manifest die k.toNat i 0x18 4) ∧ (s.manifestPa die k.toNat i 0 = some pa)) ∧ (InDram pa 4)) :=
  ⟨shs (shc [(true, 3)] (some 2) abc) (mf 1 []), 0, 0x60100, 2, 5, shc [(true, 3)] (some 2) abc, by decide +kernel, inDram (by decide)⟩

theorem witness_shardEvents_2 :
  (∃ (s u : State) (die pa : Nat) (k : BitVec 6) (i : BitVec 16) (c : Shard) (rest : List (Bool × Nat)),
    ((c = s.shard die k.toNat) ∧ (s.shardTurn die = some k.toNat) ∧ (c.cmds = (false, i.toNat) :: rest)) ∧ (u = (s.onDie die fun d => { d with shardLast := k.toNat })) ∧ ((s.manifestPa die k.toNat i.toNat 0 = none ∨ s.manifestPa die k.toNat i.toNat 64 = none))) :=
  ⟨shu, _, 0, 0, 5, 2, shc [(false, 2), (true, 3)] none [], [(true, 3)], by decide +kernel, rfl, .inl (by decide +kernel)⟩

theorem witness_shardEvents_1 :
  (∃ (s u : State) (die pa : Nat) (k : BitVec 6) (i : BitVec 16) (c : Shard) (rest : List (Bool × Nat)),
    ((c = s.shard die k.toNat) ∧ (s.shardTurn die = some k.toNat) ∧ (c.cmds = (false, i.toNat) :: rest)) ∧ (u = (s.onDie die fun d => { d with shardLast := k.toNat })) ∧ ((s.manifestPa die k.toNat i.toNat 0 = some pa) ∧ ((s.manifestPa die k.toNat i.toNat 64).isSome)) ∧ (InDram pa 4)) :=
  ⟨shs (shc [(false, 2), (true, 3)] none []) (mf 3 []), _, 0, 0x60100, 5, 2, shc [(false, 2), (true, 3)] none [], [(true, 3)], by decide +kernel, rfl, by decide +kernel, inDram (by decide)⟩

def fw : FwImage := ⟨[1, 2, 3], 5, 0xFFFFFFFF, 3, 7⟩
def bo (m : BootMode) : State := { st w0 with fabric := { Fabric.blank with boot := m } }
theorem witness_windowRegisters :
  (∃ (s : State) (die : Nat) (off : BitVec 24) (v : BitVec 64),
    ((die < 4) ∧ (off.toNat % 8 = 0))) :=
  ⟨st w0, 0, 0x000000, 0xFFFFFFFFFFFFFFFF, by decide⟩

theorem witness_bootAndFeatures :
  (∃ (s : State) (img : FwImage) (good : Bool),
    (good = (pssVerify img.modulus img.exponent img.signature (sha512 img.body) && ([0, 1, 2, 3].any fun (k : Fin 4) => Config.fusedKeyDigest k == some (sha512 (Config.keyBytes img.modulus img.exponent))) && decide (Config.fusedMinVersion ≤ img.version))) ∧ (s.fabric.boot = .held)) ∧
  (∃ (s : State) (img : FwImage) (good : Bool),
    (good = (pssVerify img.modulus img.exponent img.signature (sha512 img.body) && ([0, 1, 2, 3].any fun (k : Fin 4) => Config.fusedKeyDigest k == some (sha512 (Config.keyBytes img.modulus img.exponent))) && decide (Config.fusedMinVersion ≤ img.version))) ∧ (s.fabric.boot ≠ .held)) ∧
  (∃ (s : State) (img : FwImage) (good : Bool),
    (good = (pssVerify img.modulus img.exponent img.signature (sha512 img.body) && ([0, 1, 2, 3].any fun (k : Fin 4) => Config.fusedKeyDigest k == some (sha512 (Config.keyBytes img.modulus img.exponent))) && decide (Config.fusedMinVersion ≤ img.version))) ∧ (s.fabric.boot = .recovery)) ∧
  (∃ (s : State) (img : FwImage) (good : Bool),
    (good = (pssVerify img.modulus img.exponent img.signature (sha512 img.body) && ([0, 1, 2, 3].any fun (k : Fin 4) => Config.fusedKeyDigest k == some (sha512 (Config.keyBytes img.modulus img.exponent))) && decide (Config.fusedMinVersion ≤ img.version))) ∧ (s.fabric.boot ≠ .recovery)) ∧
  (∃ (i : Instr) (s : State) (via : SpdmPath) (p : BitVec 8),
    ((i ∈ [.getVersion via p, .getCapabilities via p, .negotiateAlgorithms via p, .getDigests via p, .getCertificate via p, .challenge via p, .getMeasurements via p]) ∧ (s.fabric.boot = .held))) ∧
  (∃ (i : Instr) (s : State) (via : SpdmPath) (p : BitVec 8),
    ((i ∈ [.getVersion via p, .getCapabilities via p, .negotiateAlgorithms via p, .getDigests via p, .getCertificate via p, .challenge via p, .getMeasurements via p]) ∧ (s.fabric.boot ≠ .held))) ∧
  (∃ (s : State) (v : BitVec 64),
    (s.fabric.lock = true)) ∧
  (∃ (s : State) (v : BitVec 64),
    (s.fabric.lock = false)) :=
  ⟨⟨bo .held, fw, _, rfl, by decide⟩,
  ⟨bo .recovery, fw, _, rfl, by decide⟩,
  ⟨bo .recovery, fw, _, rfl, by decide⟩,
  ⟨bo .running, fw, _, rfl, by decide⟩,
  ⟨.getVersion .doe 3, bo .held, .doe, 3, by decide⟩,
  ⟨.getMeasurements .mctpSmbus 255, bo .running, .mctpSmbus, 255, by decide⟩,
  ⟨{ st w0 with fabric := { Fabric.blank with lock := true } }, 0x7FF, by decide⟩,
  ⟨st w0, 0x7FF, by decide⟩⟩

/-- The wave at a word of the spec's worked example, `frcp v7, v8`-like, about to issue. -/
def sel : State := { st { w0 with codebase := 0x100000 } with
  mem := [(0x100029, 0x1C), (0x10002A, 0x80), (0x10002C, 0x80), (0x10002D, 3), (0x10002F, 0x30)]
  agenda := [.select 0 0] }
theorem witness_memoryCanonicalKept :
  (∃ (s t : State),
    (s.MemCanonical) ∧ (Sys2Proof.Machine.step s = .next t)) :=
  ⟨{ st w0 with agenda := [.event (.dramPatrol 0)] }, _, by unfold State.MemCanonical; decide, rfl⟩

theorem witness_encodeDecodeRoundTrip :
  (∃ (i : Instr) (r : List Byte),
    ((wellFormed i = true) ∧ (encodeWords i ≠ []))) ∧
  (∃ (i : Instr) (w : BitVec 32),
    (encodeWalk i = some w)) :=
  ⟨⟨.frcp ⟨⟨6, 0, 0⟩, false, 0⟩ 8 7, [1, 2], by decide⟩,
  ⟨.ldn, 0x08000000, rfl⟩⟩

theorem witness_stepRunsChosenWord_3 :
  (∃ (s : State) (k : Nat) (rest : List Action) (y : Ray) (b : Binding) (v : BitVec 32) (i : Instr),
    ((s.agenda = .walk k :: rest) ∧ (AMap.find s.rays k = some y) ∧ (y.binding = some b) ∧ (b.prog[y.upc]? = some v)) ∧ (decodeWalk v = some i) ∧ ((y.out = false) ∧ (y.fetching = false))) :=
  ⟨{ rs id with agenda := [.walk 7] }, 7, [], ry2 id, ⟨lay0, [0x08000000, 0x4A000009, 0, 0x58000000]⟩, 0x08000000, .ldn, by decide +kernel, rfl, by decide +kernel⟩

theorem witness_stepRunsChosenWord_2 :
  (∃ (s : State) (i : Instr) (rest : List Action),
    (s.agenda = .event i :: rest) ∧ ((∀ x j, i ≠ .prefixedPair x j)) ∧ (encodeWords i = []) ∧ (encodeWalk i = none)) :=
  ⟨{ st w0 with agenda := [.event (.dramPatrol 0)] }, .dramPatrol 0, [], by decide +kernel, by intros; nofun, rfl, rfl⟩

theorem witness_stepRunsChosenWord_1 :
  (∃ (s : State) (core quad : Nat) (rest : List Action) (w : Nat) (x : Wave) (run : Lanes) (pc : Word) (u : Words) (i : Instr) (r : List Byte) (s0 : _) (m : _),
    ((s.agenda = .select core quad :: rest) ∧ (core < 576) ∧ (quad < 4)) ∧ (s0 = { s with agenda := rest }) ∧ (MayIssue s0 core quad w x u) ∧ (x.head = some (run, pc)) ∧ (WordsAt s0 w pc u) ∧ (Sys2Proof.decode (u.list.flatMap wordBytes) = .ok (i, r)) ∧ (m = noted s0 core quad w (if u.byHands = true then max 1 ((handsOf run + 3) / 4) else 1) run u) ∧ ((u.active x run = true → (usesFrontEnd i = true → s0.linksSteady = true) ∧ ∀ sco, releaseScope i = some sco → { m with cur := s0.cur }.mayRelease w sco = true))) :=
  ⟨sel, 0, 0, [], 0, { w0 with codebase := 0x100000 }, run0, 5, ⟨0x3000038000801C00, none⟩, .frcp ⟨⟨6, 0, 0⟩, false, 0⟩ 8 7, [], _, _, by decide +kernel, rfl, ⟨rfl, rfl, by simp [sel, st, w0, Wave.blank], by simp [sel, st, w0, Wave.blank], by simp [w0, Wave.blank], rfl, rfl, rfl, rfl, rfl, rfl, by decide, rfl, rfl, by decide, .inl (by decide), by decide, no_some rfl, by decide, by decide, rfl, by decide, by decide, by decide⟩, by decide +kernel, ⟨⟨_, rfl, inDram (by decide), by decide⟩, by rw [if_neg (by decide)]⟩, rfl, rfl, fun _ => ⟨by decide, fun _ h => nomatch (show (none : Option Scope) = some _ from h)⟩⟩

/-! Two runs. -/

/-- The ray and triangle worked out after R302: distance 2, weights 1/4. -/
theorem test_worked_triangle :
    (Ray.triTest (ry fun r => { r with org := [0x3E800000, 0x3E800000, 0xBF800000], tmax := 0x42C80000, hitt := 0x42C80000 })
      fun j a => f32 (([0, 0, 0x3F800000, 0x3F800000, 0, 0x3F800000, 0, 0x3F800000, 0x3F800000] : List Word).getD
        (3 * j + a) 0)).map (fun r => (toF32 r.1, toF32 r.2.1, toF32 r.2.2)) = some (0x40000000, 0x3E800000, 0x3E800000) := by
  decide +kernel
/-- One step of a quadrant runs the word at the wave's PC: the run moves from 5 to 6 (R35, R97). -/
theorem test_step_moves_on :
    (match Sys2Proof.Machine.step sel with
      | .next t => (t.wave 0).pcs
      | _ => []) = [(0, 6), (63, 6)] := by
  decide +kernel

/-! Numbers that meet the hypotheses of the statements about formats: a negative zero, infinities and the largest e4m3
value; and half of a unit, the tie of a rounding. -/

theorem witness_floatBitsRoundTrip :
    (∃ x : Word, (f32 x).isNaN = false) ∧ (∃ b, b < 2 ^ 16 ∧ (fmtF16.decode b).isNaN = false) ∧
      (∃ b, b < 2 ^ 16 ∧ (fmtBf16.decode b).isNaN = false) ∧ (∃ b, b < 2 ^ 8 ∧ (fmtE4m3.decode b).isNaN = false) ∧
      ∃ b, b < 2 ^ 8 ∧ (fmtE5m2.decode b).isNaN = false :=
  ⟨⟨0x80000000, by decide⟩, ⟨0xFC00, by decide⟩, ⟨0xFF80, by decide⟩, ⟨0xFE, by decide⟩, ⟨0x7C, by decide⟩⟩
theorem witness_roundingPicksMultiple :
    ∃ (n d : Nat) (q : Int), 0 < d ∧ (roundSig .rne false n d q).1 = 0 ∧ (roundSig .rna false n d q).1 = 1 :=
  ⟨1, 2, 0, by decide, by decide, by decide⟩

/-! Which bytes a firmware packet names is open (log entry 21); what the statement says of each case can be met. -/

theorem witness_firmware_packet_inside (h : Config.firmwareRanges (pkt fw80).bytes = []) :
    ∃ s2, (after (pq one fw80M) 9).outside (keyPasid 2) (Config.firmwareRanges (pkt fw80).bytes) = (none, s2) ∧
      MayRetire s2 2 (pkt fw80) ∧ Notice.packet 2 ((s2.fq 2).tl.accepted + 1) ∉ s2.notices := by
  rw [h]
  exact ⟨_, rfl, may_retire (((mapped (by decide +kernel)).after 9).stores _ _ rfl (by decide)) (by decide +kernel),
    by decide +kernel⟩
theorem witness_firmware_packet_outside (h : Config.firmwareRanges (pkt fw80).bytes = [(2 ^ 57, 1)]) :
    ∃ a s2, (after (pq one fw80M) 9).outside (keyPasid 2) (Config.firmwareRanges (pkt fw80).bytes) = (some a, s2) := by
  rw [h]
  exact ⟨2 ^ 57, _, by rfl⟩

end Sys2Proof.Tests
end

section
/-!
PROOFS. A word of fixed latency, from its issue to its completion (R39, R166): `fixedWord_result`.
-/

namespace Sys2Proof.Says

open Sys2Proof.Machine

/-! Waves that differ only in what an issue changes. -/

/-- `w` with the fields of `x` that the issue and the completion of a word change. -/
def withIssueOf (w x : Wave) : Wave :=
  { w with pcs := x.pcs, f := x.f, flights := x.flights, nextOp := x.nextOp }

theorem sameButIssue_iff (w x : Wave) : SameButIssue w x ↔ x = withIssueOf w x := by
  constructor
  · intro h
    rw [← show withIssueOf x w = w from h]
    rfl
  · intro h
    rw [h]
    rfl

theorem SameButIssue.trans {w x y : Wave} (h : SameButIssue w x) (h' : SameButIssue x y) : SameButIssue w y := by
  rw [sameButIssue_iff] at h h' ⊢
  rw [h', h]
  rfl

theorem sameButIssue_raiseFlag (w : Wave) (setf : BitVec 4) : SameButIssue w (w.raiseFlag setf) := by
  unfold Wave.raiseFlag
  split <;> rfl

theorem sameButIssue_lowerFlag (w : Wave) (setf : BitVec 4) : SameButIssue w (w.lowerFlag setf) := by
  unfold Wave.lowerFlag
  split <;> rfl

theorem sameButIssue_addFlight (w : Wave) (f : Flight) : SameButIssue w (w.addFlight f) := rfl

theorem sameButIssue_next (w : Wave) (run : Lanes) (pc : Word) : SameButIssue w (w.next run pc) := rfl

theorem SameButIssue.core_eq {w x : Wave} (h : SameButIssue w x) : x.core = w.core := by
  rw [(sameButIssue_iff w x).1 h]
  rfl

theorem SameButIssue.slot_eq {w x : Wave} (h : SameButIssue w x) : x.slot = w.slot := by
  rw [(sameButIssue_iff w x).1 h]
  rfl

theorem wv_withIssueOf (w x : Wave) (r : VReg) (l : Nat) (y : Word) :
    (withIssueOf w x).wv r l y = withIssueOf (w.wv r l y) x := by
  by_cases h : w.launched.getLsbD l = true
  · rw [Wave.wv, Wave.wv, if_pos h, if_pos (show (withIssueOf w x).launched.getLsbD l = true from h)]
    rfl
  · rw [Wave.wv, Wave.wv, if_neg h, if_neg (show ¬(withIssueOf w x).launched.getLsbD l = true from h)]

theorem wm_withIssueOf (w x : Wave) (r : MReg) (y : Lanes) :
    (withIssueOf w x).wm r y = withIssueOf (w.wm r y) x := by
  unfold Wave.wm
  split <;> rfl

theorem wq_withIssueOf (w x : Wave) (r : BitVec 4) (b : Bool) :
    (withIssueOf w x).wq r b = withIssueOf (w.wq r b) x := by
  unfold Wave.wq
  split <;> rfl

theorem putSR_withIssueOf (w x : Wave) (n : Nat) (y : Word) :
    (withIssueOf w x).putSR n y = withIssueOf (w.putSR n y) x := by
  unfold Wave.putSR
  split <;> rfl

/-- A result lands in the same way whatever an issue has changed. -/
theorem land_withIssueOf (w x : Wave) (r : RegWrite) : (withIssueOf w x).land r = withIssueOf (w.land r) x := by
  cases r with
  | v r l y => exact wv_withIssueOf w x r l y
  | m r y => exact wm_withIssueOf w x r y
  | mBit r l b => exact wm_withIssueOf w x r _
  | q r b => exact wq_withIssueOf w x r b
  | sr n y => exact putSR_withIssueOf w x n.toNat y
  | s r y => rfl
  | flags f => rfl
  | send p y => rfl

theorem landAll_withIssueOf (w x : Wave) (ws : List RegWrite) :
    (withIssueOf w x).landAll ws = withIssueOf (w.landAll ws) x := by
  induction ws generalizing w with
  | nil => rfl
  | cons r ws ih =>
    have h : (withIssueOf w x).landAll (r :: ws) = ((withIssueOf w x).land r).landAll ws := rfl
    rw [h, land_withIssueOf, ih]
    rfl

theorem SameButIssue.landAll {w x : Wave} (h : SameButIssue w x) (ws : List RegWrite) :
    SameButIssue (w.landAll ws) (x.landAll ws) := by
  rw [(sameButIssue_iff w x).1 h, landAll_withIssueOf]
  rfl

/-! The life of a fixed-latency word. -/

/-- The operation that a fixed-latency word puts in flight. -/
def fixedFlight (s : State) (c : Ctl) (run : Lanes) (lat : Nat) (ws : List RegWrite) : Flight :=
  ⟨.fixed ((s.core (cw s).core).cycle + lat) (ws.map fun r => (r, (s.core (cw s).core).cycle + lat)), c.h.setf, run, []⟩

/-- The wave after the issue of a word with an operation in flight. -/
def issuedWave (w : Wave) (setf : BitVec 4) (run : Lanes) (pc : Word) (f : Flight) : Wave :=
  ((w.raiseFlag setf).addFlight f).next run pc

/-- The wave after the completion of an operation of fixed latency. -/
def completedWave (w : Wave) (setf : BitVec 4) (op : Nat) (ws : List RegWrite) : Wave :=
  { (w.landAll ws).lowerFlag setf with flights := AMap.del (w.landAll ws).flights op }

@[simp] theorem raiseFlag_nextOp (w : Wave) (setf : BitVec 4) : (w.raiseFlag setf).nextOp = w.nextOp := by
  unfold Wave.raiseFlag
  split <;> rfl

@[simp] theorem raiseFlag_flights (w : Wave) (setf : BitVec 4) : (w.raiseFlag setf).flights = w.flights := by
  unfold Wave.raiseFlag
  split <;> rfl

@[simp] theorem raiseFlag_pcs (w : Wave) (setf : BitVec 4) : (w.raiseFlag setf).pcs = w.pcs := by
  unfold Wave.raiseFlag
  split <;> rfl

@[simp] theorem lowerFlag_pcs (w : Wave) (setf : BitVec 4) : (w.lowerFlag setf).pcs = w.pcs := by
  unfold Wave.lowerFlag
  split <;> rfl

theorem sameButIssue_issuedWave (w : Wave) (setf : BitVec 4) (run : Lanes) (pc : Word) (f : Flight) :
    SameButIssue w (issuedWave w setf run pc f) :=
  ((sameButIssue_raiseFlag w setf).trans (sameButIssue_addFlight _ f)).trans (sameButIssue_next _ run pc)

theorem issuedWave_core (w : Wave) (setf : BitVec 4) (run : Lanes) (pc : Word) (f : Flight) :
    (issuedWave w setf run pc f).core = w.core :=
  (sameButIssue_issuedWave w setf run pc f).core_eq

theorem issuedWave_slot (w : Wave) (setf : BitVec 4) (run : Lanes) (pc : Word) (f : Flight) :
    (issuedWave w setf run pc f).slot = w.slot :=
  (sameButIssue_issuedWave w setf run pc f).slot_eq

theorem issuedWave_flight_self (w : Wave) (setf : BitVec 4) (run : Lanes) (pc : Word) (f : Flight) :
    AMap.find (issuedWave w setf run pc f).flights w.nextOp = some f := by
  have h := Wave.find_addFlight_self (w.raiseFlag setf) f
  rw [raiseFlag_nextOp] at h
  exact h

theorem issuedWave_flight_other (w : Wave) (setf : BitVec 4) (run : Lanes) (pc : Word) (f : Flight) (o : Nat)
    (h : o ≠ w.nextOp) : AMap.find (issuedWave w setf run pc f).flights o = AMap.find w.flights o := by
  have h' := Wave.find_addFlight_other (w.raiseFlag setf) f o (by rwa [raiseFlag_nextOp])
  rw [raiseFlag_flights] at h'
  exact h'

theorem issuedWave_flag (w : Wave) (setf : BitVec 4) (run : Lanes) (pc : Word) (f : Flight) :
    Raises w (issuedWave w setf run pc f) setf :=
  fun i hi => Wave.flag_raiseFlag w setf i hi

theorem issuedWave_moves (w : Wave) (setf : BitVec 4) (run : Lanes) (pc : Word) (f : Flight) :
    Moves w (issuedWave w setf run pc f) run pc := by
  intro l hl
  rw [issuedWave, Wave.pcOf_next]
  simp only [hl, true_and, Wave.pcOf, Wave.addFlight, raiseFlag_pcs]

/-- A completion changes registers as its results land, and what the issue had changed. -/
theorem sameButIssue_completedWave {w x : Wave} (h : SameButIssue w x) (setf : BitVec 4) (op : Nat)
    (ws : List RegWrite) : SameButIssue (w.landAll ws) (completedWave x setf op ws) :=
  ((h.landAll ws).trans (sameButIssue_lowerFlag _ setf)).trans rfl

/-- A completion moves no thread. -/
theorem completedWave_pcs (w : Wave) (setf : BitVec 4) (op : Nat) (ws : List RegWrite) :
    (completedWave w setf op ws).pcs = w.pcs := by
  simp only [completedWave, lowerFlag_pcs, Wave.landAll_frame]

theorem completedWave_flight_other (w : Wave) (setf : BitVec 4) (op : Nat) (ws : List RegWrite) (o : Nat)
    (h : o ≠ op) : AMap.find (completedWave w setf op ws).flights o = AMap.find w.flights o := by
  simp only [completedWave, Wave.landAll_frame, AMap.find_del_other _ _ _ h]

theorem completedWave_flag (w : Wave) (setf : BitVec 4) (op : Nat) (ws : List RegWrite) (i : Nat) (hi : i < 12) :
    (completedWave w setf op ws).flag i = if i = setf.toNat ∧ w.flag i ≠ 0 then w.flag i - 1 else w.flag i := by
  have hf : (w.landAll ws).flag i = w.flag i := by simp only [Wave.flag, Wave.landAll_frame]
  rw [← hf]
  exact Wave.flag_lowerFlag (w.landAll ws) setf i hi

/-- A flag that a word raised below its limit is back where it was when the word completes. -/
theorem completedWave_flag_of_raises {w x : Wave} {setf : BitVec 4} (h : Raises w x setf)
    (hs : setf.toNat ≤ 11 → (w.flag setf.toNat).toNat < 63) (op : Nat) (ws : List RegWrite) (i : Nat) (hi : i < 12) :
    (completedWave x setf op ws).flag i = w.flag i := by
  rw [completedWave_flag x setf op ws i hi, h i hi]
  by_cases e : i = setf.toNat
  · have hlt := hs (by omega)
    rw [← e] at hlt
    have hne : w.flag i + 1 ≠ 0 := by bv_omega
    simp only [e, true_and, if_true] at hne ⊢
    rw [if_pos hne]
    bv_omega
  · simp only [e, false_and, if_false]

/-- The machine after the issue of a fixed-latency word that falls through. -/
def issuedState (s : State) (c : Ctl) (run : Lanes) (pc : Word) (lat : Nat) (ws : List RegWrite) : State :=
  s.onWave s.cur fun w => issuedWave w c.h.setf run pc (fixedFlight s c run lat ws)

/-- The machine after its completion. -/
def completedState (s : State) (c : Ctl) (run : Lanes) (pc : Word) (lat : Nat) (ws : List RegWrite) : State :=
  (later (issuedState s c run pc lat ws) lat).onWave s.cur fun w => completedWave w c.h.setf (cw s).nextOp ws

/-- A fixed-latency word that is not predicated off puts its writes in flight and falls through. -/
theorem fixedWord_issues {s : State} {c : Ctl} {run : Lanes} {pc : Word} {lat : Nat} {writes : Issue → Wave → List RegWrite}
    {ws : List RegWrite} (hr : Runs s c run pc)
    (hw : writes ⟨s.cur, run, pc, (cw s).enabled run c⟩ (cw s) = ws) (hne : ws ≠ []) :
    fixedWord c lat s writes = .next (issuedState s c run (pc + 1) lat ws) := by
  obtain ⟨hhead, hen⟩ := hr
  rw [fixedWord, scalarWord_enabled _ hhead hen, hw, State.fixed_eq _ _ _ _ _ _ (by simp [hne])]
  exact congrArg _ (State.onWave_onWave _ _ _ _)

theorem issuedState_wave (s : State) (c : Ctl) (run : Lanes) (pc : Word) (lat : Nat) (ws : List RegWrite) :
    cw (issuedState s c run pc lat ws) = issuedWave (cw s) c.h.setf run pc (fixedFlight s c run lat ws) :=
  State.wave_onWave s s.cur _

@[simp] theorem later_wave (s : State) (k j : Nat) : (later s k).wave j = s.wave j := rfl

theorem later_cycle (s : State) (k : Nat) : (later s k).coreCycle (cw s) = (s.core (cw s).core).cycle + k :=
  congrArg CoreSt.cycle (State.core_onCore s (cw s).core _)

/-- Before its latency has passed a word of fixed latency does not complete. -/
theorem exec_fixedLatencyComplete_early {t : State} {op due k : Nat} {ps : List (RegWrite × Nat)} {setf : BitVec 4}
    {run : Lanes} (hf : AMap.find (cw t).flights op = some ⟨.fixed due ps, setf, run, []⟩)
    (h : (t.core (cw t).core).cycle + k < due) :
    exec (.fixedLatencyComplete t.cur op) (later t k) = .next (later t k) := by
  show execFixedLatencyComplete t.cur op (later t k) = _
  rw [execFixedLatencyComplete, State.kindOf, later_wave, hf]
  simp only [Option.map_some, later_cycle]
  rw [if_neg (by omega)]

/-- Once it has passed, the word completes. -/
theorem exec_fixedLatencyComplete_due {t : State} {op due k : Nat} {ps : List (RegWrite × Nat)} {setf : BitVec 4}
    {run : Lanes} (hf : AMap.find (cw t).flights op = some ⟨.fixed due ps, setf, run, []⟩)
    (h : due ≤ (t.core (cw t).core).cycle + k) :
    exec (.fixedLatencyComplete t.cur op) (later t k) = .next ((later t k).complete t.cur op) := by
  show execFixedLatencyComplete t.cur op (later t k) = _
  rw [execFixedLatencyComplete, State.kindOf, later_wave, hf]
  simp only [Option.map_some, later_cycle]
  rw [if_pos h]

theorem later_missing (s : State) (k c : Nat) : ((later s k).core c).missing = (s.core c).missing := by
  unfold later
  by_cases h : c = (cw s).core
  · rw [h, State.core_onCore]
  · rw [State.core_onCore_other _ _ _ _ h]

/-- Such a word completes when its latency has passed, and not before. -/
theorem fixedWord_completes {i : Instr} {s : State} {c : Ctl} {run : Lanes} {pc : Word} {lat : Nat}
    {ws : List RegWrite} (hi : exec i s = .next (issuedState s c run pc lat ws)) (hs : Steady s c.h.setf)
    (hne : ws ≠ []) (hp : ∀ r ∈ ws, r.plain = true) :
    Completes i s lat (completedState s c run pc lat ws) := by
  obtain ⟨hslot, hmiss, -⟩ := hs
  have hflight : AMap.find (cw (issuedState s c run pc lat ws)).flights (cw s).nextOp =
      some (fixedFlight s c run lat ws) := by
    rw [issuedState_wave, issuedWave_flight_self]
  have hcore : (cw (issuedState s c run pc lat ws)).core = (cw s).core := by
    rw [issuedState_wave, issuedWave_core]
  have hcycle : ((issuedState s c run pc lat ws).core (cw (issuedState s c run pc lat ws)).core).cycle =
      (s.core (cw s).core).cycle := by
    rw [hcore]
    rfl
  refine ⟨_, hi, fun k hk => ?_, ?_⟩
  · exact exec_fixedLatencyComplete_early hflight (by rw [hcycle]; omega)
  · refine (exec_fixedLatencyComplete_due hflight (Nat.le_of_eq (by rw [hcycle]))).trans (congrArg _ ?_)
    refine State.complete_fixed _ _ _ _ _ _ _ ws hflight hne hp ?_ fun l => ?_
    · rw [later_wave]
      rw [show (issuedState s c run pc lat ws).wave (issuedState s c run pc lat ws).cur = _ from
        issuedState_wave s c run pc lat ws, issuedWave_slot]
      exact hslot
    · rw [later_missing, later_wave, hcore]
      exact hmiss l

theorem completedState_wave (s : State) (c : Ctl) (run : Lanes) (pc : Word) (lat : Nat) (ws : List RegWrite) :
    cw (completedState s c run pc lat ws) = completedWave
      (issuedWave (cw s) c.h.setf run pc (fixedFlight s c run lat ws)) c.h.setf (cw s).nextOp ws :=
  (State.wave_onWave _ s.cur _).trans (congrArg (completedWave · c.h.setf (cw s).nextOp ws)
    (issuedState_wave s c run pc lat ws))

theorem sameButIssue_completedState (s : State) (c : Ctl) (run : Lanes) (pc : Word) (lat : Nat) (ws : List RegWrite) :
    SameButIssue ((cw s).landAll ws) (cw (completedState s c run pc lat ws)) := by
  rw [completedState_wave]
  exact sameButIssue_completedWave (sameButIssue_issuedWave _ _ _ _ _) _ _ _

theorem onlyWave_completedState (s : State) (c : Ctl) (run : Lanes) (pc : Word) (lat : Nat) (ws : List RegWrite) :
    OnlyWave (later s lat) (completedState s c run pc lat ws) s.cur := by
  have hcore : (cw (issuedState s c run pc lat ws)).core = (cw s).core := by
    rw [issuedState_wave, issuedWave_core]
  constructor
  · unfold completedState later
    rw [hcore]
    rfl
  · intro j hj
    rw [completedState, State.wave_onWave_other _ _ _ _ hj, later_wave, issuedState,
      State.wave_onWave_other _ _ _ _ hj, later_wave]

/-- What `g` puts back after the landing is all that the word has changed beside the place of its run. -/
theorem completedState_leaves {s : State} {c : Ctl} (run : Lanes) (pc : Word) (lat : Nat) {ws : List RegWrite}
    (hs : Steady s c.h.setf) {g : Wave → Wave} (hg : ∀ w x, withIssueOf (g w) x = g (withIssueOf w x))
    (hback : g ((cw s).landAll ws) = cw s) :
    Leaves s (completedState s c run pc lat ws) lat run pc g := by
  obtain ⟨-, -, hflag⟩ := hs
  refine ⟨onlyWave_completedState s c run pc lat ws, fun l hl => ?_, fun i hi => ?_, fun o ho => ?_, ?_⟩
  · rw [completedState_wave, Wave.pcOf, completedWave_pcs]
    exact issuedWave_moves _ _ _ _ _ l hl
  · rw [completedState_wave]
    exact completedWave_flag_of_raises (issuedWave_flag _ _ _ _ _) hflag _ _ i hi
  · rw [completedState_wave, completedWave_flight_other _ _ _ _ _ ho, issuedWave_flight_other _ _ _ _ _ _ ho]
  · have hframe : withIssueOf ((cw s).landAll ws) (cw s) = (cw s).landAll ws :=
      (landAll_withIssueOf (cw s) (cw s) ws).symm
    have hland : withIssueOf (cw (completedState s c run pc lat ws)) (cw s) = (cw s).landAll ws := by
      rw [(sameButIssue_iff _ _).1 (sameButIssue_completedState s c run pc lat ws)]
      exact hframe
    show withIssueOf (g _) (cw s) = cw s
    rw [hg, hland, hback]

/-- A word of fixed latency completes with its writes landed, and leaves alone all but what `g` puts back (R39). -/
theorem fixedWord_result {i : Instr} {s : State} {c : Ctl} {run : Lanes} {pc : Word} {lat : Nat}
    {writes : Issue → Wave → List RegWrite} {ws : List RegWrite} {g : Wave → Wave}
    (hi : exec i s = fixedWord c lat s writes) (hr : Runs s c run pc) (hs : Steady s c.h.setf)
    (hw : writes ⟨s.cur, run, pc, (cw s).enabled run c⟩ (cw s) = ws) (hne : ws ≠ [])
    (hp : ∀ r ∈ ws, r.plain = true) (hg : ∀ w x, withIssueOf (g w) x = g (withIssueOf w x))
    (hback : g ((cw s).landAll ws) = cw s) :
    ∃ u, Completes i s lat u ∧ SameButIssue ((cw s).landAll ws) (cw u) ∧ Leaves s u lat run (pc + 1) g :=
  ⟨completedState s c run (pc + 1) lat ws, fixedWord_completes (hi.trans (fixedWord_issues hr hw hne)) hs hne hp,
    sameButIssue_completedState _ _ _ _ _ _, completedState_leaves _ _ _ hs hg hback⟩

end Sys2Proof.Says
end

section
/-!
PROOFS. The condition-bit words, the mask words, and the scalars read from masks and pairs (R47, R48, R112, R114 to R116,
R120, R121).
-/

namespace Sys2Proof.Says
open Sys2Proof.Machine

/-! The lanes of a set. -/

theorem someLane_eq_true (p : Nat → Bool) : someLane p = true ↔ ∃ l < 64, p l = true := by
  simp [someLane]

theorem allLanes_eq_true (p : Nat → Bool) : allLanes p = true ↔ ∀ l < 64, p l = true := by
  simp [allLanes]

theorem getLsbD_not_lane (m : Lanes) (l : Nat) (hl : l < 64) : (~~~m).getLsbD l = !m.getLsbD l := by
  rw [BitVec.getLsbD_not, decide_eq_true hl, Bool.true_and]

theorem lanes_eq_zero_iff (m : Lanes) : m = 0 ↔ ∀ l < 64, m.getLsbD l = false := by
  refine ⟨fun h l _ => by simp [h], fun h => BitVec.eq_of_getLsbD_eq fun l hl => ?_⟩
  simp [h l hl]

theorem lanes_and_ne_zero (m n : Lanes) : (m &&& n != 0) = someLane fun l => n.getLsbD l && m.getLsbD l := by
  rw [Bool.eq_iff_iff, someLane_eq_true, bne_iff_ne, ne_eq, lanes_eq_zero_iff]
  simp [and_comm]

theorem lanes_and_eq_zero (m n : Lanes) : (m &&& n == 0) = allLanes fun l => !n.getLsbD l || !m.getLsbD l := by
  rw [Bool.eq_iff_iff, allLanes_eq_true, beq_iff_eq, lanes_eq_zero_iff]
  refine forall₂_congr fun l _ => ?_
  rw [BitVec.getLsbD_and]
  cases m.getLsbD l <;> cases n.getLsbD l <;> decide

theorem lanes_and_not_eq_zero (m n : Lanes) : (m &&& ~~~n == 0) = allLanes fun l => !m.getLsbD l || n.getLsbD l := by
  rw [Bool.eq_iff_iff, allLanes_eq_true, beq_iff_eq, lanes_eq_zero_iff]
  refine forall₂_congr fun l hl => ?_
  rw [BitVec.getLsbD_and, getLsbD_not_lane n l hl]
  cases m.getLsbD l <;> cases n.getLsbD l <;> decide

theorem laneList_eq_range : laneList = List.range 64 := rfl

theorem lowestLane_eq_find (m : Lanes) : lowestLane m = ((List.range 64).find? fun l => m.getLsbD l).getD 64 := by
  rw [lowestLane, lanesOf, laneList_eq_range, List.headD_eq_head?_getD, List.head?_filter]

theorem getLsbD_laneBit_lowestLane (m : Lanes) (l : Nat) (hl : l < 64) :
    (laneBit (lowestLane m)).getLsbD l = (m.getLsbD l && (List.range l).all fun k => !m.getLsbD k) := by
  rw [lowestLane_eq_find]
  cases h : (List.range 64).find? fun l => m.getLsbD l with
  | none =>
    have hm : m.getLsbD l = false := by simpa using List.find?_eq_none.1 h l (List.mem_range.2 hl)
    rw [hm, Bool.false_and]
    show (0#64).getLsbD l = false
    exact BitVec.getLsbD_zero
  | some k =>
    obtain ⟨hk, hk64, hmin⟩ := List.find?_range_eq_some.1 h
    rw [Option.getD_some, getLsbD_laneBit k l (List.mem_range.1 hk64), Bool.eq_iff_iff]
    simp only [decide_eq_true_eq, Bool.and_eq_true, List.all_eq_true, List.mem_range]
    constructor
    · rintro rfl
      exact ⟨hk, hmin⟩
    · rintro ⟨hml, hall⟩
      rcases Nat.lt_trichotomy k l with hlt | heq | hgt
      · simpa [hk] using hall k hlt
      · exact heq
      · simpa [hml] using hmin l hgt

theorem popcount_eq_countP (n x : Nat) : popcount n x = (List.range n).countP fun k => x.testBit k := by
  induction n generalizing x with
  | zero => rfl
  | succ n ih =>
    rw [popcount, ih, List.range_succ_eq_map, List.countP_cons, List.countP_map]
    have hshift : (fun k => (x / 2).testBit k) = (fun k => x.testBit k) ∘ Nat.succ := by
      funext k
      exact (Nat.testBit_succ x k).symm
    have hlow : x % 2 = if x.testBit 0 = true then 1 else 0 := by
      rw [Nat.testBit_zero]
      rcases Nat.mod_two_eq_zero_or_one x with h | h <;> simp [h]
    rw [hshift, ← hlow, Nat.add_comm]

theorem intCompare_eq_compares (cc : IntCC) (a b : Word) : intCompare cc a b = compares cc a b := by
  cases cc with
  | eq => rfl
  | ne => exact decide_not.symm
  | _ => rfl

/-! Sums of pairs. -/

theorem toNat_append_words (a₁ a₀ : Word) : (a₁ ++ a₀).toNat = 2 ^ 32 * a₁.toNat + a₀.toNat := by
  rw [BitVec.toNat_append, ← Nat.shiftLeft_add_eq_or_of_lt a₀.isLt, Nat.shiftLeft_eq, Nat.mul_comm]

theorem lo32_append_add (a₁ a₀ b₁ b₀ : Word) : lo32 ((a₁ ++ a₀) + (b₁ ++ b₀)) = a₀ + b₀ := by
  apply BitVec.eq_of_toNat_eq
  simp only [lo32, BitVec.extractLsb'_toNat, BitVec.toNat_add, toNat_append_words, Nat.shiftRight_zero]
  omega

/-- The upper words of two pairs add with the carry of the lower ones (R120). -/
theorem hi32_append_add (a₁ a₀ b₁ b₀ : Word) : hi32 ((a₁ ++ a₀) + (b₁ ++ b₀)) =
    a₁ + b₁ + if 2 ^ 32 ≤ a₀.toNat + b₀.toNat then 1 else 0 := by
  apply BitVec.eq_of_toNat_eq
  have hcarry : (if 2 ^ 32 ≤ a₀.toNat + b₀.toNat then 1 else 0 : Word).toNat = (a₀.toNat + b₀.toNat) / 2 ^ 32 := by
    have ha := a₀.isLt
    have hb := b₀.isLt
    split
    · rw [show (1 : Word).toNat = 1 from rfl]
      omega
    · rw [show (0 : Word).toNat = 0 from rfl]
      omega
  simp only [hi32, BitVec.extractLsb'_toNat, BitVec.toNat_add, toNat_append_words, Nat.shiftRight_eq_div_pow, hcarry]
  omega

/-! Condition bits. -/

/-- The condition-bit words write their value of the wave and of the enabled lanes. -/
theorem exec_of_condForm {i : Instr} {c : Ctl} {q : BitVec 4} {lat : Nat} {f : Wave → Lanes → Bool}
    (h : condForm i = some (c, q, lat, f)) (s : State) :
    exec i s = fixedWord c lat s fun x w => [.q q (f w x.en)] := by
  unfold condForm at h
  split at h
  case h_1 c q a =>
    cases h
    show execQany c q a s = _
    simp only [execQany, lanes_and_ne_zero]
  case h_2 c q a =>
    cases h
    show execQall c q a s = _
    simp only [execQall, lanes_and_not_eq_zero]
  case h_3 c q a =>
    cases h
    show execQnone c q a s = _
    simp only [execQnone, lanes_and_eq_zero]
  case h_4 c q cc a b =>
    cases h
    show execQcmp c q cc a b s = _
    simp only [execQcmp, intCompare_eq_compares]
  case h_5 c q cc a n =>
    cases h
    show execQcmpi c q cc a n s = _
    simp only [execQcmpi, intCompare_eq_compares]
  case h_6 c q a b o =>
    cases h
    cases o <;> rfl
  case h_7 => cases h

theorem wq_restore (w : Wave) (q : BitVec 4) (b : Bool) : { w.wq q b with q := w.q } = w := by
  unfold Wave.wq
  split <;> rfl

theorem SameButIssue.rq_eq {w x : Wave} (h : SameButIssue w x) (r : BitVec 4) : x.rq r = w.rq r := by
  rw [(sameButIssue_iff w x).1 h]
  rfl

theorem conditionWordResult : ConditionWordResult := by
  intro i c q lat f s run pc hform hr hs
  have hregs (r : BitVec 4) := Wave.rq_wq (cw s) q r (f (cw s) ((cw s).enabled run c))
  obtain ⟨u, hdone, hsame, hleaves⟩ := fixedWord_result (g := fun x => { x with q := (cw s).q })
    (exec_of_condForm hform s) hr hs rfl (by simp) (by simp [RegWrite.plain]) (fun _ _ => rfl) (wq_restore _ _ _)
  refine ⟨u, hdone, ?_, fun r hne => ?_, hleaves⟩
  · refine (hsame.rq_eq q).trans ((hregs q).trans ?_)
    rw [if_pos rfl]
  · refine (hsame.rq_eq r).trans ((hregs r).trans ?_)
    by_cases h0 : r = 0
    · rw [if_pos h0, h0]
      rfl
    · rw [if_neg h0, if_neg hne]

/-! Masks. -/

theorem eq_maskOf {m : Lanes} {p : Nat → Bool} (h : ∀ l < 64, m.getLsbD l = p l) : m = maskOf p := by
  refine BitVec.eq_of_getLsbD_eq fun l hl => ?_
  rw [getLsbD_maskOf, h l hl, decide_eq_true hl, Bool.true_and]

/-- A pair holds its even register in the lower lanes and the next one in the upper. -/
theorem getLsbD_rsPair (w : Wave) (a : SReg) (l : Nat) : (w.rsPair a).getLsbD l =
    if l < 32 then (SMap.get w.s a.toNat).getLsbD l else (SMap.get w.s (a.toNat + 1)).getLsbD (l - 32) :=
  BitVec.getLsbD_append

/-- A word that writes a mask writes the mask of its bits. -/
theorem fixedWord_mask {c : Ctl} {d : MReg} {s : State} {m : Issue → Wave → Lanes} {p : Issue → Wave → Nat → Bool}
    (h : ∀ x w, ∀ l < 64, (m x w).getLsbD l = p x w l) :
    fixedWord c 2 s (fun x w => [.m d (m x w)]) = fixedWord c 2 s fun x w => [.m d (maskOf (p x w))] := by
  congr 1
  funext x w
  rw [eq_maskOf (h x w)]

/-- The mask words write the mask of their bits. -/
theorem exec_of_maskForm {i : Instr} {c : Ctl} {d : MReg} {f : Wave → Lanes → Nat → Bool}
    (h : maskForm i = some (c, d, f)) (s : State) :
    exec i s = fixedWord c 2 s fun x w => [.m d (maskOf (f w x.en))] := by
  unfold maskForm at h
  split at h
  case h_1 c d a b =>
    cases h
    show execMand c d a b s = _
    exact fixedWord_mask fun x w l _ => BitVec.getLsbD_and
  case h_2 c d a b =>
    cases h
    show execMor c d a b s = _
    exact fixedWord_mask fun x w l _ => BitVec.getLsbD_or
  case h_3 c d a b =>
    cases h
    show execMxor c d a b s = _
    exact fixedWord_mask fun x w l _ => BitVec.getLsbD_xor
  case h_4 c d a b =>
    cases h
    show execMandn c d a b s = _
    exact fixedWord_mask fun x w l hl => by rw [BitVec.getLsbD_and, getLsbD_not_lane _ _ hl]
  case h_5 c d a =>
    cases h
    show execMnot c d a s = _
    exact fixedWord_mask fun x w l hl => getLsbD_not_lane (w.rm a) l hl
  case h_6 c d a =>
    cases h
    show execMfroms c d a s = _
    exact fixedWord_mask fun x w l _ => getLsbD_rsPair w a l
  case h_7 c d =>
    cases h
    show execElect c d s = _
    exact fixedWord_mask fun x w l hl => getLsbD_laneBit_lowestLane x.en l hl
  case h_8 => cases h

theorem wm_restore (w : Wave) (d : MReg) (m : Lanes) : { w.wm d m with m := w.m } = w := by
  unfold Wave.wm
  split <;> rfl

theorem SameButIssue.rm_eq {w x : Wave} (h : SameButIssue w x) (r : MReg) : x.rm r = w.rm r := by
  rw [(sameButIssue_iff w x).1 h]
  rfl

theorem maskWordResult : MaskWordResult := by
  intro i c d f s run pc hform hr hs
  have hregs (r : MReg) := Wave.rm_wm (cw s) d r (maskOf (f (cw s) ((cw s).enabled run c)))
  obtain ⟨u, hdone, hsame, hleaves⟩ := fixedWord_result (g := fun x => { x with m := (cw s).m })
    (exec_of_maskForm hform s) hr hs rfl (by simp) (by simp [RegWrite.plain]) (fun _ _ => rfl) (wm_restore _ _ _)
  refine ⟨u, hdone, fun l hl => ?_, fun r hne => ?_, hleaves⟩
  · rw [(hsame.rm_eq d).trans (hregs d)]
    by_cases h0 : d = 0
    · rw [if_pos h0, if_pos h0, BitVec.getLsbD_allOnes, decide_eq_true hl]
    · rw [if_neg h0, if_neg h0, if_pos rfl, getLsbD_maskOf, decide_eq_true hl, Bool.true_and]
  · refine (hsame.rm_eq r).trans ((hregs r).trans ?_)
    by_cases h0 : r = 0
    · rw [if_pos h0, h0]
      rfl
    · rw [if_neg h0, if_neg hne]

/-! Scalars from masks and pairs. -/

/-- The writes of a scalar and, where there is a second value, of the next one. -/
def oneOrPairWrites (d : SReg) (x : Word) : Option Word → List RegWrite
  | none => [.s d x]
  | some y => [.s d x, .s (d + 1) y]

/-- The words that write scalars from masks or pairs. -/
theorem exec_of_toScalarForm {i : Instr} {c : Ctl} {d : SReg} {f : Wave → Word} {g : Option (Wave → Word)}
    (h : toScalarForm i = some (c, d, f, g)) (s : State) :
    exec i s = fixedWord c 2 s fun _ w => oneOrPairWrites d (f w) (g.map fun y => y w) := by
  unfold toScalarForm at h
  split at h
  case h_1 =>
    cases h
    rfl
  case h_2 c d a =>
    cases h
    show execMpopc c d a s = _
    simp only [execMpopc, popcount_eq_countP]
    rfl
  case h_3 c d a =>
    cases h
    show execMffs c d a s = _
    simp only [execMffs, lowestLane_eq_find]
    rfl
  case h_4 c d a b =>
    cases h
    show execSaddp c d a b s = _
    simp only [execSaddp, pairWrites, Wave.rsPair, lo32_append_add, hi32_append_add]
    rfl
  case h_5 => cases h

theorem SameButIssue.rs_eq {w x : Wave} (h : SameButIssue w x) (r : SReg) : x.rs r = w.rs r := by
  rw [(sameButIssue_iff w x).1 h]
  rfl

theorem sreg_succ_ne (d : SReg) : d + 1 ≠ d := by
  bv_omega

theorem oneOrPairWrites_ne_nil (d : SReg) (x : Word) (y : Option Word) : oneOrPairWrites d x y ≠ [] := by
  cases y <;> exact List.cons_ne_nil _ _

theorem oneOrPairWrites_plain (d : SReg) (x : Word) (y : Option Word) :
    ∀ r ∈ oneOrPairWrites d x y, r.plain = true := by
  cases y <;> simp [oneOrPairWrites, RegWrite.plain]

theorem landAll_oneOrPairWrites_restore (w : Wave) (d : SReg) (x : Word) (y : Option Word) :
    { w.landAll (oneOrPairWrites d x y) with s := w.s } = w := by
  cases y <;> rfl

theorem rs_landAll_oneOrPairWrites (w : Wave) (d : SReg) (x : Word) (y : Option Word) :
    (w.landAll (oneOrPairWrites d x y)).rs d = x := by
  cases y with
  | none => exact Wave.rs_ws_self w d x
  | some z => exact (Wave.rs_ws_other (w.ws d x) d (d + 1) z (sreg_succ_ne d).symm).trans (Wave.rs_ws_self w d x)

theorem rs_succ_landAll_oneOrPairWrites (w : Wave) (d : SReg) (x z : Word) :
    (w.landAll (oneOrPairWrites d x (some z))).rs (d + 1) = z :=
  Wave.rs_ws_self (w.ws d x) (d + 1) z

theorem rs_landAll_oneOrPairWrites_other (w : Wave) (d r : SReg) (x : Word) (y : Option Word) (h : r ≠ d)
    (h' : y = none ∨ r ≠ d + 1) : (w.landAll (oneOrPairWrites d x y)).rs r = w.rs r := by
  cases y with
  | none => exact Wave.rs_ws_other w r d x h
  | some z =>
    have hsucc : r ≠ d + 1 := h'.resolve_left nofun
    exact (Wave.rs_ws_other (w.ws d x) r (d + 1) z hsucc).trans (Wave.rs_ws_other w r d x h)

theorem maskToScalarResult : MaskToScalarResult := by
  intro i c d f g s run pc hform _ hr hs
  obtain ⟨u, hdone, hsame, hleaves⟩ := fixedWord_result (g := fun x => { x with s := (cw s).s })
    (exec_of_toScalarForm hform s) hr hs rfl (oneOrPairWrites_ne_nil _ _ _) (oneOrPairWrites_plain _ _ _)
    (fun _ _ => rfl) (landAll_oneOrPairWrites_restore _ _ _ _)
  refine ⟨u, hdone, ?_, fun h hg => ?_, fun r hne hsnd => ?_, hleaves⟩
  · rw [hsame.rs_eq, rs_landAll_oneOrPairWrites]
  · rw [hsame.rs_eq, hg]
    exact rs_succ_landAll_oneOrPairWrites _ _ _ _
  · rw [hsame.rs_eq]
    exact rs_landAll_oneOrPairWrites_other _ _ _ _ _ hne (hsnd.imp_left fun h => by rw [h]; rfl)

/-- Settles O45: each of these words completes with the writes of its form, by the life of a fixed-latency word. -/
theorem conditionAndMaskResults : Obligations.ConditionAndMaskResults :=
  ⟨conditionWordResult, maskWordResult, maskToScalarResult⟩

end Sys2Proof.Says
end

section
/-!
PROOFS. The scalar words of one result (R97, R98, R119, R120): each runs one operation on two sources, and completes
with its value.
-/

namespace Sys2Proof.Says
open Sys2Proof.Machine

/-! The operations on words. -/

theorem mul_eq_ofInt (x y : Word) : x * y = BitVec.ofInt 32 (x.toInt * y.toInt) := by
  rw [BitVec.ofInt_mul, BitVec.ofInt_toInt, BitVec.ofInt_toInt]

theorem mulHigh_eq (x y : Word) : mulHigh x y = BitVec.ofInt 32 (x.toInt * y.toInt / 2 ^ 32) := by
  apply BitVec.eq_of_toNat_eq
  simp only [mulHigh, BitVec.extractLsb'_toNat, BitVec.toNat_ofInt, Nat.shiftRight_eq_div_pow]
  omega

theorem sdiv_eq_ofInt (x y : Word) : x.sdiv y = BitVec.ofInt 32 (x.toInt.tdiv y.toInt) :=
  BitVec.eq_of_toInt_eq (by rw [BitVec.toInt_sdiv, BitVec.toInt_ofInt])

theorem srem_eq_ofInt (x y : Word) : x.srem y = BitVec.ofInt 32 (x.toInt.tmod y.toInt) := by
  rw [← BitVec.toInt_srem, BitVec.ofInt_toInt]

theorem udiv_eq_ofNat (x y : Word) : x / y = BitVec.ofNat 32 (x.toNat / y.toNat) := by
  rw [← BitVec.toNat_udiv, BitVec.ofNat_toNat, BitVec.setWidth_eq]

theorem umod_eq_ofNat (x y : Word) : x % y = BitVec.ofNat 32 (x.toNat % y.toNat) := by
  rw [← BitVec.toNat_umod, BitVec.ofNat_toNat, BitVec.setWidth_eq]

theorem ushiftRight_eq_ofNat (x : Word) (n : Nat) : x >>> n = BitVec.ofNat 32 (x.toNat / 2 ^ n) := by
  rw [← Nat.shiftRight_eq_div_pow, ← BitVec.toNat_ushiftRight, BitVec.ofNat_toNat, BitVec.setWidth_eq]

theorem sshiftRight_eq_ofInt (x : Word) (n : Nat) : x.sshiftRight n = BitVec.ofInt 32 (x.toInt / 2 ^ n) := by
  rw [BitVec.sshiftRight, Int.shiftRight_eq_div_pow]
  norm_cast

/-- The strict and the weak test of a minimum or maximum choose alike where equal keys belong to equal values. -/
theorem ite_lt_eq_ite_le {α β : Type} [LinearOrder α] {m n : α} {x y : β} (h : m = n → x = y) :
    (if m < n then x else y) = if m ≤ n then x else y := by
  rcases lt_trichotomy m n with hlt | heq | hgt
  · rw [if_pos hlt, if_pos hlt.le]
  · rw [h heq, ite_self, ite_self]
  · rw [if_neg hgt.not_gt, if_neg hgt.not_ge]

theorem smin32_eq (x y : Word) : smin32 x y = if x.toInt ≤ y.toInt then x else y := by
  simp only [smin32, BitVec.slt_iff_toInt_lt]
  exact ite_lt_eq_ite_le BitVec.eq_of_toInt_eq

theorem smax32_eq (x y : Word) : smax32 x y = if x.toInt ≤ y.toInt then y else x := by
  simp only [smax32, BitVec.slt_iff_toInt_lt]
  exact ite_lt_eq_ite_le fun h => (BitVec.eq_of_toInt_eq h).symm

theorem umin32_eq (x y : Word) : umin32 x y = if x.toNat ≤ y.toNat then x else y := by
  simp only [umin32, BitVec.ult_iff_toNat_lt]
  exact ite_lt_eq_ite_le BitVec.eq_of_toNat_eq

theorem umax32_eq (x y : Word) : umax32 x y = if x.toNat ≤ y.toNat then y else x := by
  simp only [umax32, BitVec.ult_iff_toNat_lt]
  exact ite_lt_eq_ite_le fun h => (BitVec.eq_of_toNat_eq h).symm

/-- The first set bit from the top is the one that the logarithm names. -/
theorem clz32_eq_find (x : Word) :
    clz32 x = ((List.range 32).find? fun n => x.getLsbD (31 - n)).getD 32 := by
  by_cases hx : x = 0
  · rw [clz32, if_pos hx, hx, List.find?_eq_none.2 fun n _ => by simp, Option.getD_none]
  · have hne : x.toNat ≠ 0 := fun h => hx (BitVec.eq_of_toNat_eq h)
    have hlog : x.toNat.log2 < 32 := (Nat.log2_lt hne).2 x.isLt
    have hfind : ((List.range 32).find? fun n => x.getLsbD (31 - n)) = some (31 - x.toNat.log2) := by
      refine List.find?_range_eq_some.2 ⟨?_, List.mem_range.2 (by omega), fun n hn => ?_⟩
      · rw [Nat.sub_sub_self (by omega)]
        exact Nat.testBit_log2 hne
      · have hbit : x.toNat.testBit (31 - n) = false :=
          Nat.testBit_lt_two_pow ((Nat.log2_lt hne).1 (by omega))
        simpa [BitVec.getLsbD] using hbit
    rw [clz32, if_neg hx, hfind, Option.getD_some]

theorem bitField_eq_ofNat (x : Word) (len pos : BitVec 5) :
    bitField x len pos = BitVec.ofNat 32 (x.toNat / 2 ^ pos.toNat % 2 ^ (len.toNat + 1)) := by
  have hlen : 2 ^ (len.toNat + 1) ≤ 2 ^ 32 := Nat.pow_le_pow_right (by decide) len.isLt
  apply BitVec.eq_of_toNat_eq
  rw [bitField, BitVec.toNat_and, BitVec.toNat_ushiftRight, BitVec.toNat_ofNat, Nat.mod_eq_of_lt (by omega),
    Nat.and_two_pow_sub_one_eq_mod, Nat.shiftRight_eq_div_pow, BitVec.toNat_ofNat]
  exact (Nat.mod_eq_of_lt ((Nat.mod_lt _ (Nat.two_pow_pos _)).trans_le hlen)).symm

/-- A twenty-bit immediate above the lower bits of a word (R120). -/
theorem setWidth_shiftLeft_or (i : BitVec 20) (old : Word) :
    (i.setWidth 32 <<< 12 ||| old &&& 0xFFF) = BitVec.ofNat 32 (i.toNat * 4096 + old.toNat % 4096) := by
  have hhigh : (i.setWidth 32 <<< 12).toNat = i.toNat <<< 12 := by
    rw [BitVec.toNat_shiftLeft, BitVec.toNat_setWidth, Nat.shiftLeft_eq, Nat.shiftLeft_eq]
    omega
  have hlow : (old &&& 0xFFF).toNat = old.toNat % 2 ^ 12 := Nat.and_two_pow_sub_one_eq_mod old.toNat 12
  have hlt : old.toNat % 2 ^ 12 < 2 ^ 12 := Nat.mod_lt _ (by decide)
  apply BitVec.eq_of_toNat_eq
  rw [BitVec.toNat_or, hhigh, hlow, ← Nat.shiftLeft_add_eq_or_of_lt hlt, Nat.shiftLeft_eq, BitVec.toNat_ofNat]
  omega

theorem setWidth_toNat_mod (i : BitVec 5) : (i.setWidth 32).toNat % 32 = i.toNat := by
  rw [BitVec.toNat_setWidth]
  omega

/-! The sources of a scalar word. -/

theorem srcValue_getD (w : Wave) (srcs : List SSrc) (n : Nat) : w.srcValue (srcs.getD n noSrc) = srcVal w srcs n := by
  rw [List.getD_eq_getElem?_getD, srcVal]
  rcases srcs[n]? with _ | (_ | _) | _ <;> rfl

theorem portOf_getD {srcs : List SSrc} (h : noPorts srcs) (n : Nat) : (srcs.getD n noSrc).portOf = none := by
  rw [List.getD_eq_getElem?_getD]
  match ho : srcs[n]? with
  | none => rfl
  | some (.const _) => rfl
  | some (.op (.s _)) => rfl
  | some (.op (.n p)) => exact absurd rfl (h _ (List.mem_of_getElem? ho) p)

theorem portMisuse_eq_none (w : Wave) (d : SReg) {a b : SSrc} (ha : a.portOf = none) (hb : b.portOf = none) :
    w.portMisuse (.s d) a b = none :=
  match a, b, ha, hb with
  | .op (.s _), .op (.s _), _, _ => rfl
  | .op (.s _), .const _, _, _ => rfl
  | .const _, .op (.s _), _, _ => rfl
  | .const _, .const _, _, _ => rfl

/-- Without a port a scalar word is one of fixed latency, whose only write is its value. -/
theorem scalarAlu_eq_fixedWord (op : SAlu) (c : Ctl) (d : SReg) {a b : SSrc} (ha : a.portOf = none)
    (hb : b.portOf = none) (s : State) : scalarAlu op c (.s d) a b s =
      fixedWord c op.latency s fun _ w => [.s d (op.eval (w.srcValue a) (w.srcValue b) (w.rs d))] := by
  rw [scalarAlu, fixedWord]
  congr 1
  funext x s
  simp only [portMisuse_eq_none _ d ha hb, ha, hb]
  rfl

/-- An instruction is the operation `op` on `a` and `b`, which computes `f` of the sources that its form lists. -/
structure RunsAlu (i : Instr) (c : Ctl) (d : SOp) (srcs : List SSrc) (lat : Nat) (f : Word → Word → Word → Word)
    (op : SAlu) (a b : SSrc) : Prop where
  exec_eq : ∀ s, exec i s = scalarAlu op c d a b s
  latency_eq : op.latency = lat
  portOf_eq_none : noPorts srcs → a.portOf = none ∧ b.portOf = none
  eval_eq : ∀ w old, op.eval (w.srcValue a) (w.srcValue b) old = f (srcVal w srcs 0) (srcVal w srcs 1) old

/-- A word whose form lists the sources of its operation. -/
theorem runsAlu_of_sources {i : Instr} {c : Ctl} {d : SOp} {srcs : List SSrc} {lat : Nat}
    {f : Word → Word → Word → Word} (op : SAlu) (hlat : op.latency = lat)
    (hi : ∀ s, exec i s = scalarAlu op c d (srcs.getD 0 noSrc) (srcs.getD 1 noSrc) s)
    (hf : ∀ x y old, op.eval x y old = f x y old) : ∃ op a b, RunsAlu i c d srcs lat f op a b :=
  ⟨op, _, _, hi, hlat, fun h => ⟨portOf_getD h 0, portOf_getD h 1⟩, fun w old => by
    rw [srcValue_getD, srcValue_getD, hf]⟩

/-- A word whose second operand is an immediate that its form does not list. -/
theorem runsAlu_of_immediate {i : Instr} {c : Ctl} {d : SOp} {srcs : List SSrc} {lat : Nat}
    {f : Word → Word → Word → Word} (op : SAlu) (k : Word) (hlat : op.latency = lat)
    (hi : ∀ s, exec i s = scalarAlu op c d (srcs.getD 0 noSrc) (.const k) s)
    (hf : ∀ x y old, op.eval x k old = f x y old) : ∃ op' a b, RunsAlu i c d srcs lat f op' a b :=
  ⟨op, _, _, hi, hlat, fun h => ⟨portOf_getD h 0, rfl⟩, fun w old => by rw [srcValue_getD]; exact hf _ _ _⟩

/-- Every scalar word of one result runs the operation that its form states (R97, R119, R120, R166). -/
theorem runsAlu_of_scalarForm {i : Instr} {c : Ctl} {d : SOp} {srcs : List SSrc} {lat : Nat}
    {f : Word → Word → Word → Word} (h : scalarForm i = some (c, d, srcs, lat, f)) :
    ∃ op a b, RunsAlu i c d srcs lat f op a b := by
  unfold scalarForm at h
  split at h <;> cases h
  case h_1 => exact runsAlu_of_sources .add rfl (fun _ => rfl) fun _ _ _ => rfl
  case h_2 => exact runsAlu_of_sources .sub rfl (fun _ => rfl) fun _ _ _ => rfl
  case h_3 => exact runsAlu_of_sources .mul rfl (fun _ => rfl) fun x y _ => mul_eq_ofInt x y
  case h_4 => exact runsAlu_of_sources .mulh rfl (fun _ => rfl) fun x y _ => mulHigh_eq x y
  case h_5 => exact runsAlu_of_sources .div rfl (fun _ => rfl) fun x y _ => by rw [← sdiv_eq_ofInt]; rfl
  case h_6 => exact runsAlu_of_sources .divu rfl (fun _ => rfl) fun x y _ => by rw [← udiv_eq_ofNat]; rfl
  case h_7 => exact runsAlu_of_sources .rem rfl (fun _ => rfl) fun x y _ => by rw [← srem_eq_ofInt]; rfl
  case h_8 => exact runsAlu_of_sources .remu rfl (fun _ => rfl) fun x y _ => by rw [← umod_eq_ofNat]; rfl
  case h_9 => exact runsAlu_of_sources .and rfl (fun _ => rfl) fun _ _ _ => rfl
  case h_10 => exact runsAlu_of_sources .or rfl (fun _ => rfl) fun _ _ _ => rfl
  case h_11 => exact runsAlu_of_sources .xor rfl (fun _ => rfl) fun _ _ _ => rfl
  case h_12 => exact runsAlu_of_sources .shl rfl (fun _ => rfl) fun _ _ _ => rfl
  case h_13 => exact runsAlu_of_sources .shr rfl (fun _ => rfl) fun x _ _ => ushiftRight_eq_ofNat x _
  case h_14 => exact runsAlu_of_sources .sra rfl (fun _ => rfl) fun x _ _ => sshiftRight_eq_ofInt x _
  case h_15 => exact runsAlu_of_sources .min rfl (fun _ => rfl) fun x y _ => smin32_eq x y
  case h_16 => exact runsAlu_of_sources .max rfl (fun _ => rfl) fun x y _ => smax32_eq x y
  case h_17 => exact runsAlu_of_sources .minu rfl (fun _ => rfl) fun x y _ => umin32_eq x y
  case h_18 => exact runsAlu_of_sources .maxu rfl (fun _ => rfl) fun x y _ => umax32_eq x y
  case h_19 => exact runsAlu_of_sources .add rfl (fun _ => rfl) fun _ _ _ => rfl
  case h_20 => exact runsAlu_of_sources .and rfl (fun _ => rfl) fun _ _ _ => rfl
  case h_21 => exact runsAlu_of_sources .or rfl (fun _ => rfl) fun _ _ _ => rfl
  case h_22 => exact runsAlu_of_sources .xor rfl (fun _ => rfl) fun _ _ _ => rfl
  case h_23 a i =>
    exact runsAlu_of_immediate .shl (i.setWidth 32) rfl (fun _ => rfl) fun x _ _ => by
      rw [SAlu.eval, shl32, setWidth_toNat_mod]
  case h_24 a i =>
    exact runsAlu_of_immediate .shr (i.setWidth 32) rfl (fun _ => rfl) fun x _ _ => by
      rw [SAlu.eval, shr32, setWidth_toNat_mod, ushiftRight_eq_ofNat]
  case h_25 a i =>
    exact runsAlu_of_immediate .sra (i.setWidth 32) rfl (fun _ => rfl) fun x _ _ => by
      rw [SAlu.eval, sra32, setWidth_toNat_mod, sshiftRight_eq_ofInt]
  case h_26 => exact runsAlu_of_sources .mov rfl (fun _ => rfl) fun _ _ _ => rfl
  case h_27 i =>
    exact ⟨.lui, uimmSrc i, noSrc, fun _ => rfl, rfl, fun _ => ⟨rfl, rfl⟩,
      fun _ old => setWidth_shiftLeft_or i old⟩
  case h_28 => exact runsAlu_of_sources .mov rfl (fun _ => rfl) fun _ _ _ => rfl
  case h_29 =>
    exact runsAlu_of_sources .clz rfl (fun _ => rfl) fun x _ _ => congrArg (BitVec.ofNat 32) (clz32_eq_find x)
  case h_30 =>
    exact runsAlu_of_sources .popc rfl (fun _ => rfl) fun x _ _ =>
      congrArg (BitVec.ofNat 32) (popcount_eq_countP 32 x.toNat)
  case h_31 len pos =>
    exact runsAlu_of_sources (.bfe len pos) rfl (fun _ => rfl) fun x _ _ => bitField_eq_ofNat x len pos

/-- The scalar words that name no port are words of fixed latency. -/
theorem exec_of_scalarForm {i : Instr} {c : Ctl} {d : SReg} {srcs : List SSrc} {lat : Nat}
    {f : Word → Word → Word → Word} (h : scalarForm i = some (c, .s d, srcs, lat, f)) (hp : noPorts srcs)
    (s : State) :
    exec i s = fixedWord c lat s fun _ w => [.s d (f (srcVal w srcs 0) (srcVal w srcs 1) (w.rs d))] := by
  obtain ⟨op, a, b, hexec, rfl, hports, heval⟩ := runsAlu_of_scalarForm h
  obtain ⟨ha, hb⟩ := hports hp
  simp only [hexec, scalarAlu_eq_fixedWord op c d ha hb, heval]

/-- Settles O1: a scalar word completes with the value of its form in its destination, by the life of a fixed-latency
word. -/
theorem scalarWordResult : Obligations.ScalarWordResult := by
  intro i c d srcs lat f s run pc hform hp hr hs
  obtain ⟨u, hdone, hsame, hleaves⟩ := fixedWord_result (g := fun x => { x with s := (cw s).s })
    (exec_of_scalarForm hform hp s) hr hs rfl (by simp) (by simp [RegWrite.plain]) (fun _ _ => rfl) rfl
  exact ⟨u, hdone, (hsame.rs_eq d).trans (Wave.rs_ws_self _ _ _),
    fun r hne => (hsame.rs_eq r).trans (Wave.rs_ws_other _ _ _ _ hne), hleaves⟩

end Sys2Proof.Says
end
